-- ==== Sys2Proof/Word.lean ====
section
/-! DEFINITION. The words of the module and their plainest arithmetic: 32-bit register words (R11), bytes,
and unsigned fields cut out of a number (R5: bit 0 is the least significant bit). -/
namespace Sys2Proof

/-- A register word: 32 bits (R11). -/
abbrev Word := BitVec 32

/-- One byte. -/
abbrev Byte := BitVec 8

/-- Bits `[lo + w - 1 : lo]` of a number, as an unsigned number (R5). -/
def bits (n lo w : Nat) : Nat := n / 2 ^ lo % 2 ^ w

/-- Bit `[i]` of a number. -/
def bit (n i : Nat) : Bool := n.testBit i

/-- A Bool as the number 0 or 1. -/
def b2n (b : Bool) : Nat := if b then 1 else 0

end Sys2Proof
end

