-- ==== Sys2Proof/Syntax.lean ====
section
/-! DEFINITION. The commands of the block: one constructor per row of spec/opcode_table.json, and the operand
data the rows carry. The table gives no operand bits, so the operands are what the row's rule needs from
outside: an HMP message, a written word, a measured value, a received frame or word (assumption 3). -/
namespace Sys2Proof

/-- The ports HMP messages arrive on (R30, R34): the two optical host ports and the management port. -/
inductive HPort where
  | opt0 | opt1 | mgmt
  deriving DecidableEq, Repr

/-- One HMP message as it arrives (R30). `opcode` and `length` are the header's fields and `payload` the bytes the frame really
holds (with the 16-byte tag of R556 at its end on a tagged session). -/
structure Msg where
  port : HPort
  /-- the sender's address, which R551 compares -/
  src : Nat
  version : Nat
  kind : Nat
  opcode : BitVec 16
  seq : BitVec 32
  session : BitVec 32
  length : Nat
  status : BitVec 32
  check : BitVec 32
  payload : List Byte
  deriving DecidableEq, Repr

/-- What the error code of an HBM codeword shows when it is read (R512). -/
inductive Ecc where
  | clean | corrected | uncorrectable
  deriving DecidableEq, Repr

/-- A physical upset: the stored parity of one place no longer fits its data (R8, R72, R100, R155). The second number is
the data as it stands after the upset. -/
inductive Upset where
  | instr (key byte : Nat)     -- (BP × 2048 + entry) × 8 + byte of the entry
  | ds (key byte : Nat)        -- BP × 256 + byte of its data store
  | dict (key entry : Nat)     -- peck × 256 + index
  | emit (key entry : Nat)     -- the emit entry's key
  | hubEmit (key entry : Nat)
  | bank (addr byte : Nat)     -- NoC address of a byte of an on-die bank
  | ram (addr byte : Nat)      -- NoC address of a byte of a local bank or of the channel RAM
  | dcache (core line : Nat)
  | icache (core line : Nat)
  | oldRead (ctl : Nat) (ecc : Ecc)   -- what the next old-codeword read of a controller shows (R225)
  | hbmRead (first second : Ecc)   -- what the next codeword read over the network, and its repetition, show (R516)
  | flit                       -- the next request of the network fails parity at a router (R527)
  | answer                     -- the next response of the network fails parity at a router (R527)
  deriving DecidableEq, Repr

/-- One NoC request (R494): its initiator, address, size in bytes, and the bytes written (none for a read). -/
structure Req where
  master : Nat
  addr : Nat
  size : Nat
  write : Bool
  data : List Byte
  deriving DecidableEq, Repr

/-- The readings of one thermal sample (R641): temperatures of PWR_TEMP0 to 47 in 1/16 °C (none: the sensor
does not exist), inlet in 1/16 °C, stack temperatures in °C, and the input. -/
structure Sensors where
  temps : List (Option Int)
  inlet : Int
  vin10mV : Nat
  iinmA : Nat
  pinDeciW : Nat
  rails : List (Nat × Nat)      -- millivolts and units of 10 mA, rails 0 to 14
  deriving DecidableEq, Repr

/-- The body of a CYCLE token (R367). -/
structure CycleTok where
  cycle : Nat
  stop : Bool
  thr : Nat
  snap : Bool
  snapid : Nat
  rel : Nat
  deriving DecidableEq, Repr

/-- An IEEE 1588 message as the module uses it (R375), with the time stamps in ns. -/
inductive PtpMsg where
  /-- an Announce of the given clock, whose quality vector compares smaller when better -/
  | announce (clock : Nat) (quality : List Nat) (domain : Nat)
  /-- a complete Sync (with its Follow_Up when two-step): t1 sent, t2 received -/
  | sync (clock : Nat) (domain : Nat) (t1 t2 : Int)
  /-- a Delay_Resp: t3 sent here, t4 received there, and the master's logMinDelayReqInterval -/
  | delayResp (clock : Nat) (domain : Nat) (t3 t4 : Int) (logInterval : Int)
  deriving DecidableEq, Repr

/-- A FOLLOW word of the TIME pair (R376) with this end's own receive stamp of its SYNC, in ns and 1/65536 ns. -/
structure FollowWord where
  tseq : Nat
  sec : Nat
  ns : Nat
  frac : Nat
  unc : Bool
  locked : Bool
  rxSec : Nat
  rxNs : Nat
  rxFrac : Nat
  deriving DecidableEq, Repr

/-- What a DETECT poll senses on the 18 lanes of a port (R321, R326): `lost`, a receiver termination on all of them at the poll, and on one
of them none any more at TRAIN entry. -/
inductive Termination where
  | absent
  | sensed
  | lost
  deriving DecidableEq, Repr

/-- What the two ends of a port have reached when TRAIN could end (R322): the skew of each of the 16 data lanes in UI, and the calibration
patterns with READY received in succession. -/
structure Training where
  skews : List Int
  settled : Bool
  ready : Nat
  deriving DecidableEq, Repr

/-- What a clock monitor sees lost (R27): a clock domain by its number in R668, or the step PLL's lock. -/
inductive ClockLost where
  | domain (d : Nat)
  | stepPll
  deriving DecidableEq, Repr

/-- What the cage of a host port shows (R679, R681): a link, and the power that the optical module reports it may draw. -/
structure Optic where
  link : Bool
  milliwatts : Nat
  deriving DecidableEq, Repr

/-- Who gives the scheduler a command, and whether more commands of the same NOCCK cycle follow it (R446, assumption 26). -/
structure TskSender where
  m : Nat
  more : Bool
  deriving DecidableEq, Repr

/-- What the pins show at a sample point of the FB (R607): the cells whose unfiltered level is 1, how many FIOCK periods a cell's pin has
held that level (unlisted: 0), and the cells whose input filter passed 1 before the pin last changed (R599). -/
structure Pins where
  filtered : List Nat
  raw : List Nat
  steady : List (Nat × Nat)
  deriving DecidableEq, Repr

/-- One instruction the owner of the sampling buffer completed (R578). -/
structure Sampled where
  pc : Word
  insn : Word
  addr : Word
  lat : Nat
  load : Bool
  store : Bool
  cached : Bool
  miss : Bool
  exc : Bool
  deriving DecidableEq, Repr

/-- The commands: one constructor per row of spec/opcode_table.json, in the table's order. `m` is the NoC
master of a register access (R494) and `d` the word written; `msg` an HMP message; `n` a core, port, bank or
channel number as the row says. -/
inductive Instr where
  | registerWrite (m addr size : Nat) (d : Word)
  | registerRcRead (m addr size : Nat)
  | inputPowerRise
  | inputPowerLoss
  | coreDomainOff
  | holdupSpent
  | railFault (rail : Nat)
  | clockLoss (dom : ClockLost)
  | stepPllLock
  | mgtIdleFrameSend (hubEnd : Bool)
  | mgtCrossingDown
  | mgtCrossingUp
  | mcPowerCycle
  | streamData (msg : Msg)
  | streamAcknowledge (msg : Msg)
  | streamResend
  | claimTimeout
  | grain (ups : List Upset)
  | hbmReadDataArrive (mem port : Nat) (ecc : Ecc)
  | hbmEccRetry (mem port : Nat) (ecc : Ecc)
  | hbmWriteDrain (ctl count : Nat)
  | hbmRefresh (ctl bank : Nat)
  | hbmTempRead (t0 t1 t2 t3 : BitVec 8)
  | scrubRead (stack offset : Nat) (ecc : Ecc)
  | scrubPassEnd (stack : Nat)
  | sfbClkWrite (m : Nat) (d : Word)
  | holdReqHost (m : Nat) (d : Word)
  | holdReqDebug (m : Nat) (d : Word)
  | holdClearDesign (m : Nat) (d : Word)
  | holdClearTrigger (m : Nat) (d : Word)
  | holdLimitExceeded
  | throttleChange
  | thermalSample (x : Sensors)
  | throttleCoolDown
  | thermalShutdown
  | loadBegin (msg : Msg)
  | loadStaged (msg : Msg)
  | loadAbort (msg : Msg)
  | unload (msg : Msg)
  | stageBegin (msg : Msg)
  | stageDelete (msg : Msg)
  | loadQuery (msg : Msg)
  | loadComplete
  | loadRefuse
  | loadStall
  | stageComplete
  | releaseStage
  | snap (msg : Msg)
  | snapDiscard (msg : Msg)
  | checkpoint (msg : Msg)
  | restoreBegin (msg : Msg)
  | snapQuery (msg : Msg)
  | snpReq (m : Nat) (d : Word)
  | priorityCopy (line : Nat) (bad : Bool)
  | undoBufferGuardClear (ctl : Nat)
  | snapshotKept
  | checkpointStall
  | restoreComplete
  | restoreRefuse
  | restoreStall
  | acqArm (msg : Msg)
  | acqStop (msg : Msg)
  | acqSetload (msg : Msg)
  | tunRead (msg : Msg)
  | acqQuery (msg : Msg)
  | acqCal (msg : Msg)
  | tunFree (msg : Msg)
  | acqCtlArm (m : Nat) (d : Word)
  | acqCtlStop (m : Nat) (d : Word)
  | captureStart
  | seqGoComplete
  | trgAutoFire
  | leagueTriggerApply
  | acqStopCycle
  | calComplete (rs : List (Nat × Int × Int)) (upAlofs : Int)
  | alignWrite (m k : Nat) (d : Word)
  | laneDetectPoll (port : Nat) (term : Termination)
  | trainComplete (port : Nat) (x : Training) (trips : List (Nat × Nat) × List (Nat × Nat))   -- for 64 patterns of each group, round trip and turnaround in eighths of a UI (R323)
  | lockComplete (port : Nat)
  | stageTimeout (port : Nat)
  | laneLost (port : Nat)
  | linkWordIssue (port group : Nat)
  | alignMarkerSend (port group : Nat)
  | linkWordReceive (port group : Nat) (low high : List (List Bool)) (clock : Bool)   -- the bits of the data lanes 0 to 3 and 4 to 7 of the group; its forwarded clock runs
  | lnkRetrain (m port : Nat) (d : Word)
  | lnkEnable (m port : Nat) (d : Word)
  | eyeScanStart (m port : Nat) (d : Word)
  | eyeScanEnd (port errs : Nat)
  | laneErrInterval (port : Nat)
  | lgeForm (msg : Msg)
  | lgeCtlForm (m : Nat) (d : Word)
  | formTokenSend
  | tokenForm (port : Nat) (ready gradebad wrong : BitVec 64)
  | tokenFormed (port h mhz : Nat)
  | tbsyncSend
  | tokenTbsync (port t : Nat)
  | formationTimeout
  | reflock
  | tokenVote (port vseq : Nat) (slots : List (BitVec 32))
  | tokenCycle (port : Nat) (tok : CycleTok)
  | tokenStart (port gs last : Nat)
  | runStart
  | tokenRate (port mhz : Nat)
  | timeSyncSend
  | timeFollow (port : Nat) (f : FollowWord)
  | ptpMessage (hport : Nat) (p : PtpMsg)
  | ptpDelayReq (hport : Nat)
  | timHoldover
  | timSet (msg : Msg)
  | timCtlSet (m : Nat) (d : Word)
  | lgeQuery (msg : Msg)
  | timQuery (msg : Msg)
  -- UC32 (R407, R408): `n` is the core, 16 the management controller; `z` is a field R407 marks as 0
  | ucAdd (n : Nat) (rd ra rb : BitVec 5)
  | ucSub (n : Nat) (rd ra rb : BitVec 5)
  | ucAnd (n : Nat) (rd ra rb : BitVec 5)
  | ucOr (n : Nat) (rd ra rb : BitVec 5)
  | ucXor (n : Nat) (rd ra rb : BitVec 5)
  | ucSll (n : Nat) (rd ra rb : BitVec 5)
  | ucSrl (n : Nat) (rd ra rb : BitVec 5)
  | ucSra (n : Nat) (rd ra rb : BitVec 5)
  | ucSlt (n : Nat) (rd ra rb : BitVec 5)
  | ucSltu (n : Nat) (rd ra rb : BitVec 5)
  | ucMul (n : Nat) (rd ra rb : BitVec 5)
  | ucMulh (n : Nat) (rd ra rb : BitVec 5)
  | ucMulhu (n : Nat) (rd ra rb : BitVec 5)
  | ucDiv (n : Nat) (rd ra rb : BitVec 5)
  | ucDivu (n : Nat) (rd ra rb : BitVec 5)
  | ucRem (n : Nat) (rd ra rb : BitVec 5)
  | ucRemu (n : Nat) (rd ra rb : BitVec 5)
  | ucAddi (n : Nat) (rd ra : BitVec 5) (imm : BitVec 16)
  | ucAndi (n : Nat) (rd ra : BitVec 5) (imm : BitVec 16)
  | ucOri (n : Nat) (rd ra : BitVec 5) (imm : BitVec 16)
  | ucXori (n : Nat) (rd ra : BitVec 5) (imm : BitVec 16)
  | ucSlti (n : Nat) (rd ra : BitVec 5) (imm : BitVec 16)
  | ucSltiu (n : Nat) (rd ra : BitVec 5) (imm : BitVec 16)
  | ucSlli (n : Nat) (rd ra : BitVec 5) (imm : BitVec 16)
  | ucSrli (n : Nat) (rd ra : BitVec 5) (imm : BitVec 16)
  | ucSrai (n : Nat) (rd ra : BitVec 5) (imm : BitVec 16)
  | ucLui (n : Nat) (rd z : BitVec 5) (imm : BitVec 16)
  | ucAuipc (n : Nat) (rd z : BitVec 5) (imm : BitVec 16)
  | ucLb (n : Nat) (rd ra : BitVec 5) (imm : BitVec 16)
  | ucLbu (n : Nat) (rd ra : BitVec 5) (imm : BitVec 16)
  | ucLh (n : Nat) (rd ra : BitVec 5) (imm : BitVec 16)
  | ucLhu (n : Nat) (rd ra : BitVec 5) (imm : BitVec 16)
  | ucLw (n : Nat) (rd ra : BitVec 5) (imm : BitVec 16)
  | ucSb (n : Nat) (rd ra : BitVec 5) (imm : BitVec 16)
  | ucSh (n : Nat) (rd ra : BitVec 5) (imm : BitVec 16)
  | ucSw (n : Nat) (rd ra : BitVec 5) (imm : BitVec 16)
  | ucLl (n : Nat) (rd ra : BitVec 5) (z : BitVec 16)
  | ucSc (n : Nat) (rd ra rb : BitVec 5) (z : BitVec 11)
  | ucBeq (n : Nat) (ra rb : BitVec 5) (off : BitVec 16)
  | ucBne (n : Nat) (ra rb : BitVec 5) (off : BitVec 16)
  | ucBlt (n : Nat) (ra rb : BitVec 5) (off : BitVec 16)
  | ucBge (n : Nat) (ra rb : BitVec 5) (off : BitVec 16)
  | ucBltu (n : Nat) (ra rb : BitVec 5) (off : BitVec 16)
  | ucBgeu (n : Nat) (ra rb : BitVec 5) (off : BitVec 16)
  | ucJal (n : Nat) (off : BitVec 26)
  | ucJalr (n : Nat) (rd ra : BitVec 5) (imm : BitVec 16)
  | ucSyscall (n : Nat) (z : BitVec 15)
  | ucBreak (n : Nat) (z : BitVec 15)
  | ucEret (n : Nat) (z : BitVec 15)
  | ucMret (n : Nat) (z : BitVec 15)
  | ucWfe (n : Nat) (z : BitVec 15)
  | ucFence (n : Nat) (z : BitVec 15)
  | ucMfs (n : Nat) (rd z : BitVec 5) (imm : BitVec 16)
  | ucMts (n : Nat) (z ra : BitVec 5) (imm : BitVec 16)
  | ucIinv (n : Nat) (ra : BitVec 5) (imm : BitVec 16)
  | ucDclean (n : Nat) (ra : BitVec 5) (imm : BitVec 16)
  | ucDinv (n : Nat) (ra : BitVec 5) (imm : BitVec 16)
  | ucDflush (n : Nat) (ra : BitVec 5) (imm : BitVec 16)
  | ucIinvAll (n : Nat) (ra : BitVec 5) (imm : BitVec 16)
  | ucDcleanAll (n : Nat) (ra : BitVec 5) (imm : BitVec 16)
  | ucDinvAll (n : Nat) (ra : BitVec 5) (imm : BitVec 16)
  | ucDflushAll (n : Nat) (ra : BitVec 5) (imm : BitVec 16)
  | interruptEntry (n : Nat)
  | monitorEntry (n : Nat)
  | evtClaim (m n : Nat)
  | evtTest (m : Nat) (d : Word)
  | eventHostMessage (k : Nat)
  | watchdogKick (m n : Nat) (d : Word)
  | wdctlWrite (m n : Nat) (d : Word)
  | watchdogExpiry (n : Nat)
  | tccRunWrite (m n : Nat) (d : Word)
  -- the scheduler's commands: `more` when another command of the scheduler follows in the same NOCCK cycle (R449)
  | tskReady (c : TskSender) (n id : Nat)
  | tskBlock (c : TskSender) (n id flag : Nat) (cons : Bool)
  | tskYield (c : TskSender) (n id : Nat)
  | tskCancel (m n id : Nat) (more : Bool)
  | tskSetpri (c : TskSender) (n id pri : Nat)
  | tskDone (c : TskSender) (n id : Nat)
  | tskDispatch (c : TskSender) (n : Nat)
  | tskModeWrite (m : Nat) (d : Word)
  | poolSubmit (c : TskSender) (n : Nat) (d : Word)
  | flagSet (m n : Nat) (d : Word)
  | channelPublish (n : Nat)
  | chnIndexWrite (m n : Nat) (cons : Bool) (d : Word)
  | spillRefill (n : Nat) (ecc : Ecc)
  | localBankAccess (r : Req)
  | bitSetAlias (m x : Nat) (d : Word)
  | bitClearAlias (m x : Nat) (d : Word)
  | coreDieWindowAccess (r : Req)
  | hbmNocAccess (r : Req) (first second : Ecc)
  | pinImageRead (r : Req)
  | nocResponse (k : Nat)
  | nocTimeout (k : Nat)
  | nocFenceWrite (m t : Nat) (d : Word)
  | fenceDrained (t : Nat)
  | nocRcfgWrite (m r : Nat) (d : Word)
  | routerReady (r : Nat)
  | nocRtWrite (m k e : Nat) (d : Word)
  | hbkBpwrWrite (m b : Nat) (d : Word)
  | bankPowerDone (b : Nat)
  | marchStart (m b : Nat) (d : Word)
  | marchChunkBorrow (b : Nat) (fails : List Nat)
  | marchEnd (b : Nat) (fails : List Nat)
  | hbkRlockWrite (m : Nat) (d : Word)
  | hbkCamCreate (m : Nat) (d : Word)
  | hbkCamFree (m : Nat) (d : Word)
  | camFreeDone
  | sessionOpen (msg : Msg)
  | sessionClose (msg : Msg)
  | sessionTimeout (session : Nat)
  | dbgChallenge (msg : Msg)
  | challengeExpire (session : Nat)
  | dbgAuth (msg : Msg)
  | dbgHalt (msg : Msg)
  | dbgHaltreqWrite (m : Nat) (d : Word)
  | dbgMon (msg : Msg)
  | dbgMemrd (msg : Msg)
  | dbgMemwr (msg : Msg)
  | dbgRunEnd
  | dbgTrcpriv (msg : Msg)
  | dbgHold (msg : Msg)
  | mboxSend (m n : Nat) (d : Word)
  | mboxSent (n : Nat)
  | trcMsgWrite (m : Nat) (d : Word)
  | trcSrcWrite (m n : Nat) (d : Word)
  | trcOutWrite (m : Nat) (d : Word)
  | coreSleep (n : Nat)
  | coreWake (n : Nat)
  | traceSyncEmit (n : Nat)
  | traceOvfEmit
  | pmcWrap (n k : Nat)
  | pmcClear (m : Nat) (d : Word)
  | sampleRecord (x : Sampled)
  | pmcSbfreeWrite (m : Nat) (d : Word)
  | pmcSbenWrite (m n : Nat) (d : Word)
  | dumpNow (m : Nat) (d : Word)
  | dumpDue
  | dumpComplete
  | fioBankWrite (m n : Nat) (d : Word)
  | fioCellWrite (m n : Nat) (d : Word)
  | bankFault (n : Nat)
  | configSend (n : Nat)
  | fieldIdleSend (hubEnd : Bool)
  | fbOut (crcBad : Bool) (pins : Pins)
  | fbPrime (crcBad : Bool) (pins : Pins)
  | fbConfig (crcBad : Bool)
  | fbInert
  | fbResend
  | fbIdle
  | fieldIn (crcBad : Bool)
  | fieldIdleFromFb
  | fieldNak
  | fieldBad
  | fieldTimeout
  | fieldCrossingDown
  | fbWatchdog
  | claim (msg : Msg)
  | unclaim (msg : Msg)
  | modeQuery (msg : Msg)
  | run (msg : Msg)
  | step (msg : Msg)
  | stepBurstEnd
  | stop (msg : Msg)
  | safe (msg : Msg)
  | mgtSafeReq (m : Nat) (d : Word)
  | clear (msg : Msg)
  | discard (msg : Msg)
  | testEnter (msg : Msg)
  | testExit (msg : Msg)
  | power (msg : Msg)
  | sensors (msg : Msg)
  | setRead (msg : Msg)
  | setStage (msg : Msg)
  | setCommit (msg : Msg)
  | settingsCommitDone
  | settingsEraseDone
  | setDrop (msg : Msg)
  | logRead (msg : Msg)
  | updBegin (msg : Msg)
  | updWriteDone
  | updConfirm (msg : Msg)
  | mcRestart (msg : Msg)
  | mcStart
  | mcWatchdogExpiry
  | bootStepDone
  | bootStepTimeout
  | mgtBootDone (m : Nat) (d : Word)
  | mbxDoorWrite (m : Nat) (d : Word)
  | mbxLog
  | mbxSensors
  | mbxSetread
  | logFlush
  | wallTimeToMc
  | bankSupplyGood (n : Nat)
  | hostLinkChange (hport : Nat) (optic : Optic)
  | shadowPlaneDrain (die : Nat) (bad : Bool)
  | acqBufferWrite
  | traceFifoDrain (count : Nat)
  deriving DecidableEq, Repr

end Sys2Proof
end

