-- ==== Sys2Proof/Decode.lean ====
section
/-! DEFINITION. Words that spell commands. spec/opcode_table.json gives no row any bits: the commands come from outside
the block as events and messages, so no word spells one. -/
namespace Sys2Proof

/-- The command a word spells by the bits of spec/opcode_table.json: none, for no row has bits. -/
def decodeTableWord (_nbits _w : Nat) : Option Instr := none

end Sys2Proof
end

