-- ==== Sys2Proof/Machine/Maps.lean ====
section
/-! DEFINITION. Sparse maps and sets in one canonical form (keys strictly rising, no entry equal to what an unlisted
key holds), byte lists, little-endian numbers, and CRC-32 (R9) and CRC-16 (R10). -/
namespace Sys2Proof.Machine

/-- A sparse map: pairs with strictly rising keys; an unlisted key holds the map's default. -/
abbrev SMap (α : Type) := List (Nat × α)

/-- What a map holds at a key. -/
def SMap.get {α : Type} (d : α) : SMap α → Nat → α
  | [], _ => d
  | (k, v) :: r, a => if a = k then v else if a < k then d else SMap.get d r a

/-- A map with one key changed; storing the default removes the entry. -/
def SMap.set {α : Type} [DecidableEq α] (d : α) : SMap α → Nat → α → SMap α
  | [], a, v => if v = d then [] else [(a, v)]
  | (k, w) :: r, a, v =>
    if a = k then (if v = d then r else (a, v) :: r)
    else if a < k then (if v = d then (k, w) :: r else (a, v) :: (k, w) :: r)
    else (k, w) :: SMap.set d r a v

/-- The canonical form: keys strictly rising from `lo`, and no entry equal to the default. -/
def SMap.wfFrom {α : Type} [DecidableEq α] (d : α) : Nat → SMap α → Bool
  | _, [] => true
  | lo, (k, v) :: r => decide (lo ≤ k) && decide (v ≠ d) && SMap.wfFrom d (k + 1) r

/-- A map in canonical form. -/
def SMap.wf {α : Type} [DecidableEq α] (d : α) (m : SMap α) : Bool := SMap.wfFrom d 0 m

/-- A register file: words by NoC address, an unlisted one holding the word of its Reset column (`d a`). -/
def rget (d : Nat → Word) : SMap Word → Nat → Word
  | [], a => d a
  | (k, v) :: r, a => if a = k then v else if a < k then d a else rget d r a

/-- A register file with one word changed; storing the reset word removes the entry. -/
def rset (d : Nat → Word) : SMap Word → Nat → Word → SMap Word
  | [], a, v => if v = d a then [] else [(a, v)]
  | (k, w) :: r, a, v =>
    if a = k then (if v = d a then r else (a, v) :: r)
    else if a < k then (if v = d a then (k, w) :: r else (a, v) :: (k, w) :: r)
    else (k, w) :: rset d r a v

/-- The canonical form of a register file. -/
def rwfFrom (d : Nat → Word) : Nat → SMap Word → Bool
  | _, [] => true
  | lo, (k, v) :: r => decide (lo ≤ k) && decide (v ≠ d k) && rwfFrom d (k + 1) r

/-- A set of numbers: strictly rising. -/
abbrev NSet := List Nat

/-- Put a number into a set. -/
def NSet.ins : NSet → Nat → NSet
  | [], a => [a]
  | k :: r, a => if a = k then k :: r else if a < k then a :: k :: r else k :: NSet.ins r a

/-- Take a number out of a set. -/
def NSet.del (s : NSet) (a : Nat) : NSet := s.filter (· ≠ a)

/-- Whether a number is in a set. -/
def NSet.has (s : NSet) (a : Nat) : Bool := s.contains a

/-- Put into or take out of a set. -/
def NSet.put (s : NSet) (a : Nat) (b : Bool) : NSet := if b then s.ins a else s.del a

/-- Byte `a` of a memory (`Host.Cell`s with strictly rising addresses): a byte nothing has written reads 0. -/
def Mem.read1 : List Host.Cell → Nat → Byte
  | [], _ => 0
  | (k, v) :: r, a => if a = k then v else if a < k then 0 else Mem.read1 r a

/-- A memory with one byte written; writing 0, what an unlisted byte reads as, removes the entry. -/
def Mem.write1 : List Host.Cell → Nat → Byte → List Host.Cell
  | [], a, v => if v = 0 then [] else [(a, v)]
  | (k, w) :: r, a, v =>
    if a = k then (if v = 0 then r else (a, v) :: r)
    else if a < k then (if v = 0 then (k, w) :: r else (a, v) :: (k, w) :: r)
    else (k, w) :: Mem.write1 r a v

/-- The canonical form from an address up. -/
def Mem.wfFrom : Nat → List Host.Cell → Bool
  | _, [] => true
  | lo, (k, v) :: r => decide (lo ≤ k) && decide (v ≠ 0) && Mem.wfFrom (k + 1) r

/-- The canonical form of a memory: addresses strictly rising, no entry equal to what an unlisted byte reads as. -/
def Memory.wf (m : List Host.Cell) : Bool := Mem.wfFrom 0 m

/-- `n` bytes from an address. -/
def Mem.read (m : List Host.Cell) (a n : Nat) : List Byte := (List.range n).map fun i => Mem.read1 m (a + i)

/-- Bytes written from an address up. -/
def Mem.write : List Host.Cell → Nat → List Byte → List Host.Cell
  | m, _, [] => m
  | m, a, b :: r => Mem.write (Mem.write1 m a b) (a + 1) r

/-- Every byte of `[a, a + n)` set to 0, what an unlisted byte reads as. -/
def Mem.clear (m : List Host.Cell) (a n : Nat) : List Host.Cell := m.filter fun c => c.1 < a || a + n ≤ c.1

/-- The number that little-endian bytes spell (R11, R30). -/
def leNat : List Byte → Nat
  | [] => 0
  | b :: r => b.toNat + 256 * leNat r

/-- `n` little-endian bytes of a number. -/
def leBytes : Nat → Nat → List Byte
  | 0, _ => []
  | n + 1, v => BitVec.ofNat 8 v :: leBytes n (v / 256)

/-- `n` bytes of a byte list from a place, short where the list ends. -/
def slice (b : List Byte) (at_ n : Nat) : List Byte := (b.drop at_).take n

/-- The little-endian number in `n` bytes of a byte list. -/
def leAt (b : List Byte) (at_ n : Nat) : Nat := leNat (slice b at_ n)

/-- A byte list with some bytes replaced from a place. -/
def splice (b : List Byte) (at_ : Nat) (x : List Byte) : List Byte := b.take at_ ++ x ++ b.drop (at_ + x.length)

/-- One bit of the reflected CRC-32 (R9). -/
def crcBit (c : Nat) : Nat := if c % 2 = 1 then (c / 2) ^^^ 0xEDB88320 else c / 2

/-- The CRC-32 register after more bytes. -/
def crcReg (c : Nat) (bs : List Byte) : Nat :=
  bs.foldl (fun c b => crcBit (crcBit (crcBit (crcBit (crcBit (crcBit (crcBit (crcBit (c ^^^ b.toNat))))))))) c

/-- CRC-32 under R9: polynomial 0x04C1_1DB7, reflected, initial value and final XOR 0xFFFF_FFFF. -/
def crc32 (bs : List Byte) : Nat := crcReg 0xFFFFFFFF bs ^^^ 0xFFFFFFFF

/-- One byte of CRC-16 under R10. -/
def crc16Byte (c : Nat) (b : Byte) : Nat :=
  (List.range 8).foldl (fun c _ => if c / 0x8000 % 2 = 1 then (2 * c % 0x10000) ^^^ 0x1021 else 2 * c % 0x10000) (c ^^^ (b.toNat * 256))

/-- CRC-16 under R10: polynomial 0x1021, no reflection, initial value 0xFFFF, no final XOR. -/
def crc16 (bs : List Byte) : Nat := bs.foldl crc16Byte 0xFFFF

/-- The number of a sign-extended field: the low `w` bits as two's complement. -/
def sgn (w v : Nat) : Int := if v % 2 ^ w < 2 ^ (w - 1) then (v % 2 ^ w : Nat) else (v % 2 ^ w : Nat) - (2 ^ w : Nat)

/-- The low `w` bits of a two's-complement number. -/
def unsgn (w : Nat) (i : Int) : Nat := (i % (2 ^ w : Nat)).toNat

/-- The smallest number of a list, if it has one. -/
def minNat : List Nat → Option Nat
  | [] => none
  | a :: r => some (r.foldl Nat.min a)

/-- A list of bits as a number, bit 0 first. -/
def bitsNat : List Bool → Nat
  | [] => 0
  | b :: r => (if b then 1 else 0) + 2 * bitsNat r

/-- The 64 bytes of a set of cells: cell n at byte n div 8, bit n mod 8 (R604). -/
def cellBytes (m : NSet) : List Byte :=
  (List.range 64).map fun i => BitVec.ofNat 8 (bitsNat ((List.range 8).map fun j => NSet.has m (8 * i + j)))

/-- The set of cells in the 64 bytes from offset `o` on. -/
def cellsAt (b : List Byte) (o : Nat) : NSet := (List.range 512).filter fun n => bit (leAt b (o + n / 8) 1) (n % 8)

/-- Replace element `i` of a list (a list too short is unchanged). -/
def setAt {α : Type} : List α → Nat → α → List α
  | [], _, _ => []
  | _ :: r, 0, v => v :: r
  | a :: r, i + 1, v => a :: setAt r i v

end Sys2Proof.Machine
end

