-- ==== Sys2Proof/Machine/Sha.lean ====
section
/-! DEFINITION. SHA-256 of FIPS 180-4 with HMAC of RFC 2104 and HKDF of RFC 5869 over it, and X25519 of RFC 7748:
standards that the manual names (assumption 9). -/
namespace Sys2Proof.Machine

/-- The round constants of SHA-256. -/
def shaK : List Nat :=
  [0x428A2F98, 0x71374491, 0xB5C0FBCF, 0xE9B5DBA5, 0x3956C25B, 0x59F111F1, 0x923F82A4, 0xAB1C5ED5,
   0xD807AA98, 0x12835B01, 0x243185BE, 0x550C7DC3, 0x72BE5D74, 0x80DEB1FE, 0x9BDC06A7, 0xC19BF174,
   0xE49B69C1, 0xEFBE4786, 0x0FC19DC6, 0x240CA1CC, 0x2DE92C6F, 0x4A7484AA, 0x5CB0A9DC, 0x76F988DA,
   0x983E5152, 0xA831C66D, 0xB00327C8, 0xBF597FC7, 0xC6E00BF3, 0xD5A79147, 0x06CA6351, 0x14292967,
   0x27B70A85, 0x2E1B2138, 0x4D2C6DFC, 0x53380D13, 0x650A7354, 0x766A0ABB, 0x81C2C92E, 0x92722C85,
   0xA2BFE8A1, 0xA81A664B, 0xC24B8B70, 0xC76C51A3, 0xD192E819, 0xD6990624, 0xF40E3585, 0x106AA070,
   0x19A4C116, 0x1E376C08, 0x2748774C, 0x34B0BCB5, 0x391C0CB3, 0x4ED8AA4A, 0x5B9CCA4F, 0x682E6FF3,
   0x748F82EE, 0x78A5636F, 0x84C87814, 0x8CC70208, 0x90BEFFFA, 0xA4506CEB, 0xBEF9A3F7, 0xC67178F2]

/-- The initial hash value of SHA-256. -/
def shaInit : List Nat := [0x6A09E667, 0xBB67AE85, 0x3C6EF372, 0xA54FF53A, 0x510E527F, 0x9B05688C, 0x1F83D9AB, 0x5BE0CD19]

/-- Rotate a 32-bit number right. -/
def rotr (x n : Nat) : Nat := (x >>> n) ||| (x <<< (32 - n) % 2 ^ 32)

/-- The four functions on one word. -/
def shaS0 (x : Nat) : Nat := rotr x 2 ^^^ rotr x 13 ^^^ rotr x 22
/-- The upper function on e. -/
def shaS1 (x : Nat) : Nat := rotr x 6 ^^^ rotr x 11 ^^^ rotr x 25
/-- The lower functions of the message schedule. -/
def shaT0 (x : Nat) : Nat := rotr x 7 ^^^ rotr x 18 ^^^ (x >>> 3)
/-- The second of them. -/
def shaT1 (x : Nat) : Nat := rotr x 17 ^^^ rotr x 19 ^^^ (x >>> 10)

/-- One word more of the message schedule; the list holds the last 16 words, oldest first. -/
def shaNext (w : List Nat) : Nat :=
  (shaT1 (w.getD 14 0) + w.getD 9 0 + shaT0 (w.getD 1 0) + w.getD 0 0) % 2 ^ 32

/-- One round over the eight working variables with a word and its constant. -/
def shaRound (v : List Nat) (k w : Nat) : List Nat :=
  match v with
  | [a, b, c, d, e, f, g, h] =>
    let t1 := h + shaS1 e + ((e &&& f) ^^^ ((2 ^ 32 - 1 - e) &&& g)) + k + w
    let t2 := shaS0 a + ((a &&& b) ^^^ (a &&& c) ^^^ (b &&& c))
    [(t1 + t2) % 2 ^ 32, a, b, c, (d + t1) % 2 ^ 32, e, f, g]
  | _ => v

/-- The 64 rounds of a block: working variables and the last 16 words of the schedule. -/
def shaRounds : List Nat → List Nat → List Nat → List Nat
  | [], v, _ => v
  | k :: ks, v, w => shaRounds ks (shaRound v k (w.headD 0)) (w.drop 1 ++ [shaNext w])

/-- The big-endian number of bytes. -/
def beNat (b : List Byte) : Nat := b.foldl (fun n x => n * 256 + x.toNat) 0

/-- A block of 64 bytes into the hash value. -/
def shaBlock (h : List Nat) (b : List Byte) : List Nat :=
  let w := (List.range 16).map fun i => beNat (slice b (4 * i) 4)
  List.zipWith (fun x y => (x + y) % 2 ^ 32) h (shaRounds shaK h w)

/-- Blocks of 64 bytes; the first argument bounds their number. -/
def shaBlocks : Nat → List Nat → List Byte → List Nat
  | 0, h, _ => h
  | n + 1, h, b => if b.isEmpty then h else shaBlocks n (shaBlock h (b.take 64)) (b.drop 64)

/-- A message padded to whole blocks. -/
def shaPad (b : List Byte) : List Byte :=
  b ++ [0x80] ++ List.replicate ((119 - b.length % 64) % 64) 0 ++ (leBytes 8 (8 * b.length)).reverse

/-- SHA-256: 32 bytes. -/
def sha256 (b : List Byte) : List Byte :=
  (shaBlocks (b.length / 64 + 2) shaInit (shaPad b)).flatMap fun x => (leBytes 4 x).reverse

/-- HMAC-SHA-256 of a message under a key. -/
def hmac (key msg : List Byte) : List Byte :=
  let k := if 64 < key.length then sha256 key else key
  let k := k ++ List.replicate (64 - k.length) 0
  sha256 (k.map (· ^^^ 0x5C) ++ sha256 (k.map (· ^^^ 0x36) ++ msg))

/-- HKDF-SHA-256 to 32 bytes: input keying material, salt, info. -/
def hkdf (ikm salt info : List Byte) : List Byte :=
  hmac (hmac salt ikm) (info ++ [1])

/-- The prime 2^255 - 19. -/
def curveP : Nat := 2 ^ 255 - 19

/-- A power modulo the prime; the first argument bounds the bits of the exponent. -/
def powP : Nat → Nat → Nat → Nat
  | 0, _, _ => 1
  | n + 1, b, e => (if e % 2 = 1 then b else 1) * powP n (b * b % curveP) (e / 2) % curveP

/-- One step of the Montgomery ladder for the point `u` with the scalar bit `k`: x2, z2, x3, z3 and the last bit. -/
def ladder (u : Nat) (v : Nat × Nat × Nat × Nat × Bool) (k : Bool) : Nat × Nat × Nat × Nat × Bool :=
  let sw := v.2.2.2.2 != k
  let x2 := if sw then v.2.2.1 else v.1
  let z2 := if sw then v.2.2.2.1 else v.2.1
  let x3 := if sw then v.1 else v.2.2.1
  let z3 := if sw then v.2.1 else v.2.2.2.1
  let a := x2 + z2
  let b := x2 + curveP - z2
  let aa := a * a % curveP
  let bb := b * b % curveP
  let e := (aa + curveP - bb) % curveP
  let da := (x3 + curveP - z3) * a % curveP
  let cb := (x3 + z3) * b % curveP
  let x := da + cb
  let y := da + curveP - cb
  (aa * bb % curveP, e * (aa + 121665 * e) % curveP, x * x % curveP, u * (y * y % curveP) % curveP, k)

/-- X25519 of a private key and a point's u coordinate, 32 bytes each. -/
def x25519 (priv point : List Byte) : List Byte :=
  let k := leNat (slice priv 0 32)
  let k := k / 8 * 8 % 2 ^ 254 + 2 ^ 254
  let u := leNat (slice point 0 32) % 2 ^ 255
  let v := (List.range 255).foldl (fun v i => ladder u v (bit k (254 - i))) (1, 0, u, 1, false)
  let x := if v.2.2.2.2 then v.2.2.1 else v.1
  let z := if v.2.2.2.2 then v.2.2.2.1 else v.2.1
  leBytes 32 (x * powP 256 z (curveP - 2) % curveP)

/-- The public key of a private key. -/
def x25519Pub (priv : List Byte) : List Byte := x25519 priv (leBytes 32 9)

end Sys2Proof.Machine
end

