-- ==== Sys2Proof/Config.lean ====
section
/-! DEFINITION. What the manual leaves to an implementation or to chance: opaque constants without a body, so that no
proof can see a value. Each is named in a row of notes/assumptions. -/
namespace Sys2Proof.Config

/-- A free number, one for each value of the state's free counter (assumption 8). -/
opaque freeNat : Nat → Nat

/-- A free bit, one for each value of the state's free counter (assumption 8). -/
opaque freeBit : Nat → Bool

/-- The random source of the debug island (R553): 32 bytes per draw. -/
opaque random : Nat → List Byte

/-- Ed25519 verification of RFC 8032: public key, message, signature (assumption 9). -/
opaque ed25519 : List Byte → List Byte → List Byte → Bool

/-- ML-DSA-65 verification of FIPS 204: public key, message, signature (assumption 9). -/
opaque mldsa65 : List Byte → List Byte → List Byte → Bool

/-- The update public keys in the boot ROM (R660): Ed25519 and ML-DSA-65 (assumption 9). -/
opaque updEd : List Byte
opaque updMl : List Byte

/-- The way of a full cache set that a refill replaces (R417 gives no policy; assumption 10). -/
opaque victim : Nat → Nat

/-- The filtered meanPathDelay after a new value, from the one before if any (R382 names the filter and gives none;
assumption 24). -/
opaque filterDelay : Option Int → Int → Int

/-- The bank of its pseudo channel that a 256-byte block of that channel lies in (not given; assumption 16). -/
opaque hbmBank : Nat → Nat

/-- The NoC address of the acquisition unit's own capture set buffer (not given; assumption 21). -/
opaque ownSet : Nat

/-- How long after its last Announce a 1588 master is still a candidate, in TB_LOCAL counts (the standard's announce receipt timeout,
which R375 takes over and does not give; assumption 24). -/
opaque announceTimeout : Nat

end Sys2Proof.Config
end

