-- ==== Sys2Proof/Machine/Regs.lean ====
section
/-! DEFINITION. The registers of the module: every field of every field table of spec/, named as the manual
names it (`F.<REGISTER>_<FIELD>`), the address of every register (`A.<REGISTER>`), and one row per register with
its access masks and its reset word (R11 to R16, R493). Addresses are NoC addresses: block × 0x1_0000 + offset. -/
namespace Sys2Proof.Machine

/-- A field of a register: the register's NoC address, the lowest bit, and the width. -/
structure Fld where
  addr : Nat
  lo : Nat
  w : Nat
  deriving DecidableEq, Repr

/-- One documented register or array of registers: its first address, up to two strides with their counts, and the
bits of each access code of R14, with the word of the Reset column. -/
structure RegRow where
  base : Nat
  n1 : Nat := 1
  s1 : Nat := 1
  n2 : Nat := 1
  s2 : Nat := 1
  rw : Word := 0
  ro : Word := 0
  w1c : Word := 0
  w1s : Word := 0
  rc : Word := 0
  rst : Word := 0
  deriving DecidableEq, Repr

/-- ARR_PERR_STAT: R77 of 02_boolean_processor.md. -/
abbrev A.ARR_PERR_STAT : Nat := 0x0
abbrev F.ARR_PERR_STAT_VALID : Fld := ⟨A.ARR_PERR_STAT, 31, 1⟩
abbrev F.ARR_PERR_STAT_MORE : Fld := ⟨A.ARR_PERR_STAT, 30, 1⟩
abbrev F.ARR_PERR_STAT_KIND : Fld := ⟨A.ARR_PERR_STAT, 24, 3⟩
abbrev F.ARR_PERR_STAT_BPID : Fld := ⟨A.ARR_PERR_STAT, 0, 18⟩
/-- ARR_PERR_LOC: R78 of 02_boolean_processor.md. -/
abbrev A.ARR_PERR_LOC : Nat := 0x4
abbrev F.ARR_PERR_LOC_ADDR : Fld := ⟨A.ARR_PERR_LOC, 16, 11⟩
abbrev F.ARR_PERR_LOC_STEP : Fld := ⟨A.ARR_PERR_LOC, 0, 11⟩
/-- ARR_ASRT_CTL: R79 of 02_boolean_processor.md. -/
abbrev A.ARR_ASRT_CTL : Nat := 0x10
abbrev F.ARR_ASRT_CTL_HOLD : Fld := ⟨A.ARR_ASRT_CTL, 1, 1⟩
abbrev F.ARR_ASRT_CTL_EVEN : Fld := ⟨A.ARR_ASRT_CTL, 0, 1⟩
/-- ARR_ASRT_STAT: R80 of 02_boolean_processor.md. -/
abbrev A.ARR_ASRT_STAT : Nat := 0x14
abbrev F.ARR_ASRT_STAT_VALID : Fld := ⟨A.ARR_ASRT_STAT, 31, 1⟩
abbrev F.ARR_ASRT_STAT_MORE : Fld := ⟨A.ARR_ASRT_STAT, 30, 1⟩
abbrev F.ARR_ASRT_STAT_BPID : Fld := ⟨A.ARR_ASRT_STAT, 0, 18⟩
/-- ARR_ASRT_STEP: R81 of 02_boolean_processor.md. -/
abbrev A.ARR_ASRT_STEP : Nat := 0x18
abbrev F.ARR_ASRT_STEP_STEP : Fld := ⟨A.ARR_ASRT_STEP, 0, 11⟩
/-- ARR_ASRT_CYCLO: R82 of 02_boolean_processor.md. -/
abbrev A.ARR_ASRT_CYCLO : Nat := 0x1C
abbrev F.ARR_ASRT_CYCLO_CYC : Fld := ⟨A.ARR_ASRT_CYCLO, 0, 32⟩
/-- ARR_ASRT_CYCHI: R83 of 02_boolean_processor.md. -/
abbrev A.ARR_ASRT_CYCHI : Nat := 0x20
abbrev F.ARR_ASRT_CYCHI_CYC : Fld := ⟨A.ARR_ASRT_CYCHI, 0, 32⟩
/-- ARR_ASRT_COUNT: R84 of 02_boolean_processor.md. -/
abbrev A.ARR_ASRT_COUNT : Nat := 0x24
abbrev F.ARR_ASRT_COUNT_COUNT : Fld := ⟨A.ARR_ASRT_COUNT, 0, 32⟩
/-- ARR_HOLDQ_STAT: R85 of 02_boolean_processor.md. -/
abbrev A.ARR_HOLDQ_STAT : Nat := 0x30
abbrev F.ARR_HOLDQ_STAT_VALID : Fld := ⟨A.ARR_HOLDQ_STAT, 31, 1⟩
abbrev F.ARR_HOLDQ_STAT_MORE : Fld := ⟨A.ARR_HOLDQ_STAT, 30, 1⟩
abbrev F.ARR_HOLDQ_STAT_BPID : Fld := ⟨A.ARR_HOLDQ_STAT, 0, 18⟩
/-- ARR_HOLDQ_STEP: R86 of 02_boolean_processor.md. -/
abbrev A.ARR_HOLDQ_STEP : Nat := 0x34
abbrev F.ARR_HOLDQ_STEP_STEP : Fld := ⟨A.ARR_HOLDQ_STEP, 0, 11⟩
/-- ARR_HOLDQ_COUNT: R87 of 02_boolean_processor.md. -/
abbrev A.ARR_HOLDQ_COUNT : Nat := 0x38
abbrev F.ARR_HOLDQ_COUNT_COUNT : Fld := ⟨A.ARR_HOLDQ_COUNT, 0, 32⟩
/-- SFB_SCHED: R116 of 03_step_fabric.md. -/
abbrev A.SFB_SCHED : Nat := 0x10000
abbrev F.SFB_SCHED_L : Fld := ⟨A.SFB_SCHED, 16, 12⟩
abbrev F.SFB_SCHED_S : Fld := ⟨A.SFB_SCHED, 0, 9⟩
/-- SFB_HORIZON: R117 of 03_step_fabric.md. -/
abbrev A.SFB_HORIZON : Nat := 0x10004
abbrev F.SFB_HORIZON_IMGH : Fld := ⟨A.SFB_HORIZON, 16, 16⟩
abbrev F.SFB_HORIZON_H : Fld := ⟨A.SFB_HORIZON, 0, 16⟩
/-- SFB_CLK: R118 of 03_step_fabric.md. -/
abbrev A.SFB_CLK : Nat := 0x10008
abbrev F.SFB_CLK_LOCK : Fld := ⟨A.SFB_CLK, 31, 1⟩
abbrev F.SFB_CLK_ERR : Fld := ⟨A.SFB_CLK, 24, 3⟩
abbrev F.SFB_CLK_MHZ : Fld := ⟨A.SFB_CLK, 0, 12⟩
/-- SFB_THR: R119 of 03_step_fabric.md. -/
abbrev A.SFB_THR : Nat := 0x1000C
abbrev F.SFB_THR_CUR : Fld := ⟨A.SFB_THR, 24, 4⟩
abbrev F.SFB_THR_LEAGUE : Fld := ⟨A.SFB_THR, 16, 4⟩
abbrev F.SFB_THR_HWREQ : Fld := ⟨A.SFB_THR, 8, 4⟩
abbrev F.SFB_THR_REQ : Fld := ⟨A.SFB_THR, 0, 4⟩
/-- SFB_POS: R120 of 03_step_fabric.md. -/
abbrev A.SFB_POS : Nat := 0x10010
abbrev F.SFB_POS_HELD : Fld := ⟨A.SFB_POS, 31, 1⟩
abbrev F.SFB_POS_POS : Fld := ⟨A.SFB_POS, 0, 12⟩
/-- SFB_HOLD_REQ: R121 of 03_step_fabric.md. -/
abbrev A.SFB_HOLD_REQ : Nat := 0x10014
abbrev F.SFB_HOLD_REQ_DEBUG : Fld := ⟨A.SFB_HOLD_REQ, 1, 1⟩
abbrev F.SFB_HOLD_REQ_HOST : Fld := ⟨A.SFB_HOLD_REQ, 0, 1⟩
/-- SFB_HOLD_STAT: R122 of 03_step_fabric.md. -/
abbrev A.SFB_HOLD_STAT : Nat := 0x10018
abbrev F.SFB_HOLD_STAT_INEFF : Fld := ⟨A.SFB_HOLD_STAT, 31, 1⟩
abbrev F.SFB_HOLD_STAT_FAULT : Fld := ⟨A.SFB_HOLD_STAT, 10, 1⟩
abbrev F.SFB_HOLD_STAT_REMOTE : Fld := ⟨A.SFB_HOLD_STAT, 9, 1⟩
abbrev F.SFB_HOLD_STAT_SNAPSHOT : Fld := ⟨A.SFB_HOLD_STAT, 8, 1⟩
abbrev F.SFB_HOLD_STAT_DEBUG : Fld := ⟨A.SFB_HOLD_STAT, 7, 1⟩
abbrev F.SFB_HOLD_STAT_HOST : Fld := ⟨A.SFB_HOLD_STAT, 6, 1⟩
abbrev F.SFB_HOLD_STAT_TRIGGER : Fld := ⟨A.SFB_HOLD_STAT, 5, 1⟩
abbrev F.SFB_HOLD_STAT_FIELD : Fld := ⟨A.SFB_HOLD_STAT, 4, 1⟩
abbrev F.SFB_HOLD_STAT_CHANNEL : Fld := ⟨A.SFB_HOLD_STAT, 3, 1⟩
abbrev F.SFB_HOLD_STAT_LANE : Fld := ⟨A.SFB_HOLD_STAT, 2, 1⟩
abbrev F.SFB_HOLD_STAT_HBM : Fld := ⟨A.SFB_HOLD_STAT, 1, 1⟩
abbrev F.SFB_HOLD_STAT_DESIGN : Fld := ⟨A.SFB_HOLD_STAT, 0, 1⟩
/-- SFB_HOLD_LIMIT: R123 of 03_step_fabric.md. -/
abbrev A.SFB_HOLD_LIMIT : Nat := 0x1001C
abbrev F.SFB_HOLD_LIMIT_US : Fld := ⟨A.SFB_HOLD_LIMIT, 0, 24⟩
/-- SFB_HOLD_TOTLO: R124 of 03_step_fabric.md. -/
abbrev A.SFB_HOLD_TOTLO : Nat := 0x10020
abbrev F.SFB_HOLD_TOTLO_CNT : Fld := ⟨A.SFB_HOLD_TOTLO, 0, 32⟩
/-- SFB_HOLD_TOTHI: R125 of 03_step_fabric.md. -/
abbrev A.SFB_HOLD_TOTHI : Nat := 0x10024
abbrev F.SFB_HOLD_TOTHI_CNT : Fld := ⟨A.SFB_HOLD_TOTHI, 0, 32⟩
/-- SFB_HOLD_COUNT: R126 of 03_step_fabric.md. -/
abbrev A.SFB_HOLD_COUNT : Nat := 0x10028
abbrev F.SFB_HOLD_COUNT_CNT : Fld := ⟨A.SFB_HOLD_COUNT, 0, 32⟩
/-- SFB_RERR_STAT: R127 of 03_step_fabric.md. -/
abbrev A.SFB_RERR_STAT : Nat := 0x10030
abbrev F.SFB_RERR_STAT_VALID : Fld := ⟨A.SFB_RERR_STAT, 31, 1⟩
abbrev F.SFB_RERR_STAT_MORE : Fld := ⟨A.SFB_RERR_STAT, 30, 1⟩
abbrev F.SFB_RERR_STAT_CONT : Fld := ⟨A.SFB_RERR_STAT, 29, 1⟩
abbrev F.SFB_RERR_STAT_KIND : Fld := ⟨A.SFB_RERR_STAT, 24, 2⟩
abbrev F.SFB_RERR_STAT_DIE : Fld := ⟨A.SFB_RERR_STAT, 20, 3⟩
abbrev F.SFB_RERR_STAT_BUSHEL : Fld := ⟨A.SFB_RERR_STAT, 10, 5⟩
/-- SFB_RERR_LOC: R128 of 03_step_fabric.md. -/
abbrev A.SFB_RERR_LOC : Nat := 0x10034
abbrev F.SFB_RERR_LOC_STEP : Fld := ⟨A.SFB_RERR_LOC, 16, 11⟩
abbrev F.SFB_RERR_LOC_LINE : Fld := ⟨A.SFB_RERR_LOC, 0, 16⟩
/-- SFB_HCNTLO: R129 of 03_step_fabric.md. -/
abbrev A.SFB_HCNTLO (i : Nat) : Nat := 0x10100 + 8 * i
abbrev F.SFB_HCNTLO_CNT (i : Nat) : Fld := ⟨(A.SFB_HCNTLO i), 0, 32⟩
/-- SFB_HCNTHI: R130 of 03_step_fabric.md. -/
abbrev A.SFB_HCNTHI (i : Nat) : Nat := 0x10104 + 8 * i
abbrev F.SFB_HCNTHI_CNT (i : Nat) : Fld := ⟨(A.SFB_HCNTHI i), 0, 32⟩
/-- DMC_CTL: R162 of 04_design_memory.md. -/
abbrev A.DMC_CTL : Nat := 0x20000
abbrev F.DMC_CTL_OVREV : Fld := ⟨A.DMC_CTL, 3, 1⟩
abbrev F.DMC_CTL_RANGEEV : Fld := ⟨A.DMC_CTL, 2, 1⟩
abbrev F.DMC_CTL_COLLEV : Fld := ⟨A.DMC_CTL, 1, 1⟩
abbrev F.DMC_CTL_CEEV : Fld := ⟨A.DMC_CTL, 0, 1⟩
/-- DMC_STAT: R163 of 04_design_memory.md. -/
abbrev A.DMC_STAT : Nat := 0x20004
abbrev F.DMC_STAT_THDR : Fld := ⟨A.DMC_STAT, 8, 4⟩
abbrev F.DMC_STAT_WQG : Fld := ⟨A.DMC_STAT, 0, 4⟩
/-- DMC_PERR_STAT: R164 of 04_design_memory.md. -/
abbrev A.DMC_PERR_STAT : Nat := 0x20010
abbrev F.DMC_PERR_STAT_VALID : Fld := ⟨A.DMC_PERR_STAT, 31, 1⟩
abbrev F.DMC_PERR_STAT_MORE : Fld := ⟨A.DMC_PERR_STAT, 30, 1⟩
abbrev F.DMC_PERR_STAT_KIND : Fld := ⟨A.DMC_PERR_STAT, 24, 2⟩
abbrev F.DMC_PERR_STAT_DIE : Fld := ⟨A.DMC_PERR_STAT, 20, 3⟩
abbrev F.DMC_PERR_STAT_BYTES : Fld := ⟨A.DMC_PERR_STAT, 16, 4⟩
abbrev F.DMC_PERR_STAT_BANK : Fld := ⟨A.DMC_PERR_STAT, 0, 7⟩
/-- DMC_PERR_LOC: R165 of 04_design_memory.md. -/
abbrev A.DMC_PERR_LOC : Nat := 0x20014
abbrev F.DMC_PERR_LOC_STEP : Fld := ⟨A.DMC_PERR_LOC, 17, 11⟩
abbrev F.DMC_PERR_LOC_WORD : Fld := ⟨A.DMC_PERR_LOC, 0, 17⟩
/-- DMC_UE_STAT: R166 of 04_design_memory.md. -/
abbrev A.DMC_UE_STAT : Nat := 0x20020
abbrev F.DMC_UE_STAT_VALID : Fld := ⟨A.DMC_UE_STAT, 31, 1⟩
abbrev F.DMC_UE_STAT_MORE : Fld := ⟨A.DMC_UE_STAT, 30, 1⟩
abbrev F.DMC_UE_STAT_SCRUB : Fld := ⟨A.DMC_UE_STAT, 29, 1⟩
abbrev F.DMC_UE_STAT_MEM : Fld := ⟨A.DMC_UE_STAT, 16, 12⟩
abbrev F.DMC_UE_STAT_STACK : Fld := ⟨A.DMC_UE_STAT, 12, 2⟩
abbrev F.DMC_UE_STAT_STEP : Fld := ⟨A.DMC_UE_STAT, 0, 11⟩
/-- DMC_UE_ADDR: R167 of 04_design_memory.md. -/
abbrev A.DMC_UE_ADDR : Nat := 0x20024
abbrev F.DMC_UE_ADDR_ADDR : Fld := ⟨A.DMC_UE_ADDR, 0, 32⟩
/-- DMC_CE_COUNT: R168 of 04_design_memory.md. -/
abbrev A.DMC_CE_COUNT : Nat := 0x20028
abbrev F.DMC_CE_COUNT_COUNT : Fld := ⟨A.DMC_CE_COUNT, 0, 32⟩
/-- DMC_RETRY_COUNT: R169 of 04_design_memory.md. -/
abbrev A.DMC_RETRY_COUNT : Nat := 0x2002C
abbrev F.DMC_RETRY_COUNT_COUNT : Fld := ⟨A.DMC_RETRY_COUNT, 0, 32⟩
/-- DMC_COLL_STAT: R170 of 04_design_memory.md. -/
abbrev A.DMC_COLL_STAT : Nat := 0x20030
abbrev F.DMC_COLL_STAT_VALID : Fld := ⟨A.DMC_COLL_STAT, 31, 1⟩
abbrev F.DMC_COLL_STAT_MORE : Fld := ⟨A.DMC_COLL_STAT, 30, 1⟩
abbrev F.DMC_COLL_STAT_MEM : Fld := ⟨A.DMC_COLL_STAT, 16, 12⟩
abbrev F.DMC_COLL_STAT_PORTS : Fld := ⟨A.DMC_COLL_STAT, 12, 4⟩
abbrev F.DMC_COLL_STAT_STEP : Fld := ⟨A.DMC_COLL_STAT, 0, 11⟩
/-- DMC_COLL_ADDR: R171 of 04_design_memory.md. -/
abbrev A.DMC_COLL_ADDR : Nat := 0x20034
abbrev F.DMC_COLL_ADDR_ADDR : Fld := ⟨A.DMC_COLL_ADDR, 0, 32⟩
/-- DMC_COLL_COUNT: R172 of 04_design_memory.md. -/
abbrev A.DMC_COLL_COUNT : Nat := 0x20038
abbrev F.DMC_COLL_COUNT_COUNT : Fld := ⟨A.DMC_COLL_COUNT, 0, 32⟩
/-- DMC_RANGE_STAT: R173 of 04_design_memory.md. -/
abbrev A.DMC_RANGE_STAT : Nat := 0x20040
abbrev F.DMC_RANGE_STAT_VALID : Fld := ⟨A.DMC_RANGE_STAT, 31, 1⟩
abbrev F.DMC_RANGE_STAT_MORE : Fld := ⟨A.DMC_RANGE_STAT, 30, 1⟩
abbrev F.DMC_RANGE_STAT_MEM : Fld := ⟨A.DMC_RANGE_STAT, 16, 12⟩
abbrev F.DMC_RANGE_STAT_PORT : Fld := ⟨A.DMC_RANGE_STAT, 12, 2⟩
abbrev F.DMC_RANGE_STAT_STEP : Fld := ⟨A.DMC_RANGE_STAT, 0, 11⟩
/-- DMC_RANGE_ADDR: R174 of 04_design_memory.md. -/
abbrev A.DMC_RANGE_ADDR : Nat := 0x20044
abbrev F.DMC_RANGE_ADDR_ADDR : Fld := ⟨A.DMC_RANGE_ADDR, 0, 32⟩
/-- DMC_RANGE_COUNT: R175 of 04_design_memory.md. -/
abbrev A.DMC_RANGE_COUNT : Nat := 0x20048
abbrev F.DMC_RANGE_COUNT_COUNT : Fld := ⟨A.DMC_RANGE_COUNT, 0, 32⟩
/-- DMC_OVR_CNT: R176 of 04_design_memory.md. -/
abbrev A.DMC_OVR_CNT (i : Nat) : Nat := 0x20050 + 4 * i
abbrev F.DMC_OVR_CNT_CNT (i : Nat) : Fld := ⟨(A.DMC_OVR_CNT i), 0, 32⟩
/-- DMC_OVR_MAX: R177 of 04_design_memory.md. -/
abbrev A.DMC_OVR_MAX : Nat := 0x20064
abbrev F.DMC_OVR_MAX_GRAINS : Fld := ⟨A.DMC_OVR_MAX, 0, 24⟩
/-- DMC_COLL_MAP: R178 of 04_design_memory.md. -/
abbrev A.DMC_COLL_MAP (i : Nat) : Nat := 0x20400 + 4 * i
abbrev F.DMC_COLL_MAP_FLAGS (i : Nat) : Fld := ⟨(A.DMC_COLL_MAP i), 0, 32⟩
/-- LDR_STAT: R209 of 05_image_loading_and_release.md. -/
abbrev A.LDR_STAT : Nat := 0x90000
abbrev F.LDR_STAT_STATE : Fld := ⟨A.LDR_STAT, 24, 4⟩
abbrev F.LDR_STAT_SRC : Fld := ⟨A.LDR_STAT, 20, 2⟩
abbrev F.LDR_STAT_SLOT : Fld := ⟨A.LDR_STAT, 16, 2⟩
abbrev F.LDR_STAT_PHASE : Fld := ⟨A.LDR_STAT, 12, 2⟩
abbrev F.LDR_STAT_SIGNED : Fld := ⟨A.LDR_STAT, 8, 1⟩
abbrev F.LDR_STAT_REFUSED : Fld := ⟨A.LDR_STAT, 0, 1⟩
/-- LDR_PROG: R210 of 05_image_loading_and_release.md. -/
abbrev A.LDR_PROG : Nat := 0x90004
abbrev F.LDR_PROG_UNITS : Fld := ⟨A.LDR_PROG, 0, 32⟩
/-- LDR_REF0: R211 of 05_image_loading_and_release.md. -/
abbrev A.LDR_REF0 : Nat := 0x90010
abbrev F.LDR_REF0_DIE : Fld := ⟨A.LDR_REF0, 24, 8⟩
abbrev F.LDR_REF0_PHASE : Fld := ⟨A.LDR_REF0, 16, 8⟩
abbrev F.LDR_REF0_CODE : Fld := ⟨A.LDR_REF0, 0, 16⟩
/-- LDR_REF1: R211 of 05_image_loading_and_release.md. -/
abbrev A.LDR_REF1 : Nat := 0x90014
abbrev F.LDR_REF1_WHO : Fld := ⟨A.LDR_REF1, 0, 18⟩
/-- LDR_REF2: R211 of 05_image_loading_and_release.md. -/
abbrev A.LDR_REF2 : Nat := 0x90018
abbrev F.LDR_REF2_STEP2 : Fld := ⟨A.LDR_REF2, 16, 16⟩
abbrev F.LDR_REF2_STEP : Fld := ⟨A.LDR_REF2, 0, 16⟩
/-- LDR_REF3: R211 of 05_image_loading_and_release.md. -/
abbrev A.LDR_REF3 : Nat := 0x9001C
abbrev F.LDR_REF3_INDEX : Fld := ⟨A.LDR_REF3, 16, 16⟩
abbrev F.LDR_REF3_WHERE : Fld := ⟨A.LDR_REF3, 0, 16⟩
/-- LDR_REF4: R211 of 05_image_loading_and_release.md. -/
abbrev A.LDR_REF4 : Nat := 0x90020
abbrev F.LDR_REF4_RECORD : Fld := ⟨A.LDR_REF4, 0, 32⟩
/-- LDR_DESLO: R212 of 05_image_loading_and_release.md. -/
abbrev A.LDR_DESLO : Nat := 0x90028
abbrev F.LDR_DESLO_DESIGN : Fld := ⟨A.LDR_DESLO, 0, 32⟩
/-- LDR_DESHI: R213 of 05_image_loading_and_release.md. -/
abbrev A.LDR_DESHI : Nat := 0x9002C
abbrev F.LDR_DESHI_DESIGN : Fld := ⟨A.LDR_DESHI, 0, 32⟩
/-- LDR_REL: R214 of 05_image_loading_and_release.md. -/
abbrev A.LDR_REL : Nat := 0x90030
abbrev F.LDR_REL_WAIT : Fld := ⟨A.LDR_REL, 18, 1⟩
abbrev F.LDR_REL_STAGE : Fld := ⟨A.LDR_REL, 16, 2⟩
abbrev F.LDR_REL_HOLDRST : Fld := ⟨A.LDR_REL, 8, 1⟩
abbrev F.LDR_REL_GAP : Fld := ⟨A.LDR_REL, 0, 8⟩
/-- LDR_RELCYC: R215 of 05_image_loading_and_release.md. -/
abbrev A.LDR_RELCYC : Nat := 0x90034
abbrev F.LDR_RELCYC_CYC : Fld := ⟨A.LDR_RELCYC, 0, 10⟩
/-- LDR_SPARE: R216 of 05_image_loading_and_release.md. -/
abbrev A.LDR_SPARE (i : Nat) : Nat := 0x90040 + 4 * i
abbrev F.LDR_SPARE_USED (i : Nat) : Fld := ⟨(A.LDR_SPARE i), 31, 1⟩
abbrev F.LDR_SPARE_BUSHEL (i : Nat) : Fld := ⟨(A.LDR_SPARE i), 0, 5⟩
/-- LDR_SLOT: R217 of 05_image_loading_and_release.md. -/
abbrev A.LDR_SLOT (i : Nat) : Nat := 0x90060 + 4 * i
abbrev F.LDR_SLOT_VALID (i : Nat) : Fld := ⟨(A.LDR_SLOT i), 31, 1⟩
abbrev F.LDR_SLOT_VERIFIED (i : Nat) : Fld := ⟨(A.LDR_SLOT i), 30, 1⟩
abbrev F.LDR_SLOT_SIGNED (i : Nat) : Fld := ⟨(A.LDR_SLOT i), 29, 1⟩
abbrev F.LDR_SLOT_INUSE (i : Nat) : Fld := ⟨(A.LDR_SLOT i), 28, 1⟩
abbrev F.LDR_SLOT_SIZE (i : Nat) : Fld := ⟨(A.LDR_SLOT i), 0, 24⟩
/-- SNP_CTL: R239 of 06_snapshot_and_checkpoint.md. -/
abbrev A.SNP_CTL : Nat := 0x30000
abbrev F.SNP_CTL_LOGMI : Fld := ⟨A.SNP_CTL, 16, 7⟩
abbrev F.SNP_CTL_REQ : Fld := ⟨A.SNP_CTL, 0, 1⟩
/-- SNP_STAT: R240 of 06_snapshot_and_checkpoint.md. -/
abbrev A.SNP_STAT : Nat := 0x30004
abbrev F.SNP_STAT_STATE : Fld := ⟨A.SNP_STAT, 24, 3⟩
abbrev F.SNP_STAT_FIELDOK : Fld := ⟨A.SNP_STAT, 16, 1⟩
abbrev F.SNP_STAT_REASON : Fld := ⟨A.SNP_STAT, 0, 8⟩
/-- SNP_ID: R241 of 06_snapshot_and_checkpoint.md. -/
abbrev A.SNP_ID : Nat := 0x30008
abbrev F.SNP_ID_SNAPID : Fld := ⟨A.SNP_ID, 0, 32⟩
/-- SNP_CYCLO: R242 of 06_snapshot_and_checkpoint.md. -/
abbrev A.SNP_CYCLO : Nat := 0x3000C
abbrev F.SNP_CYCLO_CYC : Fld := ⟨A.SNP_CYCLO, 0, 32⟩
/-- SNP_CYCHI: R243 of 06_snapshot_and_checkpoint.md. -/
abbrev A.SNP_CYCHI : Nat := 0x30010
abbrev F.SNP_CYCHI_CYC : Fld := ⟨A.SNP_CYCHI, 0, 32⟩
/-- SNP_UNDO: R244 of 06_snapshot_and_checkpoint.md. -/
abbrev A.SNP_UNDO : Nat := 0x30014
abbrev F.SNP_UNDO_ENTRIES : Fld := ⟨A.SNP_UNDO, 0, 27⟩
/-- SNP_PROG: R245 of 06_snapshot_and_checkpoint.md. -/
abbrev A.SNP_PROG : Nat := 0x30018
abbrev F.SNP_PROG_SWEPT : Fld := ⟨A.SNP_PROG, 16, 16⟩
abbrev F.SNP_PROG_DRAINED : Fld := ⟨A.SNP_PROG, 0, 16⟩
/-- SNP_CURSOR: R246 of 06_snapshot_and_checkpoint.md. -/
abbrev A.SNP_CURSOR : Nat := 0x3001C
abbrev F.SNP_CURSOR_POS : Fld := ⟨A.SNP_CURSOR, 0, 32⟩
/-- SNP_PCOPY: R247 of 06_snapshot_and_checkpoint.md. -/
abbrev A.SNP_PCOPY : Nat := 0x30020
abbrev F.SNP_PCOPY_COUNT : Fld := ⟨A.SNP_PCOPY, 0, 32⟩
/-- SNP_DROP: R248 of 06_snapshot_and_checkpoint.md. -/
abbrev A.SNP_DROP : Nat := 0x30024
abbrev F.SNP_DROP_COUNT : Fld := ⟨A.SNP_DROP, 0, 32⟩
/-- TRG_AUTO: R274 of 07_trigger_and_acquisition.md. -/
abbrev A.TRG_AUTO : Nat := 0x40000
abbrev F.TRG_AUTO_ACT : Fld := ⟨A.TRG_AUTO, 24, 5⟩
abbrev F.TRG_AUTO_CYC : Fld := ⟨A.TRG_AUTO, 0, 24⟩
/-- TRG_LG: R275 of 07_trigger_and_acquisition.md. -/
abbrev A.TRG_LG : Nat := 0x40004
abbrev F.TRG_LG_D : Fld := ⟨A.TRG_LG, 16, 8⟩
abbrev F.TRG_LG_ACT : Fld := ⟨A.TRG_LG, 0, 5⟩
/-- TRG_SEQ: R276 of 07_trigger_and_acquisition.md. -/
abbrev A.TRG_SEQ : Nat := 0x40008
abbrev F.TRG_SEQ_STATE : Fld := ⟨A.TRG_SEQ, 24, 3⟩
abbrev F.TRG_SEQ_COUNT : Fld := ⟨A.TRG_SEQ, 0, 24⟩
/-- TRG_HITLO: R277 of 07_trigger_and_acquisition.md. -/
abbrev A.TRG_HITLO : Nat := 0x40010
abbrev F.TRG_HITLO_HIT : Fld := ⟨A.TRG_HITLO, 0, 32⟩
/-- TRG_HITHI: R277 of 07_trigger_and_acquisition.md. -/
abbrev A.TRG_HITHI : Nat := 0x40014
abbrev F.TRG_HITHI_HIT : Fld := ⟨A.TRG_HITHI, 0, 32⟩
/-- TRG_TSTAT: R278 of 07_trigger_and_acquisition.md. -/
abbrev A.TRG_TSTAT : Nat := 0x40018
abbrev F.TRG_TSTAT_VALID : Fld := ⟨A.TRG_TSTAT, 31, 1⟩
abbrev F.TRG_TSTAT_FORCED : Fld := ⟨A.TRG_TSTAT, 30, 1⟩
abbrev F.TRG_TSTAT_LEAGUE : Fld := ⟨A.TRG_TSTAT, 29, 1⟩
abbrev F.TRG_TSTAT_FROM : Fld := ⟨A.TRG_TSTAT, 24, 3⟩
abbrev F.TRG_TSTAT_ORIGIN : Fld := ⟨A.TRG_TSTAT, 0, 6⟩
/-- TRG_TCYCLO: R279 of 07_trigger_and_acquisition.md. -/
abbrev A.TRG_TCYCLO : Nat := 0x4001C
abbrev F.TRG_TCYCLO_CYC : Fld := ⟨A.TRG_TCYCLO, 0, 32⟩
/-- TRG_TCYCHI: R279 of 07_trigger_and_acquisition.md. -/
abbrev A.TRG_TCYCHI : Nat := 0x40020
abbrev F.TRG_TCYCHI_CYC : Fld := ⟨A.TRG_TCYCHI, 0, 32⟩
/-- TRG_OCYCLO: R280 of 07_trigger_and_acquisition.md. -/
abbrev A.TRG_OCYCLO : Nat := 0x40024
abbrev F.TRG_OCYCLO_CYC : Fld := ⟨A.TRG_OCYCLO, 0, 32⟩
/-- TRG_OCYCHI: R280 of 07_trigger_and_acquisition.md. -/
abbrev A.TRG_OCYCHI : Nat := 0x40028
abbrev F.TRG_OCYCHI_CYC : Fld := ⟨A.TRG_OCYCHI, 0, 32⟩
/-- TRG_IGN: R281 of 07_trigger_and_acquisition.md. -/
abbrev A.TRG_IGN : Nat := 0x4002C
abbrev F.TRG_IGN_COUNT : Fld := ⟨A.TRG_IGN, 0, 32⟩
/-- TRG_CMP_CTL: R282 of 07_trigger_and_acquisition.md. -/
abbrev A.TRG_CMP_CTL (i : Nat) : Nat := 0x40100 + 16 * i
abbrev F.TRG_CMP_CTL_EN (i : Nat) : Fld := ⟨(A.TRG_CMP_CTL i), 31, 1⟩
abbrev F.TRG_CMP_CTL_KIND (i : Nat) : Fld := ⟨(A.TRG_CMP_CTL i), 24, 4⟩
abbrev F.TRG_CMP_CTL_WIDTHM1 (i : Nat) : Fld := ⟨(A.TRG_CMP_CTL i), 18, 5⟩
abbrev F.TRG_CMP_CTL_PROBE (i : Nat) : Fld := ⟨(A.TRG_CMP_CTL i), 0, 17⟩
/-- TRG_CMP_VAL: R283 of 07_trigger_and_acquisition.md. -/
abbrev A.TRG_CMP_VAL (i : Nat) : Nat := 0x40104 + 16 * i
abbrev F.TRG_CMP_VAL_VAL (i : Nat) : Fld := ⟨(A.TRG_CMP_VAL i), 0, 32⟩
/-- TRG_CMP_AUX: R284 of 07_trigger_and_acquisition.md. -/
abbrev A.TRG_CMP_AUX (i : Nat) : Nat := 0x40108 + 16 * i
abbrev F.TRG_CMP_AUX_AUX (i : Nat) : Fld := ⟨(A.TRG_CMP_AUX i), 0, 32⟩
/-- TRG_CMP_STAT: R285 of 07_trigger_and_acquisition.md. -/
abbrev A.TRG_CMP_STAT (i : Nat) : Nat := 0x4010C + 16 * i
abbrev F.TRG_CMP_STAT_HIT (i : Nat) : Fld := ⟨(A.TRG_CMP_STAT i), 31, 1⟩
abbrev F.TRG_CMP_STAT_ARMD (i : Nat) : Fld := ⟨(A.TRG_CMP_STAT i), 30, 1⟩
/-- TRG_ST_GOLO: R286 of 07_trigger_and_acquisition.md. -/
abbrev A.TRG_ST_GOLO (i : Nat) : Nat := 0x40800 + 32 * i
abbrev F.TRG_ST_GOLO_MASK (i : Nat) : Fld := ⟨(A.TRG_ST_GOLO i), 0, 32⟩
/-- TRG_ST_GOHI: R286 of 07_trigger_and_acquisition.md. -/
abbrev A.TRG_ST_GOHI (i : Nat) : Nat := 0x40804 + 32 * i
abbrev F.TRG_ST_GOHI_MASK (i : Nat) : Fld := ⟨(A.TRG_ST_GOHI i), 0, 32⟩
/-- TRG_ST_ESCLO: R286 of 07_trigger_and_acquisition.md. -/
abbrev A.TRG_ST_ESCLO (i : Nat) : Nat := 0x40808 + 32 * i
abbrev F.TRG_ST_ESCLO_MASK (i : Nat) : Fld := ⟨(A.TRG_ST_ESCLO i), 0, 32⟩
/-- TRG_ST_ESCHI: R286 of 07_trigger_and_acquisition.md. -/
abbrev A.TRG_ST_ESCHI (i : Nat) : Nat := 0x4080C + 32 * i
abbrev F.TRG_ST_ESCHI_MASK (i : Nat) : Fld := ⟨(A.TRG_ST_ESCHI i), 0, 32⟩
/-- TRG_ST_CTL: R286 of 07_trigger_and_acquisition.md. -/
abbrev A.TRG_ST_CTL (i : Nat) : Nat := 0x40810 + 32 * i
abbrev F.TRG_ST_CTL_GOAND (i : Nat) : Fld := ⟨(A.TRG_ST_CTL i), 31, 1⟩
abbrev F.TRG_ST_CTL_ESCAND (i : Nat) : Fld := ⟨(A.TRG_ST_CTL i), 30, 1⟩
abbrev F.TRG_ST_CTL_CONSEC (i : Nat) : Fld := ⟨(A.TRG_ST_CTL i), 29, 1⟩
abbrev F.TRG_ST_CTL_NEXT (i : Nat) : Fld := ⟨(A.TRG_ST_CTL i), 24, 3⟩
abbrev F.TRG_ST_CTL_ENEXT (i : Nat) : Fld := ⟨(A.TRG_ST_CTL i), 20, 3⟩
abbrev F.TRG_ST_CTL_EACT (i : Nat) : Fld := ⟨(A.TRG_ST_CTL i), 8, 5⟩
abbrev F.TRG_ST_CTL_ACT (i : Nat) : Fld := ⟨(A.TRG_ST_CTL i), 0, 5⟩
/-- TRG_ST_N: R286 of 07_trigger_and_acquisition.md. -/
abbrev A.TRG_ST_N (i : Nat) : Nat := 0x40814 + 32 * i
abbrev F.TRG_ST_N_N (i : Nat) : Fld := ⟨(A.TRG_ST_N i), 0, 24⟩
/-- ACQ_CTL: R287 of 07_trigger_and_acquisition.md. -/
abbrev A.ACQ_CTL : Nat := 0x50000
abbrev F.ACQ_CTL_CAPT : Fld := ⟨A.ACQ_CTL, 31, 1⟩
abbrev F.ACQ_CTL_DONE : Fld := ⟨A.ACQ_CTL, 30, 1⟩
abbrev F.ACQ_CTL_TRIGD : Fld := ⟨A.ACQ_CTL, 29, 1⟩
abbrev F.ACQ_CTL_END : Fld := ⟨A.ACQ_CTL, 24, 4⟩
abbrev F.ACQ_CTL_REPEAT : Fld := ⟨A.ACQ_CTL, 8, 1⟩
abbrev F.ACQ_CTL_STOP : Fld := ⟨A.ACQ_CTL, 1, 1⟩
abbrev F.ACQ_CTL_ARM : Fld := ⟨A.ACQ_CTL, 0, 1⟩
/-- ACQ_SETLO: R288 of 07_trigger_and_acquisition.md. -/
abbrev A.ACQ_SETLO : Nat := 0x50004
abbrev F.ACQ_SETLO_ADDR : Fld := ⟨A.ACQ_SETLO, 0, 32⟩
/-- ACQ_SETHI: R288 of 07_trigger_and_acquisition.md. -/
abbrev A.ACQ_SETHI : Nat := 0x50008
abbrev F.ACQ_SETHI_ADDR : Fld := ⟨A.ACQ_SETHI, 0, 16⟩
/-- ACQ_SETN: R289 of 07_trigger_and_acquisition.md. -/
abbrev A.ACQ_SETN : Nat := 0x5000C
abbrev F.ACQ_SETN_NW : Fld := ⟨A.ACQ_SETN, 16, 10⟩
abbrev F.ACQ_SETN_NB : Fld := ⟨A.ACQ_SETN, 0, 15⟩
/-- ACQ_PRE: R290 of 07_trigger_and_acquisition.md. -/
abbrev A.ACQ_PRE : Nat := 0x50010
abbrev F.ACQ_PRE_CYC : Fld := ⟨A.ACQ_PRE, 0, 24⟩
/-- ACQ_POST: R290 of 07_trigger_and_acquisition.md. -/
abbrev A.ACQ_POST : Nat := 0x50014
abbrev F.ACQ_POST_CYC : Fld := ⟨A.ACQ_POST, 0, 24⟩
/-- ACQ_TUN: R291 of 07_trigger_and_acquisition.md. -/
abbrev A.ACQ_TUN : Nat := 0x50018
abbrev F.ACQ_TUN_SIZE : Fld := ⟨A.ACQ_TUN, 16, 9⟩
abbrev F.ACQ_TUN_CHGP : Fld := ⟨A.ACQ_TUN, 12, 4⟩
abbrev F.ACQ_TUN_WINP : Fld := ⟨A.ACQ_TUN, 8, 4⟩
abbrev F.ACQ_TUN_DECP : Fld := ⟨A.ACQ_TUN, 4, 4⟩
abbrev F.ACQ_TUN_RAWP : Fld := ⟨A.ACQ_TUN, 0, 4⟩
/-- ACQ_DEC: R292 of 07_trigger_and_acquisition.md. -/
abbrev A.ACQ_DEC : Nat := 0x5001C
abbrev F.ACQ_DEC_NM1 : Fld := ⟨A.ACQ_DEC, 0, 20⟩
/-- ACQ_WIN: R292 of 07_trigger_and_acquisition.md. -/
abbrev A.ACQ_WIN : Nat := 0x50020
abbrev F.ACQ_WIN_WM1 : Fld := ⟨A.ACQ_WIN, 0, 20⟩
/-- ACQ_RECLEN: R293 of 07_trigger_and_acquisition.md. -/
abbrev A.ACQ_RECLEN : Nat := 0x50024
abbrev F.ACQ_RECLEN_WIN : Fld := ⟨A.ACQ_RECLEN, 16, 16⟩
abbrev F.ACQ_RECLEN_VAL : Fld := ⟨A.ACQ_RECLEN, 0, 16⟩
/-- ACQ_FCYCLO: R294 of 07_trigger_and_acquisition.md. -/
abbrev A.ACQ_FCYCLO : Nat := 0x50028
abbrev F.ACQ_FCYCLO_CYC : Fld := ⟨A.ACQ_FCYCLO, 0, 32⟩
/-- ACQ_FCYCHI: R294 of 07_trigger_and_acquisition.md. -/
abbrev A.ACQ_FCYCHI : Nat := 0x5002C
abbrev F.ACQ_FCYCHI_CYC : Fld := ⟨A.ACQ_FCYCHI, 0, 32⟩
/-- ACQ_DROP: R295 of 07_trigger_and_acquisition.md. -/
abbrev A.ACQ_DROP : Nat := 0x50030
abbrev F.ACQ_DROP_COUNT : Fld := ⟨A.ACQ_DROP, 0, 32⟩
/-- ACQ_PERRCNT: R295 of 07_trigger_and_acquisition.md. -/
abbrev A.ACQ_PERRCNT : Nat := 0x50034
abbrev F.ACQ_PERRCNT_COUNT : Fld := ⟨A.ACQ_PERRCNT, 0, 32⟩
/-- ACQ_ERR: R296 of 07_trigger_and_acquisition.md. -/
abbrev A.ACQ_ERR : Nat := 0x50038
abbrev F.ACQ_ERR_STATUS : Fld := ⟨A.ACQ_ERR, 0, 16⟩
/-- ACQ_ALIGN: R297 of 07_trigger_and_acquisition.md. -/
abbrev A.ACQ_ALIGN (i : Nat) : Nat := 0x50040 + 4 * i
abbrev F.ACQ_ALIGN_STALE (i : Nat) : Fld := ⟨(A.ACQ_ALIGN i), 31, 1⟩
abbrev F.ACQ_ALIGN_OFS (i : Nat) : Fld := ⟨(A.ACQ_ALIGN i), 0, 16⟩
/-- ACQ_ALOFS: R298 of 07_trigger_and_acquisition.md. -/
abbrev A.ACQ_ALOFS : Nat := 0x50058
abbrev F.ACQ_ALOFS_OFS : Fld := ⟨A.ACQ_ALOFS, 0, 32⟩
/-- LNK_CTL: R331 of 08_ifemet_lanes.md. -/
abbrev A.LNK_CTL (i : Nat) : Nat := 0x60000 + 256 * i
abbrev F.LNK_CTL_EN (i : Nat) : Fld := ⟨(A.LNK_CTL i), 31, 1⟩
abbrev F.LNK_CTL_RETRAIN (i : Nat) : Fld := ⟨(A.LNK_CTL i), 8, 1⟩
abbrev F.LNK_CTL_ERREV (i : Nat) : Fld := ⟨(A.LNK_CTL i), 2, 1⟩
abbrev F.LNK_CTL_REPEV (i : Nat) : Fld := ⟨(A.LNK_CTL i), 1, 1⟩
abbrev F.LNK_CTL_PRESEV (i : Nat) : Fld := ⟨(A.LNK_CTL i), 0, 1⟩
/-- LNK_STAT: R332 of 08_ifemet_lanes.md. -/
abbrev A.LNK_STAT (i : Nat) : Nat := 0x60004 + 256 * i
abbrev F.LNK_STAT_PRESENT (i : Nat) : Fld := ⟨(A.LNK_STAT i), 31, 1⟩
abbrev F.LNK_STAT_RPLA (i : Nat) : Fld := ⟨(A.LNK_STAT i), 30, 1⟩
abbrev F.LNK_STAT_RPLB (i : Nat) : Fld := ⟨(A.LNK_STAT i), 29, 1⟩
abbrev F.LNK_STAT_REASON (i : Nat) : Fld := ⟨(A.LNK_STAT i), 16, 4⟩
abbrev F.LNK_STAT_STAGE (i : Nat) : Fld := ⟨(A.LNK_STAT i), 8, 3⟩
/-- LNK_PARTSLO: R333 of 08_ifemet_lanes.md. -/
abbrev A.LNK_PARTSLO (i : Nat) : Nat := 0x60008 + 256 * i
abbrev F.LNK_PARTSLO_SERIAL (i : Nat) : Fld := ⟨(A.LNK_PARTSLO i), 0, 32⟩
/-- LNK_PARTSHI: R333 of 08_ifemet_lanes.md. -/
abbrev A.LNK_PARTSHI (i : Nat) : Nat := 0x6000C + 256 * i
abbrev F.LNK_PARTSHI_SERIAL (i : Nat) : Fld := ⟨(A.LNK_PARTSHI i), 0, 32⟩
/-- LNK_PART: R334 of 08_ifemet_lanes.md. -/
abbrev A.LNK_PART (i : Nat) : Nat := 0x60010 + 256 * i
abbrev F.LNK_PART_GRADE (i : Nat) : Fld := ⟨(A.LNK_PART i), 16, 16⟩
abbrev F.LNK_PART_VER (i : Nat) : Fld := ⟨(A.LNK_PART i), 8, 8⟩
abbrev F.LNK_PART_PORT (i : Nat) : Fld := ⟨(A.LNK_PART i), 0, 3⟩
/-- LNK_OWD: R335 of 08_ifemet_lanes.md. -/
abbrev A.LNK_OWD (i : Nat) : Nat := 0x60014 + 256 * i
abbrev F.LNK_OWD_OWDB (i : Nat) : Fld := ⟨(A.LNK_OWD i), 16, 16⟩
abbrev F.LNK_OWD_OWDA (i : Nat) : Fld := ⟨(A.LNK_OWD i), 0, 16⟩
/-- LNK_CRCCNT: R336 of 08_ifemet_lanes.md. -/
abbrev A.LNK_CRCCNT (i : Nat) : Nat := 0x60018 + 256 * i
abbrev F.LNK_CRCCNT_COUNT (i : Nat) : Fld := ⟨(A.LNK_CRCCNT i), 0, 32⟩
/-- LNK_RPLCNT: R337 of 08_ifemet_lanes.md. -/
abbrev A.LNK_RPLCNT (i : Nat) : Nat := 0x6001C + 256 * i
abbrev F.LNK_RPLCNT_COUNT (i : Nat) : Fld := ⟨(A.LNK_RPLCNT i), 0, 32⟩
/-- LNK_ERRLIM: R338 of 08_ifemet_lanes.md. -/
abbrev A.LNK_ERRLIM (i : Nat) : Nat := 0x60020 + 256 * i
abbrev F.LNK_ERRLIM_LIM (i : Nat) : Fld := ⟨(A.LNK_ERRLIM i), 0, 16⟩
/-- LNK_ESCTL: R339 of 08_ifemet_lanes.md. -/
abbrev A.LNK_ESCTL (i : Nat) : Nat := 0x60024 + 256 * i
abbrev F.LNK_ESCTL_GO (i : Nat) : Fld := ⟨(A.LNK_ESCTL i), 31, 1⟩
abbrev F.LNK_ESCTL_BUSY (i : Nat) : Fld := ⟨(A.LNK_ESCTL i), 30, 1⟩
abbrev F.LNK_ESCTL_ABORT (i : Nat) : Fld := ⟨(A.LNK_ESCTL i), 29, 1⟩
abbrev F.LNK_ESCTL_LANE (i : Nat) : Fld := ⟨(A.LNK_ESCTL i), 24, 4⟩
abbrev F.LNK_ESCTL_PHASE (i : Nat) : Fld := ⟨(A.LNK_ESCTL i), 16, 6⟩
abbrev F.LNK_ESCTL_VOLT (i : Nat) : Fld := ⟨(A.LNK_ESCTL i), 8, 7⟩
abbrev F.LNK_ESCTL_DWELL (i : Nat) : Fld := ⟨(A.LNK_ESCTL i), 0, 5⟩
/-- LNK_ESERR: R340 of 08_ifemet_lanes.md. -/
abbrev A.LNK_ESERR (i : Nat) : Nat := 0x60028 + 256 * i
abbrev F.LNK_ESERR_COUNT (i : Nat) : Fld := ⟨(A.LNK_ESERR i), 0, 32⟩
/-- LNK_DCNT: R341 of 08_ifemet_lanes.md. -/
abbrev A.LNK_DCNT (i : Nat) (j : Nat) : Nat := 0x60044 + 256 * i + 4 * j
abbrev F.LNK_DCNT_COUNT (i : Nat) (j : Nat) : Fld := ⟨(A.LNK_DCNT i j), 0, 32⟩
/-- LNK_SHARE: R342 of 08_ifemet_lanes.md. -/
abbrev A.LNK_SHARE : Nat := 0x60800
abbrev F.LNK_SHARE_OWNER : Fld := ⟨A.LNK_SHARE, 0, 2⟩
/-- LNK_NHOP: R343 of 08_ifemet_lanes.md. -/
abbrev A.LNK_NHOP : Nat := 0x60804
abbrev F.LNK_NHOP_GRAINS : Fld := ⟨A.LNK_NHOP, 0, 8⟩
/-- LNK_LSTAT: R344 of 08_ifemet_lanes.md. -/
abbrev A.LNK_LSTAT : Nat := 0x60808
abbrev F.LNK_LSTAT_VALID : Fld := ⟨A.LNK_LSTAT, 31, 1⟩
abbrev F.LNK_LSTAT_MORE : Fld := ⟨A.LNK_LSTAT, 30, 1⟩
abbrev F.LNK_LSTAT_KIND : Fld := ⟨A.LNK_LSTAT, 24, 2⟩
abbrev F.LNK_LSTAT_PORT : Fld := ⟨A.LNK_LSTAT, 8, 3⟩
abbrev F.LNK_LSTAT_GROUP : Fld := ⟨A.LNK_LSTAT, 0, 1⟩
/-- LGE_CTL: R386 of 09_leagues_and_time.md. -/
abbrev A.LGE_CTL : Nat := 0x70000
abbrev F.LGE_CTL_AUTO : Fld := ⟨A.LGE_CTL, 8, 1⟩
abbrev F.LGE_CTL_FORM : Fld := ⟨A.LGE_CTL, 0, 1⟩
/-- LGE_PLAN: R387 of 09_leagues_and_time.md. -/
abbrev A.LGE_PLAN : Nat := 0x70004
abbrev F.LGE_PLAN_TOPO : Fld := ⟨A.LGE_PLAN, 30, 2⟩
abbrev F.LGE_PLAN_AM1 : Fld := ⟨A.LGE_PLAN, 24, 6⟩
abbrev F.LGE_PLAN_BM1 : Fld := ⟨A.LGE_PLAN, 21, 3⟩
abbrev F.LGE_PLAN_CM1 : Fld := ⟨A.LGE_PLAN, 19, 2⟩
abbrev F.LGE_PLAN_POS : Fld := ⟨A.LGE_PLAN, 13, 6⟩
/-- LGE_LID: R388 of 09_leagues_and_time.md. -/
abbrev A.LGE_LID : Nat := 0x70008
abbrev F.LGE_LID_LID : Fld := ⟨A.LGE_LID, 0, 32⟩
/-- LGE_TMO: R389 of 09_leagues_and_time.md. -/
abbrev A.LGE_TMO : Nat := 0x7000C
abbrev F.LGE_TMO_MS : Fld := ⟨A.LGE_TMO, 0, 16⟩
/-- LGE_STAT: R390 of 09_leagues_and_time.md. -/
abbrev A.LGE_STAT : Nat := 0x70010
abbrev F.LGE_STAT_STATE : Fld := ⟨A.LGE_STAT, 30, 2⟩
abbrev F.LGE_STAT_MASTER : Fld := ⟨A.LGE_STAT, 29, 1⟩
abbrev F.LGE_STAT_REFLOCK : Fld := ⟨A.LGE_STAT, 28, 1⟩
abbrev F.LGE_STAT_UPPORT : Fld := ⟨A.LGE_STAT, 20, 3⟩
abbrev F.LGE_STAT_DIAM : Fld := ⟨A.LGE_STAT, 12, 6⟩
abbrev F.LGE_STAT_SIZE : Fld := ⟨A.LGE_STAT, 0, 7⟩
/-- LGE_PSTAT: R391 of 09_leagues_and_time.md. -/
abbrev A.LGE_PSTAT : Nat := 0x70014
abbrev F.LGE_PSTAT_CODE : Fld := ⟨A.LGE_PSTAT, 0, 18⟩
/-- LGE_MISSLO: R392 of 09_leagues_and_time.md. -/
abbrev A.LGE_MISSLO : Nat := 0x70018
abbrev F.LGE_MISSLO_POS : Fld := ⟨A.LGE_MISSLO, 0, 32⟩
/-- LGE_MISSHI: R392 of 09_leagues_and_time.md. -/
abbrev A.LGE_MISSHI : Nat := 0x7001C
abbrev F.LGE_MISSHI_POS : Fld := ⟨A.LGE_MISSHI, 0, 32⟩
/-- LGE_GRADELO: R392 of 09_leagues_and_time.md. -/
abbrev A.LGE_GRADELO : Nat := 0x70020
abbrev F.LGE_GRADELO_POS : Fld := ⟨A.LGE_GRADELO, 0, 32⟩
/-- LGE_GRADEHI: R392 of 09_leagues_and_time.md. -/
abbrev A.LGE_GRADEHI : Nat := 0x70024
abbrev F.LGE_GRADEHI_POS : Fld := ⟨A.LGE_GRADEHI, 0, 32⟩
/-- LGE_WRONGLO: R392 of 09_leagues_and_time.md. -/
abbrev A.LGE_WRONGLO : Nat := 0x70028
abbrev F.LGE_WRONGLO_POS : Fld := ⟨A.LGE_WRONGLO, 0, 32⟩
/-- LGE_WRONGHI: R392 of 09_leagues_and_time.md. -/
abbrev A.LGE_WRONGHI : Nat := 0x7002C
abbrev F.LGE_WRONGHI_POS : Fld := ⟨A.LGE_WRONGHI, 0, 32⟩
/-- LGE_CYCLO: R393 of 09_leagues_and_time.md. -/
abbrev A.LGE_CYCLO : Nat := 0x70030
abbrev F.LGE_CYCLO_CYC : Fld := ⟨A.LGE_CYCLO, 0, 32⟩
/-- LGE_CYCHI: R393 of 09_leagues_and_time.md. -/
abbrev A.LGE_CYCHI : Nat := 0x70034
abbrev F.LGE_CYCHI_CYC : Fld := ⟨A.LGE_CYCHI, 0, 32⟩
/-- LGE_LATE: R394 of 09_leagues_and_time.md. -/
abbrev A.LGE_LATE : Nat := 0x70038
abbrev F.LGE_LATE_VALID : Fld := ⟨A.LGE_LATE, 31, 1⟩
abbrev F.LGE_LATE_MORE : Fld := ⟨A.LGE_LATE, 30, 1⟩
abbrev F.LGE_LATE_KIND : Fld := ⟨A.LGE_LATE, 24, 3⟩
abbrev F.LGE_LATE_PORT : Fld := ⟨A.LGE_LATE, 8, 3⟩
abbrev F.LGE_LATE_ORIGIN : Fld := ⟨A.LGE_LATE, 0, 6⟩
/-- TIM_CTL: R395 of 09_leagues_and_time.md. -/
abbrev A.TIM_CTL : Nat := 0x80000
abbrev F.TIM_CTL_SET : Fld := ⟨A.TIM_CTL, 31, 1⟩
abbrev F.TIM_CTL_SRC : Fld := ⟨A.TIM_CTL, 8, 3⟩
abbrev F.TIM_CTL_DOMAIN : Fld := ⟨A.TIM_CTL, 0, 8⟩
/-- TIM_STAT: R396 of 09_leagues_and_time.md. -/
abbrev A.TIM_STAT : Nat := 0x80004
abbrev F.TIM_STAT_LOCKED : Fld := ⟨A.TIM_STAT, 31, 1⟩
abbrev F.TIM_STAT_UNCERT : Fld := ⟨A.TIM_STAT, 30, 1⟩
abbrev F.TIM_STAT_HOLDOVER : Fld := ⟨A.TIM_STAT, 29, 1⟩
abbrev F.TIM_STAT_DISC : Fld := ⟨A.TIM_STAT, 28, 1⟩
abbrev F.TIM_STAT_SETERR : Fld := ⟨A.TIM_STAT, 27, 1⟩
abbrev F.TIM_STAT_FROM : Fld := ⟨A.TIM_STAT, 24, 3⟩
/-- TIM_WSECHI: R397 of 09_leagues_and_time.md. -/
abbrev A.TIM_WSECHI : Nat := 0x80008
abbrev F.TIM_WSECHI_SEC : Fld := ⟨A.TIM_WSECHI, 0, 16⟩
/-- TIM_WSECLO: R397 of 09_leagues_and_time.md. -/
abbrev A.TIM_WSECLO : Nat := 0x8000C
abbrev F.TIM_WSECLO_SEC : Fld := ⟨A.TIM_WSECLO, 0, 32⟩
/-- TIM_WNS: R397 of 09_leagues_and_time.md. -/
abbrev A.TIM_WNS : Nat := 0x80010
abbrev F.TIM_WNS_NS : Fld := ⟨A.TIM_WNS, 0, 30⟩
/-- TIM_WFRAC: R397 of 09_leagues_and_time.md. -/
abbrev A.TIM_WFRAC : Nat := 0x80014
abbrev F.TIM_WFRAC_FRAC : Fld := ⟨A.TIM_WFRAC, 0, 16⟩
/-- TIM_OFS: R398 of 09_leagues_and_time.md. -/
abbrev A.TIM_OFS : Nat := 0x80018
abbrev F.TIM_OFS_VAL : Fld := ⟨A.TIM_OFS, 0, 32⟩
/-- TIM_RATE: R398 of 09_leagues_and_time.md. -/
abbrev A.TIM_RATE : Nat := 0x8001C
abbrev F.TIM_RATE_VAL : Fld := ⟨A.TIM_RATE, 0, 32⟩
/-- TIM_SERVO: R399 of 09_leagues_and_time.md. -/
abbrev A.TIM_SERVO : Nat := 0x80020
abbrev F.TIM_SERVO_VAL : Fld := ⟨A.TIM_SERVO, 0, 16⟩
/-- TIM_PDJ: R399 of 09_leagues_and_time.md. -/
abbrev A.TIM_PDJ : Nat := 0x80024
abbrev F.TIM_PDJ_VAL : Fld := ⟨A.TIM_PDJ, 0, 16⟩
/-- TIM_LOCLO: R400 of 09_leagues_and_time.md. -/
abbrev A.TIM_LOCLO : Nat := 0x80028
abbrev F.TIM_LOCLO_CNT : Fld := ⟨A.TIM_LOCLO, 0, 32⟩
/-- TIM_LOCHI: R400 of 09_leagues_and_time.md. -/
abbrev A.TIM_LOCHI : Nat := 0x8002C
abbrev F.TIM_LOCHI_CNT : Fld := ⟨A.TIM_LOCHI, 0, 32⟩
/-- TIM_LGLO: R400 of 09_leagues_and_time.md. -/
abbrev A.TIM_LGLO : Nat := 0x80030
abbrev F.TIM_LGLO_CNT : Fld := ⟨A.TIM_LGLO, 0, 32⟩
/-- TIM_LGHI: R400 of 09_leagues_and_time.md. -/
abbrev A.TIM_LGHI : Nat := 0x80034
abbrev F.TIM_LGHI_CNT : Fld := ⟨A.TIM_LGHI, 0, 32⟩
/-- TIM_ASYM: R401 of 09_leagues_and_time.md. -/
abbrev A.TIM_ASYM (i : Nat) : Nat := 0x80040 + 4 * i
abbrev F.TIM_ASYM_PS (i : Nat) : Fld := ⟨(A.TIM_ASYM i), 0, 24⟩
/-- TIM_HASYM: R401 of 09_leagues_and_time.md. -/
abbrev A.TIM_HASYM (i : Nat) : Nat := 0x80058 + 4 * i
abbrev F.TIM_HASYM_PS (i : Nat) : Fld := ⟨(A.TIM_HASYM i), 0, 24⟩
/-- TIM_DPATLO: R402 of 09_leagues_and_time.md. -/
abbrev A.TIM_DPATLO (i : Nat) : Nat := 0x80100 + 32 * i
abbrev F.TIM_DPATLO_PAT (i : Nat) : Fld := ⟨(A.TIM_DPATLO i), 0, 32⟩
/-- TIM_DPATHI: R402 of 09_leagues_and_time.md. -/
abbrev A.TIM_DPATHI (i : Nat) : Nat := 0x80104 + 32 * i
abbrev F.TIM_DPATHI_PAT (i : Nat) : Fld := ⟨(A.TIM_DPATHI i), 0, 32⟩
/-- TIM_DLEN: R402 of 09_leagues_and_time.md. -/
abbrev A.TIM_DLEN (i : Nat) : Nat := 0x80108 + 32 * i
abbrev F.TIM_DLEN_LEN (i : Nat) : Fld := ⟨(A.TIM_DLEN i), 0, 7⟩
/-- TIM_DCNTLO: R402 of 09_leagues_and_time.md. -/
abbrev A.TIM_DCNTLO (i : Nat) : Nat := 0x8010C + 32 * i
abbrev F.TIM_DCNTLO_CNT (i : Nat) : Fld := ⟨(A.TIM_DCNTLO i), 0, 32⟩
/-- TIM_DCNTHI: R402 of 09_leagues_and_time.md. -/
abbrev A.TIM_DCNTHI (i : Nat) : Nat := 0x80110 + 32 * i
abbrev F.TIM_DCNTHI_CNT (i : Nat) : Fld := ⟨(A.TIM_DCNTHI i), 0, 32⟩
/-- EVT_CLAIM: R432 of 10_transactor_cores.md. -/
abbrev A.EVT_CLAIM (i : Nat) : Nat := 0x150000 + 4 * i
abbrev F.EVT_CLAIM_VALID (i : Nat) : Fld := ⟨(A.EVT_CLAIM i), 31, 1⟩
abbrev F.EVT_CLAIM_EVENT (i : Nat) : Fld := ⟨(A.EVT_CLAIM i), 0, 9⟩
/-- EVT_PEND: R433 of 10_transactor_cores.md. -/
abbrev A.EVT_PEND (i : Nat) : Nat := 0x150100 + 4 * i
abbrev F.EVT_PEND_PEND (i : Nat) : Fld := ⟨(A.EVT_PEND i), 0, 32⟩
/-- EVT_TEST: R434 of 10_transactor_cores.md. -/
abbrev A.EVT_TEST : Nat := 0x150180
abbrev F.EVT_TEST_EVENT : Fld := ⟨A.EVT_TEST, 0, 9⟩
/-- EVT_DUP: R435 of 10_transactor_cores.md. -/
abbrev A.EVT_DUP : Nat := 0x150184
abbrev F.EVT_DUP_COUNT : Fld := ⟨A.EVT_DUP, 0, 32⟩
/-- EVT_CFG: R436 of 10_transactor_cores.md. -/
abbrev A.EVT_CFG (i : Nat) : Nat := 0x151000 + 4 * i
abbrev F.EVT_CFG_EN (i : Nat) : Fld := ⟨(A.EVT_CFG i), 31, 1⟩
abbrev F.EVT_CFG_CORE (i : Nat) : Fld := ⟨(A.EVT_CFG i), 24, 4⟩
abbrev F.EVT_CFG_PRI (i : Nat) : Fld := ⟨(A.EVT_CFG i), 16, 5⟩
abbrev F.EVT_CFG_LOG (i : Nat) : Fld := ⟨(A.EVT_CFG i), 9, 1⟩
abbrev F.EVT_CFG_HOST (i : Nat) : Fld := ⟨(A.EVT_CFG i), 8, 1⟩
/-- TCC_CTL: R437 of 10_transactor_cores.md. -/
abbrev A.TCC_CTL (i : Nat) : Nat := 0xA0000 + 256 * i
abbrev F.TCC_CTL_RUN (i : Nat) : Fld := ⟨(A.TCC_CTL i), 31, 1⟩
abbrev F.TCC_CTL_BRKMON (i : Nat) : Fld := ⟨(A.TCC_CTL i), 9, 1⟩
abbrev F.TCC_CTL_RSTHALT (i : Nat) : Fld := ⟨(A.TCC_CTL i), 8, 1⟩
/-- TCC_STAT: R438 of 10_transactor_cores.md. -/
abbrev A.TCC_STAT (i : Nat) : Nat := 0xA0004 + 256 * i
abbrev F.TCC_STAT_INRST (i : Nat) : Fld := ⟨(A.TCC_STAT i), 31, 1⟩
abbrev F.TCC_STAT_LOCKUP (i : Nat) : Fld := ⟨(A.TCC_STAT i), 30, 1⟩
abbrev F.TCC_STAT_MON (i : Nat) : Fld := ⟨(A.TCC_STAT i), 29, 1⟩
abbrev F.TCC_STAT_WFE (i : Nat) : Fld := ⟨(A.TCC_STAT i), 28, 1⟩
abbrev F.TCC_STAT_WDRST (i : Nat) : Fld := ⟨(A.TCC_STAT i), 27, 1⟩
abbrev F.TCC_STAT_DFAULT (i : Nat) : Fld := ⟨(A.TCC_STAT i), 26, 1⟩
/-- TCC_RSTVEC: R439 of 10_transactor_cores.md. -/
abbrev A.TCC_RSTVEC (i : Nat) : Nat := 0xA0008 + 256 * i
abbrev F.TCC_RSTVEC_VEC (i : Nat) : Fld := ⟨(A.TCC_RSTVEC i), 2, 30⟩
/-- TCC_WDCTL: R440 of 10_transactor_cores.md. -/
abbrev A.TCC_WDCTL (i : Nat) : Nat := 0xA000C + 256 * i
abbrev F.TCC_WDCTL_EN (i : Nat) : Fld := ⟨(A.TCC_WDCTL i), 31, 1⟩
abbrev F.TCC_WDCTL_FREEZE (i : Nat) : Fld := ⟨(A.TCC_WDCTL i), 30, 1⟩
abbrev F.TCC_WDCTL_US (i : Nat) : Fld := ⟨(A.TCC_WDCTL i), 0, 24⟩
/-- TCC_WDKICK: R441 of 10_transactor_cores.md. -/
abbrev A.TCC_WDKICK (i : Nat) : Nat := 0xA0010 + 256 * i
abbrev F.TCC_WDKICK_KEY (i : Nat) : Fld := ⟨(A.TCC_WDKICK i), 0, 32⟩
/-- TCC_WDCNT: R442 of 10_transactor_cores.md. -/
abbrev A.TCC_WDCNT (i : Nat) : Nat := 0xA0014 + 256 * i
abbrev F.TCC_WDCNT_US (i : Nat) : Fld := ⟨(A.TCC_WDCNT i), 0, 24⟩
/-- TCC_FAULTPC: R443 of 10_transactor_cores.md. -/
abbrev A.TCC_FAULTPC (i : Nat) : Nat := 0xA0018 + 256 * i
abbrev F.TCC_FAULTPC_PC (i : Nat) : Fld := ⟨(A.TCC_FAULTPC i), 0, 32⟩
/-- TSK_MODE: R476 of 11_task_scheduler_and_channels.md. -/
abbrev A.TSK_MODE : Nat := 0xB0000
abbrev F.TSK_MODE_POOL : Fld := ⟨A.TSK_MODE, 31, 1⟩
abbrev F.TSK_MODE_ERR : Fld := ⟨A.TSK_MODE, 1, 1⟩
/-- TSK_STAT: R477 of 11_task_scheduler_and_channels.md. -/
abbrev A.TSK_STAT : Nat := 0xB0004
abbrev F.TSK_STAT_NREADY : Fld := ⟨A.TSK_STAT, 16, 10⟩
abbrev F.TSK_STAT_NBLOCKED : Fld := ⟨A.TSK_STAT, 0, 10⟩
/-- TSK_CANCELRDY: R478 of 11_task_scheduler_and_channels.md. -/
abbrev A.TSK_CANCELRDY : Nat := 0xB0008
abbrev F.TSK_CANCELRDY_VAL : Fld := ⟨A.TSK_CANCELRDY, 0, 32⟩
/-- TSK_BADCMD: R478 of 11_task_scheduler_and_channels.md. -/
abbrev A.TSK_BADCMD : Nat := 0xB000C
abbrev F.TSK_BADCMD_VAL : Fld := ⟨A.TSK_BADCMD, 0, 32⟩
/-- TSK_WAITMAX: R478 of 11_task_scheduler_and_channels.md. -/
abbrev A.TSK_WAITMAX : Nat := 0xB0010
abbrev F.TSK_WAITMAX_VAL : Fld := ⟨A.TSK_WAITMAX, 0, 32⟩
/-- TSK_POOLOUT: R478 of 11_task_scheduler_and_channels.md. -/
abbrev A.TSK_POOLOUT : Nat := 0xB0014
abbrev F.TSK_POOLOUT_VAL : Fld := ⟨A.TSK_POOLOUT, 0, 32⟩
/-- TSK_CMD: R479 of 11_task_scheduler_and_channels.md. -/
abbrev A.TSK_CMD (i : Nat) : Nat := 0xB0100 + 4 * i
abbrev F.TSK_CMD_OP (i : Nat) : Fld := ⟨(A.TSK_CMD i), 28, 4⟩
abbrev F.TSK_CMD_CONS (i : Nat) : Fld := ⟨(A.TSK_CMD i), 27, 1⟩
abbrev F.TSK_CMD_ID (i : Nat) : Fld := ⟨(A.TSK_CMD i), 16, 9⟩
abbrev F.TSK_CMD_FLAG (i : Nat) : Fld := ⟨(A.TSK_CMD i), 0, 12⟩
/-- TSK_DISP: R480 of 11_task_scheduler_and_channels.md. -/
abbrev A.TSK_DISP (i : Nat) : Nat := 0xB0140 + 4 * i
abbrev F.TSK_DISP_VALID (i : Nat) : Fld := ⟨(A.TSK_DISP i), 31, 1⟩
abbrev F.TSK_DISP_BUSY (i : Nat) : Fld := ⟨(A.TSK_DISP i), 30, 1⟩
abbrev F.TSK_DISP_PRI (i : Nat) : Fld := ⟨(A.TSK_DISP i), 24, 5⟩
abbrev F.TSK_DISP_ID (i : Nat) : Fld := ⟨(A.TSK_DISP i), 0, 9⟩
/-- TSK_RUN: R481 of 11_task_scheduler_and_channels.md. -/
abbrev A.TSK_RUN (i : Nat) : Nat := 0xB0180 + 4 * i
abbrev F.TSK_RUN_VALID (i : Nat) : Fld := ⟨(A.TSK_RUN i), 31, 1⟩
abbrev F.TSK_RUN_ID (i : Nat) : Fld := ⟨(A.TSK_RUN i), 0, 9⟩
/-- TSK_BUSY: R481 of 11_task_scheduler_and_channels.md. -/
abbrev A.TSK_BUSY (i : Nat) : Nat := 0xB01C0 + 4 * i
abbrev F.TSK_BUSY_US (i : Nat) : Fld := ⟨(A.TSK_BUSY i), 0, 32⟩
/-- TSK_NDISP: R481 of 11_task_scheduler_and_channels.md. -/
abbrev A.TSK_NDISP (i : Nat) : Nat := 0xB0200 + 4 * i
abbrev F.TSK_NDISP_COUNT (i : Nat) : Fld := ⟨(A.TSK_NDISP i), 0, 32⟩
/-- TSK_FLAG: R482 of 11_task_scheduler_and_channels.md. -/
abbrev A.TSK_FLAG (i : Nat) : Nat := 0xB0400 + 4 * i
abbrev F.TSK_FLAG_FLAGS (i : Nat) : Fld := ⟨(A.TSK_FLAG i), 0, 32⟩
/-- TSK_FSET: R482 of 11_task_scheduler_and_channels.md. -/
abbrev A.TSK_FSET (i : Nat) : Nat := 0xB0600 + 4 * i
abbrev F.TSK_FSET_FLAGS (i : Nat) : Fld := ⟨(A.TSK_FSET i), 0, 32⟩
/-- TSK_FCLR: R482 of 11_task_scheduler_and_channels.md. -/
abbrev A.TSK_FCLR (i : Nat) : Nat := 0xB0800 + 4 * i
abbrev F.TSK_FCLR_FLAGS (i : Nat) : Fld := ⟨(A.TSK_FCLR i), 0, 32⟩
/-- TSK_PFUNC: R483 of 11_task_scheduler_and_channels.md. -/
abbrev A.TSK_PFUNC (i : Nat) : Nat := 0xB0A00 + 16 * i
abbrev F.TSK_PFUNC_FUNC (i : Nat) : Fld := ⟨(A.TSK_PFUNC i), 0, 32⟩
/-- TSK_PARG: R483 of 11_task_scheduler_and_channels.md. -/
abbrev A.TSK_PARG (i : Nat) : Nat := 0xB0A04 + 16 * i
abbrev F.TSK_PARG_ARG (i : Nat) : Fld := ⟨(A.TSK_PARG i), 0, 32⟩
/-- TSK_PAFF: R483 of 11_task_scheduler_and_channels.md. -/
abbrev A.TSK_PAFF (i : Nat) : Nat := 0xB0A08 + 16 * i
abbrev F.TSK_PAFF_PRI (i : Nat) : Fld := ⟨(A.TSK_PAFF i), 16, 5⟩
abbrev F.TSK_PAFF_AFF (i : Nat) : Fld := ⟨(A.TSK_PAFF i), 0, 16⟩
/-- TSK_PSUB: R483 of 11_task_scheduler_and_channels.md. -/
abbrev A.TSK_PSUB (i : Nat) : Nat := 0xB0A0C + 16 * i
abbrev F.TSK_PSUB_GO (i : Nat) : Fld := ⟨(A.TSK_PSUB i), 31, 1⟩
abbrev F.TSK_PSUB_OK (i : Nat) : Fld := ⟨(A.TSK_PSUB i), 30, 1⟩
abbrev F.TSK_PSUB_FULL (i : Nat) : Fld := ⟨(A.TSK_PSUB i), 29, 1⟩
abbrev F.TSK_PSUB_SLOT (i : Nat) : Fld := ⟨(A.TSK_PSUB i), 0, 9⟩
/-- TSK_THR: R484 of 11_task_scheduler_and_channels.md. -/
abbrev A.TSK_THR (i : Nat) : Nat := 0xB1000 + 8 * i
abbrev F.TSK_THR_STATE (i : Nat) : Fld := ⟨(A.TSK_THR i), 29, 3⟩
abbrev F.TSK_THR_PRI (i : Nat) : Fld := ⟨(A.TSK_THR i), 24, 5⟩
abbrev F.TSK_THR_CORE (i : Nat) : Fld := ⟨(A.TSK_THR i), 20, 4⟩
abbrev F.TSK_THR_CONS (i : Nat) : Fld := ⟨(A.TSK_THR i), 19, 1⟩
abbrev F.TSK_THR_FLAG (i : Nat) : Fld := ⟨(A.TSK_THR i), 0, 12⟩
/-- TSK_AFF: R484 of 11_task_scheduler_and_channels.md. -/
abbrev A.TSK_AFF (i : Nat) : Nat := 0xB1004 + 8 * i
abbrev F.TSK_AFF_AFF (i : Nat) : Fld := ⟨(A.TSK_AFF i), 0, 16⟩
/-- TSK_IFUNC: R485 of 11_task_scheduler_and_channels.md. -/
abbrev A.TSK_IFUNC (i : Nat) : Nat := 0xB2000 + 8 * i
abbrev F.TSK_IFUNC_VAL (i : Nat) : Fld := ⟨(A.TSK_IFUNC i), 0, 32⟩
/-- TSK_IARG: R485 of 11_task_scheduler_and_channels.md. -/
abbrev A.TSK_IARG (i : Nat) : Nat := 0xB2004 + 8 * i
abbrev F.TSK_IARG_VAL (i : Nat) : Fld := ⟨(A.TSK_IARG i), 0, 32⟩
/-- CHN_NCH: R486 of 11_task_scheduler_and_channels.md. -/
abbrev A.CHN_NCH : Nat := 0xC0000
abbrev F.CHN_NCH_VAL : Fld := ⟨A.CHN_NCH, 0, 32⟩
/-- CHN_DROPS: R486 of 11_task_scheduler_and_channels.md. -/
abbrev A.CHN_DROPS : Nat := 0xC0004
abbrev F.CHN_DROPS_VAL : Fld := ⟨A.CHN_DROPS, 0, 32⟩
/-- CHN_UNDER: R486 of 11_task_scheduler_and_channels.md. -/
abbrev A.CHN_UNDER : Nat := 0xC0008
abbrev F.CHN_UNDER_VAL : Fld := ⟨A.CHN_UNDER, 0, 32⟩
/-- CHN_FKBASE: R486 of 11_task_scheduler_and_channels.md. -/
abbrev A.CHN_FKBASE : Nat := 0xC000C
abbrev F.CHN_FKBASE_VAL : Fld := ⟨A.CHN_FKBASE, 0, 32⟩
/-- CHN_FKUSED: R486 of 11_task_scheduler_and_channels.md. -/
abbrev A.CHN_FKUSED : Nat := 0xC0010
abbrev F.CHN_FKUSED_VAL : Fld := ⟨A.CHN_FKUSED, 0, 32⟩
/-- CHN_CFG: R487 of 11_task_scheduler_and_channels.md. -/
abbrev A.CHN_CFG (i : Nat) : Nat := 0xC1000 + 4 * i
abbrev F.CHN_CFG_VALID (i : Nat) : Fld := ⟨(A.CHN_CFG i), 31, 1⟩
abbrev F.CHN_CFG_DIR (i : Nat) : Fld := ⟨(A.CHN_CFG i), 30, 1⟩
abbrev F.CHN_CFG_FR (i : Nat) : Fld := ⟨(A.CHN_CFG i), 29, 1⟩
abbrev F.CHN_CFG_STAMP (i : Nat) : Fld := ⟨(A.CHN_CFG i), 28, 1⟩
abbrev F.CHN_CFG_RECBITSM1 (i : Nat) : Fld := ⟨(A.CHN_CFG i), 18, 10⟩
abbrev F.CHN_CFG_DEPTHM1 (i : Nat) : Fld := ⟨(A.CHN_CFG i), 0, 18⟩
/-- CHN_QINFO: R488 of 11_task_scheduler_and_channels.md. -/
abbrev A.CHN_QINFO (i : Nat) : Nat := 0xC2000 + 4 * i
abbrev F.CHN_QINFO_ESZ (i : Nat) : Fld := ⟨(A.CHN_QINFO i), 24, 5⟩
abbrev F.CHN_QINFO_OFF (i : Nat) : Fld := ⟨(A.CHN_QINFO i), 0, 21⟩
/-- CHN_SPILL: R488 of 11_task_scheduler_and_channels.md. -/
abbrev A.CHN_SPILL (i : Nat) : Nat := 0xC3000 + 4 * i
abbrev F.CHN_SPILL_FKMAX (i : Nat) : Fld := ⟨(A.CHN_SPILL i), 16, 16⟩
abbrev F.CHN_SPILL_FKUSE (i : Nat) : Fld := ⟨(A.CHN_SPILL i), 0, 16⟩
/-- CHN_WAIT: R488 of 11_task_scheduler_and_channels.md. -/
abbrev A.CHN_WAIT (i : Nat) : Nat := 0xC4000 + 4 * i
abbrev F.CHN_WAIT_US (i : Nat) : Fld := ⟨(A.CHN_WAIT i), 0, 24⟩
/-- CHN_PROD: R489 of 11_task_scheduler_and_channels.md. -/
abbrev A.CHN_PROD (i : Nat) : Nat := 0xC5000 + 8 * i
abbrev F.CHN_PROD_WRAP (i : Nat) : Fld := ⟨(A.CHN_PROD i), 31, 1⟩
abbrev F.CHN_PROD_IDX (i : Nat) : Fld := ⟨(A.CHN_PROD i), 0, 18⟩
/-- CHN_CONS: R489 of 11_task_scheduler_and_channels.md. -/
abbrev A.CHN_CONS (i : Nat) : Nat := 0xC5004 + 8 * i
abbrev F.CHN_CONS_WRAP (i : Nat) : Fld := ⟨(A.CHN_CONS i), 31, 1⟩
abbrev F.CHN_CONS_IDX (i : Nat) : Fld := ⟨(A.CHN_CONS i), 0, 18⟩
/-- CHN_STAT: R490 of 11_task_scheduler_and_channels.md. -/
abbrev A.CHN_STAT (i : Nat) : Nat := 0xC7000 + 4 * i
abbrev F.CHN_STAT_SPILL (i : Nat) : Fld := ⟨(A.CHN_STAT i), 31, 1⟩
abbrev F.CHN_STAT_FRH (i : Nat) : Fld := ⟨(A.CHN_STAT i), 30, 1⟩
abbrev F.CHN_STAT_DROP (i : Nat) : Fld := ⟨(A.CHN_STAT i), 29, 1⟩
abbrev F.CHN_STAT_PERR (i : Nat) : Fld := ⟨(A.CHN_STAT i), 28, 1⟩
abbrev F.CHN_STAT_PTRERR (i : Nat) : Fld := ⟨(A.CHN_STAT i), 27, 1⟩
abbrev F.CHN_STAT_HWM (i : Nat) : Fld := ⟨(A.CHN_STAT i), 0, 19⟩
/-- HBK_BPWR: R529 of 12_hub_memory_and_network.md. -/
abbrev A.HBK_BPWR (i : Nat) : Nat := 0xD0000 + 4 * i
abbrev F.HBK_BPWR_BUSY (i : Nat) : Fld := ⟨(A.HBK_BPWR i), 31, 1⟩
abbrev F.HBK_BPWR_ERR (i : Nat) : Fld := ⟨(A.HBK_BPWR i), 30, 1⟩
abbrev F.HBK_BPWR_FAIL (i : Nat) : Fld := ⟨(A.HBK_BPWR i), 29, 1⟩
abbrev F.HBK_BPWR_STATE (i : Nat) : Fld := ⟨(A.HBK_BPWR i), 0, 2⟩
/-- HBK_SPARE: R530 of 12_hub_memory_and_network.md. -/
abbrev A.HBK_SPARE (i : Nat) : Nat := 0xD0040 + 4 * i
abbrev F.HBK_SPARE_USED (i : Nat) : Fld := ⟨(A.HBK_SPARE i), 0, 4⟩
/-- HBK_RGN: R531 of 12_hub_memory_and_network.md. -/
abbrev A.HBK_RGN (i : Nat) (j : Nat) : Nat := 0xD0100 + 32 * i + 4 * j
abbrev F.HBK_RGN_EN (i : Nat) (j : Nat) : Fld := ⟨(A.HBK_RGN i j), 31, 1⟩
abbrev F.HBK_RGN_W (i : Nat) (j : Nat) : Fld := ⟨(A.HBK_RGN i j), 30, 1⟩
abbrev F.HBK_RGN_LENM1 (i : Nat) (j : Nat) : Fld := ⟨(A.HBK_RGN i j), 16, 12⟩
abbrev F.HBK_RGN_BASE (i : Nat) (j : Nat) : Fld := ⟨(A.HBK_RGN i j), 0, 12⟩
/-- HBK_RLOCK: R532 of 12_hub_memory_and_network.md. -/
abbrev A.HBK_RLOCK : Nat := 0xD0300
abbrev F.HBK_RLOCK_LOCK : Fld := ⟨A.HBK_RLOCK, 0, 1⟩
/-- HBK_NB: R533 of 12_hub_memory_and_network.md. -/
abbrev A.HBK_NB (i : Nat) (j : Nat) : Nat := 0xD0400 + 16 * i + 4 * j
abbrev F.HBK_NB_EN (i : Nat) (j : Nat) : Fld := ⟨(A.HBK_NB i j), 31, 1⟩
abbrev F.HBK_NB_LENM1 (i : Nat) (j : Nat) : Fld := ⟨(A.HBK_NB i j), 8, 8⟩
abbrev F.HBK_NB_BASE (i : Nat) (j : Nat) : Fld := ⟨(A.HBK_NB i j), 0, 8⟩
/-- HBK_MCTL: R534 of 12_hub_memory_and_network.md. -/
abbrev A.HBK_MCTL (i : Nat) : Nat := 0xD0500 + 8 * i
abbrev F.HBK_MCTL_GO (i : Nat) : Fld := ⟨(A.HBK_MCTL i), 31, 1⟩
abbrev F.HBK_MCTL_BUSY (i : Nat) : Fld := ⟨(A.HBK_MCTL i), 30, 1⟩
abbrev F.HBK_MCTL_ERR (i : Nat) : Fld := ⟨(A.HBK_MCTL i), 29, 1⟩
abbrev F.HBK_MCTL_FAIL (i : Nat) : Fld := ⟨(A.HBK_MCTL i), 28, 1⟩
abbrev F.HBK_MCTL_PRESERVE (i : Nat) : Fld := ⟨(A.HBK_MCTL i), 8, 1⟩
/-- HBK_MSTAT: R534 of 12_hub_memory_and_network.md. -/
abbrev A.HBK_MSTAT (i : Nat) : Nat := 0xD0504 + 8 * i
abbrev F.HBK_MSTAT_VALID (i : Nat) : Fld := ⟨(A.HBK_MSTAT i), 31, 1⟩
abbrev F.HBK_MSTAT_MORE (i : Nat) : Fld := ⟨(A.HBK_MSTAT i), 30, 1⟩
abbrev F.HBK_MSTAT_SKIP (i : Nat) : Fld := ⟨(A.HBK_MSTAT i), 16, 9⟩
abbrev F.HBK_MSTAT_WORD (i : Nat) : Fld := ⟨(A.HBK_MSTAT i), 0, 16⟩
/-- HBK_DENY: R535 of 12_hub_memory_and_network.md. -/
abbrev A.HBK_DENY : Nat := 0xD0600
abbrev F.HBK_DENY_VALID : Fld := ⟨A.HBK_DENY, 31, 1⟩
abbrev F.HBK_DENY_MORE : Fld := ⟨A.HBK_DENY, 30, 1⟩
abbrev F.HBK_DENY_WR : Fld := ⟨A.HBK_DENY, 29, 1⟩
abbrev F.HBK_DENY_MASTER : Fld := ⟨A.HBK_DENY, 16, 5⟩
/-- HBK_DENYADDR: R535 of 12_hub_memory_and_network.md. -/
abbrev A.HBK_DENYADDR : Nat := 0xD0604
abbrev F.HBK_DENYADDR_ADDR : Fld := ⟨A.HBK_DENYADDR, 0, 24⟩
/-- HBK_DENYCNT: R535 of 12_hub_memory_and_network.md. -/
abbrev A.HBK_DENYCNT : Nat := 0xD0608
abbrev F.HBK_DENYCNT_COUNT : Fld := ⟨A.HBK_DENYCNT, 0, 32⟩
/-- HBK_LPERR: R536 of 12_hub_memory_and_network.md. -/
abbrev A.HBK_LPERR : Nat := 0xD0610
abbrev F.HBK_LPERR_VALID : Fld := ⟨A.HBK_LPERR, 31, 1⟩
abbrev F.HBK_LPERR_MORE : Fld := ⟨A.HBK_LPERR, 30, 1⟩
abbrev F.HBK_LPERR_BANK : Fld := ⟨A.HBK_LPERR, 20, 5⟩
abbrev F.HBK_LPERR_WORD : Fld := ⟨A.HBK_LPERR, 0, 17⟩
/-- HBK_LPERRCNT: R536 of 12_hub_memory_and_network.md. -/
abbrev A.HBK_LPERRCNT : Nat := 0xD0614
abbrev F.HBK_LPERRCNT_COUNT : Fld := ⟨A.HBK_LPERRCNT, 0, 32⟩
/-- HBK_HRGN: R537 of 12_hub_memory_and_network.md. -/
abbrev A.HBK_HRGN (i : Nat) : Nat := 0xD0804 + 4 * i
abbrev F.HBK_HRGN_VALID (i : Nat) : Fld := ⟨(A.HBK_HRGN i), 31, 1⟩
abbrev F.HBK_HRGN_PSIZE (i : Nat) : Fld := ⟨(A.HBK_HRGN i), 16, 14⟩
abbrev F.HBK_HRGN_PBASE (i : Nat) : Fld := ⟨(A.HBK_HRGN i), 0, 14⟩
/-- HBK_CAM: R538 of 12_hub_memory_and_network.md. -/
abbrev A.HBK_CAM : Nat := 0xD0830
abbrev F.HBK_CAM_CREATE : Fld := ⟨A.HBK_CAM, 31, 1⟩
abbrev F.HBK_CAM_FREE : Fld := ⟨A.HBK_CAM, 30, 1⟩
abbrev F.HBK_CAM_ERR : Fld := ⟨A.HBK_CAM, 29, 1⟩
abbrev F.HBK_CAM_PSIZE : Fld := ⟨A.HBK_CAM, 0, 14⟩
/-- HBK_SCRUB: R539 of 12_hub_memory_and_network.md. -/
abbrev A.HBK_SCRUB : Nat := 0xD0840
abbrev F.HBK_SCRUB_EN : Fld := ⟨A.HBK_SCRUB, 31, 1⟩
abbrev F.HBK_SCRUB_CEEV : Fld := ⟨A.HBK_SCRUB, 30, 1⟩
abbrev F.HBK_SCRUB_HOURS : Fld := ⟨A.HBK_SCRUB, 0, 16⟩
/-- HBK_HCE: R540 of 12_hub_memory_and_network.md. -/
abbrev A.HBK_HCE : Nat := 0xD0844
abbrev F.HBK_HCE_COUNT : Fld := ⟨A.HBK_HCE, 0, 32⟩
/-- HBK_HUE: R540 of 12_hub_memory_and_network.md. -/
abbrev A.HBK_HUE : Nat := 0xD0848
abbrev F.HBK_HUE_VALID : Fld := ⟨A.HBK_HUE, 31, 1⟩
abbrev F.HBK_HUE_MORE : Fld := ⟨A.HBK_HUE, 30, 1⟩
abbrev F.HBK_HUE_SCRUB : Fld := ⟨A.HBK_HUE, 29, 1⟩
abbrev F.HBK_HUE_STACK : Fld := ⟨A.HBK_HUE, 24, 2⟩
/-- HBK_HUEADDR: R540 of 12_hub_memory_and_network.md. -/
abbrev A.HBK_HUEADDR : Nat := 0xD084C
abbrev F.HBK_HUEADDR_LINE : Fld := ⟨A.HBK_HUEADDR, 0, 29⟩
/-- HBK_HTEMP: R541 of 12_hub_memory_and_network.md. -/
abbrev A.HBK_HTEMP : Nat := 0xD0850
abbrev F.HBK_HTEMP_M3 : Fld := ⟨A.HBK_HTEMP, 24, 8⟩
abbrev F.HBK_HTEMP_M2 : Fld := ⟨A.HBK_HTEMP, 16, 8⟩
abbrev F.HBK_HTEMP_M1 : Fld := ⟨A.HBK_HTEMP, 8, 8⟩
abbrev F.HBK_HTEMP_M0 : Fld := ⟨A.HBK_HTEMP, 0, 8⟩
/-- NOC_TMO: R542 of 12_hub_memory_and_network.md. -/
abbrev A.NOC_TMO (i : Nat) : Nat := 0xE0000 + 4 * i
abbrev F.NOC_TMO_US (i : Nat) : Fld := ⟨(A.NOC_TMO i), 0, 10⟩
/-- NOC_FENCE: R543 of 12_hub_memory_and_network.md. -/
abbrev A.NOC_FENCE (i : Nat) : Nat := 0xE0100 + 4 * i
abbrev F.NOC_FENCE_FENCE (i : Nat) : Fld := ⟨(A.NOC_FENCE i), 31, 1⟩
abbrev F.NOC_FENCE_DRAINED (i : Nat) : Fld := ⟨(A.NOC_FENCE i), 30, 1⟩
abbrev F.NOC_FENCE_AUTO (i : Nat) : Fld := ⟨(A.NOC_FENCE i), 29, 1⟩
/-- NOC_RCFG: R544 of 12_hub_memory_and_network.md. -/
abbrev A.NOC_RCFG (i : Nat) : Nat := 0xE0200 + 4 * i
abbrev F.NOC_RCFG_RECONF (i : Nat) : Fld := ⟨(A.NOC_RCFG i), 31, 1⟩
abbrev F.NOC_RCFG_READY (i : Nat) : Fld := ⟨(A.NOC_RCFG i), 30, 1⟩
abbrev F.NOC_RCFG_ABSENT (i : Nat) : Fld := ⟨(A.NOC_RCFG i), 29, 1⟩
/-- NOC_TMOSTAT: R545 of 12_hub_memory_and_network.md. -/
abbrev A.NOC_TMOSTAT : Nat := 0xE0300
abbrev F.NOC_TMOSTAT_VALID : Fld := ⟨A.NOC_TMOSTAT, 31, 1⟩
abbrev F.NOC_TMOSTAT_MORE : Fld := ⟨A.NOC_TMOSTAT, 30, 1⟩
abbrev F.NOC_TMOSTAT_TARGET : Fld := ⟨A.NOC_TMOSTAT, 16, 6⟩
abbrev F.NOC_TMOSTAT_MASTER : Fld := ⟨A.NOC_TMOSTAT, 0, 5⟩
/-- NOC_TMOADDRLO: R545 of 12_hub_memory_and_network.md. -/
abbrev A.NOC_TMOADDRLO : Nat := 0xE0304
abbrev F.NOC_TMOADDRLO_ADDR : Fld := ⟨A.NOC_TMOADDRLO, 0, 32⟩
/-- NOC_TMOADDRHI: R545 of 12_hub_memory_and_network.md. -/
abbrev A.NOC_TMOADDRHI : Nat := 0xE0308
abbrev F.NOC_TMOADDRHI_ADDR : Fld := ⟨A.NOC_TMOADDRHI, 0, 16⟩
/-- NOC_TMOCNT: R546 of 12_hub_memory_and_network.md. -/
abbrev A.NOC_TMOCNT : Nat := 0xE0310
abbrev F.NOC_TMOCNT_COUNT : Fld := ⟨A.NOC_TMOCNT, 0, 32⟩
/-- NOC_LATE: R546 of 12_hub_memory_and_network.md. -/
abbrev A.NOC_LATE : Nat := 0xE0314
abbrev F.NOC_LATE_COUNT : Fld := ⟨A.NOC_LATE, 0, 32⟩
/-- NOC_PERRCNT: R546 of 12_hub_memory_and_network.md. -/
abbrev A.NOC_PERRCNT : Nat := 0xE0318
abbrev F.NOC_PERRCNT_COUNT : Fld := ⟨A.NOC_PERRCNT, 0, 32⟩
/-- NOC_UNMAPCNT: R546 of 12_hub_memory_and_network.md. -/
abbrev A.NOC_UNMAPCNT : Nat := 0xE031C
abbrev F.NOC_UNMAPCNT_COUNT : Fld := ⟨A.NOC_UNMAPCNT, 0, 32⟩
/-- NOC_RTERR: R547 of 12_hub_memory_and_network.md. -/
abbrev A.NOC_RTERR : Nat := 0xE0320
abbrev F.NOC_RTERR_VALID : Fld := ⟨A.NOC_RTERR, 31, 1⟩
abbrev F.NOC_RTERR_MORE : Fld := ⟨A.NOC_RTERR, 30, 1⟩
abbrev F.NOC_RTERR_MASTER : Fld := ⟨A.NOC_RTERR, 24, 5⟩
abbrev F.NOC_RTERR_ENTRY : Fld := ⟨A.NOC_RTERR, 16, 6⟩
abbrev F.NOC_RTERR_CODE : Fld := ⟨A.NOC_RTERR, 0, 3⟩
/-- NOC_RT: R548 of 12_hub_memory_and_network.md. -/
abbrev A.NOC_RT (i : Nat) (j : Nat) : Nat := 0xE1000 + 256 * i + 4 * j
abbrev F.NOC_RT_VALID (i : Nat) (j : Nat) : Fld := ⟨(A.NOC_RT i j), 31, 1⟩
abbrev F.NOC_RT_ORD (i : Nat) (j : Nat) : Fld := ⟨(A.NOC_RT i j), 30, 1⟩
abbrev F.NOC_RT_XDIR (i : Nat) (j : Nat) : Fld := ⟨(A.NOC_RT i j), 29, 1⟩
abbrev F.NOC_RT_NX (i : Nat) (j : Nat) : Fld := ⟨(A.NOC_RT i j), 26, 3⟩
abbrev F.NOC_RT_YDIR (i : Nat) (j : Nat) : Fld := ⟨(A.NOC_RT i j), 25, 1⟩
abbrev F.NOC_RT_NY (i : Nat) (j : Nat) : Fld := ⟨(A.NOC_RT i j), 23, 2⟩
/-- DBG_HALTREQ: R584 of 13_debug_trace_counters.md. -/
abbrev A.DBG_HALTREQ : Nat := 0xF0000
abbrev F.DBG_HALTREQ_REQ : Fld := ⟨A.DBG_HALTREQ, 0, 16⟩
/-- DBG_SESS: R585 of 13_debug_trace_counters.md. -/
abbrev A.DBG_SESS : Nat := 0xF0004
abbrev F.DBG_SESS_NDBG : Fld := ⟨A.DBG_SESS, 8, 6⟩
abbrev F.DBG_SESS_NSESS : Fld := ⟨A.DBG_SESS, 0, 6⟩
/-- DBG_AUTHFAIL: R585 of 13_debug_trace_counters.md. -/
abbrev A.DBG_AUTHFAIL : Nat := 0xF0008
abbrev F.DBG_AUTHFAIL_COUNT : Fld := ⟨A.DBG_AUTHFAIL, 0, 32⟩
/-- DBG_TAGFAIL: R585 of 13_debug_trace_counters.md. -/
abbrev A.DBG_TAGFAIL : Nat := 0xF000C
abbrev F.DBG_TAGFAIL_COUNT : Fld := ⟨A.DBG_TAGFAIL, 0, 32⟩
/-- DBG_MBSTAT: R586 of 13_debug_trace_counters.md. -/
abbrev A.DBG_MBSTAT (i : Nat) : Nat := 0xF0100 + 4 * i
abbrev F.DBG_MBSTAT_INFULL (i : Nat) : Fld := ⟨(A.DBG_MBSTAT i), 31, 1⟩
abbrev F.DBG_MBSTAT_OUTBUSY (i : Nat) : Fld := ⟨(A.DBG_MBSTAT i), 30, 1⟩
abbrev F.DBG_MBSTAT_INLEN (i : Nat) : Fld := ⟨(A.DBG_MBSTAT i), 16, 9⟩
/-- DBG_MBSEND: R586 of 13_debug_trace_counters.md. -/
abbrev A.DBG_MBSEND (i : Nat) : Nat := 0xF0140 + 4 * i
abbrev F.DBG_MBSEND_SEND (i : Nat) : Fld := ⟨(A.DBG_MBSEND i), 31, 1⟩
abbrev F.DBG_MBSEND_LEN (i : Nat) : Fld := ⟨(A.DBG_MBSEND i), 0, 9⟩
/-- DBG_MBIN: R586 of 13_debug_trace_counters.md. -/
abbrev A.DBG_MBIN (i : Nat) (j : Nat) : Nat := 0xF1000 + 256 * i + 4 * j
abbrev F.DBG_MBIN_DATA (i : Nat) (j : Nat) : Fld := ⟨(A.DBG_MBIN i j), 0, 32⟩
/-- DBG_MBOUT: R586 of 13_debug_trace_counters.md. -/
abbrev A.DBG_MBOUT (i : Nat) (j : Nat) : Nat := 0xF2000 + 256 * i + 4 * j
abbrev F.DBG_MBOUT_DATA (i : Nat) (j : Nat) : Fld := ⟨(A.DBG_MBOUT i j), 0, 32⟩
/-- TRC_CTL: R587 of 13_debug_trace_counters.md. -/
abbrev A.TRC_CTL : Nat := 0x100000
abbrev F.TRC_CTL_OUT : Fld := ⟨A.TRC_CTL, 0, 2⟩
/-- TRC_STAT: R587 of 13_debug_trace_counters.md. -/
abbrev A.TRC_STAT : Nat := 0x100004
abbrev F.TRC_STAT_LEVEL : Fld := ⟨A.TRC_STAT, 0, 17⟩
/-- TRC_AUTH: R587 of 13_debug_trace_counters.md. -/
abbrev A.TRC_AUTH : Nat := 0x100008
abbrev F.TRC_AUTH_PRIV : Fld := ⟨A.TRC_AUTH, 0, 1⟩
/-- TRC_LOST: R587 of 13_debug_trace_counters.md. -/
abbrev A.TRC_LOST : Nat := 0x10000C
abbrev F.TRC_LOST_COUNT : Fld := ⟨A.TRC_LOST, 0, 32⟩
/-- TRC_SRC: R588 of 13_debug_trace_counters.md. -/
abbrev A.TRC_SRC (i : Nat) : Nat := 0x100100 + 4 * i
abbrev F.TRC_SRC_EN (i : Nat) : Fld := ⟨(A.TRC_SRC i), 31, 1⟩
abbrev F.TRC_SRC_LOOP (i : Nat) : Fld := ⟨(A.TRC_SRC i), 30, 1⟩
abbrev F.TRC_SRC_MINRUN (i : Nat) : Fld := ⟨(A.TRC_SRC i), 0, 16⟩
/-- TRC_MSG: R589 of 13_debug_trace_counters.md. -/
abbrev A.TRC_MSG : Nat := 0x100200
abbrev F.TRC_MSG_DATA : Fld := ⟨A.TRC_MSG, 0, 32⟩
/-- PMC_CNT: R590 of 13_debug_trace_counters.md. -/
abbrev A.PMC_CNT (i : Nat) (j : Nat) : Nat := 0x110000 + 32 * i + 4 * j
abbrev F.PMC_CNT_COUNT (i : Nat) (j : Nat) : Fld := ⟨(A.PMC_CNT i j), 0, 32⟩
/-- PMC_SEL: R591 of 13_debug_trace_counters.md. -/
abbrev A.PMC_SEL (i : Nat) (j : Nat) : Nat := 0x110200 + 32 * i + 4 * j
abbrev F.PMC_SEL_EN (i : Nat) (j : Nat) : Fld := ⟨(A.PMC_SEL i j), 31, 1⟩
abbrev F.PMC_SEL_THR (i : Nat) (j : Nat) : Fld := ⟨(A.PMC_SEL i j), 30, 1⟩
abbrev F.PMC_SEL_U (i : Nat) (j : Nat) : Fld := ⟨(A.PMC_SEL i j), 29, 1⟩
abbrev F.PMC_SEL_P (i : Nat) (j : Nat) : Fld := ⟨(A.PMC_SEL i j), 28, 1⟩
abbrev F.PMC_SEL_M (i : Nat) (j : Nat) : Fld := ⟨(A.PMC_SEL i j), 27, 1⟩
abbrev F.PMC_SEL_OVFEV (i : Nat) (j : Nat) : Fld := ⟨(A.PMC_SEL i j), 25, 1⟩
abbrev F.PMC_SEL_N (i : Nat) (j : Nat) : Fld := ⟨(A.PMC_SEL i j), 8, 8⟩
abbrev F.PMC_SEL_EVENT (i : Nat) (j : Nat) : Fld := ⟨(A.PMC_SEL i j), 0, 8⟩
/-- PMC_OVF: R592 of 13_debug_trace_counters.md. -/
abbrev A.PMC_OVF (i : Nat) : Nat := 0x110400 + 4 * i
abbrev F.PMC_OVF_OVF (i : Nat) : Fld := ⟨(A.PMC_OVF i), 0, 32⟩
/-- PMC_GCTL: R592 of 13_debug_trace_counters.md. -/
abbrev A.PMC_GCTL : Nat := 0x110410
abbrev F.PMC_GCTL_CLEAR : Fld := ⟨A.PMC_GCTL, 1, 1⟩
abbrev F.PMC_GCTL_FREEZE : Fld := ⟨A.PMC_GCTL, 0, 1⟩
/-- PMC_ASTEPLO: R593 of 13_debug_trace_counters.md. -/
abbrev A.PMC_ASTEPLO : Nat := 0x110420
abbrev F.PMC_ASTEPLO_VAL : Fld := ⟨A.PMC_ASTEPLO, 0, 32⟩
/-- PMC_ASTEPHI: R593 of 13_debug_trace_counters.md. -/
abbrev A.PMC_ASTEPHI : Nat := 0x110424
abbrev F.PMC_ASTEPHI_VAL : Fld := ⟨A.PMC_ASTEPHI, 0, 32⟩
/-- PMC_ASCRLO: R593 of 13_debug_trace_counters.md. -/
abbrev A.PMC_ASCRLO : Nat := 0x110428
abbrev F.PMC_ASCRLO_VAL : Fld := ⟨A.PMC_ASCRLO, 0, 32⟩
/-- PMC_ASCRHI: R593 of 13_debug_trace_counters.md. -/
abbrev A.PMC_ASCRHI : Nat := 0x11042C
abbrev F.PMC_ASCRHI_VAL : Fld := ⟨A.PMC_ASCRHI, 0, 32⟩
/-- PMC_ACYCLO: R593 of 13_debug_trace_counters.md. -/
abbrev A.PMC_ACYCLO : Nat := 0x110430
abbrev F.PMC_ACYCLO_VAL : Fld := ⟨A.PMC_ACYCLO, 0, 32⟩
/-- PMC_ACYCHI: R593 of 13_debug_trace_counters.md. -/
abbrev A.PMC_ACYCHI : Nat := 0x110434
abbrev F.PMC_ACYCHI_VAL : Fld := ⟨A.PMC_ACYCHI, 0, 32⟩
/-- PMC_CHOCC: R593 of 13_debug_trace_counters.md. -/
abbrev A.PMC_CHOCC : Nat := 0x110438
abbrev F.PMC_CHOCC_VAL : Fld := ⟨A.PMC_CHOCC, 0, 32⟩
/-- PMC_CHOCCMAX: R593 of 13_debug_trace_counters.md. -/
abbrev A.PMC_CHOCCMAX : Nat := 0x11043C
abbrev F.PMC_CHOCCMAX_VAL : Fld := ⟨A.PMC_CHOCCMAX, 0, 32⟩
/-- PMC_SBCTL: R594 of 13_debug_trace_counters.md. -/
abbrev A.PMC_SBCTL : Nat := 0x110500
abbrev F.PMC_SBCTL_KIND : Fld := ⟨A.PMC_SBCTL, 30, 2⟩
abbrev F.PMC_SBCTL_MINLAT : Fld := ⟨A.PMC_SBCTL, 20, 10⟩
abbrev F.PMC_SBCTL_PERIOD : Fld := ⟨A.PMC_SBCTL, 0, 20⟩
/-- PMC_SBSTAT: R594 of 13_debug_trace_counters.md. -/
abbrev A.PMC_SBSTAT : Nat := 0x110504
abbrev F.PMC_SBSTAT_HEAD : Fld := ⟨A.PMC_SBSTAT, 16, 9⟩
abbrev F.PMC_SBSTAT_COUNT : Fld := ⟨A.PMC_SBSTAT, 0, 10⟩
/-- PMC_SBFREE: R594 of 13_debug_trace_counters.md. -/
abbrev A.PMC_SBFREE : Nat := 0x110508
abbrev F.PMC_SBFREE_N : Fld := ⟨A.PMC_SBFREE, 0, 10⟩
/-- PMC_SBWM: R594 of 13_debug_trace_counters.md. -/
abbrev A.PMC_SBWM : Nat := 0x11050C
abbrev F.PMC_SBWM_WM : Fld := ⟨A.PMC_SBWM, 0, 10⟩
/-- PMC_SBLOST: R594 of 13_debug_trace_counters.md. -/
abbrev A.PMC_SBLOST : Nat := 0x110510
abbrev F.PMC_SBLOST_COUNT : Fld := ⟨A.PMC_SBLOST, 0, 32⟩
/-- PMC_SBOWN: R594 of 13_debug_trace_counters.md. -/
abbrev A.PMC_SBOWN : Nat := 0x110514
abbrev F.PMC_SBOWN_VALID : Fld := ⟨A.PMC_SBOWN, 4, 1⟩
abbrev F.PMC_SBOWN_CORE : Fld := ⟨A.PMC_SBOWN, 0, 4⟩
/-- PMC_SBEN: R594 of 13_debug_trace_counters.md. -/
abbrev A.PMC_SBEN (i : Nat) : Nat := 0x110540 + 4 * i
abbrev F.PMC_SBEN_EN (i : Nat) : Fld := ⟨(A.PMC_SBEN i), 0, 1⟩
/-- PMC_SBREC: R594 of 13_debug_trace_counters.md. -/
abbrev A.PMC_SBREC (i : Nat) (j : Nat) : Nat := 0x114000 + 16 * i + 4 * j
abbrev F.PMC_SBREC_DATA (i : Nat) (j : Nat) : Fld := ⟨(A.PMC_SBREC i j), 0, 32⟩
/-- PMC_DCTL: R595 of 13_debug_trace_counters.md. -/
abbrev A.PMC_DCTL : Nat := 0x110600
abbrev F.PMC_DCTL_MODE : Fld := ⟨A.PMC_DCTL, 30, 2⟩
abbrev F.PMC_DCTL_CHAN : Fld := ⟨A.PMC_DCTL, 29, 1⟩
abbrev F.PMC_DCTL_NOW : Fld := ⟨A.PMC_DCTL, 28, 1⟩
abbrev F.PMC_DCTL_PERIOD : Fld := ⟨A.PMC_DCTL, 0, 24⟩
/-- PMC_DBASELO: R595 of 13_debug_trace_counters.md. -/
abbrev A.PMC_DBASELO : Nat := 0x110604
abbrev F.PMC_DBASELO_ADDR : Fld := ⟨A.PMC_DBASELO, 6, 26⟩
/-- PMC_DBASEHI: R595 of 13_debug_trace_counters.md. -/
abbrev A.PMC_DBASEHI : Nat := 0x110608
abbrev F.PMC_DBASEHI_ADDR : Fld := ⟨A.PMC_DBASEHI, 0, 16⟩
/-- PMC_DNUM: R595 of 13_debug_trace_counters.md. -/
abbrev A.PMC_DNUM : Nat := 0x11060C
abbrev F.PMC_DNUM_N : Fld := ⟨A.PMC_DNUM, 0, 16⟩
/-- PMC_DSEQ: R595 of 13_debug_trace_counters.md. -/
abbrev A.PMC_DSEQ : Nat := 0x110610
abbrev F.PMC_DSEQ_SEQ : Fld := ⟨A.PMC_DSEQ, 0, 32⟩
/-- PMC_DMISS: R595 of 13_debug_trace_counters.md. -/
abbrev A.PMC_DMISS : Nat := 0x110614
abbrev F.PMC_DMISS_COUNT : Fld := ⟨A.PMC_DMISS, 0, 32⟩
/-- FIO_CTL: R622 of 14_field_io.md. -/
abbrev A.FIO_CTL : Nat := 0x120000
abbrev F.FIO_CTL_RSEV : Fld := ⟨A.FIO_CTL, 2, 1⟩
abbrev F.FIO_CTL_CONTEV : Fld := ⟨A.FIO_CTL, 1, 1⟩
/-- FIO_STAT: R623 of 14_field_io.md. -/
abbrev A.FIO_STAT : Nat := 0x120004
abbrev F.FIO_STAT_UP : Fld := ⟨A.FIO_STAT, 31, 1⟩
abbrev F.FIO_STAT_DRIVE : Fld := ⟨A.FIO_STAT, 30, 1⟩
abbrev F.FIO_STAT_LATE : Fld := ⟨A.FIO_STAT, 29, 1⟩
abbrev F.FIO_STAT_SEQ : Fld := ⟨A.FIO_STAT, 16, 8⟩
abbrev F.FIO_STAT_PG : Fld := ⟨A.FIO_STAT, 0, 16⟩
/-- FIO_TMO: R624 of 14_field_io.md. -/
abbrev A.FIO_TMO : Nat := 0x120008
abbrev F.FIO_TMO_US : Fld := ⟨A.FIO_TMO, 0, 16⟩
/-- FIO_PERIOD: R625 of 14_field_io.md. -/
abbrev A.FIO_PERIOD : Nat := 0x12000C
abbrev F.FIO_PERIOD_NS : Fld := ⟨A.FIO_PERIOD, 0, 32⟩
/-- FIO_HELD: R625 of 14_field_io.md. -/
abbrev A.FIO_HELD : Nat := 0x120010
abbrev F.FIO_HELD_GRAINS : Fld := ⟨A.FIO_HELD, 0, 16⟩
/-- FIO_PERMAX: R625 of 14_field_io.md. -/
abbrev A.FIO_PERMAX : Nat := 0x120014
abbrev F.FIO_PERMAX_NS : Fld := ⟨A.FIO_PERMAX, 0, 32⟩
/-- FIO_BADSTAT: R626 of 14_field_io.md. -/
abbrev A.FIO_BADSTAT : Nat := 0x120018
abbrev F.FIO_BADSTAT_VALID : Fld := ⟨A.FIO_BADSTAT, 31, 1⟩
abbrev F.FIO_BADSTAT_MORE : Fld := ⟨A.FIO_BADSTAT, 30, 1⟩
abbrev F.FIO_BADSTAT_KIND : Fld := ⟨A.FIO_BADSTAT, 24, 3⟩
abbrev F.FIO_BADSTAT_SEQ : Fld := ⟨A.FIO_BADSTAT, 0, 8⟩
/-- FIO_LATECNT: R627 of 14_field_io.md. -/
abbrev A.FIO_LATECNT : Nat := 0x12001C
abbrev F.FIO_LATECNT_COUNT : Fld := ⟨A.FIO_LATECNT, 0, 32⟩
/-- FIO_CRCCNT: R627 of 14_field_io.md. -/
abbrev A.FIO_CRCCNT : Nat := 0x120020
abbrev F.FIO_CRCCNT_COUNT : Fld := ⟨A.FIO_CRCCNT, 0, 32⟩
/-- FIO_CONTCNT: R627 of 14_field_io.md. -/
abbrev A.FIO_CONTCNT : Nat := 0x120024
abbrev F.FIO_CONTCNT_COUNT : Fld := ⟨A.FIO_CONTCNT, 0, 32⟩
/-- FIO_BANK: R628 of 14_field_io.md. -/
abbrev A.FIO_BANK (i : Nat) : Nat := 0x120100 + 4 * i
abbrev F.FIO_BANK_PG (i : Nat) : Fld := ⟨(A.FIO_BANK i), 31, 1⟩
abbrev F.FIO_BANK_FAULT (i : Nat) : Fld := ⟨(A.FIO_BANK i), 30, 1⟩
abbrev F.FIO_BANK_ERR (i : Nat) : Fld := ⟨(A.FIO_BANK i), 29, 1⟩
abbrev F.FIO_BANK_VSEL (i : Nat) : Fld := ⟨(A.FIO_BANK i), 0, 3⟩
/-- FIO_CONT: R629 of 14_field_io.md. -/
abbrev A.FIO_CONT (i : Nat) : Nat := 0x120200 + 4 * i
abbrev F.FIO_CONT_FLAGS (i : Nat) : Fld := ⟨(A.FIO_CONT i), 0, 32⟩
/-- FIO_CELL: R630 of 14_field_io.md. -/
abbrev A.FIO_CELL (i : Nat) : Nat := 0x121000 + 4 * i
abbrev F.FIO_CELL_PULL (i : Nat) : Fld := ⟨(A.FIO_CELL i), 14, 2⟩
abbrev F.FIO_CELL_KEEP (i : Nat) : Fld := ⟨(A.FIO_CELL i), 13, 1⟩
abbrev F.FIO_CELL_SLEW (i : Nat) : Fld := ⟨(A.FIO_CELL i), 10, 2⟩
abbrev F.FIO_CELL_DRIVE (i : Nat) : Fld := ⟨(A.FIO_CELL i), 8, 2⟩
abbrev F.FIO_CELL_FILT (i : Nat) : Fld := ⟨(A.FIO_CELL i), 4, 3⟩
abbrev F.FIO_CELL_CDEN (i : Nat) : Fld := ⟨(A.FIO_CELL i), 1, 1⟩
/-- MGT_MODE: R666 of 15_modes_power_management.md. -/
abbrev A.MGT_MODE : Nat := 0x130000
abbrev F.MGT_MODE_MODE : Fld := ⟨A.MGT_MODE, 28, 4⟩
abbrev F.MGT_MODE_BURST : Fld := ⟨A.MGT_MODE, 24, 1⟩
abbrev F.MGT_MODE_REASON : Fld := ⟨A.MGT_MODE, 16, 5⟩
/-- MGT_SAFE: R666 of 15_modes_power_management.md. -/
abbrev A.MGT_SAFE : Nat := 0x130004
abbrev F.MGT_SAFE_REQ : Fld := ⟨A.MGT_SAFE, 0, 1⟩
/-- MGT_BOOT: R666 of 15_modes_power_management.md. -/
abbrev A.MGT_BOOT : Nat := 0x130008
abbrev F.MGT_BOOT_DONE : Fld := ⟨A.MGT_BOOT, 31, 1⟩
abbrev F.MGT_BOOT_STAGE : Fld := ⟨A.MGT_BOOT, 24, 4⟩
abbrev F.MGT_BOOT_MS : Fld := ⟨A.MGT_BOOT, 0, 16⟩
/-- MGT_SERLO: R667 of 15_modes_power_management.md. -/
abbrev A.MGT_SERLO : Nat := 0x13000C
abbrev F.MGT_SERLO_SERIAL : Fld := ⟨A.MGT_SERLO, 0, 32⟩
/-- MGT_SERHI: R667 of 15_modes_power_management.md. -/
abbrev A.MGT_SERHI : Nat := 0x130010
abbrev F.MGT_SERHI_SERIAL : Fld := ⟨A.MGT_SERHI, 0, 32⟩
/-- MGT_ID: R667 of 15_modes_power_management.md. -/
abbrev A.MGT_ID : Nat := 0x130014
abbrev F.MGT_ID_GRADE : Fld := ⟨A.MGT_ID, 16, 16⟩
abbrev F.MGT_ID_FWVER : Fld := ⟨A.MGT_ID, 0, 16⟩
/-- MGT_MACLO: R667 of 15_modes_power_management.md. -/
abbrev A.MGT_MACLO : Nat := 0x130018
abbrev F.MGT_MACLO_MAC : Fld := ⟨A.MGT_MACLO, 0, 32⟩
/-- MGT_MACHI: R667 of 15_modes_power_management.md. -/
abbrev A.MGT_MACHI : Nat := 0x13001C
abbrev F.MGT_MACHI_MAC : Fld := ⟨A.MGT_MACHI, 0, 16⟩
/-- MGT_UPD: R667 of 15_modes_power_management.md. -/
abbrev A.MGT_UPD : Nat := 0x130020
abbrev F.MGT_UPD_RUNSLOT : Fld := ⟨A.MGT_UPD, 31, 1⟩
abbrev F.MGT_UPD_TRIAL : Fld := ⟨A.MGT_UPD, 28, 2⟩
abbrev F.MGT_UPD_TRIES : Fld := ⟨A.MGT_UPD, 24, 2⟩
abbrev F.MGT_UPD_RBCNT : Fld := ⟨A.MGT_UPD, 0, 7⟩
/-- MGT_CLKSTAT: R668 of 15_modes_power_management.md. -/
abbrev A.MGT_CLKSTAT : Nat := 0x130024
abbrev F.MGT_CLKSTAT_VALID : Fld := ⟨A.MGT_CLKSTAT, 31, 1⟩
abbrev F.MGT_CLKSTAT_FIRST : Fld := ⟨A.MGT_CLKSTAT, 26, 5⟩
abbrev F.MGT_CLKSTAT_LOST : Fld := ⟨A.MGT_CLKSTAT, 0, 25⟩
/-- PWR_IN: R669 of 15_modes_power_management.md. -/
abbrev A.PWR_IN : Nat := 0x140000
abbrev F.PWR_IN_IIN : Fld := ⟨A.PWR_IN, 16, 16⟩
abbrev F.PWR_IN_VIN : Fld := ⟨A.PWR_IN, 0, 16⟩
/-- PWR_PIN: R669 of 15_modes_power_management.md. -/
abbrev A.PWR_PIN : Nat := 0x140004
abbrev F.PWR_PIN_P : Fld := ⟨A.PWR_PIN, 0, 16⟩
/-- PWR_PMAX: R669 of 15_modes_power_management.md. -/
abbrev A.PWR_PMAX : Nat := 0x140008
abbrev F.PWR_PMAX_P : Fld := ⟨A.PWR_PMAX, 0, 16⟩
/-- PWR_THM: R669 of 15_modes_power_management.md. -/
abbrev A.PWR_THM : Nat := 0x14000C
abbrev F.PWR_THM_INLET : Fld := ⟨A.PWR_THM, 16, 16⟩
abbrev F.PWR_THM_TJMAX : Fld := ⟨A.PWR_THM, 0, 16⟩
/-- PWR_TSTAT: R669 of 15_modes_power_management.md. -/
abbrev A.PWR_TSTAT : Nat := 0x140010
abbrev F.PWR_TSTAT_HOT : Fld := ⟨A.PWR_TSTAT, 31, 1⟩
abbrev F.PWR_TSTAT_TRIP : Fld := ⟨A.PWR_TSTAT, 30, 1⟩
abbrev F.PWR_TSTAT_INLETW : Fld := ⟨A.PWR_TSTAT, 29, 1⟩
abbrev F.PWR_TSTAT_PLIM : Fld := ⟨A.PWR_TSTAT, 28, 1⟩
abbrev F.PWR_TSTAT_SRC : Fld := ⟨A.PWR_TSTAT, 0, 6⟩
/-- PWR_LIM: R669 of 15_modes_power_management.md. -/
abbrev A.PWR_LIM : Nat := 0x140014
abbrev F.PWR_LIM_THROT : Fld := ⟨A.PWR_LIM, 24, 8⟩
abbrev F.PWR_LIM_INLETW : Fld := ⟨A.PWR_LIM, 16, 8⟩
abbrev F.PWR_LIM_PLIM : Fld := ⟨A.PWR_LIM, 0, 16⟩
/-- PWR_TEMP: R670 of 15_modes_power_management.md. -/
abbrev A.PWR_TEMP (i : Nat) : Nat := 0x140100 + 4 * i
abbrev F.PWR_TEMP_VALID (i : Nat) : Fld := ⟨(A.PWR_TEMP i), 31, 1⟩
abbrev F.PWR_TEMP_T (i : Nat) : Fld := ⟨(A.PWR_TEMP i), 0, 16⟩
/-- PWR_RAIL: R671 of 15_modes_power_management.md. -/
abbrev A.PWR_RAIL (i : Nat) : Nat := 0x140200 + 4 * i
abbrev F.PWR_RAIL_I (i : Nat) : Fld := ⟨(A.PWR_RAIL i), 16, 16⟩
abbrev F.PWR_RAIL_V (i : Nat) : Fld := ⟨(A.PWR_RAIL i), 0, 16⟩

/-- The registers of block ARR (R493). -/
def rowsARR : List RegRow := [
  { base := 0x0, ro := 0x703FFFF, w1c := 0xC0000000 },
  { base := 0x4, ro := 0x7FF07FF },
  { base := 0x10, rw := 0x3 },
  { base := 0x14, ro := 0x3FFFF, w1c := 0xC0000000 },
  { base := 0x18, ro := 0x7FF },
  { base := 0x1C, ro := 0xFFFFFFFF },
  { base := 0x20, ro := 0xFFFFFFFF },
  { base := 0x24, rc := 0xFFFFFFFF },
  { base := 0x30, ro := 0x3FFFF, w1c := 0xC0000000 },
  { base := 0x34, ro := 0x7FF },
  { base := 0x38, rc := 0xFFFFFFFF }]

/-- The registers of block SFB (R493). -/
def rowsSFB : List RegRow := [
  { base := 0x10000, ro := 0xFFF01FF },
  { base := 0x10004, ro := 0xFFFFFFFF, rst := 0x8 },
  { base := 0x10008, rw := 0xFFF, ro := 0x87000000 },
  { base := 0x1000C, rw := 0xF, ro := 0xF0F0F00 },
  { base := 0x10010, ro := 0x80000FFF },
  { base := 0x10014, rw := 0x3 },
  { base := 0x10018, ro := 0x800007DE, w1c := 0x21 },
  { base := 0x1001C, rw := 0xFFFFFF },
  { base := 0x10020, ro := 0xFFFFFFFF },
  { base := 0x10024, ro := 0xFFFFFFFF },
  { base := 0x10028, ro := 0xFFFFFFFF },
  { base := 0x10030, ro := 0x3707C00, w1c := 0xE0000000 },
  { base := 0x10034, ro := 0x7FFFFFF },
  { base := 0x10100, n1 := 11, s1 := 8, ro := 0xFFFFFFFF },
  { base := 0x10104, n1 := 11, s1 := 8, ro := 0xFFFFFFFF }]

/-- The registers of block DMC (R493). -/
def rowsDMC : List RegRow := [
  { base := 0x20000, rw := 0xF },
  { base := 0x20004, ro := 0xF0F },
  { base := 0x20010, ro := 0x37F007F, w1c := 0xC0000000 },
  { base := 0x20014, ro := 0xFFFFFFF },
  { base := 0x20020, ro := 0x2FFF37FF, w1c := 0xC0000000 },
  { base := 0x20024, ro := 0xFFFFFFFF },
  { base := 0x20028, rc := 0xFFFFFFFF },
  { base := 0x2002C, rc := 0xFFFFFFFF },
  { base := 0x20030, ro := 0xFFFF7FF, w1c := 0xC0000000 },
  { base := 0x20034, ro := 0xFFFFFFFF },
  { base := 0x20038, rc := 0xFFFFFFFF },
  { base := 0x20040, ro := 0xFFF37FF, w1c := 0xC0000000 },
  { base := 0x20044, ro := 0xFFFFFFFF },
  { base := 0x20048, rc := 0xFFFFFFFF },
  { base := 0x20050, n1 := 5, s1 := 4, ro := 0xFFFFFFFF },
  { base := 0x20064, ro := 0xFFFFFF },
  { base := 0x20400, n1 := 128, s1 := 4, w1c := 0xFFFFFFFF }]

/-- The registers of block SNP (R493). -/
def rowsSNP : List RegRow := [
  { base := 0x30000, rw := 0x7F0000, rst := 0x400000 },
  { base := 0x30004, ro := 0x70100FF },
  { base := 0x30008, ro := 0xFFFFFFFF },
  { base := 0x3000C, ro := 0xFFFFFFFF },
  { base := 0x30010, ro := 0xFFFFFFFF },
  { base := 0x30014, ro := 0x7FFFFFF },
  { base := 0x30018, ro := 0xFFFFFFFF },
  { base := 0x3001C, ro := 0xFFFFFFFF },
  { base := 0x30020, rc := 0xFFFFFFFF },
  { base := 0x30024, rc := 0xFFFFFFFF }]

/-- The registers of block TRG (R493). -/
def rowsTRG : List RegRow := [
  { base := 0x40000, rw := 0x1FFFFFFF },
  { base := 0x40004, rw := 0x1F, ro := 0xFF0000, rst := 0x10000 },
  { base := 0x40008, ro := 0x7FFFFFF },
  { base := 0x40010, ro := 0xFFFFFFFF },
  { base := 0x40014, ro := 0xFFFFFFFF },
  { base := 0x40018, ro := 0x6700003F, w1c := 0x80000000 },
  { base := 0x4001C, ro := 0xFFFFFFFF },
  { base := 0x40020, ro := 0xFFFFFFFF },
  { base := 0x40024, ro := 0xFFFFFFFF },
  { base := 0x40028, ro := 0xFFFFFFFF },
  { base := 0x4002C, rc := 0xFFFFFFFF },
  { base := 0x40100, n1 := 64, s1 := 16, rw := 0x8F7DFFFF },
  { base := 0x40104, n1 := 64, s1 := 16, rw := 0xFFFFFFFF },
  { base := 0x40108, n1 := 64, s1 := 16, rw := 0xFFFFFFFF },
  { base := 0x4010C, n1 := 64, s1 := 16, ro := 0xC0000000 },
  { base := 0x40800, n1 := 8, s1 := 32, rw := 0xFFFFFFFF },
  { base := 0x40804, n1 := 8, s1 := 32, rw := 0xFFFFFFFF },
  { base := 0x40808, n1 := 8, s1 := 32, rw := 0xFFFFFFFF },
  { base := 0x4080C, n1 := 8, s1 := 32, rw := 0xFFFFFFFF },
  { base := 0x40810, n1 := 8, s1 := 32, rw := 0xE7701F1F },
  { base := 0x40814, n1 := 8, s1 := 32, rw := 0xFFFFFF }]

/-- The registers of block ACQ (R493). -/
def rowsACQ : List RegRow := [
  { base := 0x50000, rw := 0x100, ro := 0xEF000000 },
  { base := 0x50004, rw := 0xFFFFFFFF },
  { base := 0x50008, rw := 0xFFFF },
  { base := 0x5000C, rw := 0x3FF7FFF },
  { base := 0x50010, rw := 0xFFFFFF },
  { base := 0x50014, rw := 0xFFFFFF },
  { base := 0x50018, rw := 0x1FFFFFF },
  { base := 0x5001C, rw := 0xFFFFF },
  { base := 0x50020, rw := 0xFFFFF },
  { base := 0x50024, ro := 0xFFFFFFFF },
  { base := 0x50028, ro := 0xFFFFFFFF },
  { base := 0x5002C, ro := 0xFFFFFFFF },
  { base := 0x50030, rc := 0xFFFFFFFF },
  { base := 0x50034, rc := 0xFFFFFFFF },
  { base := 0x50038, ro := 0xFFFF },
  { base := 0x50040, n1 := 6, s1 := 4, rw := 0xFFFF, ro := 0x80000000, rst := 0x80000000 },
  { base := 0x50058, rw := 0xFFFFFFFF }]

/-- The registers of block LNK (R493). -/
def rowsLNK : List RegRow := [
  { base := 0x60000, n1 := 6, s1 := 256, rw := 0x80000007 },
  { base := 0x60004, n1 := 6, s1 := 256, ro := 0xE00F0700 },
  { base := 0x60008, n1 := 6, s1 := 256, ro := 0xFFFFFFFF },
  { base := 0x6000C, n1 := 6, s1 := 256, ro := 0xFFFFFFFF },
  { base := 0x60010, n1 := 6, s1 := 256, ro := 0xFFFFFF07 },
  { base := 0x60014, n1 := 6, s1 := 256, ro := 0xFFFFFFFF },
  { base := 0x60018, n1 := 6, s1 := 256, rc := 0xFFFFFFFF },
  { base := 0x6001C, n1 := 6, s1 := 256, rc := 0xFFFFFFFF },
  { base := 0x60020, n1 := 6, s1 := 256, rw := 0xFFFF },
  { base := 0x60024, n1 := 6, s1 := 256, rw := 0xF3F7F1F, ro := 0x60000000, rst := 0xA },
  { base := 0x60028, n1 := 6, s1 := 256, ro := 0xFFFFFFFF },
  { base := 0x60044, n1 := 6, s1 := 256, n2 := 11, s2 := 4, rc := 0xFFFFFFFF },
  { base := 0x60800, ro := 0x3 },
  { base := 0x60804, ro := 0xFF, rst := 0x38 },
  { base := 0x60808, ro := 0x3000701, w1c := 0xC0000000 }]

/-- The registers of block LGE (R493). -/
def rowsLGE : List RegRow := [
  { base := 0x70000, rw := 0x100 },
  { base := 0x70004, rw := 0xFFFFE000 },
  { base := 0x70008, rw := 0xFFFFFFFF },
  { base := 0x7000C, rw := 0xFFFF },
  { base := 0x70010, ro := 0xF073F07F, rst := 0x700001 },
  { base := 0x70014, ro := 0x3FFFF },
  { base := 0x70018, ro := 0xFFFFFFFF },
  { base := 0x7001C, ro := 0xFFFFFFFF },
  { base := 0x70020, ro := 0xFFFFFFFF },
  { base := 0x70024, ro := 0xFFFFFFFF },
  { base := 0x70028, ro := 0xFFFFFFFF },
  { base := 0x7002C, ro := 0xFFFFFFFF },
  { base := 0x70030, ro := 0xFFFFFFFF },
  { base := 0x70034, ro := 0xFFFFFFFF },
  { base := 0x70038, ro := 0x700073F, w1c := 0xC0000000 }]

/-- The registers of block TIM (R493). -/
def rowsTIM : List RegRow := [
  { base := 0x80000, rw := 0x7FF },
  { base := 0x80004, ro := 0xE7000000, w1c := 0x18000000, rst := 0x40000000 },
  { base := 0x80008, rw := 0xFFFF },
  { base := 0x8000C, rw := 0xFFFFFFFF },
  { base := 0x80010, rw := 0x3FFFFFFF },
  { base := 0x80014, ro := 0xFFFF },
  { base := 0x80018, ro := 0xFFFFFFFF },
  { base := 0x8001C, ro := 0xFFFFFFFF },
  { base := 0x80020, rw := 0xFFFF, rst := 0x10 },
  { base := 0x80024, rw := 0xFFFF, rst := 0x64 },
  { base := 0x80028, ro := 0xFFFFFFFF },
  { base := 0x8002C, ro := 0xFFFFFFFF },
  { base := 0x80030, ro := 0xFFFFFFFF },
  { base := 0x80034, ro := 0xFFFFFFFF },
  { base := 0x80040, n1 := 6, s1 := 4, rw := 0xFFFFFF },
  { base := 0x80058, n1 := 2, s1 := 4, rw := 0xFFFFFF },
  { base := 0x80100, n1 := 16, s1 := 32, rw := 0xFFFFFFFF },
  { base := 0x80104, n1 := 16, s1 := 32, rw := 0xFFFFFFFF },
  { base := 0x80108, n1 := 16, s1 := 32, rw := 0x7F },
  { base := 0x8010C, n1 := 16, s1 := 32, ro := 0xFFFFFFFF },
  { base := 0x80110, n1 := 16, s1 := 32, ro := 0xFFFFFFFF }]

/-- The registers of block LDR (R493). -/
def rowsLDR : List RegRow := [
  { base := 0x90000, ro := 0xF333100, w1c := 0x1 },
  { base := 0x90004, ro := 0xFFFFFFFF },
  { base := 0x90010, ro := 0xFFFFFFFF, rst := 0xFF000000 },
  { base := 0x90014, ro := 0x3FFFF, rst := 0x3FFFF },
  { base := 0x90018, ro := 0xFFFFFFFF, rst := 0xFFFFFFFF },
  { base := 0x9001C, ro := 0xFFFFFFFF, rst := 0xFFFFFFFF },
  { base := 0x90020, ro := 0xFFFFFFFF, rst := 0xFFFFFFFF },
  { base := 0x90028, ro := 0xFFFFFFFF },
  { base := 0x9002C, ro := 0xFFFFFFFF },
  { base := 0x90030, rw := 0x1FF, ro := 0x70000, rst := 0x4 },
  { base := 0x90034, ro := 0x3FF },
  { base := 0x90040, n1 := 6, s1 := 4, ro := 0x8000001F },
  { base := 0x90060, n1 := 4, s1 := 4, ro := 0xF0FFFFFF }]

/-- The registers of block TCC (R493). -/
def rowsTCC : List RegRow := [
  { base := 0xA0000, n1 := 16, s1 := 256, rw := 0x80000300 },
  { base := 0xA0004, n1 := 16, s1 := 256, ro := 0xF0000000, w1c := 0xC000000, rst := 0x80000000 },
  { base := 0xA0008, n1 := 16, s1 := 256, rw := 0xFFFFFFFC },
  { base := 0xA000C, n1 := 16, s1 := 256, rw := 0xC0FFFFFF, rst := 0x40000000 },
  { base := 0xA0010, n1 := 16, s1 := 256 },
  { base := 0xA0014, n1 := 16, s1 := 256, ro := 0xFFFFFF },
  { base := 0xA0018, n1 := 16, s1 := 256, ro := 0xFFFFFFFF }]

/-- The registers of block TSK (R493). -/
def rowsTSK : List RegRow := [
  { base := 0xB0000, rw := 0x80000000, w1c := 0x2, rst := 0x80000000 },
  { base := 0xB0004, ro := 0x3FF03FF },
  { base := 0xB0008, rc := 0xFFFFFFFF },
  { base := 0xB000C, rc := 0xFFFFFFFF },
  { base := 0xB0010, rc := 0xFFFFFFFF },
  { base := 0xB0014, ro := 0xFFFFFFFF },
  { base := 0xB0100, n1 := 16, s1 := 4 },
  { base := 0xB0140, n1 := 16, s1 := 4, rc := 0xDF0001FF },
  { base := 0xB0180, n1 := 16, s1 := 4, ro := 0x800001FF },
  { base := 0xB01C0, n1 := 16, s1 := 4, rc := 0xFFFFFFFF },
  { base := 0xB0200, n1 := 16, s1 := 4, rc := 0xFFFFFFFF },
  { base := 0xB0400, n1 := 128, s1 := 4, ro := 0xFFFFFFFF },
  { base := 0xB0600, n1 := 128, s1 := 4, w1s := 0xFFFFFFFF },
  { base := 0xB0800, n1 := 128, s1 := 4, w1c := 0xFFFFFFFF },
  { base := 0xB0A00, n1 := 16, s1 := 16, rw := 0xFFFFFFFF },
  { base := 0xB0A04, n1 := 16, s1 := 16, rw := 0xFFFFFFFF },
  { base := 0xB0A08, n1 := 16, s1 := 16, rw := 0x1FFFFF },
  { base := 0xB0A0C, n1 := 16, s1 := 16, ro := 0x600001FF },
  { base := 0xB1000, n1 := 512, s1 := 8, rw := 0x1F000000, ro := 0xE0F80FFF },
  { base := 0xB1004, n1 := 512, s1 := 8, rw := 0xFFFF },
  { base := 0xB2000, n1 := 512, s1 := 8, ro := 0xFFFFFFFF },
  { base := 0xB2004, n1 := 512, s1 := 8, ro := 0xFFFFFFFF }]

/-- The registers of block CHN (R493). -/
def rowsCHN : List RegRow := [
  { base := 0xC0000, ro := 0xFFFFFFFF },
  { base := 0xC0004, rc := 0xFFFFFFFF },
  { base := 0xC0008, rc := 0xFFFFFFFF },
  { base := 0xC000C, ro := 0xFFFFFFFF },
  { base := 0xC0010, ro := 0xFFFFFFFF },
  { base := 0xC1000, n1 := 1024, s1 := 4, ro := 0xFFFFFFFF },
  { base := 0xC2000, n1 := 1024, s1 := 4, ro := 0x1F1FFFFF },
  { base := 0xC3000, n1 := 1024, s1 := 4, ro := 0xFFFFFFFF },
  { base := 0xC4000, n1 := 1024, s1 := 4, rc := 0xFFFFFF },
  { base := 0xC5000, n1 := 1024, s1 := 8, rw := 0x8003FFFF },
  { base := 0xC5004, n1 := 1024, s1 := 8, rw := 0x8003FFFF },
  { base := 0xC7000, n1 := 1024, s1 := 4, ro := 0x8007FFFF, w1c := 0x78000000 }]

/-- The registers of block HBK (R493). -/
def rowsHBK : List RegRow := [
  { base := 0xD0000, n1 := 16, s1 := 4, rw := 0x3, ro := 0xA0000000, w1c := 0x40000000 },
  { base := 0xD0040, n1 := 16, s1 := 4, ro := 0xF },
  { base := 0xD0100, n1 := 16, s1 := 32, n2 := 8, s2 := 4, rw := 0xCFFF0FFF },
  { base := 0xD0300, w1s := 0x1 },
  { base := 0xD0400, n1 := 16, s1 := 16, n2 := 4, s2 := 4, rw := 0x8000FFFF },
  { base := 0xD0500, n1 := 16, s1 := 8, rw := 0x100, ro := 0x40000000, w1c := 0x30000000 },
  { base := 0xD0504, n1 := 16, s1 := 8, ro := 0x1FFFFFF, w1c := 0xC0000000 },
  { base := 0xD0600, ro := 0x201F0000, w1c := 0xC0000000 },
  { base := 0xD0604, ro := 0xFFFFFF },
  { base := 0xD0608, rc := 0xFFFFFFFF },
  { base := 0xD0610, ro := 0x1F1FFFF, w1c := 0xC0000000 },
  { base := 0xD0614, rc := 0xFFFFFFFF },
  { base := 0xD0804, n1 := 9, s1 := 4, ro := 0xBFFF3FFF },
  { base := 0xD0830, rw := 0x3FFF, w1c := 0x20000000 },
  { base := 0xD0840, rw := 0xC000FFFF, rst := 0x18 },
  { base := 0xD0844, rc := 0xFFFFFFFF },
  { base := 0xD0848, ro := 0x23000000, w1c := 0xC0000000 },
  { base := 0xD084C, ro := 0x1FFFFFFF },
  { base := 0xD0850, ro := 0xFFFFFFFF }]

/-- The registers of block NOC (R493). -/
def rowsNOC : List RegRow := [
  { base := 0xE0000, n1 := 25, s1 := 4, rw := 0x3FF, rst := 0xA },
  { base := 0xE0100, n1 := 64, s1 := 4, rw := 0x80000000, ro := 0x60000000 },
  { base := 0xE0200, n1 := 32, s1 := 4, rw := 0x80000000, ro := 0x60000000, rst := 0x40000000 },
  { base := 0xE0300, ro := 0x3F001F, w1c := 0xC0000000 },
  { base := 0xE0304, ro := 0xFFFFFFFF },
  { base := 0xE0308, ro := 0xFFFF },
  { base := 0xE0310, rc := 0xFFFFFFFF },
  { base := 0xE0314, rc := 0xFFFFFFFF },
  { base := 0xE0318, rc := 0xFFFFFFFF },
  { base := 0xE031C, rc := 0xFFFFFFFF },
  { base := 0xE0320, ro := 0x1F3F0007, w1c := 0xC0000000 },
  { base := 0xE1000, n1 := 25, s1 := 256, n2 := 64, s2 := 4, rw := 0xFF800000 }]

/-- The registers of block DBG (R493). -/
def rowsDBG : List RegRow := [
  { base := 0xF0000, w1s := 0xFFFF },
  { base := 0xF0004, ro := 0x3F3F },
  { base := 0xF0008, rc := 0xFFFFFFFF },
  { base := 0xF000C, rc := 0xFFFFFFFF },
  { base := 0xF0100, n1 := 16, s1 := 4, ro := 0x41FF0000, w1c := 0x80000000 },
  { base := 0xF0140, n1 := 16, s1 := 4 },
  { base := 0xF1000, n1 := 16, s1 := 256, n2 := 64, s2 := 4, ro := 0xFFFFFFFF },
  { base := 0xF2000, n1 := 16, s1 := 256, n2 := 64, s2 := 4, rw := 0xFFFFFFFF }]

/-- The registers of block TRC (R493). -/
def rowsTRC : List RegRow := [
  { base := 0x100000, rw := 0x3 },
  { base := 0x100004, ro := 0x1FFFF },
  { base := 0x100008, ro := 0x1 },
  { base := 0x10000C, rc := 0xFFFFFFFF },
  { base := 0x100100, n1 := 16, s1 := 4, rw := 0xC000FFFF, rst := 0x2 },
  { base := 0x100200 }]

/-- The registers of block PMC (R493). -/
def rowsPMC : List RegRow := [
  { base := 0x110000, n1 := 16, s1 := 32, n2 := 8, s2 := 4, rw := 0xFFFFFFFF },
  { base := 0x110200, n1 := 16, s1 := 32, n2 := 8, s2 := 4, rw := 0xFA00FFFF, rst := 0x30000000 },
  { base := 0x110400, n1 := 4, s1 := 4, w1c := 0xFFFFFFFF },
  { base := 0x110410, rw := 0x1 },
  { base := 0x110420, ro := 0xFFFFFFFF },
  { base := 0x110424, ro := 0xFFFFFFFF },
  { base := 0x110428, ro := 0xFFFFFFFF },
  { base := 0x11042C, ro := 0xFFFFFFFF },
  { base := 0x110430, ro := 0xFFFFFFFF },
  { base := 0x110434, ro := 0xFFFFFFFF },
  { base := 0x110438, ro := 0xFFFFFFFF },
  { base := 0x11043C, rc := 0xFFFFFFFF },
  { base := 0x110500, rw := 0xFFFFFFFF },
  { base := 0x110504, ro := 0x1FF03FF },
  { base := 0x110508 },
  { base := 0x11050C, rw := 0x3FF, rst := 0x180 },
  { base := 0x110510, rc := 0xFFFFFFFF },
  { base := 0x110514, ro := 0x1F },
  { base := 0x110540, n1 := 16, s1 := 4, rw := 0x1 },
  { base := 0x114000, n1 := 512, s1 := 16, n2 := 4, s2 := 4, ro := 0xFFFFFFFF },
  { base := 0x110600, rw := 0xE0FFFFFF },
  { base := 0x110604, rw := 0xFFFFFFC0 },
  { base := 0x110608, rw := 0xFFFF },
  { base := 0x11060C, rw := 0xFFFF, rst := 0x1 },
  { base := 0x110610, ro := 0xFFFFFFFF },
  { base := 0x110614, rc := 0xFFFFFFFF }]

/-- The registers of block FIO (R493). -/
def rowsFIO : List RegRow := [
  { base := 0x120000, rw := 0x6 },
  { base := 0x120004, ro := 0xE0FFFFFF },
  { base := 0x120008, rw := 0xFFFF, rst := 0x3E8 },
  { base := 0x12000C, ro := 0xFFFFFFFF },
  { base := 0x120010, ro := 0xFFFF },
  { base := 0x120014, rc := 0xFFFFFFFF },
  { base := 0x120018, ro := 0x70000FF, w1c := 0xC0000000 },
  { base := 0x12001C, rc := 0xFFFFFFFF },
  { base := 0x120020, rc := 0xFFFFFFFF },
  { base := 0x120024, rc := 0xFFFFFFFF },
  { base := 0x120100, n1 := 16, s1 := 4, rw := 0x7, ro := 0x80000000, w1c := 0x60000000 },
  { base := 0x120200, n1 := 16, s1 := 4, w1c := 0xFFFFFFFF },
  { base := 0x121000, n1 := 512, s1 := 4, rw := 0xEF72 }]

/-- The registers of block MGT (R493). -/
def rowsMGT : List RegRow := [
  { base := 0x130000, ro := 0xF11F0000, rst := 0x20000000 },
  { base := 0x130004 },
  { base := 0x130008, ro := 0xF00FFFF },
  { base := 0x13000C, ro := 0xFFFFFFFF },
  { base := 0x130010, ro := 0xFFFFFFFF },
  { base := 0x130014, ro := 0xFFFFFFFF },
  { base := 0x130018, ro := 0xFFFFFFFF },
  { base := 0x13001C, ro := 0xFFFF },
  { base := 0x130020, ro := 0xB300007F },
  { base := 0x130024, ro := 0x7C000000, w1c := 0x81FFFFFF }]

/-- The registers of block PWR (R493). -/
def rowsPWR : List RegRow := [
  { base := 0x140000, ro := 0xFFFFFFFF },
  { base := 0x140004, ro := 0xFFFF },
  { base := 0x140008, rc := 0xFFFF },
  { base := 0x14000C, ro := 0xFFFFFFFF },
  { base := 0x140010, ro := 0x8000003F, w1c := 0x70000000 },
  { base := 0x140014, ro := 0xFFFFFFFF },
  { base := 0x140100, n1 := 48, s1 := 4, ro := 0x8000FFFF },
  { base := 0x140200, n1 := 16, s1 := 4, ro := 0xFFFFFFFF }]

/-- The registers of block EVT (R493). -/
def rowsEVT : List RegRow := [
  { base := 0x150000, n1 := 16, s1 := 4, rc := 0x800001FF },
  { base := 0x150100, n1 := 10, s1 := 4, w1c := 0xFFFFFFFF },
  { base := 0x150180 },
  { base := 0x150184, rc := 0xFFFFFFFF },
  { base := 0x151000, n1 := 320, s1 := 4, rw := 0x8F1F0300 }]

/-- The rows of block `k` (R493). -/
def blockRows : Nat → List RegRow
  | 0 => rowsARR
  | 1 => rowsSFB
  | 2 => rowsDMC
  | 3 => rowsSNP
  | 4 => rowsTRG
  | 5 => rowsACQ
  | 6 => rowsLNK
  | 7 => rowsLGE
  | 8 => rowsTIM
  | 9 => rowsLDR
  | 10 => rowsTCC
  | 11 => rowsTSK
  | 12 => rowsCHN
  | 13 => rowsHBK
  | 14 => rowsNOC
  | 15 => rowsDBG
  | 16 => rowsTRC
  | 17 => rowsPMC
  | 18 => rowsFIO
  | 19 => rowsMGT
  | 20 => rowsPWR
  | 21 => rowsEVT
  | _ => []

/-- Whether the row holds the register at this address. -/
def RegRow.has (r : RegRow) (a : Nat) : Bool :=
  r.base ≤ a &&
    (let o := a - r.base
     o % r.s1 / r.s2 < r.n2 && o % r.s1 % r.s2 == 0 && o / r.s1 < r.n1)

/-- The row of the register at a NoC address below 0x16_0000, if a register lies there. -/
def findRow (a : Nat) : Option RegRow := (blockRows (a / 0x10000)).find? (·.has a)

/-- The shortest signed way from `a` to `b` on a ring of `n`: whether it goes in the positive direction (ties do),
and its length (R522). -/
def ringWay (n a b : Nat) : Bool × Nat :=
  let fwd := (b + n - a) % n
  if 2 * fwd ≤ n then (true, fwd) else (false, n - fwd)

/-- The router an initiator attaches to (R494, R518). -/
def masterRouter (m : Nat) : Nat :=
  if m < 16 then 8 + m else if m = 16 then 31 else if m = 17 ∨ m = 18 then 29
  else if m = 19 ∨ m = 20 then 30 else if m = 21 then 28 else 31

/-- The router a target attaches to (R494, R518); none for a reserved target. -/
def targetRouter (t : Nat) : Option Nat :=
  if t < 16 then some (8 + t) else if t = 16 then some 28 else if t = 17 then some 31
  else if t < 22 then some (28 + (t - 18))
  else if t < 30 then some (t - 22)
  else if t < 34 then some (24 + (t - 30))
  else if t = 34 then some 31 else none

/-- A route word of NOC_RT (R548). -/
def routeWord (ord : Bool) (x y : Bool × Nat) : Word :=
  BitVec.ofNat 32 (2 ^ 31 + b2n ord * 2 ^ 30 + b2n (!x.1) * 2 ^ 29 + x.2 * 2 ^ 26 + b2n (!y.1) * 2 ^ 25 + y.2 * 2 ^ 23)

/-- The routers that a route visits from router `r`, in order (R520). -/
def routePath (r : Nat) (w : Word) : List Nat :=
  let n := w.toNat
  let nx := bits n 26 3
  let ny := bits n 23 2
  let hopX (r : Nat) : Nat := r / 8 * 8 + (if bit n 29 then (r % 8 + 7) % 8 else (r % 8 + 1) % 8)
  let hopY (r : Nat) : Nat := (if bit n 25 then (r / 8 + 3) % 4 else (r / 8 + 1) % 4) * 8 + r % 8
  let goX (k : Nat) (st : Nat × List Nat) : Nat × List Nat :=
    (List.range k).foldl (fun st _ => (hopX st.1, st.2 ++ [hopX st.1])) st
  let goY (k : Nat) (st : Nat × List Nat) : Nat × List Nat :=
    (List.range k).foldl (fun st _ => (hopY st.1, st.2 ++ [hopY st.1])) st
  if bit n 30 then (goX nx (goY ny (r, [r]))).2 else (goY ny (goX nx (r, [r]))).2

/-- The router is absent on a three-die grade (R518). -/
def routerAbsent (three : Bool) (r : Nat) : Bool := three && (r = 6 || r = 7 || (24 ≤ r && r ≤ 27))

/-- NOC_RT of master `i` and target `e` as BOOT sets it (R522). -/
def resetRoute (three : Bool) (i e : Nat) : Word :=
  match targetRouter e with
  | none => 0
  | some t =>
    if routerAbsent three t then 0
    else
      let r := masterRouter i
      let x := ringWay 8 (r % 8) (t % 8)
      let y := ringWay 4 (r / 8) (t / 8)
      let w := routeWord false x y
      if (routePath r w).any (routerAbsent three) then routeWord true x y else w

/-- The Reset column (R16), for a six-die grade: what a register holds that nothing has written since the last entry
to BOOT. Fuse- and settings-sourced words are written by `bootRegs`. -/
def resetWord (a : Nat) : Word :=
  match findRow a with
  | none => 0
  | some r =>
    let o := a - r.base
    if r.base = 0xA0008 then BitVec.ofNat 32 (0x01000000 + o / 0x100 * 0x100000)          -- TCC_RSTVECn, R439
    else if r.base = 0xD0100 then                                                         -- HBK_RGNn_k, R531
      (if o / 4 % 8 = 0 then BitVec.ofNat 32 (0xC0FF0000 + o / 32 * 0x100) else 0)
    else if r.base = 0x80100 then (if o = 0 then 1 else 0)                                -- TIM_DPATLOn, R402
    else if r.base = 0x80108 then (if o = 0 then 1 else 0)                                -- TIM_DLENn, R402
    else if r.base = 0xE1000 then resetRoute false (o / 256) (o / 4 % 64)                 -- NOC_RTi_e, R522
    else r.rst

end Sys2Proof.Machine
end

