-- ==== Sys2Proof/Machine/State.lean ====
section
/-! DEFINITION. The state of the module as plain data: the register file by NoC address, and beside it every store,
buffer, queue, counter and mode the spec gives the module and no register shows. -/
namespace Sys2Proof.Machine

/-- Why a step stops for good. No command of this model faults: every effect the spec gives is a next state, an error
response of R495, or a refusal of one of the names below. -/
inductive Fault where
  /-- Raised by no meaning: the spec answers every access to an address that holds nothing with an error response
  (R495), which is a next state; safe. -/
  | unused
  deriving DecidableEq, Repr

/-- Why a command has no effect the model could take. -/
inductive Refusal where
  /-- A command whose arm has no meaning (raised only by a refused arm of Dispatch.lean); safe. -/
  | notModelled (mnemonic : String)
  /-- Raised by a UC32 load, store, LL or SC of the management controller at 0x3000_0000 to 0x3000_FFFF: R645 names the MC peripherals and
  gives no effect of an access, ground (ii); safe. -/
  | mcPeripheral
  deriving DecidableEq, Repr

/-- The twelve modes (R28). -/
inductive Mode where
  | off | standby | boot | idle | load | armed | run | step | hold | restore | test | safe
  deriving DecidableEq, Repr

/-- The three grades (R1). -/
inductive Grade where
  | u6220 | u6216 | u6120
  deriving DecidableEq, Repr

/-- Mode and run control (R28, R631, R634). -/
structure Ctl where
  mode : Mode
  /-- the mode HOLD was entered from -/
  holdFrom : Mode
  /-- MGT_MODE.BURST (R666) -/
  burst : Bool
  /-- design cycles left in the STEP burst -/
  left : Nat
  /-- MGT_MODE.REASON (R634) -/
  reason : Nat
  /-- a SAFE that waits for the boundary the held league would have reached (R29, R634): its reason, and the grains
  left once the hold has begun -/
  safeDue : Option (Nat × Option Nat)
  /-- SAFE with reason CLOCK at the next design-cycle boundary (R27) -/
  safeNext : Bool
  /-- the core domain is powered (R634, R643, R664) -/
  corePower : Bool
  /-- the field island is powered (R22) -/
  fieldPower : Bool
  /-- the core domain is being switched off (R635) -/
  switchingOff : Bool
  /-- the next CYCLE token carries STOP 1 (R636) -/
  stopReq : Bool
  /-- the step clock runs (R28) -/
  clock : Bool
  /-- the input is above 36 V, or has been and no loss followed (R639) -/
  inputGood : Bool
  deriving DecidableEq, Repr

/-- What fuses hold (R1, R18, R498, R660, R667). -/
structure Fuses where
  grade : Grade
  serial : BitVec 64
  mac : BitVec 48
  /-- the logical bushel that the spare of die n replaces, if any (R216) -/
  spare : List (Option Nat)
  /-- spare columns in use per local bank (R530) -/
  bankSpares : List Nat
  /-- the anti-rollback counter, 0 to 64 (R662) -/
  rbcnt : Nat
  deriving DecidableEq, Repr

/-- Where an emitted value arrives (R90 to R96): a window line, a switch input of a bushel in the form of R99, a hub
ingress line, or a hub input slot. -/
inductive Dest where
  | win (die bushel peck line : Nat)
  | ingress (die bushel form : Nat)
  | hubIn (die line : Nat)
  | slot (kind index : Nat)
  deriving DecidableEq, Repr

/-- The array: stores, registers and lines of the BPs, the emit tables, and values in flight. -/
structure Arr where
  /-- instruction stores: BP × 2048 + entry ↦ word, unlisted 0 (R48, R61) -/
  instr : SMap Nat
  /-- data-store bits that are 1: BP × 2048 + address (R45) -/
  ds : NSet
  /-- BPs whose carry register is 1 (R69) -/
  carry : NSet
  /-- BPs whose output line is 1 (R50) -/
  line : NSet
  /-- function dictionaries: peck × 256 + index ↦ truth table (R58) -/
  dict : SMap Nat
  /-- bushel emit tables: ((die × 32 + bushel) × 65,536 + input form) × 2048 + step ↦ entry (R94) -/
  emit : SMap Nat
  /-- hub emit tables: (die × 2048 + line) × 2048 + step ↦ entry (R95) -/
  hubEmit : SMap Nat
  /-- values 1 in flight: the step they arrive at and where (R93) -/
  wires : List (Nat × Dest)
  /-- bytes of the instruction stores (entry × 8 + byte) and of the data stores (BP × 256 + byte), dictionary entries and emit entries
  that fail parity (R39, R48, R72, R100) -/
  badInstr : NSet
  badDs : NSet
  badDict : NSet
  badEmit : NSet
  badHub : NSet
  /-- the next cycle position to execute (R101) -/
  pos : Nat
  /-- the array stopped at the end of a grain for an error (R72) -/
  stopped : Bool
  /-- reasons of R634 met in this grain: SAFE follows at its end (R72, R100, R155) -/
  fails : List Nat
  deriving DecidableEq, Repr

/-- A port of a memory descriptor (R134). -/
structure MemPort where
  mode : Nat
  len : Nat
  astep : Nat
  dstep : Nat
  head : Nat
  deriving DecidableEq, Repr

/-- A memory descriptor (R133). -/
structure MemDesc where
  index : Nat
  home : Nat
  policy : Nat
  width : Nat
  depthM1 : Nat
  base : Nat
  ports : List MemPort
  deriving DecidableEq, Repr

/-- A port access in progress in this design cycle (R137, R138). -/
structure Access where
  mem : Nat
  port : Nat
  addr : Nat
  data : Nat
  en : Nat
  /-- the word kept as read data (R139) -/
  read : Option Nat
  deriving DecidableEq, Repr

/-- What the ports of a multi-writer memory wrote to one word in this cycle (R151). -/
structure WordRec where
  mem : Nat
  addr : Nat
  old : Nat
  /-- port, data, enable bits -/
  writes : List (Nat × Nat × Nat)
  counted : Bool
  deriving DecidableEq, Repr

/-- An HBM read in service: a design read, or the codeword read of a merge (R146, R150). -/
structure HbmRead where
  mem : Nat
  port : Nat
  addr : Nat
  merge : Bool
  astep : Nat
  value : Nat
  arrived : Bool
  /-- its due point executed without the data, and how many grains ago (R148) -/
  overrun : Option Nat
  /-- a refresh of its bank was issued while it was in service (R147) -/
  refreshed : Bool
  /-- the retry read of R158 is in progress -/
  retry : Bool
  deriving DecidableEq, Repr

/-- Design memory: descriptors, accesses, write records, HBM queues (Design Memory). -/
structure Dm where
  descs : List MemDesc
  acc : List Access
  recs : List WordRec
  reads : List HbmRead
  /-- entries in each controller's write queue (R149) -/
  wq : List Nat
  /-- controllers whose queue is below its guard (R149) -/
  guard : List Bool
  /-- what old-codeword reads of this grain meet: controller and outcome (R225) -/
  oldEcc : List (Nat × Ecc)
  deriving DecidableEq, Repr

/-- A line of a core's cache (R417): NoC address of the line, its bytes, dirty, and failing parity. -/
structure CLine where
  addr : Nat
  data : List Byte
  dirty : Bool
  bad : Bool
  deriving DecidableEq, Repr

/-- A run of the trace unit's loop watch (R567): branch pc, takens so far, begun in a hidden state. -/
structure LoopRun where
  pc : Word
  count : Nat
  hidden : Bool
  deriving DecidableEq, Repr

/-- One UC32 core (R404, R411, R413, R417); core 16 is the management controller (R403). -/
structure Core where
  /-- x1 to x31; x0 is never listed (R404) -/
  x : SMap Word
  pc : Word
  /-- system registers by number, unlisted at the Reset column of R411 -/
  sys : SMap Word
  cyc : BitVec 64
  cycLatch : Word
  /-- the granule the reservation names: NoC address div 64 (R413) -/
  resv : Option Nat
  running : Bool
  lockup : Bool
  wfe : Bool
  /-- the privilege state at the last instruction's boundary: 0 user, 1 privileged, 2 monitor (R578) -/
  ran : Nat
  /-- the clock stopped under R569 -/
  asleep : Bool
  /-- TB_LOCAL when the clock stopped -/
  sleptAt : Nat
  /-- PRV as it stood at monitor entry (R423) -/
  monPrv : Bool
  /-- SS was 1 when the previous instruction began outside monitor mode (R422) -/
  stepped : Bool
  /-- release with RSTHALT set waits to enter monitor mode (R422) -/
  rstHalt : Bool
  /-- a first watchdog expiry is pending (R431) -/
  wdog : Bool
  /-- a watchdog expiry since the last reload (R431) -/
  wdogOnce : Bool
  icache : List CLine
  dcache : List CLine
  run : Option LoopRun
  deriving DecidableEq, Repr

/-- A response a session keeps (R33). -/
structure Kept where
  seq : Nat
  opcode : Nat
  status : Nat
  payload : List Byte
  deriving DecidableEq, Repr

/-- A challenge outstanding on a session (R553). -/
structure Challenge where
  nonce : List Byte
  priv : List Byte
  deriving DecidableEq, Repr

/-- An open session (R33, R550 to R558). -/
structure Session where
  num : Nat
  port : HPort
  src : Nat
  openSeq : Nat
  high : Option Nat
  kept : List Kept
  debug : Bool
  priv : Bool
  key : Option (List Byte)
  chal : Option Challenge
  /-- its last DBG_HOLD carried 1 (R558) -/
  holdOne : Bool
  /-- the place of its latest grant of TRC_AUTH.PRIV among all grants, 0 for none (R558) -/
  granted : Nat
  deriving DecidableEq, Repr

/-- What a stream from the host feeds (R34). -/
inductive InKind where
  | load | stage (slot : Nat) | restore | capset | update | memwr (addr len : Nat)
  deriving DecidableEq, Repr

/-- A stream the module receives (R34): next sequence expected, messages held out of order, bytes taken. -/
structure InStream where
  session : Nat
  kind : InKind
  opcode : Nat
  next : Nat
  early : List (Nat × List Byte)
  got : Nat
  total : Nat
  deriving DecidableEq, Repr

/-- A stream the module sends (R34): the messages not yet acknowledged or not yet sent, the sequence of the first of them, and
how many of them have been sent. -/
structure OutStream where
  session : Nat
  opcode : Nat
  data : List (List Byte)
  base : Nat
  sent : Nat
  deriving DecidableEq, Repr

/-- A message the module sent (R30): a response, an event or stream data. -/
structure Out where
  port : HPort
  kind : Nat
  opcode : Nat
  seq : Nat
  session : Nat
  status : Nat
  payload : List Byte
  /-- the message carries the tag of R556 -/
  tagged : Bool
  deriving DecidableEq, Repr

/-- The host message protocol (R30 to R35, R551). -/
structure Hmp where
  sessions : List Session
  claim : Option Nat
  nextNum : Nat
  discards : Nat
  ins : List InStream
  outs : List OutStream
  /-- SESSION_OPEN answers that R551 repeats: source, sequence, session, and `now` at the answer -/
  opened : List (Nat × Nat × Nat × Nat)
  /-- the time that R551's 10 s are taken by, in units of 2 ns: it never stands still -/
  now : Nat
  /-- the optical host links that are up (R681) -/
  link0 : Bool
  link1 : Bool
  /-- the modules left in low-power mode (R681) -/
  lowPower0 : Bool
  lowPower1 : Bool
  deriving DecidableEq, Repr

/-- A request that waits for its response (R523, R524). -/
structure Flight where
  master : Nat
  target : Nat
  addr : Nat
  size : Nat
  write : Bool
  /-- the route word and the deadline in TB_LOCAL that its header carries (R519, R521, R524) -/
  route : Word
  due : Nat
  /-- the response's kind under R495, 0 for none, and its data -/
  err : Nat
  data : List Byte
  /-- the initiator has made its TIMEOUT response -/
  timedOut : Bool
  /-- it still waits with this data, before a stopped router (R526) or at a borrowed chunk (R508); none once a target has answered -/
  waits : Option (List Byte)
  /-- it waits at a borrowed chunk, and the bank's stall notice has suspended its timeout (R508) -/
  stalled : Bool
  /-- it is an access of a core or unit that waits for it and goes on with it itself (R416, R523) -/
  asks : Bool
  /-- it is the fetch of a core's next instruction -/
  fetch : Bool
  /-- its packet or that of its response was discarded (R524, R527): only its timeout ends it -/
  lost : Bool
  deriving DecidableEq, Repr

/-- The network (R519 to R527). -/
structure Noc where
  flights : List Flight
  /-- a flit of the next request fails parity (R527) -/
  flit : Bool
  /-- a flit of the next response fails parity (R527) -/
  answer : Bool
  /-- what the next HBM codewords read over the network show, at the first read and at its repetition (R516) -/
  eccs : List (Ecc × Ecc)
  deriving DecidableEq, Repr

/-- A march run (R505 to R509). -/
structure March where
  bank : Nat
  preserve : Bool
  /-- next chunk to borrow and the background under test -/
  chunk : Nat
  ground : Nat
  /-- the chunk is borrowed (R507, R508) -/
  borrowed : Bool
  /-- the no-borrow ranges as read at GO: first and last chunk -/
  nb : List (Nat × Nat)
  deriving DecidableEq, Repr

/-- Hub memory: power changes, march runs, HBM regions (R504 to R517). -/
structure Hub where
  /-- bank and the state it changes to -/
  power : List (Nat × Nat)
  marches : List March
  camFreeing : Bool
  /-- stacks in double refresh (R147) -/
  hot : List Bool
  deriving DecidableEq, Repr

/-- A debug run of R562 in progress. -/
structure DbgRun where
  session : Nat
  opcode : Nat
  addr : Nat
  len : Nat
  /-- stream bytes taken and not yet written -/
  buf : List Byte
  err : Nat
  offset : Nat
  /-- its reads go to the SNAP copies (R562) -/
  peek : Bool
  deriving DecidableEq, Repr

/-- The debug island beside its registers (R549 to R563). -/
structure Dbg where
  runs : List DbgRun
  /-- the session that last sent DBG_MON to core n (R561) -/
  lastMon : List (Nat × Nat)
  draws : Nat
  /-- length of the outbound message of core n on its way (R561) -/
  sends : SMap Nat
  deriving DecidableEq, Repr

/-- A trace source (R564 to R571). -/
structure TrcSrc where
  /-- CORECK cycles since its previous packet -/
  delta : Nat
  /-- packets since its last SYNC -/
  since : Nat
  /-- packets dropped and not yet told by an OVF -/
  lost : Nat
  /-- the SYNC that follows an OVF, or 256 packets, is due -/
  due : Bool
  deriving DecidableEq, Repr

/-- A 64B/66B block of serial trace (R572): its lane, whether it is a control block, its 8 bytes, and its 64 bits as scrambled. -/
structure TrcBlock where
  lane : Nat
  control : Bool
  bytes : List Byte
  wire : Nat
  deriving DecidableEq, Repr

/-- The trace unit: FIFO of stream bytes, sources, and its outputs (R564 to R572, R683). -/
structure Trc where
  fifo : List Byte
  srcs : List TrcSrc
  /-- stream bytes put out so far -/
  sent : Nat
  /-- the stream bytes that the last drain put out, its blocks on the serial lanes -/
  put : List Byte
  blocks : List TrcBlock
  /-- TRCD and TRCVAL at the last edge of TRCCLK -/
  trcd : Nat
  trcval : Bool
  /-- blocks dealt to the serial lanes, and the scrambler of each -/
  dealt : Nat
  scr : List Nat
  deriving DecidableEq, Repr

/-- The counter unit (R574 to R582). -/
structure Pmc where
  /-- eligible instructions since the last sample -/
  eligible : Nat
  /-- a dump being written: the SEQ and its bytes -/
  dump : Option (Nat × List Byte)
  seq : Nat
  /-- dumps skipped since the previous record -/
  skipped : Nat
  deriving DecidableEq, Repr

/-- One event log record (R658). -/
structure LogRec where
  seq : Nat
  sec : Nat
  ns : Nat
  src : Nat
  own : Bool
  data : List Byte
  deriving DecidableEq, Repr

/-- A settings commit in progress (R655): the copy it programs, its bytes, and the request to answer. -/
structure Commit where
  copy : Nat
  bytes : List Host.Cell
  /-- the SET_COMMIT to answer -/
  answer : Msg
  deriving DecidableEq, Repr

/-- The management controller's side: settings, log, flash slots, boot (R645 to R664). -/
structure Mgt where
  copy0 : List Host.Cell
  copy1 : List Host.Cell
  /-- which copy is active; none: the factory values -/
  active : Option Nat
  settings : List Host.Cell
  staging : List Host.Cell
  commit : Option Commit
  erasing : Bool
  lost : Bool
  log : List LogRec
  logBuf : List LogRec
  logSeq : Nat
  slotA : List Byte
  slotB : List Byte
  runSlot : Nat
  onTrial : Bool
  recovery : Bool
  mcUp : Bool
  xingUp : Bool
  /-- the update in progress: slot, bytes so far, and the UPD_BEGIN to answer -/
  upd : Option (Nat × List Byte × Msg)
  /-- pending interrupt sources of the MC (R646) -/
  mcIrq : NSet
  hubWin : Nat
  /-- the MC comes back from a restart, not from power-on (R647) -/
  restarting : Bool
  /-- the MC's wall time (R658), and whether the hub ever sent it -/
  wallSec : Nat
  wallNs : Nat
  wallKnown : Bool
  /-- the boot step in progress, a row of R650 -/
  stage : Nat
  /-- the mailbox message sent to the MC and not yet answered, with the master that sent it (R649) -/
  mbox : Option (Nat × List Byte)
  /-- MBX_STAT: FULL and LEN (R649) -/
  reply : Bool × Nat
  /-- idle frames sent on the crossing: hub end and MC end -/
  idles : Nat × Nat
  modeKnown : Mode
  /-- what the MC last knew of the hub's words when the crossing went down: the answers of MODE_QUERY and SENSORS (R21) -/
  modeWords : List Byte
  pwrWords : List Byte
  /-- TB_LOCAL at the last entry to BOOT (R651) -/
  bootAt : Nat
  deriving DecidableEq, Repr

/-- Thermal logic (R641 to R643). -/
structure Thm where
  lastHot : Bool
  cool : Nat
  overPlim : Bool
  overInlet : Bool
  /-- consecutive samples with TJMAX at or above 110 °C, at most 2 (R643) -/
  over110 : Nat
  deriving DecidableEq, Repr

/-- A refusal report (R193); a field that does not apply is `none` and is reported as all ones. -/
structure Report where
  code : Nat
  phase : Nat
  die : Option Nat := none
  who : Option Nat := none
  step : Option Nat := none
  step2 : Option Nat := none
  where_ : Option Nat := none
  index : Option Nat := none
  record : Option Nat := none
  deriving DecidableEq, Repr

/-- The header fields of an image (R180). -/
structure Header where
  grade : Nat
  l : Nat
  s : Nat
  imgh : Nat
  flags : Nat
  topo : Nat
  pos : Nat
  dims : List Nat
  design : Nat
  hash : List Byte
  length : Nat
  hbmMib : Nat
  nsect : Nat
  deriving DecidableEq, Repr

/-- An entry of an image's section table (R181). -/
structure Sect where
  type : Nat
  die : Nat
  crc : Nat
  off : Nat
  len : Nat
  deriving DecidableEq, Repr

/-- A reset delivery (R186). -/
structure Release where
  pol : Bool
  step : Nat
  line : Nat
  deriving DecidableEq, Repr

/-- A probe (R249). -/
structure Probe where
  offset : Nat
  step : Nat
  bp : Nat
  deriving DecidableEq, Repr

/-- An image as it arrives (R191): its length, the bytes taken, how far the checks have gone (0: phase 1 not passed; i + 1: i
sections passed), the fault found, and whether phase 3 has passed. -/
structure Intake where
  length : Nat
  bytes : List Byte
  at_ : Nat
  fault : Option Report
  ready : Bool
  deriving DecidableEq, Repr

/-- A load in progress: the session that began it, and the staging slot it copies from, if any (R189). -/
structure Loading where
  session : Nat
  slot : Option Nat
  take : Intake
  deriving DecidableEq, Repr

/-- A staging in progress (R195). -/
structure Staging where
  slot : Nat
  session : Nat
  take : Intake
  deriving DecidableEq, Repr

/-- A lane input slot (R318). -/
structure LaneSlot where
  port : Nat
  group : Nat
  k : Nat
  step : Nat
  line : Nat
  deriving DecidableEq, Repr

/-- The image loader (The Abuth Image, Loading and Release). -/
structure Ldr where
  /-- the loaded image's header -/
  img : Option Header
  releases : List Release
  lanemap : List LaneSlot
  loading : Option Loading
  stagings : List Staging
  /-- the image length of each VALID staging slot -/
  staged : SMap Nat
  /-- G as it stood when c0 began (R203) -/
  gap : Nat
  /-- executed design cycles since c0, uncapped, and whether c0 has begun -/
  relCount : Nat
  begun : Bool
  deriving DecidableEq, Repr

/-- A snapshot that was made (R218 to R227). -/
structure Snap where
  cycle : Nat
  shadow : NSet
  badShadow : NSet
  tbd : List Nat
  stage : Nat
  relcyc : Nat
  /-- bank words that have changed since the flash copy, in a save buffer or in the region: word address ↦ value at the flash copy (R224) -/
  saved : SMap (Option Nat)
  /-- lines that a priority copy has copied: NoC address div 64 -/
  swept : NSet
  /-- quarters of 16 bytes that the sweeper has passed in each bank, 96 banks a die -/
  sweep : List Nat
  allSwept : Bool
  /-- the line save buffers in use: lines, and the quarters of each that its priority copy has moved (R142, R224) -/
  buffers : List Nat
  moved : SMap Nat
  /-- 64 KiB units of DS drained, die by die -/
  drained : List Nat
  /-- undo entries in log order: offset and old 64-bit data (R225) -/
  undo : List (Nat × Nat)
  /-- OUT, OE and IN of the field record, cells that are 1 -/
  out : NSet
  oe : NSet
  inp : Option NSet
  deriving DecidableEq, Repr

/-- A checkpoint stream in progress: its session, the checkpoint bytes put out, the CRC register over them, and whether
the trailer was put out (R230). -/
structure CkStream where
  session : Nat
  pos : Nat
  crc : Nat
  trailer : Bool
  deriving DecidableEq, Repr

/-- A restore in progress (R232). -/
structure Restoring where
  session : Nat
  length : Nat
  bytes : List Byte
  ended : Bool
  deriving DecidableEq, Repr

/-- The snapshot unit. -/
structure Snp where
  lastId : Nat
  /-- a SNAP accepted whose flash copy is not made: its cycle, once fixed -/
  pend : Option (Option Nat)
  snap : Option Snap
  stream : Option CkStream
  restoring : Option Restoring
  /-- after a RESTORE: SNAPID and CYCLE, kept until the image is discarded (R237) -/
  restored : Option (Nat × Nat)
  /-- undo entries staged on their way to the region, per controller (R226) -/
  staged : List Nat
  deriving DecidableEq, Repr

/-- A stream of the acquisition (R262 to R267). -/
structure AcqStream where
  /-- records the ring holds at most -/
  cap : Nat
  /-- byte offset of the ring in the tun -/
  base : Nat
  reclen : Nat
  /-- the next SEQ, and the number of records in the ring -/
  seq : Nat
  inRing : Nat
  dropped : Nat
  deriving DecidableEq, Repr

/-- The cycles of the two latest rising edges of a bit entry since the arm, the later first (R263). -/
structure Rises where
  r1 : Option Nat
  r0 : Option Nat
  deriving DecidableEq, Repr

/-- A window being gathered (R262, R263): its first captured cycle, cycles covered, held grains, the GRAIN stamp of its
last cycle, the FLAGS gathered, and its values. -/
structure Window where
  first : Nat
  n : Nat
  held : Nat
  stamp : Nat
  flags : Nat
  any1 : List Bool
  any0 : List Bool
  mins : List Int
  maxs : List Int
  sums : List Int
  /-- edges and cycles at 1 of each bit entry -/
  edges : List Nat
  highs : List Nat
  deriving DecidableEq, Repr

/-- A capture-set entry (R253). -/
structure CapEntry where
  word : Bool
  meas : Bool
  signed : Bool
  width : Nat
  probe : Nat
  deriving DecidableEq, Repr

/-- Trigger and acquisition beside their registers. -/
structure Acq where
  probes : SMap (Option Probe)
  setBuf : List Byte
  /-- the table was loaded into the unit's own buffer (R270) -/
  ownSet : Bool
  entries : List CapEntry
  /-- first captured cycle, trigger cycle, stop cycle of the acquisition -/
  f : Nat
  t : Option Nat
  stopCycle : Option Nat
  /-- the trigger since the arm or re-arm (R258) -/
  fired : Bool
  post : Nat
  pre : Nat
  decN : Nat
  winN : Nat
  /-- probe values read in this cycle, and whether a read failed parity -/
  vals : SMap Bool
  perrVals : NSet
  /-- the recorded values of the previous captured cycle -/
  prev : Option (List Int)
  /-- the source values of the comparators in the previous captured cycle -/
  prevCmp : SMap (Option Nat)
  prevMatch : NSet
  win : Option Window
  rises : List Rises
  streams : List AcqStream
  /-- the acquisition buffer: stream, record bytes (R267) -/
  buffer : List (Nat × List Byte)
  /-- actions decided at the sequencer grain and taken in scruple grain 9 (R260) -/
  acts : Nat
  forced : Bool
  fromState : Nat
  /-- league triggers on their way: origin cycle, lowest raising position (R261) -/
  lgs : List (Nat × Nat)
  /-- held grains in this cycle before its boundary grain (R264) -/
  heldNow : Nat
  /-- how many records at the end of the buffer belong to the cycle that last ended its boundary grain (R264) -/
  fresh : Nat
  /-- a stop asked for, with its END (R272) -/
  stopEnd : Option Nat
  /-- arms whose table reads wait in the network, with their START and the request that asked (R270, R508, R526) -/
  arming : List (Nat × Option Msg)
  /-- the ACQ_CAL request whose calibration runs -/
  calibrating : Option Msg
  /-- armed, with the first captured cycle not yet reached -/
  armed : Bool
  /-- the state's GO counter has reached its N in this cycle (R258) -/
  goDone : Bool
  /-- the auto timer applies in this cycle, and has applied since the arm (R259) -/
  autoDue : Bool
  autoDone : Bool
  /-- the league trigger applied in this cycle: origin cycle and lowest raising position (R261) -/
  lgNow : Option (Nat × Nat)
  deriving DecidableEq, Repr

/-- One lane group of a port: its stream of link words each way (R299, R305 to R315). -/
structure Grp where
  /-- SEQ of the last word issued -/
  txSeq : Nat
  /-- the last 64 words issued, oldest first (R310) -/
  held : List (BitVec 256)
  /-- words to resend before new ones -/
  resend : List (BitVec 256)
  /-- CYM, TOKEN, TIME and CAP bodies queued: type and body (R314, R358) -/
  queue : List (Nat × Nat)
  /-- slot bits taken and not yet sent, in order of k (R313) -/
  bits : List Bool
  /-- slot bits sent in this cycle (NPREV of the next CYM) -/
  nsent : Nat
  /-- words issued since the last TOKEN or TIME word, and since the last marker -/
  gapTok : Nat
  sinceMark : Nat
  /-- lane alignment markers sent -/
  marks : Nat
  /-- SEQ of the last word accepted in order (none before the first), and whether a word was discarded since -/
  rxSeq : Option Nat
  await : Bool
  /-- NAK of the last word received, the ACK last acted on, and how often in succession -/
  lastNak : Bool
  actedAck : Option Nat
  actedTimes : Nat
  /-- receive halves for even and odd cycle numbers: bits received, entry 0 first (R315) -/
  even : List Bool
  odd : List Bool
  /-- the parity being filled, and the number of bits of the present and of the last cycle -/
  half : Bool
  nrecv : Nat
  nlast : Nat
  /-- CYCLE of the last CYM accepted (R314) -/
  cym : Option Nat
  /-- the partner's CAP as accepted: GRADE, SERIAL, PORT, LGDATA; and whether its RXOK was 1 (R325) -/
  cap : Option (Nat × Nat × Nat × Nat)
  rxok : Bool
  /-- words received since the last marker, and markers missing or misplaced in succession (R326) -/
  rxSince : Nat
  missed : Nat
  /-- in LOCK: markers found 16,384 words apart, and words accepted in succession since (R324) -/
  found : Nat
  good : Nat
  /-- the scrambler of each data lane (R302) and the run of identical bits it has sent (R303) -/
  scr : List Nat
  runs : List (Bool × Nat)
  /-- the bits of the last word issued, or of the last marker, as each data lane sent them -/
  line : List (List Bool)
  /-- in TRAIN: the forwarded clock omitted 4 periods with it (R322) -/
  gap : Bool
  /-- the descrambler of each data lane received, and its run of identical bits (R302, R303) -/
  rxScr : List Nat
  rxRuns : List (Bool × Nat)
  deriving DecidableEq, Repr

/-- One ifemet port beside its registers (R297 to R338, R361, R366, R376): its two lane groups and its league and time
exchange. -/
structure LanePort where
  a : Grp
  b : Grp
  /-- CRC failures in the present 1 s interval (R338) -/
  errs : Nat
  /-- partner's LGDATA as last exchanged -/
  lgdata : Nat
  /-- in TRAIN: this end is READY (R322) -/
  ready : Bool
  /-- VSEQ of the last VOTE content queued on this port, and the contents received, newest first, at most 128 (R361) -/
  vtx : Nat
  vrx : List Nat
  /-- the VOTE content whose first copy was issued last, and EVSEQ: the last whose second copy was (R366) -/
  vfirst : Option Nat
  vsent : Nat
  /-- EVSEQ the partner last showed in the present league (R366) -/
  evseq : Option Nat
  /-- TIME pairs sent; the send stamp of the last SYNC; TSEQ and receive stamp of the last SYNC received, in units of
  2^-16 ns (R376) -/
  tseq : Nat
  syncAt : Nat
  rxSync : Option (Nat × Nat)
  deriving DecidableEq, Repr

/-- A vote event: kind EK, origin, and grain or cycle (R361, R364). -/
structure VoteEv where
  ek : Nat
  origin : Nat
  g : Nat
  deriving DecidableEq, Repr

/-- The league unit (Leagues and Time). -/
structure Lge where
  /-- league cycle number of the next cycle to execute (R393) -/
  cycle : Nat
  ready : Nat
  gradebad : Nat
  wrong : Nat
  /-- the masks as last reported (R355) -/
  reported : Option (Nat × Nat × Nat)
  /-- FORMED or RATE with a frequency was sent or received, and the TBSYNC that follows it is due (R353, R371) -/
  tbsyncDue : Bool
  /-- the league was formed without a step clock, and no TBSYNC has come since (R354) -/
  needSync : Bool
  /-- the plan in use and its league identity, in the layouts of LGE_PLAN and LGE_LID (R349) -/
  plan : Nat
  lid : Nat
  /-- accepted vote events (R364) -/
  events : List VoteEv
  /-- local causes by grain, newest first: the grain from which this mask of causes stood (R111, R364) -/
  causes : List (Nat × Nat)
  /-- VOTE contents received while FORMING, held until the league is formed: port and event slots (R364, assumption 61) -/
  early : List (Nat × List Nat)
  /-- a RATE has followed FORMED, and no TBSYNC has come since (R371) -/
  rated : Bool
  /-- the token that names the coming boundary (R367) -/
  tok : Option CycleTok
  /-- a START received or sent: GS and LAST (R370) -/
  start : Option (Nat × Nat)
  /-- the START last acted on (R359) -/
  begun : Option (Nat × Nat)
  /-- the cycle whose boundary ends the burst; none for RUN -/
  last : Option Nat
  /-- the array was held in the last grain; the TB_LOCAL at which this hold began; EV71 raised for it -/
  held : Bool
  heldSince : Nat
  longDone : Bool
  /-- TB_LOCAL of the last throttle change (R114) -/
  thrAt : Nat
  /-- the step PLL had locked at the present MHZ (R354) -/
  wasLocked : Bool
  /-- the step clock edge in its group of 16 (R113) -/
  edge : Nat
  /-- a release stage, a throttle level and a burst end that a boundary grain named and that are not yet taken
  (assumption 19) -/
  relDue : Nat
  thrDue : Option Nat
  burstDue : Bool
  deriving DecidableEq, Repr

/-- An IEEE 1588 master seen (R375). -/
structure PtpMaster where
  hport : Nat
  clock : Nat
  quality : List Nat
  domain : Nat
  /-- TB_LOCAL at its last Announce -/
  seen : Nat
  deriving DecidableEq, Repr

/-- Time bases and the servo (R373 to R382). -/
structure Tim where
  loc : BitVec 64
  league : BitVec 64
  td : List (BitVec 64)
  /-- TB_WALL in units of 2^-16 ns -/
  wall : Nat
  /-- the remainder of TB_WALL below 2^-16 ns, in units of 10^-9 of it -/
  rem : Int
  setSecHi : Nat
  setSecLo : Nat
  setNs : Nat
  /-- the integrator and the applied rate, in units of 2^-16 ppb (R379) -/
  fi : Int
  rate : Int
  /-- offsets gathered before first lock (R378) -/
  offs : List Int
  /-- valid offsets since re-training of the upstream port, counted to eight (R382) -/
  retrain : Option Nat
  /-- values of meanPathDelay that agree since a change, counted to sixteen (R382) -/
  pdAgree : Option Nat
  /-- the source's UNC and LOCKED as last received -/
  srcUnc : Bool
  srcLocked : Bool
  masters : List PtpMaster
  best : Option PtpMaster
  /-- the filtered meanPathDelay in ns, and the last Sync: t1 and t2 -/
  mpd : Option Int
  sync : Option (Int × Int)
  /-- Delay_Req messages sent on host ports 0 and 1 -/
  reqs : Nat × Nat
  deriving DecidableEq, Repr

/-- The event controller beside its registers: the open 1 ms windows of R430, event ↦ merged raises + 1. -/
structure Evt where
  windows : SMap Nat
  deriving DecidableEq, Repr

/-- A command of the task scheduler that waits for the rest of its cycle (R449): a word of TSK_CMDn, a submission from core `n`, or a
read of TSK_DISPn by a master. -/
inductive TskCmd where
  | word (n : Nat) (d : Word)
  | submit (n : Nat)
  | dispatch (m n : Nat)
  deriving DecidableEq, Repr

/-- The task scheduler beside its registers: READY entries in the order of R446, and when each became READY. -/
structure Tsk where
  ready : List Nat
  since : SMap Nat
  /-- flags allocated: flag, SRC, channel (R456) -/
  alloc : List (Nat × Nat × Nat)
  /-- commands of the present cycle so far (R449, assumption 26) -/
  batch : List TskCmd
  /-- within a cycle: entries put at the tail of their priority, and of these the ones that became READY (R446, R449) -/
  moved : NSet
  readied : NSet
  deriving DecidableEq, Repr

/-- A channel as the image declares it, beside CHN_CFG (R462). -/
structure ChanDesc where
  index : Nat
  slot0 : Nat
  due : Nat
  deriving DecidableEq, Repr

/-- An output-slot record: channel, bit, step, line (R464). -/
structure OutSlot where
  chan : Nat
  bit : Nat
  step : Nat
  line : Nat
  deriving DecidableEq, Repr

/-- An entry reserved by a commit and not yet visible (R465): channel, entry bytes, commit time. -/
structure Reserved where
  chan : Nat
  data : List Byte
  at_ : Nat
  deriving DecidableEq, Repr

/-- Channels beside their registers. -/
structure Chn where
  descs : List ChanDesc
  outs : List OutSlot
  /-- hub input slots of kind channel that carry 1 in this cycle (R463) -/
  bits : NSet
  /-- record bits taken at D for this cycle (R466) -/
  taken : SMap Nat
  /-- entries already moved out of the first firkin of a spill -/
  head : SMap Nat
  reserved : List Reserved
  /-- spill entries of a channel, oldest first: bytes and commit time (R468) -/
  spill : SMap (List (List Byte × Nat))
  /-- when each entry of a ring was committed or published, oldest first (R488) -/
  times : SMap (List Nat)
  /-- forerunner channels that hold the league (R471) -/
  holding : NSet
  deriving DecidableEq, Repr

/-- A frame on its way from the hub to the FB (R603, R604). -/
inductive HubFrame where
  | out (prime : Bool) (seq : Nat) (drive : Bool) (cyc held period : Nat) (out oe : NSet)
  | config (bank vsel : Nat) (cells : List Word)
  | idle
  | inert
  | resend (seq : Nat)
  deriving DecidableEq, Repr

/-- A frame on its way from the FB to the hub (R603, R605). -/
inductive FbFrame where
  | inp (seq cyc pg : Nat) (inp cont : NSet)
  | idle (pg : Nat)
  | nak (seq pg : Nat)
  | bad (seq kind : Nat)
  deriving DecidableEq, Repr

/-- A frame on the crossing: its bytes (R602, R603), and whether it is the resent copy that its receiver awaits (R610). -/
structure Wire where
  bytes : List Byte
  again : Bool
  deriving DecidableEq, Repr

/-- An output frame not yet answered (R611): the frame as it would be sent again, none once an INERT has followed it, and `stale`
when its answer serves no cycle any more (assumption 52). -/
structure Unanswered where
  seq : Nat
  cyc : Nat
  frame : Option HubFrame
  stale : Bool
  deriving DecidableEq, Repr

/-- A field output slot: cell, step, line (R615). -/
structure FieldSlot where
  cell : Nat
  step : Nat
  line : Nat
  deriving DecidableEq, Repr

/-- The hub's end of the field crossing beside its registers (R602 to R613). -/
structure Fio where
  slots : List FieldSlot
  /-- OUT and OE slots that carry 1 in this cycle (R614) -/
  bits : NSet
  /-- frames to the FB, and from it, in order -/
  toFb : List Wire
  toHub : List Wire
  /-- IDLE and RESEND frames that an OUT frame must precede (R606) -/
  later : List Wire
  /-- output frames not yet answered, oldest first -/
  waiting : List Unanswered
  /-- input frames by parity of the cycle that uses them: cycle, IN bits (R608) -/
  even : Option (Nat × NSet)
  odd : Option (Nat × NSet)
  /-- the cycle whose input frame is absent and holds the league (R609, R612) -/
  late : Option Nat
  /-- held grains, and step clock edges, since the previous OUT frame began; no edges in the first OUT after a stop -/
  held : Nat
  edges : Option Nat
  /-- banks whose CONFIG frame is due (R606), and those whose supply an accepted VSEL write is to set up, until the FB has done so (R597) -/
  cfgDue : NSet
  start : NSet
  /-- the cycle whose frame `lastOutBits` and `lastOe` are -/
  outCyc : Option Nat
  /-- the last IN, OUT, OE and CONT bits (R620) -/
  lastIn : NSet
  lastOutBits : NSet
  lastOe : NSet
  lastCont : NSet
  deriving DecidableEq, Repr

/-- The field bridge die (R596 to R613). -/
structure Fb where
  /-- SEQ and CYC of the last output frame since R611's events -/
  prev : Option (Nat × Nat)
  /-- a NAK was sent, and no good copy of its frame has come (R610) -/
  naked : Bool
  /-- cells active: the last applied frame had DRIVE 1 and nothing has inerted them since -/
  active : Bool
  out : NSet
  oe : NSet
  /-- the kept copies of IN frames (R610), newest first, one for each SEQ at most as far back as SEQ tells them apart -/
  kept : List FbFrame
  /-- settings as the last CONFIG of each bank gave them -/
  cells : SMap Word
  vsel : SMap Nat
  /-- banks whose supply is good, settling, and faulted -/
  pg : NSet
  settling : NSet
  faulted : NSet
  /-- banks inert at the previous application or at some time since (R600) -/
  broken : NSet
  deriving DecidableEq, Repr

/-- The state of the module. -/
structure State where
  /-- every register, by NoC address; unlisted at its reset word (R11 to R16) -/
  regs : SMap Word
  /-- latched high words by NoC address (R116, R373) -/
  latches : SMap Word
  ctl : Ctl
  fuses : Fuses
  arr : Arr
  dm : Dm
  ldr : Ldr
  snp : Snp
  acq : Acq
  lanes : List LanePort
  lge : Lge
  tim : Tim
  cores : List Core
  evt : Evt
  tsk : Tsk
  chn : Chn
  hub : Hub
  noc : Noc
  hmp : Hmp
  dbg : Dbg
  trc : Trc
  pmc : Pmc
  fio : Fio
  fb : Fb
  mgt : Mgt
  thm : Thm
  /-- every byte memory of the module by NoC address: local banks, channel RAM, design-memory banks, HBM, mailboxes -/
  mem : List Host.Cell
  /-- bytes of banks and channel RAM that fail parity (R155, R499) -/
  badMem : NSet
  /-- messages the module sent, oldest first -/
  out : List Out
  /-- the counter of free values (the model's own, assumption 8) -/
  freeCtr : Nat
  /-- commands waiting, first in, first out -/
  pending : List Instr
  deriving DecidableEq, Repr

/-- Mode BOOT with the core domain powered (R16, R28, R666). -/
def Ctl.reset : Ctl where
  mode := .boot
  holdFrom := .run
  burst := false
  left := 0
  reason := 0
  safeDue := none
  safeNext := false
  corePower := true
  fieldPower := true
  switchingOff := false
  stopReq := false
  clock := false
  inputGood := true

/-- Fuses: no value is given; grade UHK-6200-20, all else 0 (assumption 4). -/
def Fuses.reset : Fuses where
  grade := .u6220
  serial := 0
  mac := 0
  spare := [none, none, none, none, none, none]
  bankSpares := List.replicate 16 0
  rbcnt := 0

/-- The array with every store at 0 (R46, R505). -/
def Arr.reset : Arr where
  instr := []
  ds := []
  carry := []
  line := []
  dict := []
  emit := []
  hubEmit := []
  wires := []
  badInstr := []
  badDs := []
  badDict := []
  badEmit := []
  badHub := []
  pos := 0
  stopped := false
  fails := []

/-- No memory descriptors, no access. -/
def Dm.reset : Dm where
  descs := []
  acc := []
  recs := []
  reads := []
  wq := [0, 0, 0, 0]
  guard := [false, false, false, false]
  oldEcc := []

/-- No image. -/
def Ldr.reset : Ldr where
  img := none
  releases := []
  lanemap := []
  loading := none
  stagings := []
  staged := []
  gap := 4
  relCount := 0
  begun := false

/-- No snapshot. -/
def Snp.reset : Snp where
  lastId := 0
  pend := none
  snap := none
  stream := none
  restoring := none
  restored := none
  staged := [0, 0, 0, 0]

/-- Not capturing. -/
def Acq.reset : Acq where
  probes := []
  setBuf := []
  ownSet := false
  entries := []
  f := 0
  t := none
  stopCycle := none
  fired := false
  post := 0
  pre := 0
  decN := 1
  winN := 1
  vals := []
  perrVals := []
  prev := none
  prevCmp := []
  prevMatch := []
  win := none
  rises := []
  streams := []
  buffer := []
  acts := 0
  forced := false
  fromState := 0
  lgs := []
  heldNow := 0
  fresh := 0
  stopEnd := none
  arming := []
  calibrating := none
  armed := false
  goDone := false
  autoDue := false
  autoDone := false
  lgNow := none

/-- A lane group before its first word. -/
def Grp.reset : Grp where
  txSeq := 0
  held := []
  resend := []
  queue := []
  bits := []
  nsent := 0
  gapTok := 4
  sinceMark := 0
  marks := 0
  rxSeq := none
  await := false
  lastNak := false
  actedAck := none
  actedTimes := 0
  even := []
  odd := []
  half := false
  nrecv := 0
  nlast := 0
  cym := none
  cap := none
  rxok := false
  rxSince := 0
  missed := 0
  found := 0
  good := 0
  scr := []
  runs := []
  line := []
  gap := false
  rxScr := []
  rxRuns := []

/-- A port in DETECT. -/
def LanePort.reset : LanePort where
  a := Grp.reset
  b := Grp.reset
  errs := 0
  lgdata := 0
  ready := false
  vtx := 0
  vrx := []
  vfirst := none
  vsent := 0
  evseq := none
  tseq := 0
  syncAt := 0
  rxSync := none

/-- A league of one (R349). -/
def Lge.reset : Lge where
  cycle := 0
  ready := 0
  gradebad := 0
  wrong := 0
  reported := none
  tbsyncDue := false
  needSync := false
  plan := 0
  lid := 0
  events := []
  causes := []
  early := []
  rated := false
  tok := none
  start := none
  begun := none
  last := none
  held := false
  heldSince := 0
  longDone := false
  thrAt := 0
  wasLocked := false
  edge := 0
  relDue := 0
  thrDue := none
  burstDue := false

/-- Time bases at 0 (R373, R377, R397). -/
def Tim.reset : Tim where
  loc := 0
  league := 0
  td := List.replicate 16 0
  wall := 0
  rem := 0
  setSecHi := 0
  setSecLo := 0
  setNs := 0
  fi := 0
  rate := 0
  offs := []
  retrain := none
  pdAgree := none
  srcUnc := false
  srcLocked := false
  masters := []
  best := none
  mpd := none
  sync := none
  reqs := (0, 0)

/-- A core held in reset (R405, R438); MVEC, EVEC and the rest at the Reset column of R411. -/
def Core.reset : Core where
  x := []
  pc := 0
  sys := []
  cyc := 0
  cycLatch := 0
  resv := none
  running := false
  lockup := false
  wfe := false
  ran := 1
  asleep := false
  sleptAt := 0
  monPrv := false
  stepped := false
  rstHalt := false
  wdog := false
  wdogOnce := false
  icache := []
  dcache := []
  run := none

/-- The management controller runs its firmware (R650); the pc its ROM starts at is not given (assumption 5). -/
def Core.mc : Core := { Core.reset with running := true }

/-- No session, no claim. -/
def Hmp.reset : Hmp where
  sessions := []
  claim := none
  nextNum := 1
  discards := 0
  ins := []
  outs := []
  opened := []
  now := 0
  link0 := true
  link1 := true
  lowPower0 := false
  lowPower1 := false

/-- No power change, no march. -/
def Hub.reset : Hub where
  power := []
  marches := []
  camFreeing := false
  hot := [false, false, false, false]

/-- Sixteen trace sources. -/
def Trc.reset : Trc where
  fifo := []
  srcs := List.replicate 16 ⟨0, 0, 0, false⟩
  sent := 0
  put := []
  blocks := []
  trcd := 0
  trcval := false
  dealt := 0
  scr := [0, 0, 0, 0]

/-- The hub's end of the field crossing, down until the first valid frame (R613, R623). -/
def Fio.reset : Fio where
  slots := []
  bits := []
  toFb := []
  toHub := []
  later := []
  waiting := []
  even := none
  odd := none
  late := none
  held := 0
  edges := none
  cfgDue := []
  start := []
  outCyc := none
  lastIn := []
  lastOutBits := []
  lastOe := []
  lastCont := []

/-- The FB after power-up: every cell inert, no supply on (R17, R597). -/
def Fb.reset : Fb where
  prev := none
  naked := false
  active := false
  out := []
  oe := []
  kept := []
  cells := []
  vsel := []
  pg := []
  settling := []
  faulted := []
  broken := []

/-- The factory settings of R653, byte by byte where not 0; CRC is set when a commit writes a copy. -/
def factorySettings : List Host.Cell :=
  [(0, 0x53), (1, 0x45), (2, 0x54), (3, 0x54), (4, 0x01), (8, 0x01), (20, 0xE8), (21, 0x03), (22, 0xB5), (23, 0x88),
   (24, 0xC0), (25, 0xB9), (26, 0x01), (40, 0x6C), (41, 0x02), (42, 100), (43, 32)]

/-- The management side as the MC leaves it when the core domain enters BOOT (R650 to R662, assumption 5). -/
def Mgt.reset : Mgt where
  copy0 := factorySettings
  copy1 := []
  active := none
  settings := factorySettings
  staging := factorySettings
  commit := none
  erasing := false
  lost := false
  log := []
  logBuf := []
  logSeq := 0
  slotA := []
  slotB := []
  runSlot := 0
  onTrial := false
  recovery := false
  mcUp := true
  xingUp := true
  upd := none
  mcIrq := []
  hubWin := 0
  restarting := false
  wallSec := 0
  wallNs := 0
  wallKnown := false
  stage := 4
  mbox := none
  reply := (false, 0)
  idles := (0, 0)
  modeKnown := .boot
  modeWords := []
  pwrWords := []
  bootAt := 0

/-- The registers whose Reset is "settings": LGE_CTL.AUTO, LGE_PLAN, LGE_LID, LGE_TMO, PWR_LIM (R386 to R389, R669),
from a settings copy (R653). -/
def settingsRegs (c : List Host.Cell) : List (Nat × Word) :=
  let at_ (a n : Nat) : Nat := leNat (Mem.read c a n)
  [(A.LGE_CTL, BitVec.ofNat 32 (at_ 10 1 % 2 * 256)), (A.LGE_PLAN, BitVec.ofNat 32 (at_ 12 4 / 8192 * 8192)),
   (A.LGE_LID, BitVec.ofNat 32 (at_ 16 4)), (A.LGE_TMO, BitVec.ofNat 32 (at_ 20 2)),
   (A.PWR_LIM, BitVec.ofNat 32 (at_ 42 1 * 2 ^ 24 + at_ 43 1 * 2 ^ 16 + at_ 40 2))]

/-- The grade code (R1). -/
def Grade.code : Grade → Nat
  | .u6220 => 0x6220
  | .u6216 => 0x6216
  | .u6120 => 0x6120

/-- Core dies of the grade (R1). -/
def Grade.dies : Grade → Nat
  | .u6120 => 3
  | _ => 6

/-- HBM stacks of the grade (R1). -/
def Grade.stacks : Grade → Nat
  | .u6120 => 2
  | _ => 4

/-- The greatest step clock of the grade in MHz (R1). -/
def Grade.maxMhz : Grade → Nat
  | .u6216 => 1600
  | _ => 2000

/-- The registers whose Reset is "fuse", "slot" or "grade" (R216, R343, R530, R544, R548, R667). -/
def fuseRegs (f : Fuses) (fwver runSlot trial tries : Nat) : List (Nat × Word) :=
  let three := f.grade == .u6120
  ((List.range 6).map fun n =>
    (A.LDR_SPARE n, match if f.grade.dies ≤ n then none else f.spare.getD n none with
      | some b => BitVec.ofNat 32 (2 ^ 31 + b % 32)
      | none => 0)) ++
  ((List.range 16).map fun b => (A.HBK_SPARE b, BitVec.ofNat 32 (f.bankSpares.getD b 0 % 16))) ++
  [(A.LNK_NHOP, BitVec.ofNat 32 ((28 * f.grade.maxMhz + 999) / 1000)),
   (A.MGT_SERLO, BitVec.ofNat 32 f.serial.toNat), (A.MGT_SERHI, BitVec.ofNat 32 (f.serial.toNat / 2 ^ 32)),
   (A.MGT_ID, BitVec.ofNat 32 (f.grade.code * 65536 + fwver % 65536)),
   (A.MGT_MACLO, BitVec.ofNat 32 f.mac.toNat), (A.MGT_MACHI, BitVec.ofNat 32 (f.mac.toNat / 2 ^ 32)),
   (A.MGT_UPD, BitVec.ofNat 32 (runSlot % 2 * 2 ^ 31 + trial % 4 * 2 ^ 28 + tries % 4 * 2 ^ 24 + f.rbcnt % 128))] ++
  ((List.range 32).filter (routerAbsent three)).map (fun r => (A.NOC_RCFG r, (0x20000000 : Word))) ++
  (if three then ((List.range 25).flatMap fun i => (List.range 64).map fun e => (A.NOC_RT i e, resetRoute true i e)) else [])

/-- The register file right after entry to BOOT (R16). -/
def bootRegs (f : Fuses) (set : List Host.Cell) (fwver runSlot : Nat) : SMap Word :=
  (fuseRegs f fwver runSlot (leNat (Mem.read set 45 1)) (leNat (Mem.read set 46 1)) ++ settingsRegs set).foldl
    (fun m x => rset resetWord m x.1 x.2) []

/-- The module right after reset: entry to BOOT, every register at its Reset column (R16, R17, R631). -/
def State.reset : State where
  regs := bootRegs Fuses.reset factorySettings 0 0
  latches := []
  ctl := Ctl.reset
  fuses := Fuses.reset
  arr := Arr.reset
  dm := Dm.reset
  ldr := Ldr.reset
  snp := Snp.reset
  acq := Acq.reset
  lanes := List.replicate 6 LanePort.reset
  lge := Lge.reset
  tim := Tim.reset
  cores := List.replicate 16 Core.reset ++ [Core.mc]
  evt := ⟨[]⟩
  tsk := ⟨[], [], [], [], [], []⟩
  chn := ⟨[], [], [], [], [], [], [], [], []⟩
  hub := Hub.reset
  noc := ⟨[], false, false, []⟩
  hmp := Hmp.reset
  dbg := ⟨[], [], 0, []⟩
  trc := Trc.reset
  pmc := ⟨0, none, 0, 0⟩
  fio := Fio.reset
  fb := Fb.reset
  mgt := Mgt.reset
  thm := ⟨false, 0, false, false, 0⟩
  mem := []
  badMem := []
  out := []
  freeCtr := 0
  pending := []

end Sys2Proof.Machine
end

