-- ==== Sys2Proof/Machine/Ops.lean ====
section
/-! DEFINITION. The operations every unit shares: register fields, memories, first-occurrence records, events, the
event log, and HBM regions. -/
namespace Sys2Proof.Machine

/-! ### Registers -/

/-- The word a register holds (R11, R16). -/
def State.reg (s : State) (a : Nat) : Word := rget resetWord s.regs a

/-- Put a word into a register. -/
def State.setReg (s : State) (a : Nat) (w : Word) : State := { s with regs := rset resetWord s.regs a w }

/-- A number with bits `[lo + w - 1 : lo]` replaced. -/
def putBits (n lo w v : Nat) : Nat := n - bits n lo w * 2 ^ lo + v % 2 ^ w * 2 ^ lo

/-- A field of a register. -/
def State.fld (s : State) (f : Fld) : Nat := bits (s.reg f.addr).toNat f.lo f.w

/-- A one-bit field as a Bool. -/
def State.flag (s : State) (f : Fld) : Bool := s.fld f == 1

/-- Write a field of a register, as the hardware does. -/
def State.setFld (s : State) (f : Fld) (v : Nat) : State :=
  s.setReg f.addr (BitVec.ofNat 32 (putBits (s.reg f.addr).toNat f.lo f.w v))

/-- Write several fields. -/
def State.setFlds (s : State) (l : List (Fld × Nat)) : State := l.foldl (fun s x => s.setFld x.1 x.2) s

/-- Add to a counter field that stops at its greatest value. -/
def State.count (s : State) (f : Fld) (n : Nat := 1) : State := s.setFld f (Nat.min (s.fld f + n) (2 ^ f.w - 1))

/-- A 64-bit value held in a pair of words. -/
def State.pair (s : State) (lo hi : Nat) : Nat := (s.reg lo).toNat + 2 ^ 32 * (s.reg hi).toNat

/-- Write a 64-bit value into a pair of words. -/
def State.setPair (s : State) (lo hi v : Nat) : State :=
  (s.setReg lo (BitVec.ofNat 32 v)).setReg hi (BitVec.ofNat 32 (v / 2 ^ 32))

/-- Clear registers to their reset words. -/
def State.clearRegs (s : State) (l : List Nat) : State := { s with regs := s.regs.filter fun x => !l.contains x.1 }

/-- A write as the access codes of R14 take it: RW bits take the word, W1C bits written 1 clear, W1S bits written 1
set, all others stay; reserved bits ignore it (R12). -/
def RegRow.write (r : RegRow) (old d : Word) : Word :=
  ((old &&& ~~~r.rw &&& ~~~(d &&& r.w1c)) ||| (d &&& r.rw)) ||| (d &&& r.w1s)

/-- A first-occurrence record (R75): while VALID is 1 a further one only sets MORE. -/
def State.first (s : State) (valid more : Fld) (l : List (Fld × Nat)) (several : Bool := false) : State :=
  if s.flag valid then s.setFld more 1
  else
    let s := (s.setFlds l).setFld valid 1
    if several then s.setFld more 1 else s

/-! ### Free values (assumption 8) -/

/-- A free number below `2 ^ w`. -/
def State.freshNat (s : State) (w : Nat) : Nat × State :=
  (Config.freeNat s.freeCtr % 2 ^ w, { s with freeCtr := s.freeCtr + 1 })

/-- A free bit. -/
def State.freshBit (s : State) : Bool × State := (Config.freeBit s.freeCtr, { s with freeCtr := s.freeCtr + 1 })

/-! ### Order -/

/-- Insertion by a key, so that equal keys keep their order. -/
def insBy {α : Type} (f : α → Nat) (a : α) : List α → List α
  | [] => [a]
  | b :: r => if f a ≤ f b then a :: b :: r else b :: insBy f a r

/-- A list in rising order of a key. -/
def sortBy {α : Type} (f : α → Nat) (l : List α) : List α := l.foldr (insBy f) []

/-! ### Time and position -/

/-- The seconds of TB_WALL (R373). -/
def State.wallSec (s : State) : Nat := s.tim.wall / 65536 / 1000000000

/-- The nanoseconds of TB_WALL. -/
def State.wallNs (s : State) : Nat := s.tim.wall / 65536 % 1000000000

/-- TB_LOCAL (R373). -/
def State.local (s : State) : Nat := s.tim.loc.toNat

/-- TB_LEAGUE (R373). -/
def State.grainNo (s : State) : Nat := s.tim.league.toNat

/-- L of the loaded image, 0 for none (R116). -/
def State.L (s : State) : Nat := s.fld F.SFB_SCHED_L

/-- S of the loaded image (R116). -/
def State.S (s : State) : Nat := s.fld F.SFB_SCHED_S

/-- The hold horizon H (R107, R117). -/
def State.H (s : State) : Nat := s.fld F.SFB_HORIZON_H

/-- D, the delay of a league trigger in design cycles (R261, R275): fixed by H, L and S. -/
def State.lgDelay (s : State) : Nat := Nat.max 1 ((s.H + (s.L + s.S) - 1) / (s.L + s.S))

/-- The league position of this module, in the plan in use (R349, R387). -/
def State.pos (s : State) : Nat := bits s.lge.plan 13 6

/-- The league cycle number of the cycle being executed (R393). -/
def State.cycleNow (s : State) : Nat := if s.L + 9 ≤ s.arr.pos then s.lge.cycle - 1 else s.lge.cycle

/-- The number of positions of the present league, 1 for none (R390). -/
def State.leagueSize (s : State) : Nat := s.fld F.LGE_STAT_SIZE

/-- This module is the league master, or in no league (R37, R390). -/
def State.isMaster (s : State) : Bool := s.leagueSize ≤ 1 || s.flag F.LGE_STAT_MASTER

/-- Core dies present (R1). -/
def State.dies (s : State) : Nat := s.fuses.grade.dies

/-- The step clock is stopped and the array stands at a boundary: IDLE to RESTORE, TEST, SAFE, or STEP stopped (R28). -/
def State.stopped (s : State) : Bool := !s.ctl.clock

/-- In STEP between bursts. -/
def State.stepStopped (s : State) : Bool := s.ctl.mode == .step && !s.ctl.burst

/-! ### Cores -/

/-- Core `n`; 16 is the management controller. -/
def State.core (s : State) (n : Nat) : Core := s.cores.getD n Core.reset

/-- Replace core `n`. -/
def State.setCore (s : State) (n : Nat) (c : Core) : State := { s with cores := setAt s.cores n c }

/-- A NoC write to `[a, a + n)` clears every reservation on its granules (R413). -/
def State.clearResv (s : State) (a n : Nat) : State :=
  { s with cores := s.cores.map fun c =>
      match c.resv with
      | some g => if a / 64 ≤ g ∧ g ≤ (a + n - 1) / 64 then { c with resv := none } else c
      | none => c }

/-! ### Messages (R30 to R35) -/

/-- The 24 header bytes of a message with its check field 0 (R30). -/
def headerBytes (kind opcode seq session length status : Nat) : List Byte :=
  leBytes 1 1 ++ leBytes 1 kind ++ leBytes 2 opcode ++ leBytes 4 seq ++ leBytes 4 session ++ leBytes 4 length ++
    leBytes 4 status ++ leBytes 4 0

/-- The port's endpoint runs: an optical port carries messages from IDLE on (R631), with the core domain powered and its link up (R679,
R681), the management port with the MC up (R28, R647). -/
def State.portUp (s : State) : HPort → Bool
  | .opt0 => s.ctl.corePower && s.ctl.mode != .boot && s.hmp.link0
  | .opt1 => s.ctl.corePower && s.ctl.mode != .boot && s.hmp.link1
  | .mgmt => s.mgt.mcUp && s.ctl.mode != .off

/-- The link of host port `h` is up (R679): the core domain is powered and carries it. -/
def State.hostLink (s : State) (h : Nat) : Bool := s.ctl.corePower && (if h = 0 then s.hmp.link0 else s.hmp.link1)

/-- Send a message on a session; nothing leaves on a port that is down (R679). A session with a key ends the payload with the tag of R556. -/
def State.sendTo (s : State) (x : Session) (kind opcode seq status : Nat) (payload : List Byte) : State :=
  let p := match x.key with
    | none => payload
    | some k => payload ++ (hmac k (headerBytes kind opcode seq x.num (payload.length + 16) status ++ payload)).take 16
  { s with out := if s.portUp x.port then s.out ++ [⟨x.port, kind, opcode, seq, x.num, status, p, x.key.isSome⟩] else s.out }

/-- An open session by number. -/
def State.session (s : State) (n : Nat) : Option Session := s.hmp.sessions.find? (·.num == n)

/-- Replace an open session. -/
def State.setSession (s : State) (x : Session) : State :=
  { s with hmp := { s.hmp with sessions := s.hmp.sessions.map fun y => if y.num == x.num then x else y } }

/-- The hub reaches the MC: the management-frame crossing is up, or the core domain is off and the MC acts alone (R21, R23). -/
def State.mcReached (s : State) : Bool := s.mgt.xingUp || !s.ctl.corePower

/-- An event message of the hub (kind 0x03) to one session: one of the management port gets it only through the crossing (R21). Its
sequence, which R30 leaves to the sender, is 0 (DESIGN CHOICE, assumption 55). -/
def State.tellSession (s : State) (x : Session) (opcode : Nat) (payload : List Byte) : State :=
  if x.port == .mgmt && !s.mcReached then s else s.sendTo x 3 opcode 0 0 payload

/-- An event message to one session, if it is open (R30). -/
def State.eventTo (s : State) (n opcode : Nat) (payload : List Byte) : State :=
  match s.session n with
  | some x => s.tellSession x opcode payload
  | none => s

/-- An event message to every open session. -/
def State.eventAll (s : State) (opcode : Nat) (payload : List Byte) : State :=
  s.hmp.sessions.foldl (fun s x => s.tellSession x opcode payload) s

/-- The code of a mode in MGT_MODE (R666); OFF has none. -/
def Mode.code : Mode → Nat
  | .off => 0
  | .standby => 1
  | .boot => 2
  | .idle => 3
  | .load => 4
  | .armed => 5
  | .run => 6
  | .step => 7
  | .hold => 8
  | .restore => 9
  | .test => 10
  | .safe => 11

/-- MGT_MODE as it reads (R666). -/
def State.mgtMode (s : State) : Word :=
  BitVec.ofNat 32 (s.ctl.mode.code * 2 ^ 28 + b2n (s.ctl.mode == .step && s.ctl.burst) * 2 ^ 24 + s.ctl.reason % 32 * 2 ^ 16)

/-- Write the log buffer to flash (R658): 2,048 records a sector, 254 sectors, and the sector after the newest record erased. -/
def State.flushLog (s : State) : State :=
  let l := s.mgt.log ++ s.mgt.logBuf
  let top := l.foldl (fun n r => Nat.max n (r.seq / 2048)) 0
  { s with mgt := { s.mgt with log := l.filter fun r => top ≤ r.seq / 2048 + 252, logBuf := [] } }

/-- Append a record of 11 data bytes to the MC's log buffer of at most 256 records (R658). -/
def State.log (s : State) (src : Nat) (data : List Byte) : State :=
  if s.mgt.mcUp then
    let s := if s.mgt.logBuf.length < 256 then s else s.flushLog
    { s with mgt := { s.mgt with
        logSeq := s.mgt.logSeq + 1
        logBuf := s.mgt.logBuf ++ [⟨s.mgt.logSeq, s.mgt.wallSec, s.mgt.wallNs, src, !s.mgt.wallKnown,
          (data ++ List.replicate 11 0).take 11⟩] } }
  else s

/-- A record that the hub's side gives rise to, a numbered event or a change of mode: it reaches the MC's log only through the crossing
(R21; DESIGN CHOICE, assumption 55). -/
def State.hubLog (s : State) (src : Nat) (data : List Byte) : State := if s.mcReached then s.log src data else s

/-! ### Events (R426, R430) -/

/-- The payload of the event message 0x0A00 (R430). -/
def State.eventPayload (s : State) (k merged : Nat) : List Byte :=
  leBytes 2 k ++ leBytes 6 s.wallSec ++ leBytes 4 s.wallNs ++ leBytes 4 merged

/-- Raise event `k` (R426): while enabled it becomes pending, a raise that finds it pending counts in EVT_DUP, and HOST
and LOG act as R430 says (a raise while EN is 1 is a latching, assumption 12). -/
def raise (k : Nat) (s : State) : State :=
  if 319 < k then s
  else if s.flag (F.EVT_CFG_EN k) then
    let b : Fld := ⟨A.EVT_PEND (k / 32), k % 32, 1⟩
    let s := if s.flag b then s.count F.EVT_DUP_COUNT else s.setFld b 1
    let s :=
      if s.flag (F.EVT_CFG_HOST k) then
        let w := s.evt.windows.get 0 k
        if w = 0 then { s.eventAll 0x0A00 (s.eventPayload k 0) with evt := ⟨s.evt.windows.set 0 k 1⟩ }
        else { s with evt := ⟨s.evt.windows.set 0 k (w + 1)⟩ }
      else s
    if s.flag (F.EVT_CFG_LOG k) then s.hubLog k (leBytes 4 s.mgtMode.toNat ++ leBytes 6 s.grainNo) else s
  else s

/-- Raise an event when a condition holds. -/
def raiseIf (b : Bool) (k : Nat) (s : State) : State := if b then raise k s else s

/-! ### The MC's memories (R645) -/

/-- Where the MC's ROM and SRAM stand among the bytes of State.mem: above every NoC address. -/
def mcMem (a : Nat) : Nat := 2 ^ 48 + a

/-! ### HBM regions (R20, R513) -/

/-- The part offset of region `k` in bytes, if it exists. -/
def State.region (s : State) (k : Nat) : Option (Nat × Nat) :=
  if s.flag (F.HBK_HRGN_VALID (k - 1)) then
    some (s.fld (F.HBK_HRGN_PBASE (k - 1)) * 0x200000, s.fld (F.HBK_HRGN_PSIZE (k - 1)) * 0x200000)
  else none

/-- The regions that exist, as part offset and part size in 2 MiB units. -/
def State.parts (s : State) : List (Nat × Nat) :=
  (List.range 9).filterMap fun k =>
    if s.flag (F.HBK_HRGN_VALID k) then some (s.fld (F.HBK_HRGN_PBASE k), s.fld (F.HBK_HRGN_PSIZE k)) else none

/-- The lowest part offset, in 2 MiB units, at which a part of `p` units fits in every stack of 24 GiB (R513). -/
def State.place (s : State) (p : Nat) : Option Nat :=
  let l := s.parts
  minNat ((0 :: l.map fun x => x.1 + x.2).filter fun b =>
    b + p ≤ 12288 && l.all fun x => b + p ≤ x.1 || x.1 + x.2 ≤ b)

/-- The part size, in 2 MiB units, of a region of some bytes on this grade, rounded up (R513). -/
def State.partFor (s : State) (bytes : Nat) : Nat :=
  let u := s.fuses.grade.stacks * 0x200000
  (bytes + u - 1) / u

/-- Create region `k` with a part of `p` units; none when it cannot be created (R20). -/
def State.create (s : State) (k p : Nat) : Option State :=
  if s.flag (F.HBK_HRGN_VALID (k - 1)) || p = 0 then none
  else (s.place p).map fun b =>
    s.setFlds [(F.HBK_HRGN_VALID (k - 1), 1), (F.HBK_HRGN_PSIZE (k - 1), p), (F.HBK_HRGN_PBASE (k - 1), b)]

/-- The NoC address of offset `o` of a region with part offset and part size (R513). -/
def regionAddr (base psize o : Nat) : Nat := 0x10000000000 + o / psize * 0x600000000 + base + o % psize

/-- The NoC address of offset `o` of region `k`. -/
def State.regAddr (s : State) (k o : Nat) : Nat :=
  match s.region k with
  | some (b, p) => regionAddr b p o
  | none => 0

/-- Free region `k`; its bytes hold nothing that a later region shows but what is written there. -/
def State.free (s : State) (k : Nat) : State :=
  s.setFlds [(F.HBK_HRGN_VALID (k - 1), 0), (F.HBK_HRGN_PSIZE (k - 1), 0), (F.HBK_HRGN_PBASE (k - 1), 0)]

/-- Write bytes at an offset of a region, byte by byte through R513's address. -/
def State.putRegion (s : State) (k o : Nat) (d : List Byte) : State :=
  match s.region k with
  | some (b, p) =>
    { s with mem := (d.foldl (fun (x : List Host.Cell × Nat) v => (Mem.write1 x.1 (regionAddr b p x.2) v, x.2 + 1)) (s.mem, o)).1 }
  | none => s

/-- Read bytes at an offset of a region. -/
def State.getRegion (s : State) (k o n : Nat) : List Byte :=
  match s.region k with
  | some (b, p) => (List.range n).map fun i => Mem.read1 s.mem (regionAddr b p (o + i))
  | none => []

/-- The region an HBM address lies in (R514). -/
def State.regionOf (s : State) (a : Nat) : Option Nat :=
  let off := (a - 0x10000000000) % 0x600000000 / 0x200000
  (List.range 9).find? (fun k =>
    s.flag (F.HBK_HRGN_VALID k) && s.fld (F.HBK_HRGN_PBASE k) ≤ off &&
      off < s.fld (F.HBK_HRGN_PBASE k) + s.fld (F.HBK_HRGN_PSIZE k)) |>.map (· + 1)

end Sys2Proof.Machine
end

