-- ==== Sys2Proof/Machine/Frames.lean ====
section
/-! DEFINITION. The bytes of the frames on the field crossing: how each end writes them, and how it reads them and finds them bad (R602 to
R605, R610, R611). -/
namespace Sys2Proof.Machine

/-- The bytes of a frame before its CRC, and the CRC-32 that ends it (R602). -/
def sealFrame (b : List Byte) : List Byte := b ++ leBytes 4 (crc32 b)

/-- A frame passes its CRC (R602). -/
def crcOk (b : List Byte) : Bool := 4 ≤ b.length && crc32 (b.take (b.length - 4)) == leAt b (b.length - 4) 4

/-- The bytes of a frame that channel `c` of the four carries, in order (R602). -/
def onChannel (b : List Byte) (c : Nat) : List Byte := (b.zipIdx.filter fun x => x.2 % 4 == c).map (·.1)

/-- The ns that a frame of some bytes occupies the medium: 8 bits of each byte at 130/128 and 1.25 Gbit/s over four channels, rounded up
(R602). -/
def frameNs (bytes : Nat) : Nat := (bytes * 13 + 7) / 8

/-- The TYPE of a frame (R603). -/
def frameType (b : List Byte) : Nat := leAt b 0 1

/-- Byte [1] of a frame: the SEQ of every frame that has one (R603). -/
def frameSeq (b : List Byte) : Nat := leAt b 1 1

/-- The bytes of a frame toward the FB (R603, R604). Byte [1] of a CONFIG, which the layout does not name, is 0. -/
def HubFrame.bytes : HubFrame → List Byte
  | .out prime seq drive cyc held period o e =>
    sealFrame (leBytes 1 (if prime then 2 else 1) ++ leBytes 1 seq ++ leBytes 1 (b2n drive) ++ leBytes 1 0 ++ leBytes 4 cyc ++
      leBytes 2 held ++ leBytes 2 0 ++ leBytes 4 period ++ cellBytes o ++ cellBytes e)
  | .config n v cells =>
    sealFrame (leBytes 1 3 ++ leBytes 1 0 ++ leBytes 1 n ++ leBytes 1 v ++ cells.flatMap fun w => leBytes 4 w.toNat)
  | .idle => sealFrame (leBytes 4 4)
  | .inert => sealFrame (leBytes 4 5)
  | .resend seq => sealFrame (leBytes 1 6 ++ leBytes 1 seq ++ leBytes 2 0)

/-- The bytes of a frame toward the hub (R603, R605). -/
def FbFrame.bytes : FbFrame → List Byte
  | .inp seq cyc pg i x => sealFrame (leBytes 1 0x11 ++ leBytes 1 seq ++ leBytes 2 pg ++ leBytes 4 cyc ++ leBytes 8 0 ++ cellBytes i ++ cellBytes x)
  | .idle pg => sealFrame (leBytes 1 0x12 ++ leBytes 1 0 ++ leBytes 2 pg)
  | .nak seq pg => sealFrame (leBytes 1 0x13 ++ leBytes 1 seq ++ leBytes 2 pg)
  | .bad seq kind => sealFrame (leBytes 1 0x14 ++ leBytes 1 seq ++ leBytes 1 kind ++ leBytes 1 0)

/-- The length that a TYPE has toward the FB, 0 for one that R603 does not list. -/
def hubLength (t : Nat) : Nat := if t = 1 || t = 2 then 148 else if t = 3 then 136 else if 4 ≤ t && t ≤ 6 then 8 else 0

/-- The length that a TYPE has toward the hub, 0 for one that R603 does not list. -/
def fbLength (t : Nat) : Nat := if t = 0x11 then 148 else if 0x12 ≤ t && t ≤ 0x14 then 8 else 0

/-- What the FB reads in a frame that passes its CRC: none where R611 finds its form bad. -/
def readHub (b : List Byte) : Option HubFrame :=
  let t := frameType b
  if b.length = 0 || hubLength t ≠ b.length then none
  else if t = 1 || t = 2 then
    if 2 ≤ leAt b 2 1 || leAt b 3 1 ≠ 0 || leAt b 10 2 ≠ 0 then none
    else some (.out (t == 2) (frameSeq b) (leAt b 2 1 == 1) (leAt b 4 4) (leAt b 8 2) (leAt b 12 4) (cellsAt b 16) (cellsAt b 80))
  else if t = 3 then some (.config (leAt b 2 1) (leAt b 3 1) ((List.range 32).map fun i => BitVec.ofNat 32 (leAt b (4 + 4 * i) 4)))
  else if t = 4 then some .idle
  else if t = 5 then some .inert
  else some (.resend (frameSeq b))

/-- What the hub reads in a frame that passes its CRC: none where R611 finds its form bad. -/
def readFb (b : List Byte) : Option FbFrame :=
  let t := frameType b
  if b.length = 0 || fbLength t ≠ b.length then none
  else if t = 0x11 then
    if leAt b 8 8 ≠ 0 then none else some (.inp (frameSeq b) (leAt b 4 4) (leAt b 2 2) (cellsAt b 16) (cellsAt b 80))
  else if t = 0x12 then some (.idle (leAt b 2 2))
  else if t = 0x13 then some (.nak (frameSeq b) (leAt b 2 2))
  else some (.bad (frameSeq b) (leAt b 2 1))

end Sys2Proof.Machine
end

