-- ==== Sys2Proof/Machine/Records.lean ====
section
/-! DEFINITION. Acquisition records: their layout (R263, R264), the windows, and the acquisition buffer (R267). -/
namespace Sys2Proof.Machine

/-- Bools as bytes, bit 0 of byte 0 first, padded to a multiple of 8 bytes (R264). -/
def bitArea (l : List Bool) : List Byte :=
  (List.range (8 * ((l.length + 63) / 64))).map fun k =>
    (List.range 8).foldl (fun (b : Byte) i => if l.getD (8 * k + i) false then b ||| BitVec.ofNat 8 (2 ^ i) else b) 0

/-- A byte list padded with zeros to a multiple of 8 (R264). -/
def pad8 (b : List Byte) : List Byte := b ++ List.replicate ((8 - b.length % 8) % 8) 0

/-- The value of a record field that stops at 0xFFFF_FFFF. -/
def capWord (n : Nat) : List Byte := leBytes 4 (Nat.min n 0xFFFFFFFF)

/-- Records of this length per entry list: the value record (R264). -/
def valueLen (nb nw : Nat) : Nat := 32 + 8 * ((nb + 63) / 64) + 8 * ((nw + 1) / 2)

/-- The length of a window record with `mb` measured bits and `mw` measured words (R264). -/
def windowLen (nb nw mb mw : Nat) : Nat := (32 + 16 * ((nb + 63) / 64) + 8 * nw + 12 * mb + 8 * mw + 7) / 8 * 8

/-- The areas of a value record: bits, then words. -/
def valueBody (nb : Nat) (v : List Int) : List Byte :=
  bitArea ((v.take nb).map (· == 1)) ++ pad8 ((v.drop nb).flatMap fun i => leBytes 4 (unsgn 32 i))

/-- The PERIOD of a bit entry (R263). -/
def Rises.period (r : Rises) : Nat :=
  match r.r1, r.r0 with
  | some a, some b => a - b
  | _, _ => 0

/-- The areas of a window record (R264). -/
def windowBody (es : List CapEntry) (rs : List Rises) (w : Window) : List Byte :=
  let bits_ := es.filter fun e => !e.word
  let words := es.filter (·.word)
  pad8 (bitArea w.any1 ++ bitArea w.any0 ++
    ((List.range words.length).flatMap fun i =>
      leBytes 4 (unsgn 32 (w.mins.getD i 0)) ++ leBytes 4 (unsgn 32 (w.maxs.getD i 0))) ++
    ((List.range bits_.length).flatMap fun i =>
      if (bits_.getD i ⟨false, false, false, 0, 0⟩).meas then
        capWord (w.edges.getD i 0) ++ capWord (w.highs.getD i 0) ++ capWord (rs.getD i ⟨none, none⟩).period
      else []) ++
    ((List.range words.length).flatMap fun i =>
      if (words.getD i ⟨true, false, false, 0, 0⟩).meas then
        leBytes 4 (unsgn 32 (w.maxs.getD i 0 - w.mins.getD i 0)) ++ leBytes 4 (unsgn 32 (w.sums.getD i 0 / (w.n : Int)))
      else []))

/-- TB_LEAGUE corrected under R268; a half rounds upward (assumption 20). -/
def State.stamp (s : State) : Nat :=
  unsgn 64 ((s.grainNo : Int) - (sgn 32 (s.fld F.ACQ_ALOFS_OFS) + 8) / 16)

/-- Put a record of stream `i` into the acquisition buffer of 4 MiB, or drop it (R264, R267). -/
def putRecord (i cycle stamp held flags n : Nat) (body : List Byte) (s : State) : State :=
  let x := s.acq.streams.getD i ⟨0, 0, 0, 0, 0, 0⟩
  if x.cap = 0 then s
  else
    let used := s.acq.buffer.foldl (fun k r => k + r.2.length) 0
    if 0x400000 < used + 32 + body.length then
      let s := { s with acq := { s.acq with streams := setAt s.acq.streams i { x with dropped := x.dropped + 1 } } }
      raise 164 (s.count F.ACQ_DROP_COUNT)
    else
      let fl := flags ||| (if 0 < x.dropped then 8 else 0)
      let r := leBytes 8 cycle ++ leBytes 8 stamp ++ leBytes 2 (Nat.min held 0xFFFF) ++ leBytes 1 fl ++ leBytes 1 i ++
        leBytes 4 n ++ leBytes 4 x.dropped ++ leBytes 4 x.seq ++ body
      { s with acq := { s.acq with
        buffer := s.acq.buffer ++ [(i, r)], streams := setAt s.acq.streams i { x with seq := x.seq + 1, dropped := 0 } } }

/-- Write the window being gathered (R262): PARTIAL when it covers fewer cycles than its length. -/
def closeWindow (extra : Nat) (s : State) : State :=
  match s.acq.win with
  | none => s
  | some w =>
    let fl := w.flags ||| extra ||| (if w.n < s.acq.winN then 0x20 else 0)
    let s := putRecord 2 w.first w.stamp w.held fl w.n (windowBody s.acq.entries s.acq.rises w) s
    { s with acq := { s.acq with win := none } }

/-- End capturing with a cause of R272: a window that capturing stops inside is written with PARTIAL. -/
def endCapture (cause : Nat) (s : State) : State :=
  let s := { s with acq := { s.acq with armed := false, stopEnd := none } }
  if s.flag F.ACQ_CTL_CAPT then
    let s := closeWindow 0 s
    let s := s.setFlds [(F.ACQ_CTL_CAPT, 0), (F.ACQ_CTL_DONE, 1), (F.ACQ_CTL_END, cause)]
    raiseIf (cause == 1) 163 s
  else s

end Sys2Proof.Machine
end

