-- ==== Sys2Proof/Machine/Modes.lean ====
section
/-! DEFINITION. Operations over the whole module that every unit shares: changes of mode and SAFE, discarding an image,
streams to the host, the host message protocol's common checks, and NoC responses. -/
namespace Sys2Proof.Machine

/-! ### Errors of HBM outside design access (R516, R517) -/

/-- A correction (R516). -/
def hbmCorrect (s : State) : State := raiseIf (s.flag F.HBK_SCRUB_CEEV) 268 (s.count F.HBK_HCE_COUNT)

/-- An uncorrectable error: `a` is the NoC address. -/
def hbmUe (scrub : Bool) (a : Nat) (s : State) : State :=
  let o := a - 0x10000000000
  raise 269 (s.first F.HBK_HUE_VALID F.HBK_HUE_MORE
    [(F.HBK_HUE_SCRUB, b2n scrub), (F.HBK_HUE_STACK, o / 0x600000000), (F.HBK_HUEADDR_LINE, o % 0x600000000 / 64)])

/-- The codewords that a range of bytes touches. -/
def codewords (a n : Nat) : List Nat := (List.range ((a + n - 1) / 8 + 1 - a / 8)).map fun i => (a / 8 + i) * 8

/-- Codewords are read, over the network or by a unit of the hub: what each shows at its first read and at its repetition comes from `e`, then from what is in
store (R516). False when one is uncorrectable at both. -/
def eccReads (l : List Nat) (e : List (Ecc × Ecc)) (s : State) : Bool × State :=
  let l := l.take (e.length + s.noc.eccs.length)
  if l.isEmpty then (true, s)
  else
    let r := l.foldl (fun (x : Bool × List (Ecc × Ecc) × State) a =>
      match x.2.1.headD (.clean, .clean) with
      | (.uncorrectable, .uncorrectable) => (false, x.2.1.tail, hbmUe false a x.2.2)
      | (.corrected, _) => (x.1, x.2.1.tail, hbmCorrect x.2.2)
      | (.uncorrectable, .corrected) => (x.1, x.2.1.tail, hbmCorrect x.2.2)
      | _ => (x.1, x.2.1.tail, x.2.2)) (true, e ++ s.noc.eccs, s)
    (r.1, { r.2.2 with noc := { r.2.2.noc with eccs := r.2.1 } })

/-- `n` free bytes, after some others. -/
def State.freeBytes (s : State) : Nat → List Byte → List Byte × State
  | 0, l => (l, s)
  | n + 1, l => let x := s.freshNat 8; x.2.freeBytes n (l ++ [BitVec.ofNat 8 x.1])

/-- What a unit of the hub reads of `d` at offset `o` of region `k`: where a codeword stays uncorrectable the error is recorded, and the spec
gives the transfer no bytes: they are free values (R516; DESIGN CHOICE, assumption 46). -/
def hubRead (k o : Nat) (d : List Byte) (s : State) : List Byte × State :=
  let r := eccReads ((codewords o d.length).map fun c => s.regAddr k c) [] s
  if r.1 then (d, r.2) else r.2.freeBytes d.length []

/-! ### Modes (R631 to R634) -/

/-- Change the mode: EV312 and log record 0x800B, except between HOLD and the mode it was entered from (R633). -/
def setMode (m : Mode) (s : State) : State :=
  if s.ctl.mode = m then s
  else
    let quiet := m == .hold || s.ctl.mode == .hold && (m == .run || m == .step)
    let s := { s with ctl := { s.ctl with mode := m } }
    if quiet then s else (raise 312 s).hubLog 0x800B (leBytes 1 m.code)

/-- Put a frame on its way to the FB, and behind it those that waited for it (R602, R606). -/
def State.sendFb (s : State) (f : HubFrame) (again : Bool := false) : State :=
  { s with fio := { s.fio with toFb := s.fio.toFb ++ ⟨f.bytes, again⟩ :: s.fio.later, later := [] } }

/-- The INERT frame of R619; FIO_STAT.DRIVE reads 0 after it (R623). -/
def State.sendInert (s : State) : State :=
  (({ s with fio := { s.fio with
      waiting := s.fio.waiting.map fun (x : Unanswered) => { x with frame := none } } } : State).sendFb .inert).setFld F.FIO_STAT_DRIVE 0

/-- The local hold causes as a mask of the ten of R109 that are votes: all but REMOTE; in LOAD none is made (R201). -/
def State.causes (s : State) : Nat :=
  let n := bits (s.reg A.SFB_HOLD_STAT).toNat 0 11
  if s.ctl.mode == .load then 0 else n - bits n 9 1 * 512

/-- Add a vote event (R364); events with the same origin, kind and stamp are one (R363). -/
def State.addVote (s : State) (e : VoteEv) : State :=
  if s.lge.events.contains e then s else { s with lge := { s.lge with events := s.lge.events ++ [e] } }

/-- The port whose topology the plan uses: ring P0, P1; 2D P0 to P3; 3D all (R36). -/
def State.topoPorts (s : State) : List Nat :=
  match bits s.lge.plan 30 2 with
  | 0 => []
  | 1 => [0, 1]
  | 2 => [0, 1, 2, 3]
  | _ => [0, 1, 2, 3, 4, 5]

/-- The code of port `n` in LGE_PSTAT (R351, R391). -/
def State.portCode (s : State) (n : Nat) : Nat := bits (s.fld F.LGE_PSTAT_CODE) (3 * n) 3

/-- Ports whose code is OK (R351). -/
def State.leaguePorts (s : State) : List Nat := (List.range 6).filter fun n => s.portCode n == 2

/-- Lane port `n`. -/
def State.lane (s : State) (n : Nat) : LanePort := s.lanes.getD n LanePort.reset

/-- Replace lane port `n`. -/
def State.setLane (s : State) (n : Nat) (p : LanePort) : State := { s with lanes := setAt s.lanes n p }

/-- Queue a control word on a group (R314, R358). -/
def Grp.push (g : Grp) (type body : Nat) : Grp := { g with queue := g.queue ++ [(type, body)] }

/-- Queue a TOKEN body on group A of a port (R358). -/
def State.queueToken (s : State) (n body : Nat) : State :=
  let p := s.lane n
  s.setLane n { p with a := p.a.push 3 body }

/-- A 32-bit event slot of a VOTE body (R361). -/
def VoteEv.slot (e : VoteEv) : Nat := e.ek * 2 ^ 29 + e.origin % 64 * 2 ^ 23 + e.g % 2 ^ 23

/-- Queue a VOTE with one event on a league port, sent twice (R358, R361). -/
def State.queueVote (s : State) (n : Nat) (e : VoteEv) : State :=
  let v := ((s.lane n).vtx + 1) % 256
  let body := 0x02 * 2 ^ 192 + v * 2 ^ 184 + e.slot * 2 ^ 152
  let s := s.setLane n { s.lane n with vtx := v }
  (s.queueToken n body).queueToken n body

/-- Originate a vote event: it joins the league vote here and travels on every league port (R362, R363). -/
def State.originate (s : State) (ek stamp : Nat) : State :=
  let e : VoteEv := ⟨ek, s.pos, stamp⟩
  s.leaguePorts.foldl (fun s n => s.queueVote n e) (s.addVote e)

/-! ### Streams to the host (R34) -/

/-- The port that stream message `q` of a session leaves on: with both optical links up the stream is spread over both, by the parity of
its sequence (DESIGN CHOICE, assumption 13), and with one up it keeps to that one (R34). Every stream the module sends is a bulk transfer,
which no session takes to the management port. -/
def State.streamPort (s : State) (q : Nat) : HPort :=
  match s.hmp.link0, s.hmp.link1 with
  | true, true => if q % 2 = 0 then .opt0 else .opt1
  | false, true => .opt1
  | _, false => .opt0

/-- Send what the window of 4,096 unacknowledged messages lets go. -/
def State.pump (s : State) (n op : Nat) : State :=
  match s.session n, s.hmp.outs.find? (fun (o : OutStream) => o.session == n && o.opcode == op) with
  | some x, some o =>
    let k := Nat.min 4096 o.data.length
    let s := ((List.range k).drop o.sent).foldl (fun s i => s.sendTo { x with port := s.streamPort (o.base + i) } 4 op (o.base + i) 0 (o.data.getD i [])) s
    { s with hmp := { s.hmp with outs := s.hmp.outs.map fun y =>
        if y.session == n && y.opcode == op then { o with sent := Nat.max o.sent k } else y } }
  | _, _ => s

/-- Put messages at the end of a stream, which begins with sequence 0 (assumption 13); no message begins no stream. -/
def State.putStream (s : State) (n op : Nat) (d : List (List Byte)) : State :=
  if d.isEmpty then s else
  let outs : List OutStream := if s.hmp.outs.any (fun o => o.session == n && o.opcode == op) then s.hmp.outs
    else s.hmp.outs ++ [⟨n, op, [], 0, 0⟩]
  let s := { s with hmp := { s.hmp with outs := outs.map fun (o : OutStream) =>
      if o.session == n && o.opcode == op then { o with data := o.data ++ d } else o } }
  s.pump n op

/-- Cut bytes into stream messages of 4,096 bytes (assumption 13). -/
def chunks : Nat → List Byte → List (List Byte)
  | 0, _ => []
  | n + 1, b => if b.isEmpty then [] else b.take 4096 :: chunks n (b.drop 4096)

/-- Begin to take a stream of a session (R34), in place of one of the same kind. -/
def State.openIn (s : State) (n : Nat) (k : InKind) (op total : Nat) : State :=
  let l := s.hmp.ins.filter fun (x : InStream) => !(x.session == n && x.kind == k)
  { s with hmp := { s.hmp with ins := l ++ [⟨n, k, op, 0, [], 0, total⟩] } }

/-- Abort the snapshot, made or pending, with a reason of R228 (R229): storage freed, REASON set, EV79, the event message
to every session, a stream in progress ending with a trailer that carries the reason. -/
def abortSnap (why : Nat) (s : State) : State :=
  if s.snp.snap.isNone && s.snp.pend.isNone then s
  else
    let c := match s.snp.snap, s.snp.pend with
      | some x, _ => x.cycle
      | none, some (some c) => c
      | _, _ => 2 ^ 64 - 1
    let id := s.fld F.SNP_ID_SNAPID
    let s := match s.snp.stream with
      | some k =>
        if k.trailer then s else
        let body := leBytes 4 ((s.snp.snap.map fun (x : Snap) => x.undo.length).getD 0) ++ leBytes 4 why ++ leBytes 4 id
        s.putStream k.session 0x0602 [body ++ leBytes 4 (crcReg k.crc body ^^^ 0xFFFFFFFF)]
      | none => s
    let s := { s with snp := { s.snp with snap := none, pend := none, stream := none } }
    let s := s.setFlds [(F.SNP_STAT_STATE, 0), (F.SNP_STAT_FIELDOK, 0), (F.SNP_STAT_REASON, why),
      (F.SNP_UNDO_ENTRIES, 0), (F.SFB_HOLD_STAT_SNAPSHOT, 0)]
    (raise 79 s).eventAll 0x0600 (leBytes 4 id ++ leBytes 8 c ++ leBytes 1 why ++ leBytes 3 0)

/-- The report of R193 as 24 bytes; a field that does not apply holds all ones. -/
def Report.bytes (r : Report) : List Byte :=
  leBytes 2 r.code ++ leBytes 1 r.phase ++ leBytes 1 (r.die.getD 0xFF) ++ leBytes 4 (r.who.getD 0xFFFFFFFF) ++
    leBytes 2 (r.step.getD 0xFFFF) ++ leBytes 2 (r.step2.getD 0xFFFF) ++ leBytes 2 (r.where_.getD 0xFFFF) ++
    leBytes 2 (r.index.getD 0xFFFF) ++ leBytes 4 (r.record.getD 0xFFFFFFFF) ++ leBytes 4 0

/-- Mirror a report in LDR_REF0 to LDR_REF4 (R193, R211). -/
def State.setReport (s : State) (r : Report) : State :=
  s.setFlds [(F.LDR_REF0_DIE, r.die.getD 0xFF), (F.LDR_REF0_PHASE, r.phase), (F.LDR_REF0_CODE, r.code),
    (F.LDR_REF1_WHO, r.who.getD 0x3FFFF), (F.LDR_REF2_STEP2, r.step2.getD 0xFFFF), (F.LDR_REF2_STEP, r.step.getD 0xFFFF),
    (F.LDR_REF3_INDEX, r.index.getD 0xFFFF), (F.LDR_REF3_WHERE, r.where_.getD 0xFFFF),
    (F.LDR_REF4_RECORD, r.record.getD 0xFFFFFFFF)]

/-- The statistics of the channels, which only the completion of a load clears (R473): CHN_DROPS, CHN_UNDER, CHN_WAITn, CHN_STATn. -/
def chanStat (a : Nat) : Bool :=
  a == A.CHN_DROPS || a == A.CHN_UNDER || (0xC4000 ≤ a && a < 0xC5000) || (0xC7000 ≤ a && a < 0xC8000)

/-- The channels of a discarded image: their registers read 0 but for the statistics, and no spill holds an entry (R473, R490). -/
def dropChannels (s : State) : State :=
  let s := s.chn.descs.foldl (fun s c => s.setFld (F.CHN_STAT_SPILL c.index) 0) s
  { s with regs := s.regs.filter fun x => !(0xC0000 ≤ x.1 && x.1 < 0xC8000) || chanStat x.1 }

/-- A lane group counts and holds no slot bit of an earlier run: the next CYM is the first of a new one (R314). -/
def Grp.afresh (g : Grp) : Grp := { g with bits := [], nsent := 0, nrecv := 0, nlast := 0, cym := none }

/-- No slot bit of an earlier run is left on the lanes. -/
def dropSlotBits (s : State) : State :=
  { s with lanes := s.lanes.map fun (p : LanePort) => { p with a := p.a.afresh, b := p.b.afresh } }

/-- The local causes that nothing is left to clear once the image is gone go with it (DESIGN CHOICE, assumption 66): an overrun read, a
channel and a field frame of the image hold no more; a write queue below its guard does until it has drained (R109, R149). -/
def dropCauses (s : State) : State :=
  s.setFlds [(F.SFB_HOLD_STAT_HBM, b2n (s.dm.guard.any id)), (F.SFB_HOLD_STAT_CHANNEL, 0), (F.SFB_HOLD_STAT_FIELD, 0), (F.FIO_STAT_LATE, 0)]

/-- Discard the image, as UNLOAD does (R189, R228, R272, R473): regions freed, units cleared of it. The controllers' write queues drain
on (R149). -/
def discardImage (s : State) : State :=
  if s.ldr.img.isNone then s
  else
    let s := endCapture 4 (abortSnap 6 s)
    let s := ((s.free 1).free 6).free 8
    let s := s.setFlds [(F.SFB_SCHED_L, 0), (F.SFB_SCHED_S, 0), (F.LDR_STAT_STATE, 0), (F.LDR_STAT_SIGNED, 0), (F.LDR_DESLO_DESIGN, 0),
      (F.LDR_DESHI_DESIGN, 0), (F.SFB_HORIZON_IMGH, 0)]
    let s := dropCauses (dropSlotBits (dropChannels s))
    { s with
      ldr := { s.ldr with img := none, releases := [], lanemap := [], relCount := 0, begun := false }
      dm := { Dm.reset with wq := s.dm.wq, guard := s.dm.guard }
      chn := ⟨[], [], [], [], [], [], [], [], []⟩
      tsk := { s.tsk with alloc := [] }
      acq := { s.acq with probes := [], acts := 0, goDone := false, lgNow := none }
      fio := { s.fio with slots := [], even := none, odd := none, late := none, outCyc := none, waiting := s.fio.waiting.map fun x => { x with stale := true } }
      snp := { s.snp with restored := none }
      arr := { s.arr with pos := 0, wires := [], stopped := false } }

/-- Discard what a load wrote (R194): regions freed, stores cleared with the parity of what clears them, the report mirrored. -/
def dropLoad (ld : Loading) (r : Report) (s : State) : State :=
  let s := ((s.free 1).free 8).setFlds [(F.LDR_STAT_STATE, 0), (F.LDR_STAT_PHASE, 0), (F.LDR_STAT_REFUSED, 1)]
  let s := s.setReport r
  let s := match ld.slot with
    | some k => s.setFld (F.LDR_SLOT_INUSE k) 0
    | none => s
  { s with
    ldr := { s.ldr with loading := none, img := none, releases := [], lanemap := [] }
    arr := { s.arr with instr := [], dict := [], emit := [], hubEmit := [], ds := [], badInstr := [], badDict := [], badEmit := [], badHub := [], badDs := [] }
    hmp := { s.hmp with ins := s.hmp.ins.filter fun x => x.kind != .load } }

/-- EV74, and the event message of a refused load to the session that began it (R194). -/
def tellRefusal (ld : Loading) (r : Report) (s : State) : State :=
  (raise 74 s).eventTo ld.session (if ld.slot.isSome then 0x0501 else 0x0500) r.bytes

/-- Refuse the load in progress, if there is one, on a change out of LOAD to another mode than IDLE (R190, R633). -/
def refuseLoad (r : Report) (s : State) : State :=
  match s.ldr.loading with
  | none => s
  | some ld => tellRefusal ld r (dropLoad ld r s)

/-- The report of a load that a session, a request or a change of mode ends (R190). -/
def abortedLoad : Report := ⟨0x0511, 0, none, none, none, none, none, none, none⟩

/-- A SAFE cause that is not the first since CLEAR is logged (R634). -/
def laterCause (why : Nat) (s : State) : State := s.hubLog 0x800B (leBytes 1 Mode.safe.code ++ leBytes 1 why)

/-- Enter SAFE at once with a reason (R634): the first cause since CLEAR is kept and every later one logged; the load is
refused first (R633), the step clock stops, the FAULT event is originated (R362), INERT is sent (R619), a pending snapshot or
one without its field record aborts with FAULT (R222, R227), and capturing ends with END 3 (R272). A restore ends with the image held as
loaded. A hold that ends so has no first grain that is not held and raises no EV68; trigger actions decided in a cycle whose grain 9 does
not come are not taken (DESIGN CHOICE, assumption 66). -/
def enterSafe (why : Nat) (s : State) : State :=
  match s.ctl.mode with
  | .off | .standby => s
  | .safe => laterCause why s
  | _ =>
    let s := if s.ctl.reason ≠ 0 && s.ctl.safeDue.map (·.1) ≠ some why then laterCause why s else s
    let s := if s.ctl.mode == .load then refuseLoad abortedLoad s else s
    let s := if s.snp.snap.isNone && s.snp.pend.isSome then abortSnap 8 s else s
    let s := match s.snp.snap with
      | some x => if x.inp.isNone then abortSnap 8 s else s
      | none => s
    let s := endCapture 3 s
    let s := s.originate 4 s.grainNo
    let s := s.setFlds [(F.SFB_HOLD_STAT_FAULT, 1), (F.LDR_STAT_STATE, if s.snp.restoring.isSome then 2 else s.fld F.LDR_STAT_STATE)]
    let s := { s with
      ctl := { s.ctl with
        reason := if s.ctl.reason = 0 then why else s.ctl.reason
        safeDue := none, safeNext := false, clock := false, burst := false, stopReq := false, left := 0 }
      snp := { s.snp with restoring := none }
      acq := { s.acq with acts := 0, goDone := false }
      hmp := { s.hmp with ins := s.hmp.ins.filter fun (i : InStream) => i.kind != InKind.restore }
      lge := { s.lge with start := none, held := false }
      arr := { s.arr with stopped := true } }
    ((setMode .safe s).sendInert).flushLog

/-- A SAFE that waits for the boundary of R29 while the step clock runs, and comes at once while it is stopped; REASON keeps
the first cause from the request on (R634). -/
def requestSafe (why : Nat) (s : State) : State :=
  if s.ctl.clock then
    let s := (if s.ctl.reason = 0 then s else laterCause why s).setFld F.SFB_HOLD_STAT_FAULT 1
    { s with ctl := { s.ctl with
        reason := if s.ctl.reason = 0 then why else s.ctl.reason
        safeDue := some ((s.ctl.safeDue.map (·.1)).getD why, (s.ctl.safeDue.bind (·.2))) } }
  else enterSafe why s

/-! ### The common checks of a request (R31 to R35, R687) -/

/-- What the common checks of one opcode are. -/
structure ReqSpec where
  op : Nat
  /-- permitted on the optical ports only (R34) -/
  optical : Bool := false
  /-- the payload length is right -/
  len : Nat → Bool := fun n => n == 0
  /-- the payload length agrees with what the payload says of it -/
  lens : List Byte → Bool := fun _ => true
  /-- the payload's must-be-zero fields are 0 -/
  zeros : List Byte → Bool := fun _ => true
  /-- the right required: 0 none, 1 DEBUG, 2 PRIVTRACE (R552) -/
  right : Nat := 0
  claim : Bool := false
  /-- not asked on the management port (SAFE, R35) -/
  claimNotMgmt : Bool := false
  /-- what a request that fails a check leaves in the unit, by its status -/
  refused : Nat → State → State := fun _ s => s
  /-- the present mode, and the addressee rule of R37 -/
  mode : State → Bool := fun _ => true

/-- The largest payload a port takes (R31). -/
def portMax : HPort → Nat
  | .mgmt => 1400
  | _ => 8192

/-- The requests that the MC carries out alone: sessions, the claim, queries, power, settings, log and updates (R636, R638). A request of
the management port with another opcode needs the hub, and with the core domain powered it gets there by the crossing alone (R21). -/
def mcRequest (op : Nat) : Bool :=
  op == 0x0D00 || op == 0x0D01 || (0x0F00 ≤ op && op ≤ 0x0F02) || (0x0F0B ≤ op && op ≤ 0x0F14)

/-- The requests that the MC alone carries out whatever port they come on: power, settings, log, updates and its restart (R636). -/
def mcOnly (op : Nat) : Bool := op == 0x0F0B || (0x0F0D ≤ op && op ≤ 0x0F14)

/-- A request gets to the side that carries it out (R21). One that the crossing loses has no effect and no response (DESIGN CHOICE,
assumption 55). -/
def State.carries (s : State) (p : HPort) (op : Nat) : Bool :=
  if p == .mgmt then s.mcReached || mcRequest op else (s.mcReached && s.mgt.mcUp) || !mcOnly op

/-- The opcodes of the host message protocol (R189, R221, R270, R384, R550, R636). -/
def knownOpcode (op : Nat) : Bool :=
  (0x0500 ≤ op && op ≤ 0x0506) || (0x0600 ≤ op && op ≤ 0x0604) || (0x0700 ≤ op && op ≤ 0x0706) || (0x0900 ≤ op && op ≤ 0x0903) ||
    (0x0D00 ≤ op && op ≤ 0x0D09) || (0x0F00 ≤ op && op ≤ 0x0F14)

/-- The message passes the checks of R31 whose failure discards it, for a message of the given kind. -/
def msgSound (m : Msg) (kind : Nat) : Bool :=
  m.kind == kind && m.length == m.payload.length && m.length ≤ portMax m.port &&
    m.check.toNat == crc32 (leBytes 1 m.version ++ leBytes 1 m.kind ++ leBytes 2 m.opcode.toNat ++ leBytes 4 m.seq.toNat ++
      leBytes 4 m.session.toNat ++ leBytes 4 m.length ++ leBytes 4 m.status.toNat ++ leBytes 4 0 ++ m.payload)

/-- Count a discarded message (R31, R33). -/
def State.discard (s : State) : State := { s with hmp := { s.hmp with discards := s.hmp.discards + 1 } }

/-- Send a response that no session keeps (R31, R33). -/
def State.reply (s : State) (m : Msg) (op status : Nat) (p : List Byte := []) : State :=
  { s with out := s.out ++ [⟨m.port, 2, op, m.seq.toNat, m.session.toNat, status, p, false⟩] }

/-- Send the response to a request and keep it among the session's last 64 (R33); it leaves on the port of the request. -/
def State.respond (s : State) (m : Msg) (op status : Nat) (p : List Byte) : State :=
  match s.session m.session.toNat with
  | none => s.reply m op status p
  | some x =>
    let s := s.setSession { x with kept := (x.kept ++ [(⟨m.seq.toNat, op, status, p⟩ : Kept)]).drop ((x.kept.length + 1) - 64) }
    s.sendTo { x with port := m.port } 2 op m.seq.toNat status p

/-- The tag of a tagged session's message fits (R556). -/
def msgTagOk (m : Msg) (key : List Byte) : Bool :=
  16 ≤ m.payload.length &&
    m.payload.drop (m.payload.length - 16) == (hmac key (headerBytes m.kind m.opcode.toNat m.seq.toNat m.session.toNat m.length m.status.toNat ++
      m.payload.take (m.payload.length - 16))).take 16

/-- The payload before the tag. -/
def msgBody (m : Msg) (x : Session) : List Byte :=
  if x.key.isSome then m.payload.take (m.payload.length - 16) else m.payload

/-- Whether sequence `q` is more than 64 below the highest seen, modulo 2^32 (R33). -/
def tooOld (high : Option Nat) (q : Nat) : Bool :=
  match high with
  | none => false
  | some h => 64 < (h + 2 ^ 32 - q) % 2 ^ 32 && (h + 2 ^ 32 - q) % 2 ^ 32 < 2 ^ 31

/-- The highest sequence seen, modulo 2^32 (R33). -/
def newHigh (high : Option Nat) (q : Nat) : Option Nat :=
  match high with
  | none => some q
  | some h => if (q + 2 ^ 32 - h) % 2 ^ 32 < 2 ^ 31 then some q else some h

/-- The first common check of R687 that fails, from the opcode on; 0 when all pass. -/
def ReqSpec.check (sp : ReqSpec) (m : Msg) (x : Session) (s : State) : Nat :=
  let p := msgBody m x
  if m.opcode.toNat ≠ sp.op then 0x1
  else if sp.optical && m.port == .mgmt then 0x4
  else if !(sp.len p.length && sp.lens p) then 0x6
  else if !sp.zeros p then 0xA
  else if (sp.right == 1 && !x.debug) || (sp.right == 2 && !x.priv) then 0x7
  else if sp.claim && !(sp.claimNotMgmt && m.port == .mgmt) && s.hmp.claim != some x.num then 0x5
  else if !sp.mode s then 0x3
  else 0

/-- The status of an action whose response comes later: the request is answered by a command of its own (R269, R655). -/
def later : Nat := 2 ^ 32

/-- Take a request (R31, R33, R557, R687) and, when it passes the common checks, carry it out: `act` answers a status, a
payload, and the state after it. A status other than 0 leaves the state `act` gives as well, which a refusal leaves unchanged. A
message with the opcode of another row is that row's and nothing to this one; one with no row's opcode is answered UNKNOWN_OPCODE. -/
def request (m : Msg) (sp : ReqSpec) (act : Session → List Byte → State → Nat × List Byte × State) (s : State) : State :=
  let op := m.opcode.toNat
  if !s.portUp m.port || !s.carries m.port op || (op ≠ sp.op && knownOpcode op) then s
  else if !msgSound m 1 then s.discard
  else if m.version ≠ 1 then s.reply m op 0x2
  else if s.mgt.recovery && m.port == .mgmt && !(op == 0x0F00 || op == 0x0F02 || op == 0x0F12) then s.discard
  else
    match s.session m.session.toNat with
    | none => s.reply m op 0x9
    | some x =>
      if (match x.key with | some k => !msgTagOk m k | none => false) then
        raise 289 ((s.discard).count F.DBG_TAGFAIL_COUNT)
      else
        match x.kept.find? (fun k => k.seq == m.seq.toNat) with
        | some k => s.sendTo { x with port := m.port } 2 k.opcode k.seq k.status k.payload
        | none =>
          if tooOld x.high m.seq.toNat then s.discard
          else
            let x := { x with high := newHigh x.high m.seq.toNat }
            let s := s.setSession x
            let c := sp.check m x s
            if c ≠ 0 then (sp.refused c s).respond m op c []
            else
              let r := act x (msgBody m x) s
              if r.1 = later then r.2.2 else r.2.2.respond m sp.op r.1 r.2.1

/-- A plain success. -/
def ok (s : State) : Nat × List Byte × State := (0, [], s)

/-! ### NoC requests (R494, R495, R525) -/

/-- A virtual channel of the link from router `src` to router `dst`: of the request or the response network, class 0 or 1, low or high
(R519, R520). -/
structure Chan where
  resp : Bool
  src : Nat
  dst : Nat
  one : Bool
  high : Bool
  deriving DecidableEq, Repr

/-- The link between two neighbours crosses the dateline of its ring (R520). -/
def crosses (a b : Nat) : Bool :=
  if a / 8 = b / 8 then (a % 8 == 7 && b % 8 == 0) || (a % 8 == 0 && b % 8 == 7) else (a / 8 == 3 && b / 8 == 0) || (a / 8 == 0 && b / 8 == 3)

/-- The channels that a packet takes along some routers (R520): in each dimension low, and high from the hop over its dateline on. `dim` is
the dimension of the hop before, if there was one, and `high` the channel it took. -/
def chans (resp one : Bool) (dim : Option Bool) (high : Bool) : List Nat → List Chan
  | a :: b :: r =>
    let x := a / 8 == b / 8
    let h := (dim == some x && high) || crosses a b
    ⟨resp, a, b, one, h⟩ :: chans resp one (some x) h (b :: r)
  | _ => []

/-- The routers of a packet of master `m` with route word `w`: a response takes the way back (R519). None without a route. -/
def way (resp : Bool) (m : Nat) (w : Word) : List Nat :=
  if !bit w.toNat 31 then []
  else
    let p := routePath (masterRouter m) w
    if resp then p.reverse else p

/-- A router does not forward (R526). -/
def State.shut (s : State) (r : Nat) : Bool := s.flag (F.NOC_RCFG_RECONF r) || !s.flag (F.NOC_RCFG_READY r)

/-- Where a packet that takes some channels comes to stand: the channel whose buffer it fills, `last` before the first hop; none when
nothing stops it. A stopped router stops it, and so does a channel whose buffer another packet fills (R526). -/
def State.fills (s : State) (held last : List Chan) : List Chan → Option (List Chan)
  | [] => none
  | c :: r => if s.shut c.dst || held.contains c then some last else s.fills held [c] r

/-- Where a packet of master `m` with route word `w` comes to stand while the channels `held` are full. -/
def State.stands (s : State) (held : List Chan) (resp : Bool) (m : Nat) (w : Word) : Option (List Chan) :=
  match way resp m w with
  | [] => none
  | r :: p => if s.shut r then some [] else s.fills held [] (chans resp (bit w.toNat 30 != resp) none false (r :: p))

/-- A packet of this request is under way in the request or the response network. -/
def Flight.under (resp : Bool) (f : Flight) : Bool :=
  if resp then f.waits.isNone && !f.lost else f.waits.isSome && !f.stalled && !(f.asks && f.timedOut)

/-- The channels that the packets of some requests, oldest first, fill while they wait. -/
def State.fullChans (s : State) (resp : Bool) (l : List Flight) : List Chan :=
  l.foldl (fun h f => if f.under resp then h ++ (s.stands h resp f.master f.route).getD [] else h) []

/-- A packet of master `m` with route word `w` waits, behind those of the requests `l` (R526). -/
def State.blocked (s : State) (resp : Bool) (l : List Flight) (m : Nat) (w : Word) : Bool :=
  (s.stands (s.fullChans resp l) resp m w).isSome

/-- A request as master `m` issues it: its header takes the route and the deadline of that moment (R519, R521, R524). -/
def State.packet (s : State) (m t a n : Nat) (write : Bool) : Flight where
  master := m
  target := t
  addr := a
  size := n
  write := write
  route := s.reg (A.NOC_RT m t)
  due := s.local + 500 * Nat.max 1 (s.fld (F.NOC_TMO_US m))
  err := 0
  data := []
  timedOut := false
  waits := none
  stalled := false
  asks := false
  fetch := false
  lost := false

/-- A request stands in the network. -/
def State.fly (s : State) (f : Flight) : State := { s with noc := { s.noc with flights := s.noc.flights ++ [f] } }

/-- A router meets a flit that fails parity and discards its packet (R527). -/
def flitLost (s : State) : State := raise 257 (s.count F.NOC_PERRCNT_COUNT)

/-- The response to a request, to be delivered to its initiator (R523); one whose packet fails parity at a router is discarded, and only
the timeout ends the request (R527). -/
def State.answer (s : State) (f : Flight) (err : Nat) (d : List Byte) : State :=
  let s := if err = 1 then s.count F.NOC_UNMAPCNT_COUNT else s
  if s.noc.answer && bit f.route.toNat 31 then
    flitLost (State.fly { s with noc := { s.noc with answer := false } } { f with waits := none, stalled := false, lost := true })
  else s.fly { f with waits := none, stalled := false, err := err, data := d }

/-- Whether a target is fenced (R525). -/
def State.fenced (s : State) (t : Nat) : Bool := s.flag (F.NOC_FENCE_FENCE t) || s.flag (F.NOC_FENCE_AUTO t)

/-- What becomes of a request of master `m` to target `t` before the target takes it, if anything: no network without power; an
absent die gives ABSENT (assumption 46); a route entry with VALID 0 gives UNMAPPED; a packet with a flit that fails parity is
discarded; one whose way a stopped router blocks waits with its size and data; a fenced target answers FENCED (R495, R525 to R527). -/
def netStop (m t a : Nat) (write : Bool) (n : Nat) (d : List Byte) (s : State) : Option State :=
  let p := s.packet m t a n write
  if !s.ctl.corePower then some s
  else if 22 ≤ t && t < 34 && s.dies ≤ (t - 22) / 2 then some (s.answer p 2 [])
  else if !bit p.route.toNat 31 then some (s.answer p 1 [])
  else if s.noc.flit then some ((flitLost { s with noc := { s.noc with flit := false } }).fly { p with lost := true })
  else if s.blocked false s.noc.flights m p.route then some (s.fly { p with waits := some d })
  else if s.fenced t then some (s.answer p 6 [])
  else none

/-- A register write through the network, served by `f` when the request reaches the register blocks (R11). -/
def regWrite (m a : Nat) (d : Word) (f : State → State) (s : State) : State :=
  match netStop m 17 a true 4 (leBytes 4 d.toNat) s with
  | some t => t
  | none => (f s).answer (s.packet m 17 a 4 true) 0 []

/-- A register read through the network: `f` gives the word and what the read changes (R11). -/
def regRead (m a : Nat) (f : State → Nat × State) (s : State) : State :=
  match netStop m 17 a false 4 [] s with
  | some t => t
  | none => (f s).2.answer (s.packet m 17 a 4 false) 0 (leBytes 4 (f s).1)

/-- The write of a register as its access codes alone take it (R14). -/
def plainWrite (a : Nat) (d : Word) (s : State) : State :=
  match findRow a with
  | some r => s.setReg a (r.write (s.reg a) d)
  | none => s

end Sys2Proof.Machine
end

