-- ==== Sys2Proof/Machine/Lanes.lean ====
section
/-! DEFINITION. Lane ports: bring-up and return to DETECT, port checks against the league plan, the shared lanes, eye
scans (R299 to R343, R345, R346, R351, R356). -/
namespace Sys2Proof.Machine

/-! ### The league plan (R36, R345, R346) -/

/-- The three sizes of a plan word in the layout of LGE_PLAN. -/
def planSizes (p : Nat) : List Nat := [bits p 24 6 + 1, bits p 21 3 + 1, bits p 19 2 + 1]

/-- The number of positions of a plan. -/
def planCount (p : Nat) : Nat := (planSizes p).foldl (· * ·) 1

/-- The coordinates of a position. -/
def coords (p pos : Nat) : List Nat :=
  let l := planSizes p
  let a := l.getD 0 1
  let b := l.getD 1 1
  [pos % a, pos / a % b, pos / (a * b)]

/-- The distance of two positions (R345). -/
def distance (p x y : Nat) : Nat :=
  (List.range 3).foldl (fun n i =>
    let u := (coords p x).getD i 0
    let v := (coords p y).getD i 0
    let s := (planSizes p).getD i 1
    let d := if u ≤ v then v - u else u - v
    n + Nat.min d (s - d)) 0

/-- The diameter of a plan (R36). -/
def diameter (p : Nat) : Nat := (planSizes p).foldl (fun n s => n + s / 2) 0

/-- The position behind port `n` (R345): the even port leads to the next coordinate, the odd one to the previous. -/
def behind (p pos n : Nat) : Nat :=
  let l := planSizes p
  let a := l.getD 0 1
  let b := l.getD 1 1
  let s := l.getD (n / 2) 1
  let c := coords p pos
  let u := c.getD (n / 2) 0
  let v := if n % 2 = 0 then (u + 1) % s else (u + s - 1) % s
  let c := setAt c (n / 2) v
  c.getD 0 0 + a * (c.getD 1 0 + b * c.getD 2 0)

/-- The upstream port of a position, 7 for position 0 (R346). -/
def upstream (p pos : Nat) : Nat :=
  let c := coords p pos
  match [2, 1, 0].find? (fun i => c.getD i 0 != 0) with
  | some i => if c.getD i 0 ≤ (planSizes p).getD i 1 / 2 then 2 * i + 1 else 2 * i
  | none => 7

/-- A plan is valid (R349). -/
def planOk (p : Nat) : Bool :=
  let l := planSizes p
  let a := l.getD 0 1
  let b := l.getD 1 1
  let c := l.getD 2 1
  (match bits p 30 2 with
   | 0 => a == 1 && b == 1 && c == 1
   | 1 => 2 ≤ a && a ≤ 64 && b == 1 && c == 1
   | 2 => 2 ≤ a && a ≤ 8 && 2 ≤ b && b ≤ 8 && c == 1
   | _ => 2 ≤ a && a ≤ 4 && 2 ≤ b && b ≤ 4 && 2 ≤ c && c ≤ 4) && bits p 13 6 < a * b * c

/-- The state of the league: 0 FORMING, 1 FORMED, 2 BROKEN (R390). -/
def State.formed (s : State) : Bool := s.fld F.LGE_STAT_STATE == 1

/-- The module is in a league that forms. -/
def State.forming (s : State) : Bool := s.fld F.LGE_STAT_STATE == 0 && 1 < s.leagueSize

/-- The one-way delay of port `n` with its asymmetry, in ps (R372, R376). -/
def State.delay (s : State) (n : Nat) : Int := (s.fld (F.LNK_OWD_OWDA n) : Int) + sgn 24 (s.fld (F.TIM_ASYM_PS n))

/-! ### UNCERT (R382) -/

/-- The module takes wall time from its upstream port: a member of a league other than its master (R375). -/
def State.timeMember (s : State) : Bool := 1 < s.leagueSize && s.pos != 0

/-- SRC as it acts (R395). -/
def State.src (s : State) : Nat := if s.fld F.TIM_CTL_SRC ≤ 3 then s.fld F.TIM_CTL_SRC else 0

/-- The source is 1588 (R375). -/
def State.ptpSource (s : State) : Bool := !s.timeMember && s.src != 0

/-- UNCERT as R382 gives it. -/
def State.uncertain (s : State) : Bool :=
  !s.flag F.TIM_STAT_LOCKED || (s.timeMember && (s.tim.srcUnc || s.tim.retrain.isSome)) || (s.ptpSource && s.tim.pdAgree.isSome)

/-- Bring UNCERT up to date; each change raises its event. -/
def updateUncert (s : State) : State :=
  let u := s.uncertain
  if u == s.flag F.TIM_STAT_UNCERT then s
  else raise (if u then 247 else 248) (s.setFld F.TIM_STAT_UNCERT (b2n u))

/-! ### The source of wall time (R375, R377, R396) -/

/-- Whether SRC names host port `h`. -/
def State.srcPort (s : State) (h : Nat) : Bool := s.ptpSource && h < 2 && bit s.src h

/-- Numbers in lexicographic order. -/
def lexLt : List Nat → List Nat → Bool
  | x :: xs, y :: ys => x < y || (x == y && lexLt xs ys)
  | [], _ :: _ => true
  | _, [] => false

/-- The smaller quality vector is the better; then the clock, then the port. -/
def better (a b : PtpMaster) : Bool := lexLt (a.quality ++ [a.clock, a.hport]) (b.quality ++ [b.clock, b.hport])

/-- A master still takes part: of the present domain, on a port that SRC names, and not silent for longer than the announce timeout,
which the spec does not give (Config.announceTimeout, assumption 24). -/
def State.heard (s : State) (m : PtpMaster) : Bool :=
  s.srcPort m.hport && m.domain == s.fld F.TIM_CTL_DOMAIN && s.local - m.seen ≤ Config.announceTimeout

/-- The best master among those heard. -/
def State.bestMaster (s : State) : Option PtpMaster :=
  (s.tim.masters.filter s.heard).foldl
    (fun (b : Option PtpMaster) m => match b with
      | none => some m
      | some x => some (if better m x then m else x)) none

/-- The code of the source in use (R396). -/
def State.fromCode (s : State) : Nat :=
  if s.timeMember then 4 else match s.tim.best with | some b => b.hport + 1 | none => 0

/-- The source of wall time is settled anew: the best master, with EV249 when it is another one (R385); FROM; rate 0 with SRC at 0b000
(R377); UNCERT. -/
def selectSource (s : State) : State :=
  let best := s.bestMaster
  let who (b : Option PtpMaster) : Option (Nat × Nat) := b.map fun m => (m.hport, m.clock)
  let other := who best != who s.tim.best
  let s := { s with tim := { s.tim with
    masters := s.tim.masters.filter s.heard
    best := best
    mpd := if other then none else s.tim.mpd
    sync := if other then none else s.tim.sync } }
  let s := s.setFld F.TIM_STAT_FROM s.fromCode
  let s := if s.timeMember || s.src ≠ 0 then s else { s with tim := { s.tim with rate := 0 } }.setFld F.TIM_RATE_VAL 0
  updateUncert (raiseIf other 249 s)

/-! ### The league broken (R356) -/

/-- The formation event message (R353, R355, R384). -/
def formMessage (outcome : Nat) (s : State) : State :=
  let m (r : Nat) : List Byte := leBytes 8 r
  let miss := (2 ^ s.leagueSize - 1) - (s.lge.ready &&& (2 ^ s.leagueSize - 1))
  s.eventAll 0x0900 (leBytes 1 outcome ++ leBytes 7 0 ++ m miss ++ m s.lge.gradebad ++ m s.lge.wrong)

/-- The league is broken: FAULT originated, EV242, STATE BROKEN; in RUN, STEP and HOLD the outcome of R38. -/
def leagueBroken (s : State) : State :=
  if s.formed && 1 < s.leagueSize then
    let s := raise 242 ((s.originate 4 s.grainNo).setFld F.LGE_STAT_STATE 2)
    let s := if s.isMaster then formMessage 2 s else s
    if s.ctl.mode == .run || s.ctl.mode == .step || s.ctl.mode == .hold then requestSafe 5 s else s
  else s

/-! ### Port checks (R351) -/

/-- The stage of a port (R332). -/
def State.stage (s : State) (n : Nat) : Nat := s.fld (F.LNK_STAT_STAGE n)

/-- The code that R351 gives port `n`. -/
def State.checkCode (s : State) (n : Nat) : Nat :=
  let d := (s.lane n).lgdata
  let p := s.lge.plan
  if !s.topoPorts.contains n then 0
  else if n = 5 && s.fld F.LNK_SHARE_OWNER = 2 then 6
  else if s.stage n ≠ 4 then 1
  else if s.fld (F.LNK_PART_GRADE n) ≠ s.fuses.grade.code then 3
  else if d / 2 ^ 32 ≠ s.lge.lid || bits d 19 13 ≠ bits p 19 13 then 4
  else if bits d 13 6 ≠ behind p s.pos n || s.fld (F.LNK_PART_PORT n) ≠ n ^^^ 1 then 5
  else 2

/-- Check port `n` and put its code into LGE_PSTAT; a league port that changes its code breaks the league, and the core
reference tracks an upstream port only while its code is OK (R347). -/
def portCheck (n : Nat) (s : State) : State :=
  let old := s.portCode n
  let c := s.checkCode n
  let s := s.setFld ⟨A.LGE_PSTAT, 3 * n, 3⟩ c
  let s := if n = s.fld F.LGE_STAT_UPPORT && c ≠ 2 then s.setFld F.LGE_STAT_REFLOCK 0 else s
  if old = 2 && c ≠ 2 then leagueBroken s else s

/-- Whether a receiver of a port in league use awaits a replay (R311). -/
def State.laneHeld (s : State) : Bool := s.leaguePorts.any fun n => (s.lane n).a.await || (s.lane n).b.await

/-- Cause LANE (R311). -/
def updateLaneHold (s : State) : State := s.setFld F.SFB_HOLD_STAT_LANE (b2n s.laneHeld)

/-! ### Bring-up (R320 to R327) -/

/-- The bits that a scan of port `n` samples (R329, R339). -/
def State.scanBits (s : State) (n : Nat) : Nat := 2 ^ Nat.max 10 (s.fld (F.LNK_ESCTL_DWELL n))

/-- A port returns to DETECT with reason `r` (R326, R327); a scan in progress ends with ABORT (R329): the disagreements it had counted
by then are not given, a free value up to the scan's length (assumption 60). -/
def toDetect (n r : Nat) (s : State) : State :=
  if s.stage n = 0 then s
  else
    let s := s.setFlds [(F.LNK_STAT_STAGE n, 0), (F.LNK_STAT_REASON n, r), (F.LNK_STAT_RPLA n, 0), (F.LNK_STAT_RPLB n, 0)]
    let s := s.count (F.LNK_DCNT_COUNT n (r - 1))
    let s := s.setLane n { s.lane n with a := Grp.reset, b := Grp.reset, evseq := none, vrx := [], vtx := 0, vfirst := none, vsent := 0, ready := false }
    let s := if s.flag (F.LNK_ESCTL_BUSY n) then
        let x := s.freshNat 32
        raise (197 + 8 * n) (x.2.setFlds [(F.LNK_ESCTL_BUSY n, 0), (F.LNK_ESCTL_ABORT n, 1), (F.LNK_ESERR_COUNT n, x.1 % (s.scanBits n + 1))])
      else s
    updateLaneHold (portCheck n (raise (193 + 8 * n) s))

/-- A DETECT poll (R321, R322, R328): a lane that shows no termination at TRAIN entry returns the port at once (R326).
A port that the topology does not list stays in DETECT whatever EN holds (R36; DEDUCED, assumption 59). -/
def detectPoll (n : Nat) (term : Termination) (s : State) : State :=
  if 5 < n || !s.ctl.corePower || s.stage n ≠ 0 then s
  else
    let p := term ≠ .absent && !(n = 5 && s.fld F.LNK_SHARE_OWNER = 2)
    let s' := s.setFld (F.LNK_STAT_PRESENT n) (b2n p)
    let s' := raiseIf (p != s.flag (F.LNK_STAT_PRESENT n) && s.flag (F.LNK_CTL_PRESEV n)) (194 + 8 * n) s'
    if p && s.flag (F.LNK_CTL_EN n) && s.topoPorts.contains n then
      let s' := s'.setFlds [(F.LNK_STAT_STAGE n, 1), (F.ACQ_ALIGN_STALE n, 1)]
      let s' := if n = s.fld F.LGE_STAT_UPPORT then updateUncert { s' with tim := { s'.tim with retrain := some 0 } } else s'
      if term = .lost then toDetect n 6 s' else s'
    else s'

/-- LANE_DETECT_POLL. -/
def execLaneDetectPoll (port : Nat) (term : Termination) (s : State) : Host.Outcome State Fault Refusal :=
  .next (detectPoll port term s)

/-- This end is READY (R322): each of the 16 data lanes deskewed, its skew within 32 UI; the equaliser settled; 64 delay patterns measured on
each group. -/
def ownReady (x : Training) (trips : List (Nat × Nat) × List (Nat × Nat)) : Bool :=
  x.skews.length == 16 && (x.skews.all fun k => -32 ≤ k && k ≤ 32) && x.settled && trips.1.length == 64 && trips.2.length == 64

/-- Both ends are READY (R322): this one, and READY received in 8 consecutive patterns. -/
def trained (x : Training) (trips : List (Nat × Nat) × List (Nat × Nat)) : Bool := ownReady x trips && 8 ≤ x.ready

/-- The one-way delay in ps that 64 patterns give (R323): half of the mean of round trip less turnaround, both in eighths of a UI of
1/32 ns; to the nearest ps (assumption 20). -/
def oneWay (trips : List (Nat × Nat)) : Nat :=
  (2 * 1000 * (trips.foldl (fun n t => n + (t.1 - t.2)) 0) + 32768) / 65536

/-- What the receiver of a port in TRAIN has reached (R322, R323): an end that is READY by itself sends READY in its patterns from then on;
when both are, TRAIN ends, and LOCK begins with its first word. A delay above 14,000 ps returns the port with reason LONG. The stamps behind
`trips`, and the turnaround that this end reports in a place of its pattern that the spec does not give, are of the hardware's making
(DESIGN CHOICE, assumption 60). -/
def trainComplete (n : Nat) (x : Training) (trips : List (Nat × Nat) × List (Nat × Nat)) (s : State) : State :=
  if 5 < n || s.stage n ≠ 1 then s
  else if !trained x trips then s.setLane n { s.lane n with ready := ownReady x trips }
  else
    let s := s.setLane n { s.lane n with a := Grp.reset, b := Grp.reset, ready := false }
    let a := oneWay trips.1
    let b := oneWay trips.2
    let s := s.setFlds [(F.LNK_OWD_OWDA n, Nat.min a 0xFFFF), (F.LNK_OWD_OWDB n, Nat.min b 0xFFFF)]
    if 14000 < a || 14000 < b then toDetect n 7 s else s.setFld (F.LNK_STAT_STAGE n) 2

/-- TRAIN_COMPLETE. -/
def execTrainComplete (port : Nat) (x : Training) (trips : List (Nat × Nat) × List (Nat × Nat)) (s : State) :
    Host.Outcome State Fault Refusal := .next (trainComplete port x trips s)

/-- A group has found two markers 16,384 words apart on every data lane, and has then accepted 32 consecutive words (R324). -/
def Grp.locked (g : Grp) : Bool := 2 ≤ g.found && 32 ≤ g.good

/-- Link-word lock (R324). -/
def lockComplete (n : Nat) (s : State) : State :=
  if 5 < n || s.stage n ≠ 2 || !(s.lane n).a.locked || !(s.lane n).b.locked then s else s.setFld (F.LNK_STAT_STAGE n) 3

/-- LOCK_COMPLETE. -/
def execLockComplete (port : Nat) (s : State) : Host.Outcome State Fault Refusal := .next (lockComplete port s)

/-- A stage reaches its limit (R320, R326). -/
def stageTimeout (n : Nat) (s : State) : State :=
  if 5 < n then s
  else match s.stage n with
    | 1 => toDetect n 2 s
    | 2 => toDetect n 3 s
    | 3 => toDetect n 4 s
    | _ => s

/-- LANE_LOST: no edge on a forwarded-clock lane for 100 ns (R326). -/
def laneLost (n : Nat) (s : State) : State := if 5 < n then s else toDetect n 1 s

/-- A write of LNK_CTLn (R326, R328, R331). -/
def lnkCtlWrite (n : Nat) (d : Word) (s : State) : State :=
  if 5 < n then s
  else
    let en := bit d.toNat 31
    let owner := s.fld F.LNK_SHARE_OWNER
    let refused := n = 5 && en && owner = 2
    let s := plainWrite (A.LNK_CTL n) (if refused then d &&& 0x7FFFFFFF#32 else d) s
    let s := if refused then raise 238 s
      else if n = 5 && en && owner = 0 then s.setFld F.LNK_SHARE_OWNER 1
      else if n = 5 && !en && owner = 1 then s.setFld F.LNK_SHARE_OWNER 0
      else s
    let s := if n = 5 then portCheck 5 s else s
    if bit d.toNat 8 || !en then toDetect n 10 s else s

/-! ### Eye scans and the error rate (R329, R330) -/

/-- A write of LNK_ESCTLn: GO starts a scan in ACTIVE while none runs. -/
def eyeStart (n : Nat) (d : Word) (s : State) : State :=
  if 5 < n then s
  else
    let s := plainWrite (A.LNK_ESCTL n) d s
    if bit d.toNat 31 && s.stage n = 4 && !s.flag (F.LNK_ESCTL_BUSY n) then
      s.setFlds [(F.LNK_ESCTL_BUSY n, 1), (F.LNK_ESCTL_ABORT n, 0), (F.LNK_ESERR_COUNT n, 0)]
    else s

/-- EYE_SCAN_START. -/
def execEyeScanStart (m port : Nat) (d : Word) (s : State) : Host.Outcome State Fault Refusal :=
  .next (regWrite m (A.LNK_ESCTL port) d (eyeStart port d) s)

/-- A scan completes its bit count: its disagreements are at most the bits it sampled. -/
def eyeEnd (n errs : Nat) (s : State) : State :=
  if 5 < n || !s.flag (F.LNK_ESCTL_BUSY n) then s
  else raise (197 + 8 * n) (s.setFlds [(F.LNK_ESCTL_BUSY n, 0), (F.LNK_ESERR_COUNT n, Nat.min (Nat.min errs (s.scanBits n)) 0xFFFFFFFF)])

/-- EYE_SCAN_END. -/
def execEyeScanEnd (port errs : Nat) (s : State) : Host.Outcome State Fault Refusal := .next (eyeEnd port errs s)

/-- The end of a 1 s interval of TB_LOCAL (R330, R338). -/
def errInterval (n : Nat) (s : State) : State :=
  if 5 < n then s
  else
    let p := s.lane n
    let lim := s.fld (F.LNK_ERRLIM_LIM n)
    raiseIf (lim ≠ 0 && lim < p.errs && s.flag (F.LNK_CTL_ERREV n)) (196 + 8 * n) (s.setLane n { p with errs := 0 })

/-- LANE_ERR_INTERVAL. -/
def execLaneErrInterval (port : Nat) (s : State) : Host.Outcome State Fault Refusal := .next (errInterval port s)

end Sys2Proof.Machine
end

