-- ==== Sys2Proof/Machine/Snapshot.lean ====
section
/-! DEFINITION. The snapshot unit: the request, the flash copy, copy-on-write of on-die memory, the undo log, and the
drain (R218 to R229). -/
namespace Sys2Proof.Machine

/-- The width of the memory that holds an on-die word, 0 for none. -/
def State.dieWidth (s : State) (die g : Nat) : Nat :=
  ((s.dm.descs.find? fun d => d.home == die && d.base ≤ g && g ≤ d.base + d.depthM1).map (·.width)).getD 0

/-- The width of the memory that holds the 4 bytes at an offset of the HBM design-memory region, 0 for none. -/
def State.hbmWidth (s : State) (o : Nat) : Nat :=
  ((s.dm.descs.find? fun d => 8 ≤ d.home && d.base * 64 ≤ o && o < d.base * 64 + 4 * (d.depthM1 + 1)).map (·.width)).getD 0

/-- Core die window `n` (R491). -/
def dieWindow (n : Nat) : Nat := 0x1000000000 + n * 0x100000000

/-- The NoC address of word `g` of the design-memory word space of die `n` (R135, R144). -/
def dieWord (n g : Nat) : Nat := dieWindow n + 0x80000000 + 4 * g

/-- Whether a byte address lies in an on-die design-memory bank. -/
def isDieByte (a : Nat) : Bool :=
  0x1000000000 ≤ a && a < 0x1600000000 && 0x80000000 ≤ a % 0x100000000 && a % 0x100000000 < 0x83000000

/-- LOGMI as R239 takes it: 0 and values above 64 are 64. -/
def State.logMi (s : State) : Nat :=
  let v := s.fld F.SNP_CTL_LOGMI
  if v = 0 || 64 < v then 64 else v

/-- Bytes of the copied data stores and banks: 336 MiB, or 168 MiB on three dies (R222). -/
def State.copyMi (s : State) : Nat := 56 * s.dies

/-- The undo entries that the snapshot region holds (R222, R225). -/
def State.undoRoom (s : State) : Nat :=
  match s.region 6 with
  | some (_, p) => (p * s.fuses.grade.stacks / 0x100000 - s.copyMi) / 16 * 0x100000
  | none => 0

/-- The word of on-die memory as it stood at the flash copy (R224). -/
def State.snapWord (s : State) (x : Snap) (a : Nat) : Nat :=
  (SMap.get none x.saved a).getD (leNat (Mem.read s.mem a 4))

/-- The bank of a line, 96 banks a die, and the line's place in it (R135, R491). -/
def lineBank (l : Nat) : Nat := (64 * l - 0x1000000000) / 0x100000000 * 96 + (64 * l % 0x100000000 - 0x80000000) / 0x80000

/-- The place of a line in its bank. -/
def lineAt (l : Nat) : Nat := 64 * l % 0x80000 / 64

/-- The line at place `i` of bank `k`. -/
def bankLine (k i : Nat) : Nat := (dieWindow (k / 96) + 0x80000000 + k % 96 * 0x80000) / 64 + i

/-- A line has its copy in the region: a priority copy or the sweeper has moved all of it (R224). -/
def Snap.isSwept (x : Snap) (l : Nat) : Bool := x.allSwept || NSet.has x.swept l || 4 * (lineAt l + 1) ≤ x.sweep.getD (lineBank l) 0

/-- A parity error in a service read of a bank word: EV133 and a record with KIND 0b11 (R156); `several` when the access meets more. -/
def serviceFails (n g bad : Nat) (several : Bool) (s : State) : State :=
  raise 133 (s.first F.DMC_PERR_STAT_VALID F.DMC_PERR_STAT_MORE
    [(F.DMC_PERR_STAT_KIND, 3), (F.DMC_PERR_STAT_DIE, n), (F.DMC_PERR_STAT_BYTES, bad), (F.DMC_PERR_STAT_BANK, g / 131072),
     (F.DMC_PERR_LOC_STEP, 0), (F.DMC_PERR_LOC_WORD, g % 131072)] several)

/-- Abort for a failing read of the word at `a` that serves a copy or a save (R156, R224); `bad` are the failing bytes, `several` says that
further words fail in the same grain (R164). -/
def copyFails (a bad : Nat) (several : Bool) (s : State) : State :=
  serviceFails ((a - 0x1000000000) / 0x100000000) ((a % 0x100000000 - 0x80000000) / 4) bad several (abortSnap 2 s)

/-- The bytes of the word at `a` that fail parity, as a mask. -/
def State.badBytes (s : State) (a : Nat) : Nat := bitsNat ((List.range 4).map fun k => NSet.has s.badMem (a + k))

/-- The value of a bank word at the flash copy outlives a change of the word: the copy of a swept line is in the region. -/
def keepWord (a : Nat) (s : State) : State :=
  match s.snp.snap with
  | some x =>
    if x.isSwept (a / 64) && (SMap.get none x.saved a).isNone then
      { s with snp := { s.snp with snap := some { x with saved := SMap.set none x.saved a (some (leNat (Mem.read s.mem a 4))) } } }
    else s
  | none => s

/-- Save the old word of an unswept line before a design write (R224), which occupies a line save buffer. The schedule rules of R141 keep
the buffers of a bank in use to two. -/
def saveWord (a : Nat) (s : State) : State :=
  match s.snp.snap with
  | none => s
  | some x =>
    if x.isSwept (a / 64) then keepWord a s
    else if (SMap.get none x.saved a).isSome then s
    else if s.badBytes a ≠ 0 then copyFails a (s.badBytes a) false s
    else
      let b := if x.buffers.contains (a / 64) then x.buffers else x.buffers ++ [a / 64]
      { s with snp := { s.snp with snap := some { x with
          saved := SMap.set none x.saved a (some (leNat (Mem.read s.mem a 4))), buffers := b } } }

/-- The on-die storage that has its copy, in bytes (R245). -/
def Snap.sweptBytes (x : Snap) : Nat :=
  16 * x.sweep.foldl (· + ·) 0 + 64 * (x.swept.filter fun l => x.sweep.getD (lineBank l) 0 < 4 * (lineAt l + 1)).length

/-- SNP_PROG.SWEPT follows the copies. -/
def tellSwept (s : State) : State :=
  match s.snp.snap with
  | some x => s.setFld F.SNP_PROG_SWEPT (x.sweptBytes / 0x100000)
  | none => s

/-- The priority copy that a slack grain of bank `k` goes on with (R142, R224). -/
def Snap.priority (x : Snap) (k : Nat) : Option Nat := x.buffers.find? fun l => lineBank l == k && SMap.get 0 x.moved l < 4

/-- The words that a slack grain of bank `k` would sweep and that fail parity. -/
def State.sweepFails (s : State) (x : Snap) (k : Nat) : List Nat :=
  let q := x.sweep.getD k 32768
  let l := bankLine k (q / 4)
  if (x.priority k).isSome || 32768 ≤ q || NSet.has x.swept l || x.buffers.contains l then []
  else ((List.range 4).map fun i => 64 * l + q % 4 * 16 + 4 * i).filter fun a => s.badBytes a != 0

/-- A slack grain of bank `k` as the snapshot unit uses it (R142, R224): 16 bytes of a priority copy, else 16 bytes of the sweep, which
passes over lines that are swept or in a save buffer. -/
def slackGrain (s : State) (k : Nat) : State :=
  match s.snp.snap with
  | none => s
  | some x =>
    let put (x : Snap) : State := { s with snp := { s.snp with snap := some x } }
    match x.priority k with
    | some l => put { x with moved := SMap.set 0 x.moved l (SMap.get 0 x.moved l + 1) }
    | none =>
      let q := x.sweep.getD k 32768
      let l := bankLine k (q / 4)
      if 32768 ≤ q then s
      else if NSet.has x.swept l || x.buffers.contains l then put { x with sweep := setAt x.sweep k (q / 4 * 4 + 4) }
      else put { x with sweep := setAt x.sweep k (q + 1) }

/-- One grain of the snapshot unit's use of the banks' slack; `busy` says which banks a design access uses. A failing word aborts the
snapshot, the lowest bank's recorded (R75, R156, R224). -/
def snapGrain (busy : Nat → Bool) (s : State) : State :=
  match s.snp.snap with
  | some x =>
    if x.allSwept then s
    else
      let free := (List.range (96 * s.dies)).filter fun k => !busy k
      match free.flatMap (s.sweepFails x) with
      | a :: r => copyFails a (s.badBytes a) (!r.isEmpty) s
      | [] => tellSwept (free.foldl slackGrain s)
  | none => s

/-- The offset up to which the checkpoint stream has read the region (R230, R246). -/
def State.cursor (s : State) (k : CkStream) : Nat := k.pos - (256 + 58720256 * s.dies + 192)

/-- Log the old codeword at an offset of the HBM design region before a design write of controller `c` (R225, R226). -/
def undoEntry (c o : Nat) (s : State) : State :=
  match s.snp.snap with
  | none => s
  | some x =>
    if (match s.snp.stream with | some k => decide (o < s.cursor k) | none => false) then s
    else
      let e := ((s.dm.oldEcc.find? fun (y : Nat × Ecc) => y.1 == c).map (·.2)).getD .clean
      let s := { s with dm := { s.dm with oldEcc := s.dm.oldEcc.eraseP fun (y : Nat × Ecc) => y.1 == c } }
      match e with
      | .uncorrectable => abortSnap 3 s
      | _ =>
        let s := if e = .corrected then raiseIf (s.flag F.DMC_CTL_CEEV) 130 (s.count F.DMC_CE_COUNT_COUNT) else s
        if s.undoRoom ≤ x.undo.length then abortSnap 1 s
        else
          let n := s.snp.staged.getD c 0 + 1
          let s := { s with snp := { s.snp with
            snap := some { x with undo := x.undo ++ [(o, leNat (s.getRegion 1 o 8))] }, staged := setAt s.snp.staged c n } }
          let s := s.setFld F.SNP_UNDO_ENTRIES (x.undo.length + 1)
          if 16384 - n < 4 * (s.H + 8) then s.setFld F.SFB_HOLD_STAT_SNAPSHOT 1 else s

/-- The IN bits of the input frame that cycle `c` uses, if it has arrived (R608). -/
def State.inFrame (s : State) (c : Nat) : Option NSet :=
  match (if c % 2 = 0 then s.fio.even else s.fio.odd) with
  | some (n, i) => if n = c then some i else none
  | none => none

/-- The event message of the snapshot unit (R221). -/
def snapMessage (c why : Nat) (s : State) : State :=
  s.eventAll 0x0600 (leBytes 4 (s.fld F.SNP_ID_SNAPID) ++ leBytes 8 c ++ leBytes 1 why ++ leBytes 3 0)

/-- The flash copy of cycle `c` (R218, R222, R227). -/
def flashCopy (c : Nat) (s : State) : State :=
  let x : Snap := {
    cycle := c
    shadow := s.arr.ds
    badShadow := s.arr.badDs
    tbd := s.tim.td.map (·.toNat)
    stage := s.fld F.LDR_REL_STAGE
    relcyc := s.fld F.LDR_RELCYC_CYC
    saved := []
    swept := []
    sweep := List.replicate (96 * s.dies) 0
    allSwept := false
    buffers := []
    moved := []
    drained := List.replicate s.dies 0
    undo := []
    out := if s.fio.outCyc = some c then s.fio.lastOutBits else []
    oe := if s.fio.outCyc = some c then s.fio.lastOe else []
    inp := s.inFrame ((c + 1) % 2 ^ 64) }
  let s := { s with snp := { s.snp with snap := some x, pend := none, staged := [0, 0, 0, 0] } }
  let s := s.setFlds [(F.SNP_STAT_STATE, 2), (F.SNP_STAT_FIELDOK, b2n x.inp.isSome), (F.SNP_UNDO_ENTRIES, 0),
    (F.SNP_PROG_SWEPT, 0), (F.SNP_PROG_DRAINED, 0), (F.SNP_CURSOR_POS, 0)]
  let s := s.setPair A.SNP_CYCLO A.SNP_CYCHI c
  snapMessage c 0 (raise 77 s)

/-- The input frame that the field record waits for has arrived (R227). -/
def fieldRecord (c : Nat) (i : NSet) (s : State) : State :=
  match s.snp.snap with
  | some x =>
    if x.inp.isNone && c = (x.cycle + 1) % 2 ^ 64 then
      { s with snp := { s.snp with snap := some { x with inp := some i } } }.setFld F.SNP_STAT_FIELDOK 1
    else s
  | none => s

/-- The first boundary that a request arriving now can take (R220). -/
def State.nextBoundary (s : State) : Nat :=
  if s.L + 9 ≤ s.arr.pos && s.arr.pos ≤ s.L + 10 then s.lge.cycle else s.lge.cycle + 1

/-- The array stands at a boundary, so that a snapshot may be taken at once: in ARMED, between bursts, and from a RUN or STEP until
its first grain (R222, R370). -/
def State.atBoundary (s : State) : Bool := !s.ctl.clock && (s.ctl.mode == .armed || s.ctl.mode == .run || s.ctl.mode == .step)

/-- The last cycle executed: the next cycle number minus 1, in the 64 bits of a cycle number (R222). -/
def State.lastCycle (s : State) : Nat := (s.lge.cycle + (2 ^ 64 - 1)) % 2 ^ 64

/-- Accept a SNAP request, `when_` none for the next boundary: a status of R221, and the state after it (R219 to R222). -/
def snapAccept (when_ : Option Nat) (s : State) : Nat × State :=
  if s.snp.snap.isSome || s.snp.pend.isSome then (0x680, s)
  else
    let late := match when_ with
      | none => false
      | some c => if s.atBoundary then c + 1 < s.lge.cycle else c < s.nextBoundary
    if late then (0x681, s)
    else
      let r := if (s.region 6).isSome then some s else s.create 6 (s.partFor ((s.copyMi + 16 * s.logMi) * 0x100000))
      match r with
      | none => (0x682, s)
      | some s =>
        let id := (s.snp.lastId + 1) % 2 ^ 32
        let s := { s with snp := { s.snp with lastId := id, pend := some when_ } }
        let s := s.setFlds [(F.SNP_ID_SNAPID, id), (F.SNP_STAT_STATE, 1), (F.SNP_STAT_FIELDOK, 0), (F.SNP_UNDO_ENTRIES, 0)]
        let now := s.atBoundary && (match when_ with | none => true | some c => c = s.lastCycle)
        (0, if now then flashCopy s.lastCycle s else s)

/-- A trigger-action SNAP at the master, its own or a member's SNAPREQ (R222, R260, R362): dropped while a snapshot exists. -/
def takeSnapReq (s : State) : State :=
  let r := snapAccept none s
  if r.1 = 0x680 then raise 81 (s.count F.SNP_DROP_COUNT) else r.2

/-- A trigger action SNAP made in cycle `c` (R220, R260): on a member a SNAPREQ. -/
def triggerSnap (c : Nat) (s : State) : State := if s.isMaster then takeSnapReq s else s.originate 5 c

/-- SNP_CTL.REQ (R220, R239). -/
def snapRequest (d : Word) (s : State) : State :=
  let s := plainWrite A.SNP_CTL d s
  if bit d.toNat 0 && s.isMaster && (s.ctl.mode == .armed || s.ctl.mode == .run || s.ctl.mode == .step || s.ctl.mode == .hold) then
    (snapAccept none s).2
  else s

/-- SNP_CTL written. -/
def execSnpReq (m : Nat) (d : Word) (s : State) : Host.Outcome State Fault Refusal :=
  .next (regWrite m A.SNP_CTL d (snapRequest d) s)

/-- The modes in which a snapshot may be asked for. -/
def snapModes (s : State) : Bool :=
  s.ctl.mode == .armed || s.ctl.mode == .run || s.ctl.mode == .step || s.ctl.mode == .hold

/-- SNAP (R221): a WHEN above 1 is taken as 1 (assumption 14). -/
def execSnap (msg : Msg) (s : State) : Host.Outcome State Fault Refusal :=
  .next (request msg
    { op := 0x0600, len := fun n => n == 16, zeros := fun p => leAt p 1 7 == 0, claim := true,
      mode := fun s => snapModes s && s.isMaster }
    (fun _ p s =>
      let r := snapAccept (if leAt p 0 1 = 0 then none else some (leAt p 8 8)) s
      (r.1, [], r.2)) s)

/-- SNAP_DISCARD (R221); that it reaches the other members is their leagueAbort. -/
def execSnapDiscard (msg : Msg) (s : State) : Host.Outcome State Fault Refusal :=
  .next (request msg { op := 0x0601, claim := true, mode := fun s => s.ldr.img.isSome && s.isMaster }
    (fun _ _ s => if s.snp.snap.isNone && s.snp.pend.isNone then (0x683, [], s) else ok (abortSnap 5 s)) s)

/-- What reaches this member of a league from the others in one grain: nothing, a discard by the master, or the abort of another member's
snapshot (R221, R229). No token of the spec carries either, so which it is is a free value (assumption 56). -/
def leagueAbort (s : State) : State :=
  if s.leagueSize ≤ 1 || s.snp.snap.isNone && s.snp.pend.isNone then s
  else
    let x := s.freshNat 2
    if x.1 = 3 then abortSnap 7 x.2 else if x.1 = 2 && !s.isMaster then abortSnap 5 x.2 else x.2

/-- SNAP_QUERY (R221): SNP_STAT, SNP_ID, the cycle and SNP_UNDO. -/
def execSnapQuery (msg : Msg) (s : State) : Host.Outcome State Fault Refusal :=
  .next (request msg { op := 0x0604, mode := fun s => s.ctl.corePower }
    (fun _ _ s => (0, leBytes 4 (s.reg A.SNP_STAT).toNat ++ leBytes 4 (s.reg A.SNP_ID).toNat ++
      leBytes 8 (s.pair A.SNP_CYCLO A.SNP_CYCHI) ++ leBytes 4 (s.reg A.SNP_UNDO).toNat, s)) s)

/-- The end of the priority copy of a line that occupies a save buffer, once four slack grains of its bank have moved it (R142, R224);
`bad` when a read of the copy failed at a place the row does not give. -/
def priorityCopy (l : Nat) (bad : Bool) (s : State) : State :=
  match s.snp.snap with
  | none => s
  | some x =>
    if !x.buffers.contains l || SMap.get 0 x.moved l < 4 then s
    else
      let fails := (List.range 16).filter fun i => s.badBytes (64 * l + 4 * i) != 0 && (SMap.get none x.saved (64 * l + 4 * i)).isNone
      match fails, bad with
      | i :: r, _ => copyFails (64 * l + 4 * i) (s.badBytes (64 * l + 4 * i)) (r.any fun j => j / 4 == i / 4) s
      | [], true =>
        let w := s.freshNat 4
        let m := w.2.freshNat 4
        copyFails (64 * l + 4 * w.1) m.1 false m.2
      | [], false =>
        let x := { x with swept := NSet.ins x.swept l, buffers := x.buffers.filter (· ≠ l), moved := SMap.set 0 x.moved l 0 }
        (tellSwept { s with snp := { s.snp with snap := some x } }).count F.SNP_PCOPY_COUNT

/-- PRIORITY_COPY. -/
def execPriorityCopy (line : Nat) (bad : Bool) (s : State) : Host.Outcome State Fault Refusal :=
  .next (priorityCopy line bad s)

/-- A die moves the next 64 KiB of its shadow planes (R223, assumption 15). -/
def shadowDrain (die : Nat) (bad : Bool) (s : State) : State :=
  match s.snp.snap with
  | none => s
  | some x =>
    let n := x.drained.getD die 128
    if 128 ≤ n then s
    else if bad || x.badShadow.any (fun k => (128 * die + n) * 65536 ≤ k && k < (128 * die + n + 1) * 65536) then abortSnap 2 s
    else
      let x := { x with drained := setAt x.drained die (n + 1) }
      { s with snp := { s.snp with snap := some x } }.setFld F.SNP_PROG_DRAINED (x.drained.foldl (· + ·) 0)

/-- Every on-die line has its copy (R230). -/
def Snap.diesCopied (x : Snap) : Bool := x.allSwept || x.buffers.isEmpty && x.sweep.all (32768 ≤ ·)

/-- The end of the drain (R228): nothing happens before the DS drain, the field record, every priority copy and the sweep of every bank
are complete. -/
def snapKept (s : State) : State :=
  match s.snp.snap with
  | none => s
  | some x =>
    if s.fld F.SNP_STAT_STATE ≠ 2 && s.fld F.SNP_STAT_STATE ≠ 4 || x.allSwept then s
    else if x.inp.isNone || x.drained.any (· < 128) || !x.diesCopied then s
    else
      let s := { s with snp := { s.snp with snap := some { x with allSwept := true } } }
      let s := s.setFld F.SNP_PROG_SWEPT (48 * s.dies)
      raise 78 (if s.fld F.SNP_STAT_STATE = 2 then s.setFld F.SNP_STAT_STATE 3 else s)

/-- The staging buffer of a controller drains (R226): cause SNAPSHOT clears when no controller is below its guard
(assumption 15). -/
def undoDrain (c : Nat) (s : State) : State :=
  let st := setAt s.snp.staged c 0
  let s := { s with snp := { s.snp with staged := st } }
  if st.any (fun n => 16384 - n < 4 * (s.H + 8)) then s else s.setFld F.SFB_HOLD_STAT_SNAPSHOT 0

/-- UNDO_BUFFER_GUARD_CLEAR. -/
def execUndoBufferGuardClear (ctl : Nat) (s : State) : Host.Outcome State Fault Refusal := .next (undoDrain ctl s)

end Sys2Proof.Machine
end

