-- ==== Sys2Proof/Machine/Acquisition.lean ====
section
/-! DEFINITION. Probes, comparators, the sequencer, trigger actions, and acquisition (R249 to R298). -/
namespace Sys2Proof.Machine

/-! ### Arming (R254, R256, R266, R270, R271) -/

/-- A probe of the probe table, if it exists (R249). -/
def State.probe (s : State) (n : Nat) : Option Probe := SMap.get none s.acq.probes n

/-- Decode one entry of a capture set table (R253). -/
def capEntry (word : Bool) (e : Nat) : CapEntry :=
  ⟨word, bit e 31, word && bit e 30, if word then bits e 24 5 + 1 else 1, bits e 0 17⟩

/-- An entry's fields that R253 makes 0 are 0. -/
def capEntryOk (word : Bool) (e : Nat) : Bool :=
  if word then bits e 29 1 == 0 && bits e 17 7 == 0 else bits e 17 14 == 0

/-- The probe numbers that an entry reads. -/
def CapEntry.probes (e : CapEntry) : List Nat := (List.range e.width).map (e.probe + ·)

/-- The probe numbers that comparator `n` reads (R255). -/
def State.cmpProbes (s : State) (n : Nat) : List Nat :=
  let p := s.fld (F.TRG_CMP_CTL_PROBE n)
  if 8 ≤ s.fld (F.TRG_CMP_CTL_KIND n) then (List.range (s.fld (F.TRG_CMP_CTL_WIDTHM1 n) + 1)).map (p + ·) else [p]

/-- The comparators that evaluate (R255). -/
def State.cmps (s : State) : List Nat := (List.range 64).filter fun n => s.flag (F.TRG_CMP_CTL_EN n)

/-- Comparator `n` is programmed within R256. -/
def State.cmpOk (s : State) (n : Nat) : Bool :=
  let k := s.fld (F.TRG_CMP_CTL_KIND n)
  let w := s.fld (F.TRG_CMP_CTL_WIDTHM1 n) + 1
  let v := s.fld (F.TRG_CMP_VAL_VAL n)
  ((1 ≤ k && k ≤ 5) || (8 ≤ k && k ≤ 13)) &&
  (if k = 8 || k = 9 then v < 2 ^ w else if k = 10 || k = 11 then unsgn 32 (sgn w v) == v else true) &&
  (s.cmpProbes n).all fun p => (s.probe p).isSome

/-- The first captured cycle that START 0 gives (R271). -/
def State.firstCycle (s : State) : Nat := if s.ctl.clock then s.lge.cycle + 1 else s.lge.cycle

/-- The shares of ACQ_TUN in the order of the stream codes. -/
def State.shares (s : State) : List Nat :=
  [s.fld F.ACQ_TUN_RAWP, s.fld F.ACQ_TUN_DECP, s.fld F.ACQ_TUN_WINP, s.fld F.ACQ_TUN_CHGP]

/-- The size of the tun: as created, or as ACQ_TUN would create it (R266). -/
def State.tunBytes (s : State) : Nat :=
  match s.region 7 with
  | some (_, p) => p * s.fuses.grade.stacks / 0x4000000 * 0x4000000
  | none => s.fld F.ACQ_TUN_SIZE * 0x4000000

/-- The four rings of an acquisition (R266). -/
def rings (size : Nat) (shares : List Nat) (vlen wlen : Nat) : List AcqStream :=
  (List.range 4).map fun i =>
    let len := if i = 2 then wlen else vlen
    let base := (shares.take i).foldl (· + ·) 0 * (size / 16)
    ⟨shares.getD i 0 * (size / 16) / len, base, len, 0, 0, 0⟩

/-- The modes in which an arm is permitted. -/
def armModes (s : State) : Bool :=
  s.ctl.mode == .armed || s.ctl.mode == .run || s.ctl.mode == .step || s.ctl.mode == .hold

/-- ACQ_STOP takes effect at the next boundary grain (R272). -/
def askStop (s : State) : State :=
  if s.flag F.ACQ_CTL_CAPT || s.acq.armed then { s with acq := { s.acq with stopEnd := some 2 } } else s

/-- ACQ_STOP. -/
def execAcqStop (msg : Msg) (s : State) : Host.Outcome State Fault Refusal :=
  .next (request msg { op := 0x0701, claim := true, mode := fun s => s.ldr.img.isSome } (fun _ _ s => ok (askStop s)) s)

/-- A write of 1 to ACQ_CTL.STOP (R272). -/
def ctlStop (d : Word) (s : State) : State :=
  let s := plainWrite A.ACQ_CTL d s
  if bit d.toNat 1 then askStop s else s

/-- ACQ_CTL_STOP. -/
def execAcqCtlStop (m : Nat) (d : Word) (s : State) : Host.Outcome State Fault Refusal :=
  .next (regWrite m A.ACQ_CTL d (ctlStop d) s)

/-- ACQ_SETLOAD: the table follows as stream data (R270); the address of the unit's own buffer is not given
(Config.ownSet, assumption 21). -/
def setLoad (n len : Nat) (s : State) : State :=
  let s := { (s.openIn n .capset 0x0702 len) with
    acq := { s.acq with setBuf := [], ownSet := true } }
  s.setPair A.ACQ_SETLO A.ACQ_SETHI (Config.ownSet % 2 ^ 48)

/-- ACQ_SETLOAD. -/
def execAcqSetload (msg : Msg) (s : State) : Host.Outcome State Fault Refusal :=
  .next (request msg { op := 0x0702, optical := true, len := fun n => n == 4, claim := true, mode := fun s => s.ctl.corePower }
    (fun x p s => ok (setLoad x.num (leAt p 0 4) s)) s)

/-! ### Capturing -/

/-- CAPTURE_START: cycle f is the next or the present one and capturing begins (R262, R271); the held grains of earlier cycles are not
f's (R264). -/
def captureStart (s : State) : State :=
  if s.acq.armed && s.lge.cycle = s.acq.f && s.arr.pos < s.L + 9 then
    { s with acq := { s.acq with armed := false, heldNow := 0, fresh := 0 } }.setFld F.ACQ_CTL_CAPT 1
  else s

/-- CAPTURE_START. -/
def execCaptureStart (s : State) : Host.Outcome State Fault Refusal := .next (captureStart s)

/-- The probes that the acquisition reads (R250, R255). -/
def State.needed (s : State) : List Nat := (s.acq.entries.flatMap CapEntry.probes) ++ s.cmps.flatMap s.cmpProbes

/-- The probe reads of position `p` (R250, R252), before the step writes. -/
def probeReads (p : Nat) (s : State) : State :=
  if s.flag F.ACQ_CTL_CAPT then
    (s.needed.foldl (fun l n => NSet.ins l n) []).foldl (fun s n =>
      match s.probe n with
      | some x =>
        if x.step + x.offset = p then
          let s := { s with acq := { s.acq with vals := SMap.set false s.acq.vals n (NSet.has s.arr.ds (x.bp * 2048 + x.step)) } }
          if NSet.has s.arr.badDs (x.bp * 256 + x.step / 8) then
            raise 165 ({ s with acq := { s.acq with perrVals := NSet.ins s.acq.perrVals n } }.count F.ACQ_PERRCNT_COUNT)
          else s
        else s
      | none => s) s
  else s

/-- The number that a run of probes forms (R253). -/
def State.probeNum (s : State) (l : List Nat) : Nat :=
  l.foldr (fun n k => b2n (SMap.get false s.acq.vals n) + 2 * k) 0

/-- The recorded value of an entry (R253). -/
def State.entryVal (s : State) (e : CapEntry) : Int :=
  let v := s.probeNum e.probes
  if e.signed then sgn e.width v else v

/-- Comparator `n` over the values of this cycle (R256, R257): the hit, the armed bit, and whether MATCH holds. -/
def cmpEval (s : State) (n : Nat) : Bool × Bool × Bool :=
  let k := s.fld (F.TRG_CMP_CTL_KIND n)
  let w := s.fld (F.TRG_CMP_CTL_WIDTHM1 n) + 1
  let raw := s.probeNum (s.cmpProbes n)
  let u := SMap.get none s.acq.prevCmp n
  let armed := s.flag (F.TRG_CMP_STAT_ARMD n)
  let val := s.fld (F.TRG_CMP_VAL_VAL n)
  let aux := s.fld (F.TRG_CMP_AUX_AUX n)
  let m := (raw ^^^ val) &&& aux == 0
  let signed := 10 ≤ k
  let num (x : Nat) : Int := if signed then sgn w x else (x % 2 ^ w : Nat)
  let lo : Int := if signed then -(2 ^ (w - 1) : Nat) else 0
  let hi : Int := if signed then (2 ^ (w - 1) : Nat) - 1 else (2 ^ w : Nat) - 1
  let v := num raw
  let t := num val
  match k with
  | 1 => (u == some 0 && raw == 1, armed, m)
  | 2 => (u == some 1 && raw == 0, armed, m)
  | 3 => (u.isSome && u != some raw, armed, m)
  | 4 => (raw == 1, armed, m)
  | 5 => (raw == 0, armed, m)
  | 12 => (m, armed, m)
  | 13 => (m && u.isSome && !NSet.has s.acq.prevMatch n, armed, m)
  | _ =>
    if k = 8 || k = 10 then
      let a := max (t - (aux : Int)) lo
      let hit := armed && decide (t ≤ v)
      (hit, if hit then false else armed || decide (v < a), m)
    else
      let a := min (t + (aux : Int)) hi
      let hit := armed && decide (v ≤ t)
      (hit, if hit then false else armed || decide (a < v), m)

/-- Scruple grain 6: every enabled comparator evaluates (R255). -/
def comparators (s : State) : State :=
  if s.flag F.ACQ_CTL_CAPT then
    let l := s.cmps.map fun n => (n, cmpEval s n)
    let hits := (l.filter fun x => x.2.1).foldl (fun m x => m ||| 2 ^ x.1) 0
    let s := (s.setFld F.TRG_HITLO_HIT hits).setFld F.TRG_HITHI_HIT (hits / 2 ^ 32)
    let pc := l.foldl (fun m x => SMap.set none m x.1 (some (s.probeNum (s.cmpProbes x.1)))) s.acq.prevCmp
    let s := { s with acq := { s.acq with prevCmp := pc, prevMatch := (l.filter fun x => x.2.2.2).map (·.1) } }
    l.foldl (fun s x => s.setFlds [(F.TRG_CMP_STAT_HIT x.1, b2n x.2.1), (F.TRG_CMP_STAT_ARMD x.1, b2n x.2.2.1)]) s
  else s

/-- The condition of a mask over the hits (R258). -/
def seqCond (hits mask : Nat) (all : Bool) : Bool :=
  mask ≠ 0 && (if all then hits &&& mask == mask else hits &&& mask != 0)

/-- The state's GO actions and its move to NEXT (R258). -/
def goComplete (s : State) : State :=
  if s.acq.goDone then
    let k := s.fld F.TRG_SEQ_STATE
    let a := s.fld (F.TRG_ST_CTL_ACT k)
    let s := { s with acq := { s.acq with goDone := false, acts := s.acq.acts ||| a, fromState := if bit a 0 then k else s.acq.fromState } }
    s.setFlds [(F.TRG_SEQ_STATE, s.fld (F.TRG_ST_CTL_NEXT k)), (F.TRG_SEQ_COUNT, 0)]
  else s

/-- SEQ_GO_COMPLETE. -/
def execSeqGoComplete (s : State) : Host.Outcome State Fault Refusal := .next (goComplete s)

/-- The forced trigger of R259: nothing when the sequencer's own RECORD falls in the cycle. -/
def autoFire (s : State) : State :=
  if s.acq.autoDue then
    let s := goComplete s
    let s := { s with acq := { s.acq with autoDue := false, autoDone := true } }
    if bit s.acq.acts 0 then s
    else
      let a := s.fld F.TRG_AUTO_ACT
      { s with acq := { s.acq with acts := s.acq.acts ||| a, forced := bit a 0, fromState := s.fld F.TRG_SEQ_STATE } }
  else s

/-- TRG_AUTO_FIRE. -/
def execTrgAutoFire (s : State) : Host.Outcome State Fault Refusal := .next (autoFire s)

/-- Scruple grain 7 of cycle `c`: the sequencer evaluates, and the auto timer's cycle is found (R258, R259). -/
def sequencer (c : Nat) (s : State) : State :=
  if s.flag F.ACQ_CTL_CAPT then
    let k := s.fld F.TRG_SEQ_STATE
    let hits := s.fld F.TRG_HITLO_HIT + 2 ^ 32 * s.fld F.TRG_HITHI_HIT
    let go := s.fld (F.TRG_ST_GOLO_MASK k) + 2 ^ 32 * s.fld (F.TRG_ST_GOHI_MASK k)
    let esc := s.fld (F.TRG_ST_ESCLO_MASK k) + 2 ^ 32 * s.fld (F.TRG_ST_ESCHI_MASK k)
    let s :=
      if s.acq.fired then s
      else if seqCond hits esc (s.flag (F.TRG_ST_CTL_ESCAND k)) then
        let a := s.fld (F.TRG_ST_CTL_EACT k)
        let s := { s with acq := { s.acq with acts := s.acq.acts ||| a, fromState := if bit a 0 then k else s.acq.fromState } }
        s.setFlds [(F.TRG_SEQ_STATE, s.fld (F.TRG_ST_CTL_ENEXT k)), (F.TRG_SEQ_COUNT, 0)]
      else if seqCond hits go (s.flag (F.TRG_ST_CTL_GOAND k)) then
        let n := s.fld F.TRG_SEQ_COUNT + 1
        let s := s.setFld F.TRG_SEQ_COUNT (Nat.min n 0xFFFFFF)
        { s with acq := { s.acq with goDone := decide (Nat.max (s.fld (F.TRG_ST_N_N k)) 1 ≤ n) } }
      else if s.flag (F.TRG_ST_CTL_CONSEC k) then s.setFld F.TRG_SEQ_COUNT 0
      else s
    let a := s.fld F.TRG_AUTO_CYC
    if a ≠ 0 && !s.acq.fired && !s.acq.autoDone && s.acq.f + a ≤ c then { s with acq := { s.acq with autoDue := true } } else s
  else s

/-- League triggers due in cycle `c` (R261): origin cycles with c = origin + D. -/
def State.lgDue (s : State) (c : Nat) : List (Nat × Nat) := s.acq.lgs.filter fun x => x.1 + s.lgDelay = c

/-- League triggers take effect in scruple grain 9 of cycle `c` (R261). -/
def leagueApply (c : Nat) (s : State) : State :=
  match s.lgDue c with
  | [] => s
  | x :: r =>
    let low := r.foldl (fun m y => Nat.min m y.2) x.2
    let a := s.fld F.TRG_LG_ACT % 16
    let s := { s with acq := { s.acq with
      lgs := s.acq.lgs.filter fun y => y.1 ≠ x.1
      lgNow := if bit s.acq.acts 0 then none else some (x.1, low)
      acts := s.acq.acts ||| a } }
    raise 162 s

/-- LEAGUE_TRIGGER_APPLY: before scruple grain 9 executes. -/
def execLeagueTriggerApply (s : State) : Host.Outcome State Fault Refusal :=
  .next (if s.arr.pos = s.L + 9 then leagueApply s.cycleNow s else s)

/-- A league trigger raised at a position in cycle `c` (R261). -/
def addLtrig (c pos : Nat) (s : State) : State :=
  if s.acq.lgs.contains (c, pos) then s else { s with acq := { s.acq with lgs := s.acq.lgs ++ [(c, pos)] } }

/-- Capturing is past its stop cycle `c` (R265): END 1, or in REPEAT mode a re-arm. -/
def stopAt (c : Nat) (s : State) : State :=
  if s.flag F.ACQ_CTL_REPEAT then
    let s := { s with acq := { s.acq with
      f := c + 1, t := none, stopCycle := none, fired := false, autoDone := false, autoDue := false, goDone := false } }
    let s := s.setFlds [(F.TRG_SEQ_STATE, 0), (F.TRG_SEQ_COUNT, 0)]
    raise 163 (s.setPair A.ACQ_FCYCLO A.ACQ_FCYCHI (c + 1))
  else endCapture 1 s

/-- The stop cycle is reached (R265). Its boundary grain has passed already only where POST is 0, so that the trigger of scruple
grain 9 is itself in the stop cycle. -/
def stopCycle (s : State) : State :=
  match s.acq.stopCycle with
  | some c => if s.flag F.ACQ_CTL_CAPT && c < s.lge.cycle then stopAt c s else s
  | none => s

/-- ACQ_STOP_CYCLE. -/
def execAcqStopCycle (s : State) : Host.Outcome State Fault Refusal := .next (stopCycle s)

/-- The trigger: cycle `c` becomes the trigger cycle, or the RECORD is ignored (R260, R265). After a re-arm in the boundary grain of a stop
cycle the acquisition begins with the next cycle: a RECORD in grain 9 of the stop cycle is ignored. -/
def recordTrigger (c : Nat) (s : State) : State :=
  if s.flag F.ACQ_CTL_CAPT && s.acq.t.isNone && s.acq.f ≤ c then
    let s := { s with acq := { s.acq with t := some c, fired := true, stopCycle := some (c + s.acq.post) } }
    let s := s.setFlds [(F.TRG_TSTAT_VALID, 1), (F.TRG_TSTAT_FORCED, b2n s.acq.forced),
      (F.TRG_TSTAT_LEAGUE, b2n s.acq.lgNow.isSome), (F.TRG_TSTAT_FROM, s.acq.fromState),
      (F.TRG_TSTAT_ORIGIN, (s.acq.lgNow.map (·.2)).getD 0), (F.ACQ_CTL_TRIGD, 1)]
    let s := s.setPair A.TRG_TCYCLO A.TRG_TCYCHI c
    let s := match s.acq.lgNow with
      | some (o, _) => s.setPair A.TRG_OCYCLO A.TRG_OCYCHI o
      | none => s
    raise 160 s
  else s.count F.TRG_IGN_COUNT

/-- Scruple grain 9 of cycle `c`: the merged actions in the order of R260. -/
def triggerActions (c : Nat) (s : State) : State :=
  let s := leagueApply c s
  let a := s.acq.acts
  let s := if bit a 0 then recordTrigger c s else s
  let s := if bit a 1 then triggerSnap c s else s
  let s := if bit a 2 then s.setFld F.SFB_HOLD_STAT_TRIGGER 1 else s
  let s := if bit a 3 then raise 161 s else s
  let s := if bit a 4 then addLtrig c s.pos (s.originate 3 c) else s
  stopCycle { s with acq := { s.acq with acts := 0, forced := false, lgNow := none } }

/-- The module enters SAFE at the end of this boundary grain, and grain 9 does not come (R27, R29). -/
def State.safeAtBoundary (s : State) : Bool := s.ctl.safeNext || s.ctl.safeDue.bind (·.2) == some 1

/-- What the records of a cycle carry: whether the cycle becomes the trigger cycle, forced, or by a league trigger. A capture that
ends in this boundary grain takes no trigger in grain 9 (R260, R272). -/
def State.willTrigger (s : State) (c : Nat) : Nat :=
  let own := bit s.acq.acts 0
  let lg := !(s.lgDue c).isEmpty && bit (s.fld F.TRG_LG_ACT) 0
  if s.flag F.ACQ_CTL_CAPT && s.acq.t.isNone && s.acq.f ≤ c && s.acq.stopEnd.isNone && !s.safeAtBoundary && (own || lg) then 1 + 2 * b2n s.acq.forced + 4 * b2n (!own) else 0

/-- Gather the values of a cycle into the window (R262, R263). -/
def gather (c held stamp flags : Nat) (v : List Int) (s : State) : State :=
  let nb := (s.acq.entries.filter fun e => !e.word).length
  let b := (v.take nb).map (· == 1)
  let w := v.drop nb
  let prev := s.acq.prev.map fun p => (p.take nb).map (· == 1)
  let changed := (List.range nb).map fun i =>
    match prev with | some p => p.getD i false != b.getD i false | none => false
  let x := match s.acq.win with
    | some x => { x with
        n := x.n + 1, held := x.held + held, stamp := stamp, flags := x.flags ||| flags
        any1 := x.any1.zipWith (· || ·) b, any0 := x.any0.zipWith (· || !·) b
        mins := x.mins.zipWith min w, maxs := x.maxs.zipWith max w, sums := x.sums.zipWith (· + ·) w
        edges := x.edges.zipWith (fun n d => n + b2n d) changed, highs := x.highs.zipWith (fun n d => n + b2n d) b }
    | none => ⟨c, 1, held, stamp, flags, b, b.map (!·), w, w, w, changed.map b2n, b.map b2n⟩
  let rises := (List.range nb).map fun i =>
    let r := s.acq.rises.getD i ⟨none, none⟩
    if b.getD i false && changed.getD i false then ⟨some c, r.r1⟩ else r
  { s with acq := { s.acq with win := some x, rises := rises } }

/-- The boundary grain of cycle `c`, before the cycle number advances: the streams write their records (R262 to R265).
TRIG and what goes with it stand in the raw and change records of t and in its window, STOP in every record of the stop cycle. -/
def writeRecords (c : Nat) (s : State) : State :=
  if s.flag F.ACQ_CTL_CAPT then
    let es := s.acq.entries
    let nb := (es.filter fun e => !e.word).length
    let v := es.map s.entryVal
    let trig := s.willTrigger c
    let stop := s.acq.stopCycle = some c || (trig ≠ 0 && s.acq.post = 0)
    let perr := es.any fun e => e.probes.any (NSet.has s.acq.perrVals)
    let mark := (if c = s.acq.f then 0x10 else 0) ||| (if perr then 0x40 else 0)
    let base := trig ||| mark
    let last := if stop then 0x80 else 0
    let fl := base ||| last
    let full := s.acq.buffer.length
    let body := valueBody nb v
    let held := s.acq.heldNow
    let st := s.stamp
    let diff := s.acq.prev ≠ some v
    let s := gather c held st base v s
    let s := putRecord 0 c st held fl 1 body s
    let s := if c % s.acq.decN = 0 then putRecord 1 c st held (mark ||| last) 1 body s else s
    let s := if (c + 1) % s.acq.winN = 0 || stop then closeWindow last s else s
    let s := if diff || c = s.acq.f || trig ≠ 0 || stop then putRecord 3 c st held fl 1 body s else s
    let s := { s with acq := { s.acq with
      prev := some v, vals := [], perrVals := [], heldNow := 0 } }
    let s := match s.acq.stopEnd with
      | some e => endCapture e s
      | none => if s.acq.stopCycle = some c then stopAt c s else s
    { s with acq := { s.acq with fresh := s.acq.buffer.length - full } }
  else
    let s := { s with acq := { s.acq with fresh := 0 } }
    match s.acq.stopEnd with
    | some e => endCapture e s
    | none => s

/-- A held grain between the boundary grain of a cycle and its end counts in the records that the cycle has just written and in the
window that gathers it; any other counts in the record to come (R264). -/
def heldRecord (s : State) : State :=
  if s.arr.pos < s.L + 9 then { s with acq := { s.acq with heldNow := s.acq.heldNow + 1 } }
  else
    let old := s.acq.buffer.length - s.acq.fresh
    let bump (r : Nat × List Byte) : Nat × List Byte := (r.1, splice r.2 16 (leBytes 2 (Nat.min (leAt r.2 16 2 + 1) 0xFFFF)))
    { s with acq := { s.acq with
      buffer := s.acq.buffer.take old ++ (s.acq.buffer.drop old).map bump
      win := s.acq.win.map fun (w : Window) => { w with held := w.held + 1 } } }

/-! ### Readout and calibration -/

/-- ACQ_BUFFER_WRITE: the oldest record of the buffer goes into its ring (R266, R267). The records of a cycle that has not ended stay
in the buffer until it has (assumption 25). -/
def bufferWrite (s : State) : State :=
  match s.acq.buffer with
  | [] => s
  | (i, r) :: rest =>
    if s.ctl.clock && s.L + 9 ≤ s.arr.pos && rest.length < s.acq.fresh then s else
    let x := s.acq.streams.getD i ⟨0, 0, 0, 0, 0, 0⟩
    let s := s.putRegion 7 (x.base + leAt r 28 4 % x.cap * x.reclen) r
    { s with acq := { s.acq with buffer := rest, streams := setAt s.acq.streams i { x with inRing := Nat.min (x.inRing + 1) x.cap } } }

/-- ACQ_BUFFER_WRITE. -/
def execAcqBufferWrite (s : State) : Host.Outcome State Fault Refusal := .next (bufferWrite s)

/-- The sequence numbers that the ring of stream `i` holds: oldest, and one past the newest. -/
def State.ringRange (s : State) (i : Nat) : Nat × Nat :=
  let x := s.acq.streams.getD i ⟨0, 0, 0, 0, 0, 0⟩
  let waiting := (s.acq.buffer.filter fun r => r.1 == i).length
  (x.seq - waiting - x.inRing, x.seq - waiting)

/-- The bytes of the records of stream `i` from a sequence number to the newest (R270). -/
def State.ringBytes (s : State) (i first : Nat) : List Byte :=
  let x := s.acq.streams.getD i ⟨0, 0, 0, 0, 0, 0⟩
  let r := s.ringRange i
  let a := if first = 0xFFFFFFFFFFFFFFFF then r.1 else Nat.max first r.1
  ((List.range r.2).drop a).flatMap fun q => s.getRegion 7 (x.base + q % x.cap * x.reclen) x.reclen

/-- TUN_READ. -/
def execTunRead (msg : Msg) (s : State) : Host.Outcome State Fault Refusal :=
  .next (request msg
    { op := 0x0703, optical := true, len := fun n => n == 16, zeros := fun p => leAt p 1 7 == 0, claim := true,
      mode := fun s => s.ctl.corePower }
    (fun x p s =>
      if s.flag F.ACQ_CTL_CAPT || s.hmp.outs.any (fun o => o.opcode == 0x0703) then (0x780, [], s)
      else
        let i := leAt p 0 1
        let r := hubRead 7 (s.acq.streams.getD i ⟨0, 0, 0, 0, 0, 0⟩).base (s.ringBytes i (leAt p 8 8)) s
        ok (r.2.putStream x.num 0x0703 (chunks (r.1.length / 4096 + 1) r.1))) s)

/-- ACQ_QUERY (R270); the widths of the fields in the response are the model's (assumption 21). -/
def execAcqQuery (msg : Msg) (s : State) : Host.Outcome State Fault Refusal :=
  .next (request msg { op := 0x0704, mode := fun s => s.ctl.corePower }
    (fun _ _ s =>
      let none64 := 0xFFFFFFFFFFFFFFFF
      (0, leBytes 4 (s.reg A.ACQ_CTL).toNat ++ leBytes 4 (s.reg A.TRG_TSTAT).toNat ++ leBytes 8 (s.acq.t.getD none64) ++
        leBytes 8 s.acq.f ++ leBytes 8 (s.acq.stopCycle.getD none64) ++
        ((List.range 4).flatMap fun i =>
          let r := s.ringRange i
          if r.1 = r.2 then leBytes 4 none64 ++ leBytes 4 none64 else leBytes 4 r.1 ++ leBytes 4 (r.2 - 1)), s)) s)

/-- TUN_FREE. -/
def execTunFree (msg : Msg) (s : State) : Host.Outcome State Fault Refusal :=
  .next (request msg { op := 0x0706, claim := true, mode := fun s => s.ctl.corePower }
    (fun _ _ s =>
      if s.flag F.ACQ_CTL_CAPT then (0x780, [], s)
      else ok { s.free 7 with acq := { s.acq with buffer := [], fresh := 0, streams := [], armed := false } }) s)

/-- ACQ_CAL: the markers go out (assumption 65); the response comes when the calibration completes (R269). -/
def execAcqCal (msg : Msg) (s : State) : Host.Outcome State Fault Refusal :=
  .next (request msg
    { op := 0x0705, claim := true,
      mode := fun s => (s.ctl.mode == .idle || s.ctl.mode == .armed) && s.isMaster && 1 < s.leagueSize && s.formed }
    (fun _ _ s => (later, [], { s with acq := { s.acq with calibrating := some msg } })) s)

/-- ALIGN of port `n` from the sum of arrival less sent stamp over this end's 256 markers and the partner's sum of r (R269): eight times the
difference of the means, this end's less the one-way delay; a half rounds upward (assumptions 20 and 65). -/
def State.calAlign (s : State) (n : Nat) (sumIn sumOut : Int) : Int :=
  ((sumIn - sumOut) * 1000000 - 256 * s.delay n * (s.fld F.SFB_CLK_MHZ : Int) + 16000000) / 32000000

/-- CAL_COMPLETE: for each league port what its 256 markers gave, and the upstream member's ALOFS (R268, R269). -/
def calComplete (rs : List (Nat × Int × Int)) (up : Int) (s : State) : State :=
  let s := rs.foldl (fun s x =>
    if x.1 < 6 then s.setFlds [(F.ACQ_ALIGN_OFS x.1, unsgn 16 (s.calAlign x.1 x.2.1 x.2.2)), (F.ACQ_ALIGN_STALE x.1, 0)] else s) s
  let ofs := if s.isMaster then 0 else sgn 16 (s.fld (F.ACQ_ALIGN_OFS (s.fld F.LGE_STAT_UPPORT))) + up
  let s := raise 166 (s.setFld F.ACQ_ALOFS_OFS (unsgn 32 ofs))
  match s.acq.calibrating with
  | some m => ({ s with acq := { s.acq with calibrating := none } }).respond m 0x0705 0 []
  | none => s

/-- CAL_COMPLETE. -/
def execCalComplete (rs : List (Nat × Int × Int)) (upAlofs : Int) (s : State) : Host.Outcome State Fault Refusal :=
  .next (calComplete rs upAlofs s)

/-- A hand write of ACQ_ALIGNn (k below 6) or ACQ_ALOFS (k = 6) (R269, R297, R298); ACQ_ALOFS is 0 on the league master and on an
unleagued module (R268), so a write there changes nothing. -/
def alignWrite (k : Nat) (d : Word) (s : State) : State :=
  if k < 6 then (plainWrite (A.ACQ_ALIGN k) d s).setFld (F.ACQ_ALIGN_STALE k) 0
  else if k = 6 && !s.isMaster then plainWrite A.ACQ_ALOFS d s
  else s

/-- ALIGN_WRITE. -/
def execAlignWrite (m k : Nat) (d : Word) (s : State) : Host.Outcome State Fault Refusal :=
  .next (regWrite m (if k < 6 then A.ACQ_ALIGN k else A.ACQ_ALOFS) d (alignWrite k d) s)

end Sys2Proof.Machine
end

