-- ==== Sys2Proof/Machine/DesignMem.lean ====
section
/-! DEFINITION. Design memory: beats of port rods, on-die accesses and their collisions, HBM-resident accesses with
their slots, due points and write queues, and the errors of both (R131 to R161). -/
namespace Sys2Proof.Machine

/-- A beat a BP issued in this step: MEMA (class 5) or MEMW (class 6) with its v and d (R137). -/
structure Beat where
  bp : Nat
  cls : Nat
  v : Bool
  d : Bool
  deriving DecidableEq, Repr

/-- A memory with one of its ports. -/
structure Bound where
  d : MemDesc
  k : Nat
  p : MemPort
  deriving DecidableEq, Repr

/-- Every port of every memory, in order of its head BP. -/
def State.bounds (s : State) : List Bound :=
  sortBy (·.p.head) (s.dm.descs.flatMap fun d => d.ports.zipIdx.map fun x => ⟨d, x.2, x.1⟩)

/-- The port reads (R134). -/
def MemPort.reads (p : MemPort) : Bool := p.mode % 2 == 1

/-- The port writes (R134). -/
def MemPort.writes (p : MemPort) : Bool := 2 ≤ p.mode

/-- The memory is on-die (R133). -/
def MemDesc.onDie (d : MemDesc) : Bool := d.home < 8

/-- Two or more ports of the memory may write (R151). -/
def MemDesc.multi (d : MemDesc) : Bool := 2 ≤ (d.ports.filter MemPort.writes).length

/-- A failure of this grain that SAFE follows at its end (R72). -/
def failGrain (why : Nat) (s : State) : State :=
  { s with arr := { s.arr with fails := s.arr.fails ++ [why], stopped := true } }

/-- The number that one beat's bits over the rod spell (R137). -/
def rodBits (l : List Beat) (cls head len : Nat) (f : Beat → Bool) : Nat :=
  (List.range len).foldl (fun n i =>
    match l.find? (fun b => b.bp == head + i && b.cls == cls) with
    | some b => n + b2n (f b) * 2 ^ i
    | none => n) 0

/-- The access of a port, if one is in progress. -/
def State.access (s : State) (m k : Nat) : Option Access := s.dm.acc.find? fun (x : Access) => x.mem == m && x.port == k

/-- Put the access of a port in place of an earlier one. -/
def State.setAccess (s : State) (x : Access) : State :=
  { s with dm := { s.dm with acc := s.dm.acc.filter (fun y => !(y.mem == x.mem && y.port == x.port)) ++ [x] } }

/-- Remove the access of a port. -/
def State.dropAccess (s : State) (m k : Nat) : State :=
  { s with dm := { s.dm with acc := s.dm.acc.filter fun y => !(y.mem == m && y.port == k) } }

/-- Take the address and write beats of step `t` (R137); before release stage 2 every enable bit is 0 (R204). -/
def takeBeats (t : Nat) (l : List Beat) (s : State) : State :=
  s.bounds.foldl (fun s b =>
    if b.p.astep = t && l.any (fun x => x.bp == b.p.head && x.cls == 5) then
      s.setAccess ⟨b.d.index, b.k, rodBits l 5 b.p.head b.p.len (·.v), 0, 0, none⟩
    else if b.p.writes && b.p.astep + 1 = t then
      match s.access b.d.index b.k with
      | some x =>
        let on := 2 ≤ s.fld F.LDR_REL_STAGE
        s.setAccess { x with
          data := rodBits l 6 b.p.head b.p.len (·.v) % 2 ^ b.d.width
          en := if on then rodBits l 6 b.p.head b.p.len (·.d) % 2 ^ b.d.width else 0 }
      | none => s
    else s) s

/-- An out-of-range access (R140). Every access a port makes counts, a write with no enable bit set among them, since R132 has each port
make one access a cycle (DESIGN CHOICE, assumption 57). -/
def outOfRange (b : Bound) (x : Access) (s : State) : State :=
  let s := s.first F.DMC_RANGE_STAT_VALID F.DMC_RANGE_STAT_MORE
    [(F.DMC_RANGE_STAT_MEM, b.d.index), (F.DMC_RANGE_STAT_PORT, b.k), (F.DMC_RANGE_STAT_STEP, b.p.astep),
     (F.DMC_RANGE_ADDR_ADDR, x.addr)]
  raiseIf (s.flag F.DMC_CTL_RANGEEV) 134 (s.count F.DMC_RANGE_COUNT_COUNT)

/-- Bits `en` of `old` replaced by those of `v`. -/
def mergeWord (old v en : Nat) : Nat := ((old ^^^ v) &&& en) ^^^ old

/-- Whether byte `k` of an enable mask is full. -/
def byteFull (en k : Nat) : Bool := bits en (8 * k) 8 == 255

/-- One bit of a word with several writers (R151, R152): its value, and whether it is a collision bit. -/
def resolveBit (policy old now : Nat) (w : List (Nat × Nat × Nat)) (k : Nat) : Bool × Bool :=
  let w := sortBy (·.1) (w.filter fun x => bit x.2.2 k)
  match w with
  | [] => (bit now k, false)
  | x :: r =>
    if r.all fun y => bit y.2.1 k == bit x.2.1 k then (bit x.2.1 k, false)
    else
      (match policy with
       | 0 => bit x.2.1 k
       | 1 => (r.getLast?.map fun y => bit y.2.1 k).getD (bit x.2.1 k)
       | 2 => bit old k
       | _ => true, true)

/-- The ports that wrote a collision bit. -/
def collPorts (w : List (Nat × Nat × Nat)) (mask : Nat) : Nat :=
  w.foldl (fun n x => if x.2.2 &&& mask = 0 then n else n ||| 2 ^ x.1) 0

/-- Record a collision (R153). -/
def collide (b : Bound) (addr ports : Nat) (s : State) : State :=
  let s := s.first F.DMC_COLL_STAT_VALID F.DMC_COLL_STAT_MORE
    [(F.DMC_COLL_STAT_MEM, b.d.index), (F.DMC_COLL_STAT_PORTS, ports), (F.DMC_COLL_STAT_STEP, b.p.astep),
     (F.DMC_COLL_ADDR_ADDR, addr)]
  let s := s.setFld ⟨A.DMC_COLL_MAP (b.d.index / 32), b.d.index % 32, 1⟩ 1
  raiseIf (s.flag F.DMC_CTL_COLLEV) 131 (s.count F.DMC_COLL_COUNT_COUNT)

/-- The word that a write of a memory with several writers leaves, with the record of R151 and the count of R153. -/
def multiWrite (b : Bound) (x : Access) (old : Nat) (s : State) : Nat × State :=
  let r := (s.dm.recs.find? fun (r : WordRec) => r.mem == b.d.index && r.addr == x.addr).getD ⟨b.d.index, x.addr, old, [], false⟩
  let w := r.writes ++ [(b.k, x.data, x.en)]
  let l := (List.range 32).map (resolveBit b.d.policy r.old old w)
  let mask := bitsNat (l.map (·.2))
  let s := if mask ≠ 0 && !r.counted then collide b x.addr (collPorts w mask) s else s
  (bitsNat (l.map (·.1)), { s with dm := { s.dm with
    recs := s.dm.recs.filter (fun y => !(y.mem == b.d.index && y.addr == x.addr)) ++
      [{ r with writes := w, counted := r.counted || mask ≠ 0 }] } })

/-- A parity error in a bank word read for a design access (R155). -/
def bankFails (b : Bound) (g bad kind : Nat) (s : State) : State :=
  let s := s.first F.DMC_PERR_STAT_VALID F.DMC_PERR_STAT_MORE
    [(F.DMC_PERR_STAT_KIND, kind), (F.DMC_PERR_STAT_DIE, b.d.home), (F.DMC_PERR_STAT_BYTES, bad),
     (F.DMC_PERR_STAT_BANK, g / 131072), (F.DMC_PERR_LOC_STEP, b.p.astep), (F.DMC_PERR_LOC_WORD, g % 131072)]
  failGrain 3 (raise 128 s)

/-- The access grain of an on-die access (R138 to R140, R151, R155); a write holds its bank in the grain after it too (R142). A read of a
read-write port that fails serves both as read data and before the merge: KIND is 0b01 (DESIGN CHOICE, assumption 57). -/
def dieAccess (b : Bound) (x : Access) (s : State) : State :=
  if b.d.depthM1 < x.addr then
    if b.p.reads then s.setAccess { x with read := some 0 } else s.dropAccess b.d.index b.k
  else
    let g := b.d.base + x.addr
    let a := dieWord b.d.home g
    let wr := b.p.writes && x.en ≠ 0
    let need (k : Nat) : Bool := b.p.reads || (wr && (b.d.multi || !byteFull x.en k))
    let bad := bitsNat ((List.range 4).map fun k => need k && NSet.has s.badMem (a + k))
    if bad ≠ 0 then (bankFails b g bad (if b.p.reads then 1 else 2) s).dropAccess b.d.index b.k
    else
      let old := leNat (Mem.read s.mem a 4)
      let s :=
        if wr then
          let s := saveWord a s
          let r := if b.d.multi then multiWrite b x old s else (mergeWord old x.data x.en, s)
          let s := r.2
          { s with
            mem := Mem.write s.mem a (leBytes 4 r.1)
            badMem := s.badMem.filter fun y => !(a ≤ y && y < a + 4 && byteFull x.en (y - a)) }
        else s
      if b.p.reads then s.setAccess { x with read := some old } else if wr then s else s.dropAccess b.d.index b.k

/-- The region offset of word `a` of an HBM-resident memory (R135). -/
def MemDesc.hbmOffset (d : MemDesc) (a : Nat) : Nat := d.base * 64 + 4 * a

/-- The guard of a controller's write queue (R149). -/
def queueGuard (c : Nat) (s : State) : State :=
  if 8192 - s.dm.wq.getD c 0 < 4 * (s.H + 8) && !s.dm.guard.getD c false then
    let s := { s with dm := { s.dm with guard := setAt s.dm.guard c true } }
    let s := (s.setFld F.SFB_HOLD_STAT_HBM 1).setFld ⟨A.DMC_STAT, c, 1⟩ 1
    raise 136 (s.count (F.DMC_OVR_CNT_CNT 3))
  else s

/-- The read of an HBM access in its slot (R146, R150). -/
def hbmRead (b : Bound) (x : Access) (s : State) : State :=
  if b.d.depthM1 < x.addr then
    if b.p.reads then s.setAccess { x with read := some 0 } else s
  else if b.p.reads then
    let v := leNat (s.getRegion 1 (b.d.hbmOffset x.addr) 4)
    { s with dm := { s.dm with
        reads := s.dm.reads ++ [⟨b.d.index, b.k, x.addr, false, b.p.astep, v, false, none, false, false⟩] } }
  else s

/-- The write of an HBM access in its slot (R149, R150, R225): a write with enable bits not all 1 reads its codeword first. The merged word is
in its place from the slot on, and stays there should both reads of the codeword turn out uncorrectable, when the spec gives the word no
value (DESIGN CHOICE, assumption 46). -/
def hbmWrite (b : Bound) (x : Access) (s : State) : State :=
  if x.en = 0 || b.d.depthM1 < x.addr then s
  else
    let o := b.d.hbmOffset x.addr
    let c := b.d.home - 8
    let s := undoEntry c (o / 8 * 8) s
    let s := if x.en = 2 ^ b.d.width - 1 then s
      else { s with dm := { s.dm with
        reads := s.dm.reads ++ [⟨b.d.index, b.k, x.addr, true, b.p.astep, 0, false, none, false, false⟩] } }
    let s := s.putRegion 1 o (leBytes 4 (mergeWord (leNat (s.getRegion 1 o 4)) x.data x.en))
    queueGuard c { s with dm := { s.dm with wq := setAt s.dm.wq c (s.dm.wq.getD c 0 + 1) } }

/-- Whether a design access uses bank `k` at position `p`: the bank of the word it accesses, in its access grain and, for a write, in the
grain after it (R138, R142). An access out of range uses none, and a write with no enable bit set none either (R137, R140). -/
def State.busyBank (s : State) (p k : Nat) : Bool :=
  s.bounds.any fun b => b.d.onDie && b.d.home == k / 96 &&
    match s.access b.d.index b.k with
    | none => false
    | some x =>
      let wr := b.p.writes && x.en != 0
      x.addr ≤ b.d.depthM1 && (b.d.base + x.addr) / 131072 == k % 96 &&
        (b.p.astep + 2 == p && (b.p.reads || wr) || wr && b.p.astep + 3 == p)

/-- The access grains and slots of position `p`, reads of a slot before its writes (R138, R145, R150); of accesses out of range in one
grain the lowest BP identity is recorded (R75, R140). A write-only access is over in the grain after its access grain. -/
def memAccesses (p : Nat) (s : State) : State :=
  let l := s.bounds
  let s := (l.filter fun b => b.d.onDie && !b.p.reads && b.p.astep + 3 == p).foldl (fun s b => s.dropAccess b.d.index b.k) s
  let s := (l.filter fun b => b.p.astep + (if b.d.onDie then 2 else 4) == p).foldl (fun s b =>
    match s.access b.d.index b.k with | some x => (if b.d.depthM1 < x.addr then outOfRange b x s else s) | none => s) s
  let s := (l.filter fun b => b.d.onDie && b.p.astep + 2 == p).foldl (fun s b =>
    match s.access b.d.index b.k with | some x => dieAccess b x s | none => s) s
  let h := l.filter fun b => !b.d.onDie && b.p.astep + 4 == p
  let s := h.foldl (fun s b => match s.access b.d.index b.k with | some x => hbmRead b x s | none => s) s
  h.foldl (fun s b =>
    match s.access b.d.index b.k with
    | some x => let s := hbmWrite b x s; if b.p.reads then s else s.dropAccess b.d.index b.k
    | none => s) s

/-- The bit that the read beat of step `t` delivers to a BP, if a port's read beat binds it (R137). A MEMR at a BP and step that no port's
read beat binds, or whose access was never begun, which an image that the loader passed does not hold, delivers 0 (DESIGN CHOICE,
assumption 66). -/
def State.readBit (s : State) (t bp : Nat) : Bool :=
  match s.bounds.find? (fun b => b.p.reads && b.p.dstep == t && b.p.head ≤ bp && bp < b.p.head + b.p.len) with
  | some b =>
    match s.access b.d.index b.k with
    | some x => bit ((x.read.getD 0) % 2 ^ b.d.width) (bp - b.p.head)
    | none => false
  | none => false

/-- Accesses whose read beat was step `t` are over. -/
def endReads (t : Nat) (s : State) : State :=
  (s.bounds.filter fun b => b.p.reads && b.p.dstep == t).foldl (fun s b => s.dropAccess b.d.index b.k) s

/-- The reason of an overrun, the first of R148 that applies. Double refresh applies while the stack is in double refresh, whether or not
a refresh met the access (DESIGN CHOICE, assumption 57). -/
def overrunReason (hot : Bool) (r : HbmRead) : Nat :=
  if r.retry then 2 else if hot then 1 else if r.refreshed then 0 else 4

/-- The due points of position `p` (R146, R148). -/
def duePoints (p : Nat) (s : State) : State :=
  s.dm.reads.foldl (fun s r =>
    if !r.merge && !r.arrived && r.overrun.isNone && r.astep + 400 = p then
      let home := ((s.dm.descs.find? fun (d : MemDesc) => d.index == r.mem).map (·.home)).getD 8
      let s := { s with dm := { s.dm with reads := s.dm.reads.map fun y => if y = r then { y with overrun := some 1 } else y } }
      let s := (s.setFld F.SFB_HOLD_STAT_HBM 1).count (F.DMC_OVR_CNT_CNT (overrunReason (s.hub.hot.getD (home - 8) false) r))
      raiseIf (s.flag F.DMC_CTL_OVREV) 132 s
    else s) s

/-- One more grain for every read that has overrun. -/
def overrunGrain (s : State) : State :=
  { s with dm := { s.dm with reads := s.dm.reads.map fun y => { y with overrun := y.overrun.map (· + 1) } } }

/-- Clear cause HBM when neither an overrun nor a queue guard holds it (R109, R148, R149). -/
def clearHbm (s : State) : State :=
  if s.dm.guard.any id || s.dm.reads.any (fun r => r.overrun.isSome) then s else s.setFld F.SFB_HOLD_STAT_HBM 0

/-- The first of the reads in service that is `r` replaced: two merge reads of one port may be alike (R150). -/
def replaceRead (r : HbmRead) (f : HbmRead → HbmRead) : List HbmRead → List HbmRead
  | [] => []
  | y :: l => if y = r then f y :: l else y :: replaceRead r f l

/-- A correction of design data (R157). -/
def corrected (s : State) : State := raiseIf (s.flag F.DMC_CTL_CEEV) 130 (s.count F.DMC_CE_COUNT_COUNT)

/-- The data of a read reaches the return buffer (R148, R149): a merge read has none to deliver. -/
def deliver (r : HbmRead) (s : State) : State :=
  let s := { s with dm := { s.dm with reads := s.dm.reads.erase r } }
  let s := match r.overrun with
    | some g => s.setFld F.DMC_OVR_MAX_GRAINS (Nat.max (s.fld F.DMC_OVR_MAX_GRAINS) (Nat.min g 0xFFFFFF))
    | none => s
  let s := if r.merge then s
    else match s.access r.mem r.port with
      | some x => s.setAccess { x with read := some r.value }
      | none => s
  clearHbm s

/-- A read that fails becomes a retry (R158). -/
def retryRead (r : HbmRead) (s : State) : State :=
  { s with dm := { s.dm with reads := replaceRead r (fun y => { y with retry := true }) s.dm.reads } }.count F.DMC_RETRY_COUNT_COUNT

/-- The oldest read in service for a port, in or out of its retry. -/
def State.inService (s : State) (m k : Nat) (retry : Bool) : Option HbmRead :=
  s.dm.reads.find? fun (r : HbmRead) => r.mem == m && r.port == k && r.retry == retry

/-- An uncorrectable error in design data (R158): a record, EV129, SAFE at once. A cause HBM that the read has set stands on, since its data
never arrives; it goes with the image (R109). -/
def uncorrectable (r : HbmRead) (s : State) : State :=
  let home := ((s.dm.descs.find? fun (d : MemDesc) => d.index == r.mem).map (·.home)).getD 8
  let s := s.first F.DMC_UE_STAT_VALID F.DMC_UE_STAT_MORE
    [(F.DMC_UE_STAT_SCRUB, 0), (F.DMC_UE_STAT_MEM, r.mem), (F.DMC_UE_STAT_STACK, home - 8), (F.DMC_UE_STAT_STEP, r.astep),
     (F.DMC_UE_ADDR_ADDR, r.addr)]
  enterSafe 3 (raise 129 { s with dm := { s.dm with reads := s.dm.reads.erase r } })

/-- HBM_READ_DATA_ARRIVE: the read of a port is served. -/
def hbmArrive (m k : Nat) (e : Ecc) (s : State) : State :=
  match s.inService m k false with
  | none => s
  | some r =>
    match e with
    | .clean => deliver r s
    | .corrected => deliver r (corrected s)
    | .uncorrectable => retryRead r s

/-- HBM_ECC_RETRY: the second read of a codeword is served. -/
def hbmRetry (m k : Nat) (e : Ecc) (s : State) : State :=
  match s.inService m k true with
  | none => s
  | some r =>
    match e with
    | .clean => deliver r s
    | .corrected => deliver r (corrected s)
    | .uncorrectable => uncorrectable r s

/-- HBM_READ_DATA_ARRIVE. -/
def execHbmReadDataArrive (mem port : Nat) (ecc : Ecc) (s : State) : Host.Outcome State Fault Refusal :=
  .next (hbmArrive mem port ecc s)

/-- HBM_ECC_RETRY. -/
def execHbmEccRetry (mem port : Nat) (ecc : Ecc) (s : State) : Host.Outcome State Fault Refusal :=
  .next (hbmRetry mem port ecc s)

/-- A controller completes some queued writes (R149). -/
def writeDrain (c n : Nat) (s : State) : State :=
  let s := { s with dm := { s.dm with wq := setAt s.dm.wq c (s.dm.wq.getD c 0 - n) } }
  if s.dm.guard.getD c false && 4 * (s.H + 8) ≤ 8192 - s.dm.wq.getD c 0 then
    clearHbm ({ s with dm := { s.dm with guard := setAt s.dm.guard c false } }.setFld ⟨A.DMC_STAT, c, 1⟩ 0)
  else s

/-- HBM_WRITE_DRAIN. -/
def execHbmWriteDrain (ctl count : Nat) (s : State) : Host.Outcome State Fault Refusal := .next (writeDrain ctl count s)

/-- The bank of its stack that an HBM address lies in, numbered bank × 32 + pseudo channel: consecutive 256-byte blocks rotate over the 32
pseudo channels (R511), and the bank within the pseudo channel is not given (Config.hbmBank, assumption 16). -/
def hbmBankOf (a : Nat) : Nat :=
  let o := (a - 0x10000000000) % 0x600000000 / 256
  32 * Config.hbmBank (o / 32) + o % 32

/-- Whether a read in service is at a bank of a controller. -/
def State.atBank (s : State) (r : HbmRead) (c bank : Nat) : Bool :=
  s.dm.descs.any fun d => d.index == r.mem && d.home == 8 + c && hbmBankOf (s.regAddr 1 (d.hbmOffset r.addr)) == bank

/-- A per-bank refresh (R147): a read in service at that bank meets it. -/
def refresh (c bank : Nat) (s : State) : State :=
  { s with dm := { s.dm with reads := s.dm.reads.map fun r => if s.atBank r c bank then { r with refreshed := true } else r } }

/-- HBM_REFRESH. -/
def execHbmRefresh (ctl bank : Nat) (s : State) : Host.Outcome State Fault Refusal := .next (refresh ctl bank s)

/-- The boundary grain ends the write records of the cycle (R151). -/
def endRecords (s : State) : State := { s with dm := { s.dm with recs := [] } }

end Sys2Proof.Machine
end

