-- ==== Sys2Proof/Machine/Array.lean ====
section
/-! DEFINITION. The Boolean processors and the step fabric: one step of every BP (R42 to R76) and the emits that follow
it (R88 to R100). -/
namespace Sys2Proof.Machine

/-- An operand slot as R52 encodes it. -/
inductive Opnd where
  | ds (a : Nat)
  | win (line : Nat)
  | const (b : Bool)
  | carryIn
  | link
  | bad
  deriving DecidableEq, Repr

/-- Decode a 12-bit operand field (R52); `bad` is a form R73 makes a decode error. -/
def opnd (f : Nat) : Opnd :=
  if f < 0x800 then .ds f
  else
    let k := bits f 9 2
    let v := bits f 0 9
    if k = 0 then (if v < 64 then .win v else .bad)
    else if k = 1 then (if v = 0 then .const false else if v = 1 then .const true else if v = 2 then .carryIn else .bad)
    else if k = 2 then (if v = 0 then .link else .bad)
    else .bad

/-- The fields of an instruction word (R48). -/
def insClass (w : Nat) : Nat := bits w 60 4
def insFn (w : Nat) : Nat := bits w 52 8
def insOut (w : Nat) : Nat := bits w 2 2
def insFlg (w : Nat) : Nat := bits w 0 2
/-- Operand fields A to D. -/
def insOps (w : Nat) : List Nat := [bits w 40 12, bits w 28 12, bits w 16 12, bits w 4 12]

/-- The operand slots that a class reads (R56): none for NOP, MEMR and a reserved class, A for the inbound classes. -/
def slotsRead (c : Nat) : Nat :=
  if c = 0 || c = 7 || c = 15 then 0 else if c = 9 || c = 10 || c = 13 then 1 else 4

/-- The classes that evaluate a function (R60). -/
def evaluates (c : Nat) : Bool := (1 ≤ c && c ≤ 6) || c == 8 || c == 11 || c == 12 || c == 14

/-- What one BP did in a step. -/
structure BpOut where
  bp : Nat
  cls : Nat
  /-- errors in the order of R75: kind and address -/
  errs : List (Nat × Nat)
  result : Option Bool
  line : Bool
  carry : Option Bool
  cout : Bool
  assertion : Bool
  holdq : Bool
  evt : Bool
  beat : Option Beat
  deriving DecidableEq, Repr

/-- BP `bp` met no error. -/
def BpOut.good (o : BpOut) : Bool := o.errs.isEmpty

/-- The value of an operand of a BP of class `c`; `prev` is the lower neighbour, `fr` a free bit for a read that has no
value (the rod link above a failing BP, a carry-in or rod link that R54 and R55 do not give the class). An inbound class whose operand,
written through the die window, is no window line reads what the operand names: R60 gives x for a window line only (DESIGN CHOICE,
assumption 58). -/
def opndVal (s : State) (win : NSet) (bp c : Nat) (prev : Option BpOut) (fr : Bool) : Opnd → Bool
  | .ds a => NSet.has s.arr.ds (bp * 2048 + a)
  | .win l => NSet.has win (bp / 64 * 64 + l)
  | .const b => b
  | .carryIn =>
    if c = 3 || c = 4 then (match prev with | some o => o.cout | none => false)
    else if bp % 64 = 0 || c = 2 then fr
    else NSet.has s.arr.carry (bp - 1)
  | .link =>
    if c = 3 || c = 4 then (match prev with | some o => if o.good then o.result.getD fr else fr | none => fr) else fr
  | .bad => false

/-- The truth table applied to the operands (R58). -/
def table (f : Nat) (a b c d : Bool) : Bool := bit f (8 * b2n d + 4 * b2n c + 2 * b2n b + b2n a)

/-- The class of the instruction that BP `bp` executes at step `t`. -/
def State.classAt (s : State) (bp t : Nat) : Nat := insClass (SMap.get 0 s.arr.instr (bp * 2048 + t))

/-- Errors that a BP meets in a step (R72, R73, R75). -/
def bpErrors (s : State) (bp t w : Nat) (prev : Option BpOut) : List (Nat × Nat) :=
  let c := insClass w
  let ops := (insOps w).map opnd
  let low := match prev with | some o => o.cls == 2 || o.cls == 3 | none => false
  let up := bp % 64 ≠ 63 && (s.classAt (bp + 1) t = 3 || s.classAt (bp + 1) t = 4)
  let dec := c == 15 || ops.contains .bad || ((c == 3 || c == 4) && !low) || (c == 2 && !up)
  (if (List.range 8).any fun i => NSet.has s.arr.badInstr ((bp * 2048 + t) * 8 + i) then [(1, t)] else []) ++
  (if dec then [(4, t)] else []) ++
  ((ops.take (slotsRead c)).filterMap fun o =>
    match o with
    | .ds a => if NSet.has s.arr.badDs (bp * 256 + a / 8) then some (2, a) else none
    | _ => none) ++
  (if evaluates c && NSet.has s.arr.badDict (bp / 64 * 256 + insFn w) then [(3, insFn w)] else [])

/-- One BP at step `t` (R42, R60, R66 to R69, R72). A BP that fails makes no assertion, hold request or beat in the grain either (DESIGN CHOICE,
assumption 66: R72 names its writes alone). -/
def bpStep (s : State) (win : NSet) (t bp w : Nat) (prev : Option BpOut) : BpOut :=
  let c := insClass w
  let fr (j : Nat) : Bool := Config.freeBit (s.freeCtr + 4 * bp + j)
  let x := (insOps w).map fun f => opndVal s win bp c prev (fr 0) (opnd f)
  let a := x.getD 0 false
  let b := x.getD 1 false
  let cc := x.getD 2 false
  let d := x.getD 3 false
  let v := table (SMap.get 0 s.arr.dict (bp / 64 * 256 + insFn w)) a b cc d
  let flg := insFlg w
  let low := match prev with | some o => o.cout | none => false
  let cin := if c = 2 then
      (match flg with
       | 0 => false
       | 1 => true
       | 2 => if bp % 64 = 0 then fr 1 else NSet.has s.arr.carry (bp - 1)
       | _ => cc)
    else low
  let cout := if v then cin else d
  let sum := xor v cin
  let rod := c == 2 || c == 3 || c == 4
  let result : Option Bool :=
    match c with
    | 0 => none
    | 2 => some sum
    | 3 => some sum
    | 4 => some (match flg with | 0 => sum | 1 => cout | 2 => xor (xor sum cin) cout | _ => xor cin cout)
    | 7 => some (s.readBit t bp)
    | 9 => some a
    | 10 => some a
    | 13 => some a
    | 15 => none
    | _ => some v
  let errs := bpErrors s bp t w prev
  let old := NSet.has s.arr.line bp
  if errs.isEmpty then
    { bp := bp, cls := c, errs := [], result := result
      line := match insOut w with
        | 0 => false
        | 1 => t ≠ 0 && old
        | 2 => result.getD (fr 2)
        | _ => NSet.has s.arr.ds (bp * 2048 + t)
      carry := if rod then some cout else if c = 1 && flg / 2 = 1 then some v else none
      cout := cout
      assertion := c == 1 && flg % 2 == 1 && v
      holdq := c == 14 && v
      evt := flg % 2 == 1
      beat := if c = 5 || c = 6 then some ⟨bp, c, v, d⟩ else none }
  else ⟨bp, c, errs, none, old, none, false, false, false, false, none⟩

/-- The instructions of step `t`, in rising order of BP: every word that is not 0, and every entry that fails parity. -/
def State.words (s : State) (t : Nat) : List (Nat × Nat) :=
  let l := s.arr.instr.filterMap fun x => if x.1 % 2048 = t then some (x.1 / 2048, x.2) else none
  let z := (s.arr.badInstr.filterMap fun k =>
    if k / 8 % 2048 = t && SMap.get 0 s.arr.instr (k / 8) = 0 then some (k / 8 / 2048, 0) else none).eraseDups
  z.foldl (fun l x => insBy (·.1) x l) l

/-- Every BP of step `t`, from the lowest up; a rod's members see their lower neighbour's carry and result. -/
def evalFrom (s : State) (win : NSet) (t : Nat) : Option BpOut → List (Nat × Nat) → List BpOut
  | _, [] => []
  | prev, (bp, w) :: r =>
    let p := match prev with
      | some o => if o.bp + 1 = bp && bp % 64 ≠ 0 then some o else none
      | none => none
    let o := bpStep s win t bp w p
    o :: evalFrom s win t (some o) r

/-- The record of parity and decode errors of one BP (R75, R77, R78). -/
def recordErr (t : Nat) (o : BpOut) (s : State) : State :=
  match o.errs with
  | [] => s
  | (k, a) :: r =>
    s.first F.ARR_PERR_STAT_VALID F.ARR_PERR_STAT_MORE
      [(F.ARR_PERR_STAT_KIND, k), (F.ARR_PERR_STAT_BPID, o.bp), (F.ARR_PERR_LOC_ADDR, a), (F.ARR_PERR_LOC_STEP, t)] (!r.isEmpty)

/-- Assertions of a step (R74, R80). -/
def assertions (t : Nat) (l : List BpOut) (s : State) : State :=
  match l.filter (·.assertion) with
  | [] => s
  | l =>
    let s := l.foldl (fun s o =>
      (s.first F.ARR_ASRT_STAT_VALID F.ARR_ASRT_STAT_MORE
        [(F.ARR_ASRT_STAT_BPID, o.bp), (F.ARR_ASRT_STEP_STEP, t), (F.ARR_ASRT_CYCLO_CYC, s.cycleNow),
         (F.ARR_ASRT_CYCHI_CYC, s.cycleNow / 2 ^ 32)]).count F.ARR_ASRT_COUNT_COUNT) s
    let s := raiseIf (s.flag F.ARR_ASRT_CTL_EVEN) 65 s
    if s.flag F.ARR_ASRT_CTL_HOLD then s.setFld F.SFB_HOLD_STAT_DESIGN 1 else s

/-- HOLDQ requests of a step (R63, R85 to R87). -/
def holdRequests (t : Nat) (l : List BpOut) (s : State) : State :=
  match l.filter (·.holdq) with
  | [] => s
  | l =>
    let s := l.foldl (fun s o => s.first F.ARR_HOLDQ_STAT_VALID F.ARR_HOLDQ_STAT_MORE
      [(F.ARR_HOLDQ_STAT_BPID, o.bp), (F.ARR_HOLDQ_STEP_STEP, t)]) s
    raiseIf (l.any (·.evt)) 66 ((s.count F.ARR_HOLDQ_COUNT_COUNT).setFld F.SFB_HOLD_STAT_DESIGN 1)

/-- The results of a step written: DS, output lines, carries (R42, R50, R69). -/
def writeBps (t : Nat) (l : List BpOut) (s : State) : State :=
  let ds := l.foldl (fun m o => match o.result with | some b => NSet.put m (o.bp * 2048 + t) b | none => m) s.arr.ds
  let cy := l.foldl (fun m o => match o.carry with | some b => NSet.put m o.bp b | none => m) s.arr.carry
  { s with
    arr := { s.arr with ds := ds, carry := cy, line := (l.filter (·.line)).map (·.bp) }
    freeCtr := s.freeCtr + 2 ^ 20 }

/-! ### The fabric -/

/-- One delivery of an emit entry: the destination as R99 names it, and where and when the value arrives. -/
structure Delivery where
  die : Nat
  bushel : Nat
  form : Nat
  kind : Nat
  step : Nat
  dest : Dest
  deriving DecidableEq, Repr

/-- The die that the successor bridge of a die leads to, if it exists (R19, R91). -/
def succDie (dies n : Nat) : Option Nat := if dies = 3 then (if n < 2 then some (n + 1) else none) else some ((n + 1) % 6)

/-- The die that the predecessor bridge of a die leads to, if it exists (R19, R91). -/
def predDie (dies n : Nat) : Option Nat := if dies = 3 then (if 0 < n && n < 3 then some (n - 1) else none) else some ((n + 5) % 6)

/-- What a bushel emit entry delivers at step `t` (R89 to R94); what it names but does not exist gets nothing (R100). -/
def bushelEmit (dies die b t e : Nat) : List Delivery :=
  let x := b % 8
  let y := b / 8
  let line := bits e 33 6
  let win := if bit e 39 then ((List.range 16).filter fun k => bit e (17 + k)).map fun k =>
      (⟨die, b, k * 64 + line, 0, t + 1, .win die b k line⟩ : Delivery) else []
  let j := bits e 0 9
  let mesh (ok : Bool) (form into : Nat) (far : Nat) : List Delivery :=
    if ok && j < 256 then [⟨die, b, form * 4096 + j, 0, t + 1, .ingress die into (far * 4096 + j)⟩] else []
  let g := 512 * y + j
  let out := if bit e 16 then
      (match bits e 12 4 with
       | 0 => mesh (1 ≤ y) 1 (b - 8) 3
       | 1 => mesh (x ≤ 6) 2 (b + 1) 4
       | 2 => mesh (y ≤ 2) 3 (b + 8) 1
       | 3 => mesh (1 ≤ x) 4 (b - 1) 2
       | 4 => match predDie dies die with
         | some n => if x = 0 then [⟨die, b, 0x5000 + g, 0, t + 3, .ingress n (8 * y + 7) (0x6000 + g)⟩] else []
         | none => []
       | 5 => match succDie dies die with
         | some n => if x = 7 then [⟨die, b, 0x6000 + g, 0, t + 3, .ingress n (8 * y) (0x5000 + g)⟩] else []
         | none => []
       | 6 => if y = 3 && j < 256 then [⟨die, b, 0x7000 + 256 * x + j, 0, t + 3, .hubIn die (256 * x + j)⟩] else []
       | _ => []) else []
  win ++ out

/-- A value on the hub egress line `line` toward a die at step `t` (R92, R93). -/
def hubEgress (die line t : Nat) : Nat × Dest := (t + 3, .ingress die (24 + line / 256) (0x7000 + line))

/-- What a hub emit entry delivers at step `t` (R92, R93, R95). -/
def hubEmits (dies t e : Nat) : List Delivery :=
  if bit e 31 then
    let k := bits e 28 3
    let n := bits e 24 3
    let j := bits e 0 12
    if k = 0 then (if n < dies && j < 2048 then
      [⟨7, n, 0x7000 + j, 0, t + 3, (hubEgress n j t).2⟩] else [])
    else if k ≤ 3 then [⟨7, 31, 0x8000 + j, k, t + 1, .slot k j⟩]
    else []
  else []

/-- Whether a switch input carries 1 at step `t`: a peck output line of this step, or an ingress line that a value
reaches (R90). -/
def State.inputOn (s : State) (due : List Dest) (die b form : Nat) : Bool :=
  if form / 4096 = 9 then NSet.has s.arr.line ((die * 32 + b) * 1024 + form % 4096)
  else due.contains (.ingress die b form)

/-- The acting emit entries of step `t`: whether the source carries 1, with what the entry delivers. -/
def State.emissions (s : State) (due : List Dest) (t : Nat) : List (Bool × List Delivery) :=
  (s.arr.emit.filterMap fun x =>
    if x.1 % 2048 = t then
      let k := x.1 / 2048
      let b := k / 65536
      some (s.inputOn due (b / 32) (b % 32) (k % 65536), bushelEmit s.dies (b / 32) (b % 32) t x.2)
    else none) ++
  (s.arr.hubEmit.filterMap fun x =>
    if x.1 % 2048 = t then
      let k := x.1 / 2048
      some (due.contains (.hubIn (k / 2048) (k % 2048)), hubEmits s.dies t x.2)
    else none)

/-- Destinations that more than one emit reaches, each named once for each emit beyond the first (R100). -/
def contended : List Delivery → List Delivery
  | [] => []
  | d :: r => if r.any (fun x => x.die == d.die && x.bushel == d.bushel && x.form == d.form && x.kind == d.kind)
      then d :: contended r else contended r

/-- A route error: kind, die, bushel field and line of R99. -/
structure RouteErr where
  kind : Nat
  die : Nat
  bushel : Nat
  line : Nat
  deriving DecidableEq, Repr

/-- The order of route errors in a record (R100). -/
def RouteErr.rank (e : RouteErr) : Nat := (e.die * 32 + e.bushel) * 65536 + e.line

/-- The route errors of step `t` (R100). Of a parity error and a contention with the same die, bushel field and line the parity error comes
first (DESIGN CHOICE, assumption 58). -/
def State.routeErrors (s : State) (t : Nat) (l : List Delivery) : List RouteErr :=
  (s.arr.badEmit.filterMap fun k =>
    if k % 2048 = t then some ⟨1, k / 2048 / 65536 / 32, k / 2048 / 65536 % 32, k / 2048 % 65536⟩ else none) ++
  (s.arr.badHub.filterMap fun k =>
    if k % 2048 = t then some ⟨1, 7, k / 2048 / 2048, 0x7000 + k / 2048 % 2048⟩ else none) ++
  (contended l).map fun d => ⟨2, d.die, d.bushel, d.form⟩

/-- Handle the route errors of a step (R100). -/
def routeFail (t : Nat) (l : List RouteErr) (s : State) : State :=
  match sortBy RouteErr.rank l with
  | [] => s
  | e :: r =>
    let s := s.first F.SFB_RERR_STAT_VALID F.SFB_RERR_STAT_MORE
      [(F.SFB_RERR_STAT_KIND, e.kind), (F.SFB_RERR_STAT_DIE, e.die), (F.SFB_RERR_STAT_BUSHEL, e.bushel),
       (F.SFB_RERR_LOC_STEP, t), (F.SFB_RERR_LOC_LINE, e.line)] (!r.isEmpty)
    let s := if l.any (fun e => e.kind == 2) then s.setFld F.SFB_RERR_STAT_CONT 1 else s
    failGrain 2 (raise 69 s)

/-- The emits of step `t` (R93 to R96, R100); `due` are the values that arrive at this step. -/
def emitStep (t : Nat) (due : List Dest) (s : State) : State :=
  let l := s.emissions due t
  let on := (l.filter (·.1)).flatMap (·.2)
  let wires := (s.arr.wires.filter fun w => t < w.1) ++ on.map fun d => (d.step, d.dest)
  routeFail t (s.routeErrors t (l.flatMap (·.2))) { s with arr := { s.arr with wires := wires } }

/-- Window lines that carry 1 at step `t`, by BP number of the line (R53). -/
def windowSet (due : List Dest) : NSet :=
  due.foldl (fun m d => match d with
    | .win die b p l => NSet.ins m (((die * 32 + b) * 16 + p) * 64 + l)
    | _ => m) []

/-- Step `t` of the array: every BP, then every emit. However many BPs fail in the grain, EV64 is raised once, as R76 has it for EV65 (DESIGN
CHOICE, assumption 66). -/
def arrayStep (t : Nat) (s : State) : State :=
  let due := (s.arr.wires.filter fun w => w.1 = t).map (·.2)
  let l := evalFrom s (windowSet due) t none (s.words t)
  let s := writeBps t l s
  let bad := l.filter fun o => !o.good
  let s := bad.foldl (fun s o => recordErr t o s) s
  let s := if bad.isEmpty then s else failGrain 2 (raise 64 s)
  let s := holdRequests t l (assertions t l s)
  let s := endReads t (takeBeats t (l.filterMap (·.beat)) s)
  emitStep t due s

/-- Scruple grain 0: carries, output lines and every line in flight clear (R44, R97). -/
def scrupleClear (s : State) : State := { s with arr := { s.arr with carry := [], line := [], wires := [] } }

/-- The peck output line, the hub value or the reset delivery that a hub output slot places at step `t` (R92). -/
def placeHub (die line t : Nat) (b : Bool) (s : State) : State :=
  if b then { s with arr := { s.arr with wires := s.arr.wires ++ [hubEgress die line t] } } else s

/-- An upset (R8, R72, R100, R155): the stored data as it stands afterwards, and a parity that no longer fits it. -/
def upset (s : State) : Upset → State
  | .instr k v => { s with arr := { s.arr with
      instr := SMap.set 0 s.arr.instr (k / 8) (putBits (SMap.get 0 s.arr.instr (k / 8)) (8 * (k % 8)) 8 v)
      badInstr := NSet.ins s.arr.badInstr k } }
  | .ds k v => { s with arr := { s.arr with
      ds := (List.range 8).foldl (fun m i => NSet.put m (k * 8 + i) (bit v i)) s.arr.ds
      badDs := NSet.ins s.arr.badDs k } }
  | .dict k v => { s with arr := { s.arr with dict := SMap.set 0 s.arr.dict k v, badDict := NSet.ins s.arr.badDict k } }
  | .emit k v => { s with arr := { s.arr with emit := SMap.set 0 s.arr.emit k v, badEmit := NSet.ins s.arr.badEmit k } }
  | .hubEmit k v => { s with arr := { s.arr with hubEmit := SMap.set 0 s.arr.hubEmit k v, badHub := NSet.ins s.arr.badHub k } }
  | .bank a v => let s := keepWord (a / 4 * 4) s; { s with mem := Mem.write1 s.mem a (BitVec.ofNat 8 v), badMem := NSet.ins s.badMem a }
  | .ram a v => { s with mem := Mem.write1 s.mem a (BitVec.ofNat 8 v), badMem := NSet.ins s.badMem a }
  | .dcache n l =>
    let c := s.core n
    s.setCore n { c with dcache := c.dcache.map fun x => if x.addr = l then { x with bad := true } else x }
  | .icache n l =>
    let c := s.core n
    s.setCore n { c with icache := c.icache.map fun x => if x.addr = l then { x with bad := true } else x }
  | .oldRead c e => { s with dm := { s.dm with oldEcc := s.dm.oldEcc ++ [(c, e)] } }
  | .flit => { s with noc := { s.noc with flit := true } }
  | .answer => { s with noc := { s.noc with answer := true } }
  | .hbmRead a b => { s with noc := { s.noc with eccs := s.noc.eccs ++ [(a, b)] } }

end Sys2Proof.Machine
end

