-- ==== Sys2Proof/Machine/Image.lean ====
section
/-! DEFINITION. The Abuth image: its layout, and every check that the loader makes of it, by code, phase and order (R70, R71, R98,
R99, R133 to R160, R179 to R199, R251, R319, R462 to R474, R614 to R617). -/
namespace Sys2Proof.Machine

/-- A report of a code in a phase. -/
def rep (code phase : Nat) : Report := { code := code, phase := phase }

/-- The first of some reports. -/
def firstRep (l : List (Option Report)) : Option Report := l.findSome? id

/-- Bytes cut into pieces of `w`; the first argument bounds their number. -/
def pieces (w : Nat) : Nat → List Byte → List (List Byte)
  | 0, _ => []
  | n + 1, b => if b.isEmpty then [] else b.take w :: pieces w n (b.drop w)

/-- The records of `w` bytes of a section as numbers, a short final one left out. -/
def recs (w : Nat) (b : List Byte) : List Nat := (pieces w (b.length / w) b).map leNat

/-! ### Header and section table (R179 to R182) -/

/-- The header (R180). -/
def parseHeader (b : List Byte) : Header where
  grade := leAt b 6 2
  l := leAt b 8 2
  s := leAt b 10 2
  imgh := leAt b 12 2
  flags := leAt b 14 2
  topo := leAt b 16 1
  pos := leAt b 17 1
  dims := [leAt b 18 1, leAt b 19 1, leAt b 20 1]
  design := leAt b 24 8
  hash := slice b 32 32
  length := leAt b 64 8
  hbmMib := leAt b 72 4
  nsect := leAt b 76 2

/-- Entry `i` of the section table (R181). -/
def parseSect (b : List Byte) (i : Nat) : Sect :=
  let e := slice b (256 + 32 * i) 32
  ⟨leAt e 0 2, leAt e 2 1, leAt e 4 4, leAt e 8 8, leAt e 16 8⟩

/-- The section table. -/
def parseTable (b : List Byte) : List Sect := (List.range (parseHeader b).nsect).map (parseSect b)

/-- Every byte is 0. -/
def allZero (b : List Byte) : Bool := b.all (· == 0)

/-- The bytes of a section. -/
def Sect.bytes (x : Sect) (b : List Byte) : List Byte := slice b x.off x.len

/-- DIE as a report gives it: a module-wide section has none. -/
def Sect.dieRep (x : Sect) : Option Nat := if x.die < 6 || x.die = 7 then some x.die else none

/-- The length that R183 and R187 fix for a section type. -/
def fixedLen (l type : Nat) : Option Nat :=
  match type with
  | 1 => some (32768 * l * 8)
  | 2 => some 262144
  | 15 => some 3384
  | _ => none

/-- Section table faults (R179, R181, R182): the first entry at fault. An NSECT outside 1 to 1,024 is 0x0505 too (DESIGN CHOICE, assumption
49: no code is named for it). -/
def tableFault (dies : Nat) (b : List Byte) : Option Report :=
  let h := parseHeader b
  if h.nsect = 0 || 1024 < h.nsect || h.length < 256 + 32 * h.nsect then some (rep 0x0505 1)
  else
    let t := parseTable b
    (List.range h.nsect).findSome? fun i =>
      let x := parseSect b i
      let e := slice b (256 + 32 * i) 32
      let low := if i = 0 then 256 + 32 * h.nsect else (parseSect b (i - 1)).off + (parseSect b (i - 1)).len
      let dieOk := if 1 ≤ x.type && x.type ≤ 3 then x.die < dies else if x.type = 4 then x.die = 7 else x.die = 0xFF
      let bad := x.type = 0 || 15 < x.type || !dieOk || leAt e 3 1 ≠ 0 || !allZero (slice e 24 8) || x.off % 4096 ≠ 0 ||
        x.off < low || (0 < i && x.off ≤ (parseSect b (i - 1)).off) || h.length < x.off + x.len || (t.take i).any (fun y => y.type == x.type && y.die == x.die) ||
        (match fixedLen h.l x.type with | some n => x.len ≠ n | none => false)
      if bad then some { rep 0x0505 1 with index := some i, die := x.dieRep } else none

/-- What the module brings to the checks. -/
structure Site where
  grade : Grade
  /-- the plan of the league this module is formed in, in the layout of LGE_PLAN; none outside a formed league -/
  plan : Option Nat
  h : Nat
  /-- settings: signed images required, and the key slots -/
  signreq : Bool
  ikeys : List (List Byte)
  /-- a staging, which leaves the checks of the league and of H to LOAD_STAGED (R195) -/
  staging : Bool
  /-- a load from a VERIFIED slot, which makes those checks alone (R195) -/
  verified : Bool
  deriving DecidableEq, Repr

/-- TOPO, LGPOS and DIMS fit the league (R188). -/
def leagueFits (v : Site) (h : Header) : Bool :=
  match v.plan with
  | none => false
  | some p => h.topo == bits p 30 2 && h.pos == bits p 13 6 && h.dims == [bits p 24 6 + 1, bits p 21 3 + 1, bits p 19 2 + 1]

/-- The checks of phase 1 that depend on the league: IMG_LEAGUE and HORIZON_SHORT (R191, R195). -/
def leagueFault (v : Site) (h : Header) : Option Report :=
  if v.staging then none
  else if !leagueFits v h then some (rep 0x0504 1)
  else if h.imgh < v.h then some (rep 0x0306 1)
  else none

/-- Phase 1 but for the creation of the HBM design-memory region (R191, R192); `n` is the length the request gave. -/
def phase1 (v : Site) (n : Nat) (b : List Byte) : Option Report :=
  let h := parseHeader b
  if v.verified then leagueFault v h
  else if leAt b 0 4 ≠ 0x48544241 || leAt b 4 2 ≠ 1 || 3 < h.flags || !allZero (slice b 21 3) || !allZero (slice b 78 174) ||
      decide (h.hbmMib = 0) == bit h.flags 1 || h.length ≠ n then some (rep 0x0501 1)
  else if crc32 (b.take 252) ≠ leAt b 252 4 then some (rep 0x0502 1)
  else if h.grade ≠ v.grade.code then some (rep 0x0503 1)
  else if h.l < 64 || 2048 < h.l || h.s < 16 || 256 < h.s then some (rep 0x0305 1)
  else match leagueFault v h with
    | some r => some r
    | none => tableFault v.grade.dies b

/-! ### Instruction stores (R70, R71) -/

/-- The entries of an INSTR section that are not 0, by BP × 2048 + entry (R183). -/
def instrMap (die l : Nat) (b : List Byte) : SMap Nat :=
  (recs 8 b).zipIdx.filterMap fun x => if x.1 = 0 then none else some ((die * 32768 + x.2 / l) * 2048 + x.2 % l, x.1)

/-- The kind of a 12-bit operand (R52): 0 DS, 1 window, 2 constant, 3 carry-in, 4 rod link, 5 badly formed, 6 reserved. -/
def opndKind (f : Nat) : Nat :=
  if f < 2048 then 0
  else
    let n := f % 512
    match bits f 9 2 with
    | 0 => if n < 64 then 1 else 5
    | 1 => if n ≤ 1 then 2 else if n = 2 then 3 else 5
    | 2 => if n = 0 then 4 else 5
    | _ => 6

/-- Whether R56 permits an operand kind in slot `i` of a class at a BP of the peck; none where the slot must be 0. -/
def permits (cls bp i kind : Nat) : Option Bool :=
  if cls = 0 || cls = 7 then none
  else if cls = 9 || cls = 10 || cls = 13 then (if i = 0 then some (kind == 1) else none)
  else if cls = 2 then some (kind ≤ 2)
  else if cls = 3 || cls = 4 then some (kind ≤ 4 && !(kind == 3 && bp == 0))
  else some (kind ≤ 3 && !(kind == 3 && bp == 0))

/-- FLG permitted for a class (R51). -/
def flgOk (cls flg : Nat) : Bool :=
  if cls = 1 || cls = 2 || cls = 4 then true
  else if cls = 5 || cls = 6 || cls = 7 || cls = 14 then flg ≤ 1
  else flg == 0

/-- OUT permitted for a class (R60). -/
def outOk (cls out : Nat) : Bool :=
  if cls = 0 then out ≤ 1 else if cls = 8 || cls = 11 || cls = 12 then out == 2 else true

/-- Faults of one instruction: code, and the operand slot plus one, 0 for none (R70, R71). -/
def insFaults (bp l w : Nat) : List (Nat × Nat) :=
  let c := insClass w
  if c = 15 then [(0x0201, 0)]
  else
    (if (c = 0 || c = 7 || c = 9 || c = 10 || c = 13) && insFn w ≠ 0 then [(0x0206, 0)] else []) ++
    ((insOps w).zipIdx.flatMap fun x =>
      let k := opndKind x.1
      if k = 6 then [(0x0202, x.2 + 1)]
      else if k = 5 then [(0x0203, x.2 + 1)]
      else
        (if k = 0 && l ≤ x.1 then [(0x0204, x.2 + 1)] else []) ++
        (match permits c bp x.2 k with
         | none => if x.1 = 0 then [] else [(0x0206, x.2 + 1)]
         | some true => []
         | some false => [(0x0205, x.2 + 1)])) ++
    (if outOk c (insOut w) then [] else [(0x0207, 0)]) ++
    (if flgOk c (insFlg w) then [] else [(0x0208, 0)]) ++
    (if c = 2 && bp = 0 && insFlg w = 2 then [(0x020A, 0)] else [])

/-- The class at a key of the stores, 0 beyond the peck's ends; `d` steps up or down in the peck. -/
def clsNear (m : SMap Nat) (k : Nat) (d : Int) : Nat :=
  let bp : Int := (k / 2048 % 64 : Nat)
  if bp + d < 0 || 63 < bp + d then 0 else insClass (SMap.get 0 m ((k : Int) + d * 2048).toNat)

/-- HEAD of a memory beat at a key some BPs away. -/
def headNear (m : SMap Nat) (k : Nat) (d : Int) : Bool := insFlg (SMap.get 0 m ((k : Int) + d * 2048).toNat) % 2 == 1

/-- A rod fault at a key (R65, R71). -/
def rodFault (m : SMap Nat) (k w : Nat) : Bool :=
  let c := insClass w
  let lo := clsNear m k (-1)
  let up := clsNear m k 1
  let loOk := lo == 2 || lo == 3
  let upOk := up == 3 || up == 4
  (c == 2 && !upOk) || (c == 3 && !(loOk && upOk)) || (c == 4 && !loOk) ||
    ((c == 3 || c == 4) && 32 ≤ k / 2048 % 64 && clsNear m k (-32) == 2 &&
      (List.range 31).all fun i => clsNear m k (-(i + 1 : Nat)) == 3)

/-- A port rod fault at a key (R64, R71). -/
def portFault (m : SMap Nat) (k w : Nat) : Bool :=
  let c := insClass w
  let head := insFlg w % 2 == 1
  (5 ≤ c && c ≤ 7) &&
    ((!head && clsNear m k (-1) != c) ||
     (head && !(clsNear m k 1 == c && !headNear m k 1)) ||
     (!head && 32 ≤ k / 2048 % 64 && clsNear m k (-32) == c && headNear m k (-32) &&
      (List.range 31).all fun i => clsNear m k (-(i + 1 : Nat)) == c && !headNear m k (-(i + 1 : Nat))))

/-- The checks 0x0201 to 0x020B of one die's stores, code by code, each in the order of R71. -/
def instrFault (l : Nat) (m : SMap Nat) : Option Report :=
  let single := m.flatMap fun x => (insFaults (x.1 / 2048 % 64) l x.2).map fun f => (f.1, x.1, f.2)
  let all := single ++ (m.filter fun x => rodFault m x.1 x.2).map (fun x => (0x0209, x.1, 0)) ++
    (m.filter fun x => portFault m x.1 x.2).map (fun x => (0x020B, x.1, 0))
  (List.range 11).findSome? fun i =>
    let code := 0x0201 + i
    ((all.filter fun f => f.1 == code).head?).map fun f =>
      let bp := f.2.1 / 2048
      { rep code 2 with die := some (bp / 32768), who := some bp, step := some (f.2.1 % 2048),
                        where_ := if f.2.2 = 0 then none else some (f.2.2 - 1) }

/-! ### Emit tables (R98, R99, R184) -/

/-- An EMIT or HUBEMIT record: die, bushel, input or line, step, entry, and whether its reserved fields are 0. -/
structure EmitRec where
  die : Nat
  bushel : Nat
  input : Nat
  step : Nat
  entry : Nat
  clean : Bool
  deriving DecidableEq, Repr

/-- An EMIT record. -/
def emitRec (die n : Nat) : EmitRec :=
  ⟨die, bits n 16 8, bits n 0 16, bits n 32 16, bits n 64 40, bits n 24 8 == 0 && bits n 48 16 == 0 && bits n 104 24 == 0⟩

/-- A HUBEMIT record; the bushel is the ingress die. -/
def hubRec (n : Nat) : EmitRec := ⟨7, bits n 11 3, bits n 0 14, bits n 16 11, bits n 32 32, bits n 14 2 == 0 && bits n 27 5 == 0⟩

/-- The order of records (R184). -/
def EmitRec.key (r : EmitRec) : Nat := (r.bushel * 65536 + r.step) * 65536 + r.input

/-- The order of hub records. -/
def EmitRec.hubKey (r : EmitRec) : Nat := r.step * 65536 + r.input

/-- Whether a bushel has a port, as R89 to R91 give it. -/
def portHas (dies die b port : Nat) : Bool :=
  let x := b % 8
  let y := b / 8
  match port with
  | 0 => 1 ≤ y
  | 1 => x ≤ 6
  | 2 => y ≤ 2
  | 3 => 1 ≤ x
  | 4 => x == 0 && (predDie dies die).isSome
  | 5 => x == 7 && (succDie dies die).isSome
  | 6 => y == 3
  | _ => false

/-- The port of a switch input and its local line: port 7 is a peck output line (R184). -/
def inputPort (n : Nat) : Option (Nat × Nat) :=
  if n < 1024 then some (7, n)
  else if n < 2048 then some ((n - 1024) / 256, n % 256)
  else if n < 2560 then some (4, n - 2048)
  else if n < 3072 then some (5, n - 2560)
  else if n < 3328 then some (6, n - 3072)
  else none

/-- A line of a port in the form of R99. -/
def lineForm (b port line : Nat) : Nat :=
  let y := b / 8
  match port with
  | 4 => 0x5000 + 512 * y + line
  | 5 => 0x6000 + 512 * y + line
  | 6 => 0x7000 + 256 * (b % 8) + line
  | 7 => 0x9000 + line
  | p => 0x1000 * (p + 1) + line

/-- The fault of a bushel emit record under one of the codes 0x0302 to 0x0304 (R98). -/
def emitBad (dies l code : Nat) (r : EmitRec) : Bool :=
  let e := r.entry
  let wen := bit e 39
  let xen := bit e 16
  let port := bits e 12 4
  let line := bits e 0 9
  if code = 0x0302 then
    31 < r.bushel ||
      (match inputPort r.input with | some (p, _) => p ≠ 7 && !portHas dies r.die r.bushel p | none => true) ||
      6 < port || (xen && !portHas dies r.die r.bushel port)
  else if code = 0x0303 then
    (!wen && bits e 17 22 ≠ 0) || (!xen && (port ≠ 0 || line ≠ 0)) || bits e 9 3 ≠ 0 ||
      (xen && (if port = 4 || port = 5 then 511 else 255) < line)
  else l ≤ r.step || (wen && l ≤ r.step + 1) || (xen && l ≤ r.step + (if 4 ≤ port then 3 else 1))

/-- The fault of a hub emit record (R95, R98). -/
def hubBad (dies l code : Nat) (r : EmitRec) : Bool :=
  let e := r.entry
  let en := bit e 31
  let kind := bits e 28 3
  if code = 0x0302 then
    dies ≤ r.input / 2048 || (en && (3 < kind || (kind = 0 && dies ≤ bits e 24 3)))
  else if code = 0x0303 then (!en && e ≠ 0) || (en && kind = 0 && 2047 < bits e 0 12)
  else l ≤ r.step || (en && l ≤ r.step + (if kind = 0 then 3 else 1))

/-- The first record that is out of form, out of order, or repeated. -/
def orderFault (key : EmitRec → Nat) : Nat → Option Nat → List EmitRec → Option Nat
  | _, _, [] => none
  | i, prev, r :: rest =>
    if !r.clean || (match prev with | some p => key r ≤ p | none => false) then some i
    else orderFault key (i + 1) (some (key r)) rest

/-- Record form of a section under 0x0508: a short final record, then the first record at fault. -/
def recordRep (x : Sect) (i : Nat) (r : Option Nat) : Option Report :=
  r.map fun n => { rep 0x0508 2 with die := x.dieRep, index := some i, record := some n }

/-- The checks of an EMIT or HUBEMIT section. A report under 0x0302 on an input that lies in no input group gives no WHERE, and one whose
BUSHEL is above 31 gives the line form of that number: R99 has no form for either (DESIGN CHOICE, assumption 58). -/
def emitFault (dies l : Nat) (x : Sect) (i : Nat) (b : List Byte) : Option Report :=
  let hub := x.type == 4
  let w := if hub then 8 else 16
  let rs := (recs w b).map fun n => if hub then hubRec n else emitRec x.die n
  if b.length % w ≠ 0 then recordRep x i (some (b.length / w))
  else firstRep
    (recordRep x i (orderFault (if hub then EmitRec.hubKey else EmitRec.key) 0 none rs) ::
      [0x0302, 0x0303, 0x0304].map fun code =>
        (rs.zipIdx.find? fun r => if hub then hubBad dies l code r.1 else emitBad dies l code r.1).map fun r =>
          { rep code 2 with die := some r.1.die, who := some r.1.bushel, step := some r.1.step, record := some r.2,
                            where_ := if hub then some (0x7000 + r.1.input % 2048)
                              else (inputPort r.1.input).map fun p => lineForm r.1.bushel p.1 p.2 })

/-! ### Design memory (R133 to R160) -/

/-- A memory descriptor read from its 48 bytes, with whether its zero fields are 0. -/
def memDesc (n : Nat) : MemDesc × Bool :=
  let count := bits n 8 4
  let port (k : Nat) : Nat := bits n (128 + 64 * k) 64
  let ports := (List.range (Nat.min count 4)).map fun k =>
    (⟨bits (port k) 62 2, bits (port k) 56 6, bits (port k) 44 12, bits (port k) 32 12, bits (port k) 0 18⟩ : MemPort)
  (⟨bits n 20 12, bits n 16 4, bits n 14 2, bits n 0 6, bits n 32 32, bits n 64 32, ports⟩,
    bits n 12 2 == 0 && bits n 6 2 == 0 && bits n 96 32 == 0 && 1 ≤ count && count ≤ 4 &&
      (List.range 4).all fun k => if k < count then bits (port k) 18 14 == 0 else port k == 0)

/-- The bits needed to express a number. -/
def bitLen (n : Nat) : Nat := if n = 0 then 0 else Nat.log2 n + 1

/-- A descriptor breaks R133 or R134 (0x0401). -/
def memFormBad (x : MemDesc × Bool) : Bool :=
  let d := x.1
  let need := Nat.max d.width (bitLen d.depthM1)
  !x.2 || !(d.home ≤ 5 || (8 ≤ d.home && d.home ≤ 11)) || d.width = 0 || 32 < d.width ||
    d.ports.any fun p => p.mode = 0 || p.len < 2 || 32 < p.len || p.len < need || (p.mode = 2 && p.dstep ≠ 0)

/-- A memory lies outside its storage or over another (0x0403). -/
def memRangeBad (g : Grade) (part : Nat) (all : List MemDesc) (d : MemDesc) : Bool :=
  let top := d.base + d.depthM1
  if d.home < 8 then
    g.dies ≤ d.home || 12582911 < top ||
      1 < (all.filter fun o => o.home == d.home && o.base ≤ top && d.base ≤ o.base + o.depthM1).length
  else
    let k := d.home - 8
    g.stacks ≤ k || d.base * 64 < k * part || (k + 1) * part < d.base * 64 + 4 * (d.depthM1 + 1)

/-- A memory fault: INDEX, step, second step, BP, WHERE, and record. -/
structure MemFault where
  index : Option Nat
  step : Option Nat := none
  step2 : Option Nat := none
  who : Option Nat := none
  where_ : Option Nat := none
  record : Option Nat := none
  die : Option Nat := none
  deriving DecidableEq, Repr

/-- The order of R160: lowest INDEX, then lowest step; a beat bound to no port comes last. -/
def MemFault.rank (f : MemFault) : Nat := (f.index.getD 65535 * 65536 + f.step.getD 0) * 2 ^ 18 + f.who.getD 0

/-- The report of the first of some memory faults: the die is the one the fault names, else the one of its BP. -/
def memRep (code phase : Nat) (l : List MemFault) : Option Report :=
  (sortBy MemFault.rank l).head?.map fun f =>
    { rep code phase with die := if f.die.isSome then f.die else f.who.map (· / 32768), who := f.who, step := f.step, step2 := f.step2, where_ := f.where_
                          index := f.index, record := f.record }

/-- The MEMDESC checks of phase 2: 0x0401 to 0x0403. -/
def memdescFault (g : Grade) (hbmMib : Nat) (x : Sect) (i : Nat) (b : List Byte) : Option Report :=
  if b.length % 48 ≠ 0 then recordRep x i (some (b.length / 48))
  else
    let ds := (recs 48 b).map memDesc
    let all := ds.map (·.1)
    let part := hbmMib * 0x100000 / g.stacks
    firstRep
      [memRep 0x0401 2 ((ds.zipIdx.filter fun d => memFormBad d.1).map fun d => { index := some d.1.1.index, record := some d.2 }),
       memRep 0x0402 2 ((all.zipIdx.filter fun d => (all.take d.2).any fun o => o.index == d.1.index).map fun d =>
         { index := some d.1.index, record := some d.2 }),
       memRep 0x0403 2 ((all.zipIdx.filter fun d => memRangeBad g part all d.1).map fun d =>
         { index := some d.1.index, record := some d.2 })]

/-- MEMINIT records (R185): INDEX, whether [19:0] of word 0 is 0, FIRST, COUNT and the words; none for a short one. The first
argument bounds their number. -/
def initRecs : Nat → List Byte → List (Option (Nat × Bool × Nat × Nat × List Nat))
  | 0, _ => []
  | n + 1, b =>
    if b.isEmpty then []
    else
      let c := leAt b 8 4
      if b.length < 12 + 4 * c then [none]
      else some (bits (leAt b 0 4) 20 12, bits (leAt b 0 4) 0 20 == 0, leAt b 4 4, c, recs 4 (slice b 12 (4 * c))) ::
        initRecs n (b.drop (12 + 4 * c))

/-- The form of MEMINIT: a short final record, then the first with a nonzero reserved field, which is 0x0508 in phase 2 and not 0x0512 (DESIGN
CHOICE, assumption 49). -/
def meminitForm (x : Sect) (i : Nat) (b : List Byte) : Option Report :=
  let l := initRecs (b.length + 1) b
  firstRep
    [recordRep x i (l.findIdx? (·.isNone)),
     recordRep x i (l.findIdx? fun r => match r with | some r => !r.2.1 | none => false)]

/-! ### Channels, flags and slot maps (R318, R319, R456, R462 to R474, R615, R617) -/

/-- A channel descriptor's fields. -/
structure ChanRec where
  index : Nat
  dir : Nat
  fr : Nat
  stamp : Nat
  recbits : Nat
  depth : Nat
  fkmax : Nat
  slot0 : Nat
  due : Nat
  clean : Bool
  deriving DecidableEq, Repr

/-- A channel descriptor (R462). -/
def chanRec (n : Nat) : ChanRec :=
  ⟨bits n 22 10, bits n 21 1, bits n 20 1, bits n 19 1, bits n 0 10 + 1, bits n 32 18 + 1, bits n 80 16, bits n 64 12, bits n 112 11,
    bits n 10 9 == 0 && bits n 50 14 == 0 && bits n 76 4 == 0 && bits n 123 5 == 0 && bits n 96 16 == 0⟩

/-- ESZ (R459). -/
def ChanRec.esz (c : ChanRec) : Nat := (c.recbits + 63) / 64 + c.stamp

/-- The place a queue takes in channel RAM (R199, R462). -/
def ChanRec.room (c : ChanRec) : Nat := (c.depth * c.esz * 8 + 63) / 64 * 64

/-- An output-slot record of a channel (R464), with whether its zero fields are 0. -/
def outRec (n : Nat) : OutSlot × Bool :=
  (⟨bits n 38 10, bits n 28 10, bits n 16 11, bits n 0 14⟩, bits n 48 16 == 0 && bits n 27 1 == 0 && bits n 14 2 == 0)

/-- The order of output-slot records. -/
def OutSlot.key (o : OutSlot) : Nat := ((o.chan * 1024 + o.bit) * 2048 + o.step) * 16384 + o.line

/-- The descriptors of a CHANNEL section. -/
def chanDescs (b : List Byte) : List ChanRec := (recs 16 (slice b 16 (16 * leAt b 0 4))).map chanRec

/-- The output-slot records of a CHANNEL section. -/
def chanOuts (b : List Byte) : List (OutSlot × Bool) := (recs 8 (slice b (16 + 16 * leAt b 0 4) (8 * leAt b 4 4))).map outRec

/-- An index at which a list is not strictly rising, or whose element does not pass. -/
def risingFault (key : Nat → Nat) (good : Nat → Bool) (n : Nat) : Option Nat :=
  (List.range n).find? fun i => !good i || (0 < i && key i ≤ key (i - 1))

/-- A hub egress line as a report gives it: the target die and the line in the form of R99. -/
def lineRep (r : Report) (line : Nat) : Report := { r with die := some (line / 2048), where_ := some (0x7000 + line % 2048) }

/-- The CHANNEL checks of phase 2 but for the firkin pool: length, record form, order and repeats, then content. -/
def channelFault (dies l : Nat) (x : Sect) (i : Nat) (b : List Byte) : Option Report :=
  let nch := leAt b 0 4
  let nout := leAt b 4 4
  if b.length < 16 || b.length ≠ 16 + 16 * nch + 8 * nout || !allZero (slice b 8 8) then some (rep 0x0B01 2)
  else
    let ds := chanDescs b
    let os := chanOuts b
    let d (k : Nat) : ChanRec := ds.getD k (chanRec 0)
    let o (k : Nat) : OutSlot × Bool := os.getD k (outRec 0)
    let outRep (code k : Nat) : Report :=
      lineRep { rep code 2 with index := some (o k).1.chan, step := some (o k).1.step, record := some (nch + k) } (o k).1.line
    firstRep
      [(risingFault (fun k => (d k).index) (fun k => (d k).clean) nch).map fun k =>
         if !(d k).clean then { rep 0x0B01 2 with index := some (d k).index, record := some k }
         else if (d k).index = (d (k - 1)).index then { rep 0x050C 2 with index := some (d k).index, record := some k }
         else { rep 0x0508 2 with index := some i, record := some k, die := x.dieRep },
       (risingFault (fun k => (o k).1.key) (fun k => (o k).2) nout).map fun k =>
         if !(o k).2 then outRep 0x0B01 k else { rep 0x0508 2 with index := some i, record := some (nch + k), die := x.dieRep },
       (ds.zipIdx.find? fun c => (c.1.dir = 1 && (c.1.stamp ≠ 0 || c.1.slot0 ≠ 0)) ||
           ((c.1.dir = 1 || c.1.fr = 1) && c.1.fkmax ≠ 0) || (c.1.dir = 0 && 4096 < c.1.slot0 + c.1.recbits) || l ≤ c.1.due).map fun c =>
         { rep 0x0B01 2 with index := some c.1.index, record := some c.2 },
       (os.zipIdx.find? fun y =>
           (match ds.find? fun c => c.index == y.1.1.chan with
            | none => true
            | some c => c.dir = 0 || c.recbits ≤ y.1.1.bit) || l ≤ y.1.1.step + 4 || dies ≤ y.1.1.line / 2048).map fun y =>
         outRep 0x0B01 y.2]

/-- A FLAGALLOC record: FLAG, SRC, CHANNEL, and whether its zero fields are 0 (R456). -/
def flagRec (n : Nat) : (Nat × Nat × Nat) × Bool := ((bits n 16 12, bits n 14 2, bits n 0 10), bits n 28 36 == 0 && bits n 10 4 == 0)

/-- The FLAGALLOC checks of phase 2. -/
def flagFault (x : Sect) (i : Nat) (b : List Byte) : Option Report :=
  if b.length % 8 ≠ 0 then recordRep x i (some (b.length / 8))
  else
    let fs := (recs 8 b).map flagRec
    let f (k : Nat) : (Nat × Nat × Nat) × Bool := fs.getD k (flagRec 0)
    (risingFault (fun k => (f k).1.1) (fun k => (f k).2) fs.length).map fun k =>
      if (f k).2 && (f k).1.1 = (f (k - 1)).1.1 then { rep 0x050D 2 with index := some (f k).1.1, record := some k }
      else { rep 0x0508 2 with index := some i, record := some k, die := x.dieRep }

/-- A FIELDMAP record with whether its zero fields are 0 (R615). -/
def fieldRec (n : Nat) : FieldSlot × Bool :=
  (⟨bits n 32 9, bits n 16 11, bits n 0 14⟩, bits n 41 23 == 0 && bits n 27 5 == 0 && bits n 14 2 == 0)

/-- A LANEMAP record with whether its zero fields are 0 (R318). -/
def laneRec (n : Nat) : LaneSlot × Bool :=
  (⟨bits n 28 3, bits n 31 1, bits n 32 17, bits n 16 11, bits n 0 14⟩, bits n 49 15 == 0 && bits n 27 1 == 0 && bits n 14 2 == 0)

/-- The FIELDMAP checks of phase 2 (0x0E01). -/
def fieldmapFault (dies l : Nat) (x : Sect) (i : Nat) (b : List Byte) : Option Report :=
  let n := leAt b 0 4
  if b.length < 16 || b.length ≠ 16 + 8 * n || !allZero (slice b 4 12) then some (rep 0x0E01 2)
  else
    let fs := (recs 8 (b.drop 16)).map fieldRec
    let f (k : Nat) : FieldSlot × Bool := fs.getD k (fieldRec 0)
    let bad (k : Nat) : Report := lineRep { rep 0x0E01 2 with step := some (f k).1.step, record := some k } (f k).1.line
    firstRep
      [(risingFault (fun k => ((f k).1.cell * 2048 + (f k).1.step) * 16384 + (f k).1.line) (fun k => (f k).2) fs.length).map fun k =>
         if !(f k).2 then bad k else { rep 0x0508 2 with index := some i, record := some k, die := x.dieRep },
       ((List.range fs.length).find? fun k => l ≤ (f k).1.step + 4 || dies ≤ (f k).1.line / 2048).map bad]

/-- The LANEMAP checks of phase 2 (0x0801). -/
def lanemapFault (dies l : Nat) (x : Sect) (i : Nat) (b : List Byte) : Option Report :=
  if b.length % 8 ≠ 0 then recordRep x i (some (b.length / 8))
  else
    let fs := (recs 8 b).map laneRec
    let f (k : Nat) : LaneSlot × Bool := fs.getD k (laneRec 0)
    let bad (k : Nat) : Report := lineRep { rep 0x0801 2 with step := some (f k).1.step, record := some k } (f k).1.line
    let key (y : LaneSlot) : Nat := (((y.port * 2 + y.group) * 131072 + y.k) * 2048 + y.step) * 16384 + y.line
    firstRep
      [(risingFault (fun k => key (f k).1) (fun k => (f k).2) fs.length).map fun k =>
         if !(f k).2 then bad k else { rep 0x0508 2 with index := some i, record := some k, die := x.dieRep },
       ((List.range fs.length).find? fun k => 5 < (f k).1.port || l - 5 < (f k).1.step || dies ≤ (f k).1.line / 2048).map bad]

/-- A PROBE record: the probe if USED, and whether its form is right (R249). -/
def probeRec (dies n : Nat) : Option Probe × Bool :=
  if bit n 63 then (some ⟨bits n 29 11, bits n 18 11, bits n 0 18⟩, bits n 40 23 == 0 && bits n 15 3 < dies) else (none, n == 0)

/-- The PROBE checks of phase 2 (0x0701 to 0x0703). -/
def probeFault (dies l : Nat) (b : List Byte) : Option Report :=
  let ps := ((recs 8 b).map (probeRec dies)).zipIdx
  let live := ps.filterMap fun p => p.1.1.map fun q => (p.2, q)
  let bad (code n : Nat) (q : Probe) : Report :=
    { rep code 2 with die := some (q.bp / 32768), who := some q.bp, step := some q.step, record := some n }
  if b.length % 8 ≠ 0 || 0x100000 < b.length then some (rep 0x0701 2)
  else firstRep
    [(ps.find? fun p => !p.1.2).map fun p => { rep 0x0701 2 with who := p.1.1.map (·.bp), record := some p.2 },
     (live.find? fun p => l ≤ p.2.step || l ≤ p.2.step + p.2.offset).map fun p => bad 0x0702 p.1 p.2,
     (live.zipIdx.find? fun p => (live.take p.2).any fun o =>
        o.2.bp / 64 == p.1.2.bp / 64 && o.2.step + o.2.offset == p.1.2.step + p.1.2.offset).map fun p => bad 0x0703 p.1.1 p.1.2]

/-- A RELEASE record with whether its zero fields are 0 (R186). -/
def releaseRec (n : Nat) : Release × Bool :=
  (⟨bit n 27, bits n 16 11, bits n 0 14⟩, bits n 28 36 == 0 && bits n 14 2 == 0)

/-- The zero fields of a RELOC or PATCH record (R197, R198). -/
def fixClean (type n : Nat) : Bool :=
  if type = 13 then bits n 27 5 == 0 && bits n 22 2 == 0 else bits n 20 12 == 0

/-- The record form of a RELEASE, RELOC or PATCH section. A nonzero reserved field of a RELOC or PATCH record is 0x0508 in phase 2 and not 0x050F
(DESIGN CHOICE, assumption 49). -/
def plainFault (x : Sect) (i : Nat) (b : List Byte) : Option Report :=
  if b.length % 8 ≠ 0 then recordRep x i (some (b.length / 8))
  else recordRep x i ((recs 8 b).findIdx? fun n => if x.type = 12 then !(releaseRec n).2 else !fixClean x.type n)

/-- Phase 2 of section `i`: no stray bytes before it (R179), its CRC, then the checks of its type (R191). A stray byte is 0x0505 in phase 2,
found before the section's CRC; those after the last section once every section has passed (DESIGN CHOICE, assumption 49). -/
def phase2 (v : Site) (b : List Byte) (i : Nat) : Option Report :=
  let h := parseHeader b
  let x := parseSect b i
  let d := x.bytes b
  let dies := v.grade.dies
  let low := if i = 0 then 256 + 32 * h.nsect else (parseSect b (i - 1)).off + (parseSect b (i - 1)).len
  if v.verified then none
  else if !allZero (slice b low (x.off - low)) then some { rep 0x0505 2 with index := some i, die := x.dieRep }
  else if crc32 d ≠ x.crc then some { rep 0x0507 2 with index := some i, die := x.dieRep }
  else match x.type with
    | 1 => instrFault h.l (instrMap x.die h.l d)
    | 3 => emitFault dies h.l x i d
    | 4 => emitFault dies h.l x i d
    | 5 => memdescFault v.grade h.hbmMib x i d
    | 6 => meminitForm x i d
    | 7 => channelFault dies h.l x i d
    | 8 => flagFault x i d
    | 9 => fieldmapFault dies h.l x i d
    | 10 => lanemapFault dies h.l x i d
    | 11 => probeFault dies h.l d
    | 12 => plainFault x i d
    | 13 => plainFault x i d
    | 14 => plainFault x i d
    | _ => none

end Sys2Proof.Machine
end

