-- ==== Sys2Proof/Machine/CrossChecks.lean ====
section
/-! DEFINITION. The checks of a whole image after its last section (phase 3 of R191), and the relocation and patch records
(R197, R198). -/
namespace Sys2Proof.Machine

/-- The content of an image that the checks of phase 3 compare. -/
structure Parsed where
  grade : Grade
  h : Header
  table : List Sect
  instr : SMap Nat
  emit : SMap Nat
  /-- HUBEMIT records in file order -/
  hubs : List EmitRec
  hub : SMap Nat
  mems : List MemDesc
  inits : List (Nat × Nat × List Nat)
  chans : List ChanRec
  outs : List OutSlot
  flags : List (Nat × Nat × Nat)
  fields : List FieldSlot
  lanes : List LaneSlot
  probes : List (Nat × Probe)
  releases : List Release
  relocs : List Nat
  patches : List Nat
  deriving DecidableEq, Repr

/-- The bytes of the one module-wide section of a type, none for an absent one. -/
def sectOf (t : List Sect) (b : List Byte) (type : Nat) : List Byte :=
  match t.find? fun x => x.type == type with
  | some x => x.bytes b
  | none => []

/-- The sections of a type, with their bytes. -/
def sectsOf (t : List Sect) (b : List Byte) (type : Nat) : List (Sect × List Byte) :=
  (t.filter fun x => x.type == type).map fun x => (x, x.bytes b)

/-- The key of an emit record in the tables of a die, with peck output lines as form 0x9. -/
def EmitRec.at_ (r : EmitRec) : Nat :=
  let form := match inputPort r.input with
    | some (p, line) => lineForm r.bushel p line
    | none => 0
  ((r.die * 32 + r.bushel) * 65536 + form) * 2048 + r.step

/-- A map from pairs. -/
def mapOf (l : List (Nat × Nat)) : SMap Nat := l.foldr (fun x m => SMap.set 0 m x.1 x.2) []

/-- Read an image. -/
def parse (g : Grade) (b : List Byte) : Parsed :=
  let h := parseHeader b
  let t := parseTable b
  let hubs := (recs 8 (sectOf t b 4)).map hubRec
  let chan := sectOf t b 7
  { grade := g, h := h, table := t
    instr := ((sectsOf t b 1).flatMap fun x => instrMap x.1.die h.l x.2).foldr (fun x m => SMap.set 0 m x.1 x.2) []
    emit := mapOf ((sectsOf t b 3).flatMap fun x =>
      ((recs 16 x.2).map (emitRec x.1.die)).map fun r => (r.at_, r.entry))
    hubs := hubs
    hub := mapOf (hubs.map fun r => (r.input * 2048 + r.step, r.entry))
    mems := (recs 48 (sectOf t b 5)).map fun n => (memDesc n).1
    inits := (initRecs ((sectOf t b 6).length + 1) (sectOf t b 6)).filterMap fun r => r.map fun r => (r.1, r.2.2.1, r.2.2.2.2)
    chans := chanDescs chan
    outs := (chanOuts chan).map (·.1)
    flags := (recs 8 (sectOf t b 8)).map fun n => (flagRec n).1
    fields := (recs 8 ((sectOf t b 9).drop 16)).map fun n => (fieldRec n).1
    lanes := (recs 8 (sectOf t b 10)).map fun n => (laneRec n).1
    probes := (recs 8 (sectOf t b 11)).zipIdx.filterMap fun x => ((probeRec g.dies x.1).1).map fun q => (x.2, q)
    releases := (recs 8 (sectOf t b 12)).map fun n => (releaseRec n).1
    relocs := recs 8 (sectOf t b 13)
    patches := recs 8 (sectOf t b 14) }

/-! ### Route conflicts (0x0301) and slot kinds (0x020C) -/

/-- The hub output slots: kind (0 release, 1 channel, 2 field, 3 lane), step and line (R92). -/
def Parsed.outSlots (p : Parsed) : List (Nat × Nat × Nat) :=
  p.releases.map (fun r => (0, r.step, r.line)) ++ p.outs.map (fun o => (1, o.step, o.line)) ++
    p.fields.map (fun f => (2, f.step, f.line)) ++ p.lanes.map fun l => (3, l.step, l.line)

/-- A destination as R99 names it, as one number in the order of R191: die (hub last), bushel field, step, line; kind last. -/
def destKey (die bushel step form kind : Nat) : Nat := (((die * 32 + bushel) * 2048 + step) * 65536 + form) * 4 + kind

/-- Every destination that an emit or a hub output slot reaches. -/
def Parsed.reached (p : Parsed) : List Nat :=
  (p.emit.flatMap fun x =>
    (bushelEmit p.grade.dies (x.1 / 2048 / 65536 / 32) (x.1 / 2048 / 65536 % 32) (x.1 % 2048) x.2).map fun d =>
      destKey d.die d.bushel (x.1 % 2048) d.form d.kind) ++
  (p.hub.flatMap fun x => (hubEmits p.grade.dies (x.1 % 2048) x.2).map fun d => destKey d.die d.bushel (x.1 % 2048) d.form d.kind) ++
  p.outSlots.map fun o => destKey 7 (o.2.2 / 2048) o.2.1 (0x7000 + o.2.2 % 2048) 0

/-- The first number that stands twice in a rising list. -/
def twice : List Nat → Option Nat
  | a :: b :: r => if a = b then some a else twice (b :: r)
  | _ => none

/-- 0x0301: two emits or slots on one destination at one step. -/
def Parsed.conflict (p : Parsed) : Option Report :=
  (twice (sortBy id p.reached)).map fun k =>
    let n := k / 4
    { rep 0x0301 3 with die := some (n / 65536 / 2048 / 32), who := some (n / 65536 / 2048 % 32)
                        step := some (n / 65536 % 2048), where_ := some (n % 65536) }

/-- Follow a value from the places it stands at, each with its step, through the emit tables (R93): the window lines it
reaches, as BP-numbered line and step, and the kinds of the hub input slots. The first argument bounds the length of a route. -/
def Parsed.trace (p : Parsed) : Nat → List (Nat × Dest) → List (Nat × Nat) × List Nat
  | 0, _ => ([], [])
  | n + 1, l =>
    let next := l.flatMap fun x =>
      match x.2 with
      | .ingress die b form => (bushelEmit p.grade.dies die b x.1 (SMap.get 0 p.emit (((die * 32 + b) * 65536 + form) * 2048 + x.1))).map
          fun d => (d.step, d.dest)
      | .hubIn die line => (hubEmits p.grade.dies x.1 (SMap.get 0 p.hub ((die * 2048 + line) * 2048 + x.1))).map fun d => (d.step, d.dest)
      | _ => []
    let wins := next.filterMap fun x => match x.2 with
      | .win die b k line => some ((((die * 32 + b) * 16 + k) * 64 + line), x.1)
      | _ => none
    let kinds := next.filterMap fun x => match x.2 with
      | .slot k _ => some k
      | _ => none
    let more := next.filter fun x => match x.2 with
      | .ingress _ _ _ => true
      | .hubIn _ _ => true
      | _ => false
    if more.isEmpty then (wins, kinds)
    else
      let r := p.trace n more
      (wins ++ r.1, kinds ++ r.2)

/-- The slot kind that an outbound class feeds, or an inbound class reads (R62). -/
def slotKind (cls : Nat) : Option Nat :=
  if cls = 8 || cls = 9 then some 1 else if cls = 11 || cls = 10 then some 2 else if cls = 12 || cls = 13 then some 3 else none

/-- The kinds of the hub input slots that a BP's output line at a step reaches. -/
def Parsed.feeds (p : Parsed) (bp t : Nat) : List Nat :=
  (p.trace 2050 [(t, .ingress (bp / 32768) (bp / 1024 % 32) (0x9000 + bp % 1024))]).2

/-- Window lines that hub output slots of kind channel, field or lane feed: line, step and kind. -/
def Parsed.fed (p : Parsed) : List (Nat × Nat × Nat) :=
  p.outSlots.flatMap fun o =>
    if o.1 = 0 then []
    else (p.trace 2050 [hubEgress (o.2.2 / 2048) (o.2.2 % 2048) o.2.1]).1.map fun w => (w.1, w.2, o.1)

/-- 0x020C at one instruction. -/
def Parsed.kindBad (p : Parsed) (fed : List (Nat × Nat × Nat)) (bp t w : Nat) : Bool :=
  let c := insClass w
  let out := c == 8 || c == 11 || c == 12
  let inb := c == 9 || c == 10 || c == 13
  let ks := p.feeds bp t
  (if out then ks.isEmpty || ks.any fun k => slotKind c != some k else !ks.isEmpty) ||
    (insOps w).zipIdx.any fun x =>
      opndKind x.1 == 1 &&
        let f := fed.filter fun y => y.1 == bp / 64 * 64 + x.1 % 64 && y.2.1 == t
        if inb && x.2 = 0 then f.isEmpty || f.any fun y => slotKind c != some y.2.2 else !f.isEmpty

/-- 0x020C: a crossing that breaks R62. BPs whose instruction is 0 are met through their emit entries. -/
def Parsed.kindFault (p : Parsed) : Option Report :=
  let fed := p.fed
  let idle := p.emit.filterMap fun x =>
    let k := x.1 / 2048
    if k % 65536 / 4096 = 9 then
      let bp := k / 65536 * 1024 + k % 1024
      if SMap.get 0 p.instr (bp * 2048 + x.1 % 2048) = 0 then some (bp * 2048 + x.1 % 2048) else none
    else none
  let bad := (p.instr.filter fun x => p.kindBad fed (x.1 / 2048) (x.1 % 2048) x.2).map (·.1) ++
    idle.filter fun k => !(p.feeds (k / 2048) (k % 2048)).isEmpty
  (minNat bad).map fun k =>
    { rep 0x020C 3 with die := some (k / 2048 / 32768), who := some (k / 2048), step := some (k % 2048) }

/-! ### Memories (0x0404 to 0x040A) -/

/-- A beat a port asks for: class and step (R137). -/
def MemPort.beats (p : MemPort) : List (Nat × Nat) :=
  (5, p.astep) :: (if p.writes then [(6, p.astep + 1)] else []) ++ (if p.reads then [(7, p.dstep)] else [])

/-- The port rods of the stores: head key (BP × 2048 + step), class, and length (R64). -/
def Parsed.rods (p : Parsed) : List (Nat × Nat × Nat) :=
  (p.instr.filter fun x => let c := insClass x.2; 5 ≤ c && c ≤ 7 && insFlg x.2 % 2 == 1).map fun x =>
    let c := insClass x.2
    let rest := ((List.range 31).map fun i => i + 1).takeWhile fun i => clsNear p.instr x.1 (i : Nat) == c && !headNear p.instr x.1 (i : Nat)
    (x.1, c, rest.length + 1)

/-- A port of a memory with the record number of its descriptor. -/
structure PortOf where
  d : MemDesc
  p : MemPort
  row : Nat
  deriving DecidableEq, Repr

/-- Every port of the image. -/
def Parsed.ports (p : Parsed) : List PortOf := p.mems.zipIdx.flatMap fun m => m.1.ports.map fun q => ⟨m.1, q, m.2⟩

/-- 0x0404: a port without its rod, or a beat of no port. -/
def Parsed.bindFaults (p : Parsed) : List MemFault :=
  let rods := p.rods
  let want (x : PortOf) (b : Nat × Nat) : Nat × Nat × Nat := (x.p.head * 2048 + b.2, b.1, x.p.len)
  (p.ports.flatMap fun x => (x.p.beats.filter fun b =>
      b.2 < p.h.l && (!rods.contains (want x b) || (x.d.onDie && x.p.head / 32768 != x.d.home))).map fun b =>
    { index := some x.d.index, step := some b.2, who := some x.p.head, record := some x.row }) ++
  (rods.filter fun r => !p.ports.any fun x => x.p.beats.any fun b => want x b == r).map fun r =>
    { index := none, step := some (r.1 % 2048), who := some (r.1 / 2048) }

/-- 0x0405: a beat at or beyond L, an on-die read not at a + 6, an HBM read outside R146; a port may be at fault for both. -/
def Parsed.latencyFaults (p : Parsed) (h : Nat) : List MemFault :=
  p.ports.flatMap fun x =>
    let late := (x.p.beats.map (·.2)).filter fun t => p.h.l ≤ t
    let f (t : Nat) : MemFault := { index := some x.d.index, step := some t, who := some x.p.head, record := some x.row }
    let ok := !x.p.reads || (if x.d.onDie then x.p.dstep == x.p.astep + 6 else x.p.astep + 400 + h ≤ x.p.dstep)
    ((minNat late).map f).toList ++ (if ok then [] else [f x.p.dstep])

/-- The banks a memory may reach (R141). -/
def MemDesc.banks (d : MemDesc) : List Nat := (List.range 96).filter fun b => d.base / 131072 ≤ b && b ≤ (d.base + d.depthM1) / 131072

/-- 0x0406: two accesses whose memories share a bank, fewer than 4 positions apart. -/
def Parsed.rateFaults (p : Parsed) : List MemFault :=
  let ps := (p.ports.filter fun x => x.d.onDie).zipIdx
  ps.flatMap fun x => (ps.filter fun y => x.2 < y.2).filterMap fun y =>
    if x.1.d.home == y.1.d.home && x.1.p.astep < y.1.p.astep + 4 && y.1.p.astep < x.1.p.astep + 4 then
      match x.1.d.banks.find? (fun b => y.1.d.banks.contains b) with
      | some b =>
        let k (z : PortOf) : Nat := z.d.index * 4096 + z.p.astep
        let lo := if k x.1 ≤ k y.1 then x.1 else y.1
        let hi := if k x.1 ≤ k y.1 then y.1 else x.1
        some { index := some lo.d.index, step := some lo.p.astep, step2 := some hi.p.astep, where_ := some b, record := some lo.row
               die := some lo.d.home }
      | none => none
    else none

/-- 0x0407: two memory beats of one peck at one step. -/
def Parsed.peckFaults (p : Parsed) : List MemFault :=
  let rods := p.rods
  (rods.filter fun r => rods.any fun o => o != r && o.1 / 2048 / 64 == r.1 / 2048 / 64 && o.1 % 2048 == r.1 % 2048).map fun r =>
    let owner := p.ports.find? fun x => x.p.beats.any fun b => (x.p.head * 2048 + b.2, b.1, x.p.len) == r
    { index := owner.map (·.d.index), step := some (r.1 % 2048), who := some (r.1 / 2048) }

/-- 0x0408: an HBM memory with two writers, or a bank shared contrary to R135. -/
def Parsed.writerFaults (p : Parsed) : List MemFault :=
  p.mems.zipIdx.filterMap fun m =>
    let d := m.1
    let bad := if d.onDie then
        (p.mems.any fun o => o.index != d.index && o.onDie && o.home == d.home && (o.multi || d.multi) && o.banks.any d.banks.contains)
      else d.multi
    if bad then some { index := some d.index, record := some m.2 } else none

/-- 0x0409: a read strictly between the earliest and the latest write access grain. Of the two steps and the bank of R160 the second step is
the earliest write's, and the bank that of BASE (DESIGN CHOICE, assumption 57). -/
def Parsed.placeFaults (p : Parsed) : List MemFault :=
  p.ports.filterMap fun x =>
    let ws := (x.d.ports.filter MemPort.writes).map (·.astep)
    let lo := (minNat ws).getD 0
    let hi := ws.foldl Nat.max 0
    if x.d.onDie && x.d.multi && x.p.reads && lo < x.p.astep && x.p.astep < hi then
      some { index := some x.d.index, step := some x.p.astep, step2 := some lo, where_ := some (x.d.base / 131072), record := some x.row
             die := some x.d.home }
    else none

/-- 0x040A: a limit of R145 exceeded. -/
def Parsed.slotFaults (p : Parsed) : List MemFault :=
  let hs := p.ports.filter fun x => !x.d.onDie
  let many (f : PortOf → PortOf → Bool) (x : PortOf) : Bool := 4 < (hs.filter (f x)).length
  hs.flatMap fun x =>
    let f (t : Nat) : MemFault := { index := some x.d.index, step := some t, who := some x.p.head, record := some x.row }
    (if many (fun a b => a.d.home == b.d.home && a.p.astep == b.p.astep) x ||
        many (fun a b => a.p.head / 32768 == b.p.head / 32768 && a.p.astep == b.p.astep) x then [f x.p.astep] else []) ++
    (if x.p.reads && many (fun a b => b.p.reads && a.p.head / 32768 == b.p.head / 32768 && a.p.dstep == b.p.dstep) x then
      [f x.p.dstep] else [])

/-- 0x0404 to 0x040A. -/
def Parsed.memFault (p : Parsed) (h : Nat) : Option Report :=
  firstRep [memRep 0x0404 3 p.bindFaults, memRep 0x0405 3 (p.latencyFaults h), memRep 0x0406 3 p.rateFaults,
    memRep 0x0407 3 p.peckFaults, memRep 0x0408 3 p.writerFaults, memRep 0x0409 3 p.placeFaults, memRep 0x040A 3 p.slotFaults]

/-! ### The cross-section checks of the slot maps, flags and probes -/

/-- The offset of each channel's queue in channel RAM, with the offset after the last (R199). -/
def queueOffsets : Nat → List ChanRec → List Nat × Nat
  | o, [] => ([], o)
  | o, c :: r =>
    let x := queueOffsets (o + c.room) r
    (o :: x.1, x.2)

/-- 0x050B. -/
def Parsed.ramFault (p : Parsed) : Option Report :=
  let x := queueOffsets 0 p.chans
  ((p.chans.zip x.1).find? fun c => 0x200000 < c.2 + c.1.room).map fun c => { rep 0x050B 3 with index := some c.1.index }

/-- The acting hub emit entries of a slot kind: record, step, slot, and whether [26:24] is not 0. -/
def Parsed.slotEmits (p : Parsed) (kind : Nat) : List (Nat × Nat × Nat × Bool) :=
  p.hubs.zipIdx.filterMap fun r =>
    if bit r.1.entry 31 && bits r.1.entry 28 3 == kind then some (r.2, r.1.step, bits r.1.entry 0 12, bits r.1.entry 24 3 != 0) else none

/-- The first entry of a kind at fault: a condition of its own, or a slot emitted at a step unlike an earlier one. -/
def slotFault (l : List (Nat × Nat × Nat × Bool)) (once : Bool) (bad : Nat → Bool) (code : Nat) : Option Report :=
  (l.zipIdx.find? fun e => e.1.2.2.2 || bad e.1.2.2.1 ||
    (once && (l.take e.2).any fun o => o.2.2.1 == e.1.2.2.1 && o.2.1 != e.1.2.1)).map fun e =>
      { rep code 3 with die := some 7, step := some e.1.2.1, where_ := some (0x8000 + e.1.2.2.1), record := some e.1.1 }

/-- The outbound channel that owns an input slot (R463). -/
def Parsed.ownerOf (p : Parsed) (slot : Nat) : Option ChanRec :=
  p.chans.find? fun c => c.dir == 0 && c.slot0 ≤ slot && slot < c.slot0 + c.recbits

/-- The lowest input slot that two channels share. -/
def sharedSlot (a b : ChanRec) : Nat := Nat.max a.slot0 b.slot0

/-- 0x0B02. -/
def Parsed.chanFault (p : Parsed) : Option Report :=
  let outs := p.chans.zipIdx.filter fun c => c.1.dir == 0
  firstRep
    [(outs.find? fun c => outs.any fun o => o.2 < c.2 && o.1.slot0 < c.1.slot0 + c.1.recbits && c.1.slot0 < o.1.slot0 + o.1.recbits).map
       fun c =>
         { rep 0x0B02 3 with
           index := some c.1.index, record := some c.2
           where_ := (minNat ((outs.filter fun o => o.2 < c.2 && o.1.slot0 < c.1.slot0 + c.1.recbits && c.1.slot0 < o.1.slot0 + o.1.recbits).map
             fun o => sharedSlot o.1 c.1)).map (0x8000 + ·) },
     (slotFault (p.slotEmits 1) true (fun j => (p.ownerOf j).isNone) 0x0B02).map fun r =>
       { r with index := (p.ownerOf (r.where_.getD 0 % 4096)).map (·.index) }]

/-- 0x0B03. -/
def Parsed.flagFault (p : Parsed) : Option Report :=
  (p.flags.zipIdx.find? fun f => f.1.2.1 == 3 || (f.1.2.1 == 1 && !p.chans.any fun c => c.index == f.1.2.2) ||
    (f.1.2.1 != 1 && f.1.2.2 != 0)).map fun f => { rep 0x0B03 3 with index := some f.1.1, record := some f.2 }

/-- 0x0E02. -/
def Parsed.fieldFault (p : Parsed) : Option Report :=
  let off := p.h.flags % 2 == 0
  firstRep
    [slotFault (p.slotEmits 2) true (fun j => 1024 ≤ j || off) 0x0E02,
     (p.fields.head?.bind fun f => if off then some (lineRep { rep 0x0E02 3 with step := some f.step, record := some 0 } f.line) else none)]

/-- 0x0803 and then 0x0802. -/
def Parsed.laneFault (p : Parsed) : Option Report :=
  let port (n : Nat) : Bool := (p.h.topo = 1 && n < 2) || (p.h.topo = 2 && n < 4) || (p.h.topo = 3 && n < 6)
  firstRep
    [slotFault (p.slotEmits 3) false (fun j => 768 ≤ j) 0x0803,
     (p.lanes.zipIdx.find? fun x => !port x.1.port).map fun x =>
       lineRep { rep 0x0802 3 with step := some x.1.step, record := some x.2 } x.1.line,
     slotFault (p.slotEmits 3) false (fun j => !port (j / 128)) 0x0802]

/-- 0x0704: a probed instruction that is NOP. -/
def Parsed.probeFault (p : Parsed) : Option Report :=
  (p.probes.find? fun x => insClass (SMap.get 0 p.instr (x.2.bp * 2048 + x.2.step)) == 0).map fun x =>
    { rep 0x0704 3 with die := some (x.2.bp / 32768), who := some x.2.bp, step := some x.2.step, record := some x.1 }

/-- 0x0512 (R185). -/
def Parsed.initFault (p : Parsed) : Option Report :=
  (p.inits.zipIdx.find? fun r =>
    let n := r.1.2.2.length
    let first := r.1.2.1
    (match p.mems.find? fun d => d.index == r.1.1 with
     | none => true
     | some d => n == 0 || d.depthM1 < first + (n - 1) || r.1.2.2.any fun w => 2 ^ d.width ≤ w) ||
    (p.inits.take r.2).any fun o => o.1 == r.1.1 && o.2.1 < first + n && first < o.2.1 + o.2.2.length).map fun r =>
      { rep 0x0512 3 with index := some r.1.1, record := some r.2 }

/-- 0x050E: more than 64 deliveries, or the first at fault by die, bushel, step and line. -/
def Parsed.releaseFault (p : Parsed) : Option Report :=
  if 64 < p.releases.length then some { rep 0x050E 3 with record := some 64 }
  else
    let bad := p.releases.zipIdx.filter fun r => p.h.l ≤ r.1.step + 4 || p.grade.dies ≤ r.1.line / 2048
    ((sortBy (fun (r : Release × Nat) => ((r.1.line / 256) * 2048 + r.1.step) * 16384 + r.1.line) bad).head?).map fun r =>
      lineRep { rep 0x050E 3 with step := some r.1.step, record := some r.2 } r.1.line

/-! ### Relocation and patch records (R197, R198) -/

/-- One field that a record rewrites: section, bit place in it, width in bits, and the new value. -/
structure Fixup where
  sect : Nat
  at_ : Nat
  w : Nat
  v : Nat
  deriving DecidableEq, Repr

/-- What the fix-ups need of the module: the NoC bases of the image's HBM regions, none for one it does not create, and the
spare bushels. -/
structure Bases where
  hbmdm : Option Nat
  firkin : Option Nat
  spare : List (Option Nat)
  deriving DecidableEq, Repr

/-- The physical bushel of a logical one (R196). -/
def physical (spare : List (Option Nat)) (die b : Nat) : Nat := if spare.getD die none = some b then 32 else b

/-- What a RELOC record rewrites; none for a record that breaks R197 in itself. -/
def Parsed.reloc (p : Parsed) (v : Bases) (b : List Byte) (n : Nat) : Option Fixup :=
  let k := bits n 0 16
  let off := bits n 32 32
  let die := bits n 24 3
  let pos := bits n 16 6
  match p.table[k]? with
  | none => none
  | some x =>
    let f := bits (leAt b (x.off + off) 8) pos 6
    if x.type < 7 || 11 < x.type || off % 8 ≠ 0 || x.len < off + 8 || 58 < pos || p.grade.dies ≤ die || 31 < f then none
    else some ⟨k, 8 * off + pos, 6, physical v.spare die f⟩

/-- The NoC address of a declared channel's queue (R199, R491). -/
def Parsed.queueAt (p : Parsed) (ch : Nat) : Option Nat :=
  ((p.chans.zip (queueOffsets 0 p.chans).1).find? fun c => c.1.index == ch).map fun c => 0x4000000 + c.2

/-- What a PATCH record rewrites; none for a record that breaks R198 in itself. -/
def Parsed.patch (p : Parsed) (v : Bases) (b : List Byte) (n : Nat) : Option Fixup :=
  let k := bits n 0 16
  let off := bits n 32 32
  let w := if bit n 19 then 8 else 4
  match p.table[k]? with
  | none => none
  | some x =>
    let old := leAt b (x.off + off) w
    let new := match bits n 16 3 with
      | 0 => v.hbmdm.map (· + old)
      | 1 => v.firkin.map (· + old)
      | 2 => if old < 1024 then p.queueAt old else none
      | _ => none
    if x.type < 7 || 11 < x.type || off % w ≠ 0 || x.len < off + w then none
    else match new with
      | some a => if 2 ^ (8 * w) ≤ a then none else some ⟨k, 8 * off, 8 * w, a⟩
      | none => none

/-- Two records name overlapping fields. -/
def Fixup.over (a b : Fixup) : Bool := a.sect == b.sect && a.at_ < b.at_ + b.w && b.at_ < a.at_ + a.w

/-- The fix-ups of both sections in record order, each none where its record is at fault; with it the record number and the
section table entry it names. -/
def Parsed.fixups (p : Parsed) (v : Bases) (b : List Byte) : List (Option Fixup × Nat × Nat) :=
  p.relocs.zipIdx.map (fun r => (p.reloc v b r.1, r.2, bits r.1 0 16)) ++
    p.patches.zipIdx.map fun r => (p.patch v b r.1, r.2, bits r.1 0 16)

/-- 0x050F. -/
def Parsed.fixFault (p : Parsed) (v : Bases) (b : List Byte) : Option Report :=
  let l := p.fixups v b
  (l.zipIdx.find? fun f => match f.1.1 with
    | none => true
    | some x => (l.take f.2).any fun o => match o.1 with | some y => x.over y | none => false).map fun f =>
      { rep 0x050F 3 with index := some f.1.2.2, record := some f.1.2.1 }

/-- An image with a fix-up applied. -/
def Parsed.apply (p : Parsed) (b : List Byte) (f : Fixup) : List Byte :=
  match p.table[f.sect]? with
  | none => b
  | some x =>
    let o := x.off + f.at_ / 8
    let n := (f.at_ % 8 + f.w + 7) / 8
    splice b o (leBytes n (putBits (leAt b o n) (f.at_ % 8) f.w f.v))

/-- The image with its relocation and then its patch records applied (R200). -/
def Parsed.patched (p : Parsed) (v : Bases) (b : List Byte) : List Byte :=
  (p.fixups v b).foldl (fun b f => match f.1 with | some x => p.apply b x | none => b) b

/-! ### Hash and signatures (R187) -/

/-- Image bytes 256 on with the SIG section as 0. -/
def Parsed.hashed (p : Parsed) (b : List Byte) : List Byte :=
  match p.table.find? fun x => x.type == 15 with
  | some x => (splice b x.off (List.replicate x.len 0)).drop 256
  | none => b.drop 256

/-- The image carries a SIG section. -/
def Parsed.signed (p : Parsed) : Bool := p.table.any fun x => x.type == 15

/-- The signatures, where they must verify. -/
def Parsed.sigOk (p : Parsed) (v : Site) (b : List Byte) : Bool :=
  if p.signed then
    let d := sectOf p.table b 15
    let key := v.ikeys.getD (leAt d 0 4) []
    leAt d 0 4 ≤ 3 && allZero (slice d 4 4) && allZero (slice d 3381 3) && bit (leAt key 0 1) 0 &&
      Config.ed25519 (slice key 32 32) (b.take 252) (slice d 8 64) &&
      Config.mldsa65 (slice key 64 1952) (b.take 252) (slice d 72 3309)
  else !v.signreq

/-- Phase 3 (R191). -/
def phase3 (v : Site) (bs : Bases) (b : List Byte) : Option Report :=
  let p := parse v.grade b
  if v.verified then none
  else if sha256 (p.hashed b) ≠ p.h.hash then some (rep 0x0509 3)
  else if !p.sigOk v b then some (rep 0x050A 3)
  else firstRep [p.conflict, p.kindFault, p.memFault v.h, p.ramFault, p.chanFault, p.flagFault, p.fieldFault, p.laneFault,
    p.probeFault, p.initFault, p.releaseFault, p.fixFault bs b]

end Sys2Proof.Machine
end

