-- ==== Sys2Proof/Machine/FieldIO.lean ====
section
/-! DEFINITION. Field I/O: the hub's end of the field crossing, the field bridge die, banks and cells (R596 to R620). -/
namespace Sys2Proof.Machine

/-- The loaded image uses field-frame slots (FLAGS[0], R180). -/
def State.fieldImage (s : State) : Bool := match s.ldr.img with | some h => h.flags % 2 == 1 | none => false

/-- Put an output frame on its way and among the unanswered ones (R604, R611). -/
def sendOut (prime drive : Bool) (cyc held period : Nat) (out oe : NSet) (s : State) : State :=
  let q := (s.fld F.FIO_STAT_SEQ + 1) % 256
  let f : HubFrame := .out prime q drive cyc held period out oe
  let s := s.sendFb f
  let s := { s with fio := { s.fio with waiting := s.fio.waiting ++ [(⟨q, cyc, some f, false⟩ : Unanswered)] } }
  s.setFlds [(F.FIO_STAT_SEQ, q), (F.FIO_STAT_DRIVE, b2n drive)]

/-- Scruple grain 0 of cycle `c`: the OUT frame with the slot values of the cycle (R604, R608, R614, R625). -/
def startOut (c : Nat) (s : State) : State :=
  let out := s.fio.bits.filter (· < 512)
  let oe := (s.fio.bits.filter (512 ≤ ·)).map (· - 512)
  let held := Nat.min s.fio.held 0xFFFF
  let mhz := s.fld F.SFB_CLK_MHZ
  let period := match s.fio.edges with
    | some e => Nat.min (e * 1000 / mhz) 0xFFFFFFFF
    | none => 0
  let s := s.setFlds [(F.FIO_PERIOD_NS, period), (F.FIO_HELD_GRAINS, held),
    (F.FIO_PERMAX_NS, Nat.max (s.fld F.FIO_PERMAX_NS) period)]
  let s := { s with fio := { s.fio with held := 0, edges := some 0, bits := [], lastOutBits := out, lastOe := oe, outCyc := some c } }
  sendOut false (1 ≤ s.fld F.LDR_REL_STAGE) c held period out oe s

/-- The input frame of cycle `n` is late (R612). -/
def lateFrame (n : Nat) (s : State) : State :=
  let s := { s with fio := { s.fio with late := some n } }
  raise 304 ((s.setFlds [(F.SFB_HOLD_STAT_FIELD, 1), (F.FIO_STAT_LATE, 1)]).count F.FIO_LATECNT_COUNT)

/-- The due point of the input frame of cycle `n` (R608, R612): an image without field slots has none (assumption 17). -/
def dueField (n : Nat) (s : State) : State :=
  if s.fieldImage && (s.inFrame n).isNone then lateFrame n s else s

/-- The standing vote of R609 while the step clock is stopped. -/
def standField (s : State) : State :=
  if s.fieldImage && (s.inFrame s.lge.cycle).isNone then
    { s with fio := { s.fio with late := some s.lge.cycle } }.setFld F.SFB_HOLD_STAT_FIELD 1
  else s

/-- The first grain of a run: a frame still absent is late (R609). -/
def runField (s : State) : State :=
  match s.fio.late with
  | some n => if s.flag F.FIO_STAT_LATE then s else lateFrame n s
  | none => s

/-- PRIME frames on entry to ARMED (R609): two after a load, one with the restored OUT and OE bits after a RESTORE, whose
IN bits cycle `n` uses. -/
def primeFrames (restored : Option (NSet × NSet × NSet)) (s : State) : State :=
  let n := s.lge.cycle
  let s := { s with fio := { s.fio with
    waiting := s.fio.waiting.map (fun (x : Unanswered) => { x with stale := true })
    even := none, odd := none, late := none, edges := none, held := 0 } }
  let s := s.setFlds [(F.SFB_HOLD_STAT_FIELD, 0), (F.FIO_STAT_LATE, 0)]
  let s := match restored with
    | some (out, oe, i) =>
      let s := { s with fio := { s.fio with
        even := if n % 2 = 0 then some (n, i) else none
        odd := if n % 2 = 1 then some (n, i) else none } }
      sendOut true false ((n + 2 ^ 64 - 1) % 2 ^ 64) 0 0 out oe s
    | none => sendOut true false ((n + 2 ^ 64 - 1) % 2 ^ 64) 0 0 [] []
        (sendOut true false ((n + 2 ^ 64 - 2) % 2 ^ 64) 0 0 [] [] s)
  standField s

/-- INERT on a change of mode after which the cells are inert, when the last frame had DRIVE 1 (R619). -/
def inertIfDriven (s : State) : State := if s.flag F.FIO_STAT_DRIVE then s.sendInert else s

/-! ### The field bridge -/

/-- The PG bits as a frame carries them. -/
def Fb.pgBits (f : Fb) : Nat := f.pg.foldl (fun n b => n ||| 2 ^ b) 0

/-- An output frame that is not a resent copy: after a NAK the FB applies none until it holds a good copy (R610). -/
def Wire.held (w : Wire) : Bool := (frameType w.bytes == 1 || frameType w.bytes == 2) && !w.again

/-- The frames that the FB holds back at the front, and those from the first on that it takes (R610). -/
def State.fbQueue (s : State) : List Wire × List Wire :=
  if s.fb.naked then (s.fio.toFb.takeWhile Wire.held, s.fio.toFb.dropWhile Wire.held) else ([], s.fio.toFb)

/-- Take the first frame on its way to the FB that it does not hold back. -/
def State.popFb (s : State) : State := { s with fio := { s.fio with toFb := s.fbQueue.1 ++ s.fbQueue.2.drop 1 } }

/-- The FB queues a frame toward the hub. -/
def State.fbSend (s : State) (f : FbFrame) (again : Bool := false) : State :=
  { s with fio := { s.fio with toHub := s.fio.toHub ++ [⟨f.bytes, again⟩] } }

/-- The FB finds an output frame bad: every cell inert, BAD sent (R610, R611). -/
def fbBad (seq kind : Nat) (s : State) : State :=
  ({ s with fb := { s.fb with active := false, naked := false } }).fbSend (.bad seq kind)

/-- The cells of bank `b` are inert whatever frame was applied last: its supply is not good, or it is faulted (R597, R601). -/
def Fb.bankInert (f : Fb) (b : Nat) : Bool := !NSet.has f.pg b || NSet.has f.faulted b

/-- Cell `c` is active (R598). -/
def Fb.live (f : Fb) (c : Nat) : Bool := f.active && !f.bankInert (c / 32)

/-- The setting of cell `c` in bits [lo + n - 1:lo], as the last CONFIG gave it (R630). -/
def Fb.setting (f : Fb) (c lo n : Nat) : Nat := bits (SMap.get 0 f.cells c).toNat lo n

/-- What the module does at a pin (R598): drives it to a level with a DRIVE and a SLEW, pulls it, keeps its level, or nothing. -/
inductive PinState where
  | driven (level : Bool) (drive slew : Nat)
  | pullUp
  | pullDown
  | keeper
  | highZ
  deriving DecidableEq, Repr

/-- The state of the pin of cell `c` (R598): an inert cell has its driver, its keeper and its pull off. -/
def Fb.pin (f : Fb) (c : Nat) : PinState :=
  if !f.live c then .highZ
  else if NSet.has f.oe c then .driven (NSet.has f.out c) (f.setting c 8 2) (f.setting c 10 2)
  else if f.setting c 14 2 = 1 then .pullUp
  else if f.setting c 14 2 = 2 then .pullDown
  else if f.setting c 13 1 = 1 then .keeper
  else .highZ

/-- The filtered input of cell `c` at a sample point (R599): with FILT 0 the pin's level; with FILT k that level once it has held for
2^(k−1) FIOCK periods, until then what the filter passed before. -/
def Fb.filtered (f : Fb) (p : Pins) (c : Nat) : Bool :=
  let k := f.setting c 4 3
  if k = 0 || 2 ^ (k - 1) ≤ ((p.steady.find? fun x => x.1 == c).map (·.2)).getD 0 then p.raw.contains c else p.filtered.contains c

/-- Cells whose contention detector fires at a sample point (R600). -/
def Fb.fires (f : Fb) (raw : List Nat) : NSet :=
  f.oe.filter fun c => f.live c && !NSet.has f.broken (c / 32) && f.setting c 1 1 == 1 && raw.contains c != NSet.has f.out c

/-- The FB holds a good OUT or PRIME frame: sample point, IN frame, application (R605, R607, R611). -/
def fbGood (prime : Bool) (seq : Nat) (drive : Bool) (cyc : Nat) (out oe : NSet) (pins : Pins) (s : State) : State :=
  let f := s.fb
  let fits := match f.prev with
    | none => true
    | some (q, c) => seq == (q + 1) % 256 && (prime || cyc % 2 ^ 32 == (c + 1) % 2 ^ 32)
  if !fits || (prime && drive) then fbBad seq 2 s
  else
    let inp := (List.range 512).filter fun c => NSet.has f.pg (c / 32) && f.filtered pins c
    let ans : FbFrame := .inp seq cyc f.pgBits inp (f.fires pins.raw)
    ({ s with fb := { f with
      prev := some (seq, cyc), naked := false, kept := (ans :: f.kept).take 256, active := drive
      out := if drive then out else f.out, oe := if drive then oe else f.oe
      broken := (List.range 16).filter f.bankInert } }).fbSend ans

/-- A frame toward the FB fails its CRC at the FB: NAK at first, bad when it was the resent copy (R610). -/
def fbCrc (seq : Nat) (again : Bool) (s : State) : State :=
  let s := s.count F.FIO_CRCCNT_COUNT
  if again then fbBad seq 1 s
  else ({ s with fb := { s.fb with naked := true } }).fbSend (.nak seq s.fb.pgBits)

/-- The first frame that the FB takes, when its TYPE is one that `t` admits: `crc` when it fails its CRC, by an error on the way or as it
was sent; BAD when its form is bad (R611); and else `act` of what the FB reads in it. -/
def fbReads (t : Nat → Bool) (crcBad : Bool) (crc : Wire → State → State) (act : HubFrame → State → State) (s : State) : State :=
  match s.fbQueue.2 with
  | w :: _ =>
    if !t (frameType w.bytes) then s
    else if crcBad || !crcOk w.bytes then crc w s.popFb
    else match readHub w.bytes with
      | some f => act f s.popFb
      | none => fbBad (frameSeq w.bytes) 2 s.popFb
  | [] => s

/-- A frame that is no output frame and fails its CRC is counted and gone (R606, R610). -/
def fbDrop (_ : Wire) (s : State) : State := s.count F.FIO_CRCCNT_COUNT

/-- FB_OUT and FB_PRIME: the first frame on its way, when it is of that type; one of no listed type goes to FB_OUT. -/
def fbFrame (prime crcBad : Bool) (pins : Pins) (s : State) : State :=
  fbReads (fun t => if prime then t == 2 else t == 1 || hubLength t == 0) crcBad (fun w => fbCrc (frameSeq w.bytes) w.again)
    (fun f s => match f with
      | .out p q d c _ _ o e => fbGood p q d c o e pins s
      | _ => s) s

/-- FB_OUT. -/
def execFbOut (crcBad : Bool) (pins : Pins) (s : State) : Host.Outcome State Fault Refusal := .next (fbFrame false crcBad pins s)

/-- FB_PRIME. -/
def execFbPrime (crcBad : Bool) (pins : Pins) (s : State) : Host.Outcome State Fault Refusal := .next (fbFrame true crcBad pins s)

/-- The FB applies a CONFIG (R606): with VSEL 0b000 the supply goes off, and an accepted VSEL write sets it up again (R597, R601,
assumption 18). -/
def applyConfig (n v : Nat) (start : Bool) (cells : List Word) (f : Fb) : Fb :=
  let f := { f with
    cells := (cells.zipIdx).foldl (fun m x => SMap.set 0 m (32 * n + x.2) x.1) f.cells
    vsel := SMap.set 0 f.vsel n v }
  if start || v = 0 then
    { f with pg := NSet.del f.pg n, faulted := NSet.del f.faulted n, settling := NSet.put f.settling n (v ≠ 0), broken := NSet.ins f.broken n }
  else f

/-- FB_CONFIG: the first frame on its way, when it is a CONFIG. An accepted VSEL write that it carries is done (assumption 18); one that its
CRC loses comes again with the next copy (R606). -/
def fbConfig (crcBad : Bool) (s : State) : State :=
  fbReads (· == 3) crcBad fbDrop (fun f s =>
    match f with
    | .config n v cells =>
      let st := NSet.has s.fio.start n && s.fld (F.FIO_BANK_VSEL n) == v
      { s with
        fb := applyConfig n v st cells s.fb
        fio := { s.fio with start := if st then NSet.del s.fio.start n else s.fio.start } }
    | _ => s) s

/-- FB_CONFIG. -/
def execFbConfig (crcBad : Bool) (s : State) : Host.Outcome State Fault Refusal := .next (fbConfig crcBad s)

/-- FB_INERT: every cell inert; continuity is not checked against earlier frames (R611, R619), and frames held back are dropped. -/
def fbInert (s : State) : State :=
  fbReads (· == 5) false fbDrop (fun _ t => { t with
    fio := { t.fio with toFb := s.fbQueue.2.drop 1 }
    fb := { t.fb with active := false, prev := none, naked := false } }) s

/-- FB_INERT. -/
def execFbInert (s : State) : Host.Outcome State Fault Refusal := .next (fbInert s)

/-- An IN frame with the given SEQ. -/
def FbFrame.answers (q : Nat) : FbFrame → Bool
  | .inp k _ _ _ _ => k == q
  | _ => false

/-- A resend raises EV309 when RSEV is 1 (R610). -/
def resent (s : State) : State := raiseIf (s.flag F.FIO_CTL_RSEV) 309 s

/-- FB_RESEND: the kept IN frame once more (R610). -/
def fbResend (s : State) : State :=
  fbReads (· == 6) false fbDrop (fun f s =>
    match f with
    | .resend q =>
      match s.fb.kept.find? (FbFrame.answers q) with
      | some a => resent (s.fbSend a true)
      | none => s
    | _ => s) s

/-- FB_RESEND. -/
def execFbResend (s : State) : Host.Outcome State Fault Refusal := .next (fbResend s)

/-- FB_IDLE: a valid frame and nothing else. -/
def fbIdle (s : State) : State := fbReads (· == 4) false fbDrop (fun _ s => s) s

/-- FB_IDLE. -/
def execFbIdle (s : State) : Host.Outcome State Fault Refusal := .next (fbIdle s)

/-- FB_WATCHDOG: 1 ms without a valid frame (R613). -/
def execFbWatchdog (s : State) : Host.Outcome State Fault Refusal :=
  .next { s with fb := { s.fb with active := false, prev := none, naked := false } }

/-! ### The hub's end -/

/-- A valid frame brings the crossing up (R613). -/
def fieldUp (s : State) : State := if s.flag F.FIO_STAT_UP then s else raise 308 (s.setFld F.FIO_STAT_UP 1)

/-- PG as a frame reports it (R623, R628): with VSEL 0b000 it reads 0 (R597). -/
def takePg (g : Nat) (s : State) : State :=
  let good (k : Nat) : Bool := bit g k && s.fld (F.FIO_BANK_VSEL k) != 0
  (List.range 16).foldl (fun s k => s.setFld (F.FIO_BANK_PG k) (b2n (good k)))
    (s.setFld F.FIO_STAT_PG (bitsNat ((List.range 16).map good)))

/-- A bad frame (R613). -/
def badFrame (kind seq : Nat) (s : State) : State :=
  enterSafe 6 (raise 305 (s.first F.FIO_BADSTAT_VALID F.FIO_BADSTAT_MORE [(F.FIO_BADSTAT_KIND, kind), (F.FIO_BADSTAT_SEQ, seq)]))

/-- Take the first frame on its way to the hub. -/
def State.popHub (s : State) : State := { s with fio := { s.fio with toHub := s.fio.toHub.drop 1 } }

/-- Contention firings that an IN frame reports (R600). -/
def contention (l : NSet) (s : State) : State :=
  l.foldl (fun s c => raiseIf (s.flag F.FIO_CTL_CONTEV) 306
    ((s.setFld ⟨A.FIO_CONT (c / 32), c % 32, 1⟩ 1).count F.FIO_CONTCNT_COUNT)) s

/-- The input frame that cycle `n` uses has arrived (R608, R609, R612, R227). -/
def putFrame (n : Nat) (i : NSet) (s : State) : State :=
  let s := { s with fio := if n % 2 = 0 then { s.fio with even := some (n, i) } else { s.fio with odd := some (n, i) } }
  let s := if s.fio.late = some n then
      { s with fio := { s.fio with late := none } }.setFlds [(F.SFB_HOLD_STAT_FIELD, 0), (F.FIO_STAT_LATE, 0)]
    else s
  fieldRecord n i s

/-- An unanswered frame that may stay so: it is stale, or an INERT has followed it (assumption 52). -/
def Unanswered.dead (w : Unanswered) : Bool := w.stale || w.frame.isNone

/-- The unanswered frames from the oldest on, when an answer with these SEQ and CYC arrives: dead frames before the one it answers are
given up (R611, assumption 52). -/
def State.oldest (s : State) (q c : Nat) : List Unanswered :=
  s.fio.waiting.dropWhile fun w => w.dead && !(w.seq == q && w.cyc % 2 ^ 32 == c)

/-- The cycle positions that remain before the next scruple grain 0 last at least `ns` ns at the effective step clock, or the step clock is
stopped (R106, R113, R606). -/
def State.beforeOut (s : State) (ns : Nat) : Bool :=
  !s.ctl.clock || decide (ns * s.fld F.SFB_CLK_MHZ * (16 - s.fld F.SFB_THR_CUR) ≤ 16000 * ((s.L + (s.L + s.S) - s.arr.pos) % (s.L + s.S)))

/-- An IDLE or RESEND frame leaves only where it ends before the next OUT frame must start, and else after that
frame (R602, R606). -/
def State.sendShort (s : State) (f : HubFrame) : State :=
  if s.beforeOut (frameNs f.bytes.length) then s.sendFb f else { s with fio := { s.fio with later := s.fio.later ++ [⟨f.bytes, false⟩] } }

/-- The first frame on its way to the hub, when its TYPE is one that `t` admits: `crc` when it fails its CRC, SAFE when its form is bad
(R611), and else `act` of what the hub reads in it. -/
def hubReads (t : Nat → Bool) (crcBad : Bool) (crc : Wire → State → State) (act : FbFrame → State → State) (s : State) : State :=
  match s.fio.toHub with
  | w :: _ =>
    if !t (frameType w.bytes) then s
    else if crcBad || !crcOk w.bytes then crc w (s.popHub.count F.FIO_CRCCNT_COUNT)
    else match readFb w.bytes with
      | some f => act f s.popHub
      | none => badFrame 3 (frameSeq w.bytes) s.popHub
  | [] => s

/-- An IN frame that passes its CRC (R605, R608, R611). -/
def acceptIn (q c g : Nat) (i x : NSet) (s : State) : State :=
  match s.oldest q c with
  | w :: r =>
    if w.seq = q && w.cyc % 2 ^ 32 = c then
      let s := takePg g (fieldUp { s with fio := { s.fio with waiting := r, lastIn := i, lastCont := x } })
      let s := contention x s
      if w.stale then s else putFrame ((w.cyc + 2) % 2 ^ 64) i s
    else badFrame 3 q s
  | [] => badFrame 3 q s

/-- FIELD_IN: the first frame on its way to the hub, when it is an IN frame (R605, R608, R610, R611). -/
def fieldIn (crcBad : Bool) (s : State) : State :=
  hubReads (· == 0x11) crcBad
    (fun w s => if w.again then badFrame 1 (frameSeq w.bytes) s else s.sendShort (.resend (frameSeq w.bytes)))
    (fun f s => match f with
      | .inp q c g i x => acceptIn q c g i x s
      | _ => s) s

/-- FIELD_IN. -/
def execFieldIn (crcBad : Bool) (s : State) : Host.Outcome State Fault Refusal := .next (fieldIn crcBad s)

/-- FIELD_IDLE_FROM_FB (R603). -/
def fieldIdle (s : State) : State :=
  hubReads (· == 0x12) false (fun _ s => s) (fun f s => match f with
    | .idle g => takePg g (fieldUp s)
    | _ => s) s

/-- FIELD_IDLE_FROM_FB. -/
def execFieldIdleFromFb (s : State) : Host.Outcome State Fault Refusal := .next (fieldIdle s)

/-- The unanswered frame with the given SEQ that the hub may send again. -/
def State.unanswered (s : State) (q : Nat) : Option HubFrame :=
  s.fio.waiting.findSome? fun w => if w.seq = q then w.frame else none

/-- FIELD_NAK: the hub resends the frame that the NAK names (R610), unless an INERT has followed it (R618, R619). -/
def fieldNak (s : State) : State :=
  hubReads (· == 0x13) false (fun _ s => s) (fun f s => match f with
    | .nak q g =>
      let s := takePg g (fieldUp s)
      match s.unanswered q with
      | some f => resent (s.sendFb f true)
      | none => s
    | _ => s) s

/-- FIELD_NAK. -/
def execFieldNak (s : State) : Host.Outcome State Fault Refusal := .next (fieldNak s)

/-- FIELD_BAD: a BAD frame from the FB, or a frame of no type that R603 lists (R611, R613). -/
def fieldBad (s : State) : State :=
  hubReads (fun t => t == 0x14 || fbLength t == 0) false (fun _ s => s) (fun f s => match f with
    | .bad q _ => badFrame 2 q (fieldUp s)
    | _ => s) s

/-- FIELD_BAD. -/
def execFieldBad (s : State) : Host.Outcome State Fault Refusal := .next (fieldBad s)

/-- The SEQ of the output frame whose answer cycle `n` uses. -/
def State.seqFor (s : State) (n : Nat) : Nat :=
  match s.fio.waiting.find? (fun w => !w.dead && (w.cyc + 2) % 2 ^ 64 == n) with
  | some w => w.seq
  | none => s.fld F.FIO_STAT_SEQ

/-- FIELD_TIMEOUT: the late frame is treated as bad (R612). -/
def fieldTimeout (s : State) : State :=
  match s.fio.late with
  | some n => if s.flag F.FIO_STAT_LATE then badFrame 4 (s.seqFor n) s else s
  | none => s

/-- FIELD_TIMEOUT. -/
def execFieldTimeout (s : State) : Host.Outcome State Fault Refusal := .next (fieldTimeout s)

/-- FIELD_CROSSING_DOWN (R613). -/
def fieldDown (s : State) : State :=
  if s.flag F.FIO_STAT_UP then
    let s := raise 308 (s.setFld F.FIO_STAT_UP 0)
    if s.fieldImage && (s.ctl.mode == .run || s.ctl.mode == .step || s.ctl.mode == .hold) then
      badFrame 5 (match s.fio.waiting.find? (fun w => !w.dead) with | some w => w.seq | none => s.fld F.FIO_STAT_SEQ) s
    else s
  else s

/-- FIELD_CROSSING_DOWN. -/
def execFieldCrossingDown (s : State) : Host.Outcome State Fault Refusal := .next (fieldDown s)

/-- An end that has sent nothing for 10 µs sends IDLE (R602). -/
def fieldIdleSend (hubEnd : Bool) (s : State) : State :=
  if !s.ctl.fieldPower then s
  else if hubEnd then s.sendShort .idle else s.fbSend (.idle s.fb.pgBits)

/-- FIELD_IDLE_SEND. -/
def execFieldIdleSend (hubEnd : Bool) (s : State) : Host.Outcome State Fault Refusal := .next (fieldIdleSend hubEnd s)

/-- A write of FIO_BANKn (R596, R597, R606): one that is ignored sets ERR and changes nothing else of the bank. -/
def bankWrite (n : Nat) (d : Word) (s : State) : State :=
  if 15 < n then s
  else
    let v := bits d.toNat 0 3
    let pg := s.flag (F.FIO_BANK_PG n)
    let sets := v ≠ s.fld (F.FIO_BANK_VSEL n) || (v ≠ 0 && !pg)
    let s' := { s with fio := { s.fio with cfgDue := NSet.ins s.fio.cfgDue n } }
    if 6 ≤ v || (sets && s.flag F.FIO_STAT_DRIVE && pg) then s'.setFld (F.FIO_BANK_ERR n) 1
    else
      let s' := plainWrite (A.FIO_BANK n) d s'
      let s' := if v = 0 then s'.setFlds [(F.FIO_BANK_PG n, 0), (⟨A.FIO_STAT, n, 1⟩, 0)] else s'
      if sets then { s' with fio := { s'.fio with start := NSet.ins s'.fio.start n } } else s'

/-- FIO_BANK_WRITE. -/
def execFioBankWrite (m n : Nat) (d : Word) (s : State) : Host.Outcome State Fault Refusal :=
  .next (regWrite m (A.FIO_BANK n) d (bankWrite n d) s)

/-- A write of FIO_CELLn (R606). -/
def cellWrite (n : Nat) (d : Word) (s : State) : State :=
  if 511 < n then s
  else
    let s := plainWrite (A.FIO_CELL n) d s
    { s with fio := { s.fio with cfgDue := NSet.ins s.fio.cfgDue (n / 32) } }

/-- FIO_CELL_WRITE. -/
def execFioCellWrite (m n : Nat) (d : Word) (s : State) : Host.Outcome State Fault Refusal :=
  .next (regWrite m (A.FIO_CELL n) d (cellWrite n d) s)

/-- CONFIG_SEND: the CONFIG frame of bank `n`, started only where it cannot delay an OUT frame (R603, R606). -/
def configSend (n : Nat) (s : State) : State :=
  if 15 < n || !s.ctl.fieldPower || !s.beforeOut 240 then s
  else
    let cells := (List.range 32).map fun i => s.reg (A.FIO_CELL (32 * n + i))
    let s := s.sendFb (.config n (s.fld (F.FIO_BANK_VSEL n)) cells)
    { s with fio := { s.fio with cfgDue := NSet.del s.fio.cfgDue n } }

/-- CONFIG_SEND. -/
def execConfigSend (n : Nat) (s : State) : Host.Outcome State Fault Refusal := .next (configSend n s)

/-- BANK_FAULT: the PG of a bank falls with VSEL unchanged (R601, R678). -/
def bankFault (n : Nat) (s : State) : State :=
  if NSet.has s.fb.pg n then
    let s := { s with fb := { s.fb with
      pg := NSet.del s.fb.pg n, faulted := NSet.ins s.fb.faulted n, broken := NSet.ins s.fb.broken n } }
    raise 307 (s.setFld (F.FIO_BANK_FAULT n) 1)
  else s

/-- BANK_FAULT. -/
def execBankFault (n : Nat) (s : State) : Host.Outcome State Fault Refusal := .next (bankFault n s)

/-- BANK_SUPPLY_GOOD: a supply that was set up has settled (R597). -/
def supplyGood (n : Nat) (s : State) : State :=
  if NSet.has s.fb.settling n then
    { s with fb := { s.fb with settling := NSet.del s.fb.settling n, pg := NSet.ins s.fb.pg n } }
  else s

/-- BANK_SUPPLY_GOOD. -/
def execBankSupplyGood (n : Nat) (s : State) : Host.Outcome State Fault Refusal := .next (supplyGood n s)

/-- The value a field output slot delivers in cycle `c` (R110, R608, R615): the IN bit of the frame in the buffer of the
cycle's parity. -/
def State.fieldBit (s : State) (c cell : Nat) : Bool :=
  match (if c % 2 = 0 then s.fio.even else s.fio.odd) with
  | some (_, i) => NSet.has i cell
  | none => false

end Sys2Proof.Machine
end

