-- ==== Sys2Proof/Machine/League.lean ====
section
/-! DEFINITION. Leagues: formation, tokens, the league vote, run control over the league, and the step clock's setting (R104,
R349 to R372). -/
namespace Sys2Proof.Machine

/-! ### Votes (R106, R361 to R365) -/

/-- The vote of a position at grain `g`, by the events accepted from it (R364). -/
def voteAt (evs : List VoteEv) (origin g : Nat) : Bool :=
  let mine := evs.filter fun (e : VoteEv) => e.origin == origin && e.g ≤ g
  let top (k : Nat) : Option Nat := ((mine.filter fun (e : VoteEv) => e.ek == k).map VoteEv.g).foldl
    (fun (m : Option Nat) x => some (match m with | some y => Nat.max y x | none => x)) none
  mine.any (fun (e : VoteEv) => e.ek == 4) ||
    (match top 1, top 2 with
     | some r, some f => f < r
     | some _, none => true
     | _, _ => false)

/-- Another member's vote at grain `g` (R109, R364). -/
def State.remoteVote (s : State) (g : Nat) : Bool :=
  (List.range s.leagueSize).any fun o => o != s.pos && voteAt s.lge.events o g

/-- The mask of local causes as it stood in grain `g` (R111). -/
def State.localMask (s : State) (g : Nat) : Nat := ((s.lge.causes.find? fun x => x.1 ≤ g).map (·.2)).getD 0

/-- TB_LEAGUE set (R353, R354, R372): votes that stand go on standing from its first grain, this member's own as it was last noted. At
formation no vote stands: a cause that does then makes its RISE in the first grain (R362, R364). -/
def rebase (t : Nat) (s : State) : State :=
  let top := s.lge.events.foldl (fun m (e : VoteEv) => Nat.max m e.g) 0
  let keep := ((List.range 64).filter fun o => o != s.pos && voteAt s.lge.events o top).map fun o =>
    (⟨if s.lge.events.any (fun (e : VoteEv) => e.origin == o && e.ek == 4) then 4 else 1, o, 0⟩ : VoteEv)
  { s with
    tim := { s.tim with league := BitVec.ofNat 64 t }
    lge := { s.lge with events := keep, causes := if s.forming then [] else [(0, (s.lge.causes.head?.map (·.2)).getD 0)] } }

/-- A case of R365: the record of R394, EV243, and SAFE at once. -/
def leagueLate (kind port origin : Nat) (s : State) : State :=
  enterSafe 4 (raise 243 (s.first F.LGE_LATE_VALID F.LGE_LATE_MORE
    [(F.LGE_LATE_KIND, kind), (F.LGE_LATE_PORT, port), (F.LGE_LATE_ORIGIN, origin)]))

/-- A lockstep error (R314, R344, R367). -/
def lockstepError (kind port group : Nat) (s : State) : State :=
  enterSafe 4 (raise (199 + 8 * port) (s.first F.LNK_LSTAT_VALID F.LNK_LSTAT_MORE
    [(F.LNK_LSTAT_KIND, kind), (F.LNK_LSTAT_PORT, port), (F.LNK_LSTAT_GROUP, group)]))

/-- The full value that agrees with `v` in its low 23 bits and lies nearest `now` (R361). -/
def nearest (now v : Nat) : Nat :=
  let m := 2 ^ 23
  let b := now / m * m + v % m
  if now + m / 2 < b then (if m ≤ b then b - m else b) else if b + m / 2 < now then b + m else b

/-! ### Sending -/

/-- Queue a TOKEN body on every league port but one (R358). -/
def State.relay (s : State) (but body copies : Nat) : State :=
  (s.leaguePorts.filter (· != but)).foldl (fun s n => (List.range copies).foldl (fun s _ => s.queueToken n body) s) s

/-- The bodies of R357, R367 and R370, bit 0 at word bit 16. -/
def CycleTok.body (t : CycleTok) : Nat :=
  0x01 * 2 ^ 192 + t.cycle % 2 ^ 64 * 2 ^ 128 + b2n t.stop * 2 ^ 127 + t.thr % 16 * 2 ^ 123 + b2n t.snap * 2 ^ 122 +
    t.snapid % 2 ^ 32 * 2 ^ 90 + t.rel % 4 * 2 ^ 88

/-- START. -/
def startBody (gs last : Nat) : Nat := 0x03 * 2 ^ 192 + gs % 2 ^ 64 * 2 ^ 128 + last % 2 ^ 64 * 2 ^ 64

/-- RATE. -/
def rateBody (mhz : Nat) : Nat := 0x04 * 2 ^ 192 + mhz % 4096 * 2 ^ 180

/-- TBSYNC; T is filled in when the word is issued (R372). -/
def tbsyncBody : Nat := 0x05 * 2 ^ 192

/-- FORM. -/
def formBody (r g w : Nat) : Nat := 0x06 * 2 ^ 192 + r % 2 ^ 64 * 2 ^ 128 + g % 2 ^ 64 * 2 ^ 64 + w % 2 ^ 64

/-- FORMED. -/
def formedBody (h mhz : Nat) : Nat := 0x07 * 2 ^ 192 + h % 65536 * 2 ^ 176 + mhz % 4096 * 2 ^ 164

/-- Slot bits as DATA bodies of at most 192 bits (R307); the first argument bounds their number. -/
def dataBodies : Nat → List Bool → List (Nat × Nat)
  | 0, _ => []
  | k + 1, l =>
    if l.isEmpty then []
    else (1, (l.take 192).length * 2 ^ 192 + bitsNat (l.take 192)) :: dataBodies k (l.drop 192)

/-- Queue the CYM of cycle `c` ahead of any slot bit of that cycle and behind those of the cycle before (R314). -/
def Grp.queueCym (g : Grp) (c : Nat) : Grp :=
  { g with bits := [], queue := g.queue ++ dataBodies g.bits.length g.bits ++ [(2, c % 2 ^ 64 * 2 ^ 136 + g.nsent % 2 ^ 18 * 2 ^ 118)] }

/-- The ACTIVE ports in league use. -/
def State.activePorts (s : State) : List Nat := s.leaguePorts.filter fun n => s.stage n == 4

/-- The CYM of cycle `c` on each group of each ACTIVE port in league use (R314). -/
def cymSend (c : Nat) (s : State) : State :=
  s.activePorts.foldl (fun s n =>
    let p := s.lane n
    s.setLane n { p with a := p.a.queueCym c, b := p.b.queueCym c }) s

/-- The count of slot bits begins again with each cycle. -/
def cymReset (s : State) : State :=
  s.activePorts.foldl (fun s n =>
    let p := s.lane n
    s.setLane n { p with a := { p.a with nsent := 0 }, b := { p.b with nsent := 0 } }) s

/-! ### The throttle's league level (R113, R119) -/

/-- A module's requested level: the larger of REQ, values above 8 taken as 8, and HWREQ. -/
def State.thrWanted (s : State) : Nat := Nat.max (Nat.min 8 (s.fld F.SFB_THR_REQ)) (s.fld F.SFB_THR_HWREQ)

/-- SFB_THR.LEAGUE is the largest request of any member: in a league what the other members request is a free value, since no path that
brings it here is given (assumption 28). -/
def updThr (s : State) : State :=
  if s.leagueSize ≤ 1 then s.setFld F.SFB_THR_LEAGUE s.thrWanted
  else
    let x := s.freshNat 32
    x.2.setFld F.SFB_THR_LEAGUE (Nat.max s.thrWanted (x.1 % 9))

/-! ### Formation (R349 to R356) -/

/-- Take one event slot of a VOTE accepted on a port: relay it, and act on it (R222, R261, R362 to R365). A FAULT brings a member to SAFE
from ARMED on (R29); that it may stem from a league broken in ARMED does not show in it (assumption 61). -/
def takeEvent (port slot : Nat) (s : State) : State :=
  let ek := bits slot 29 3
  let o := bits slot 23 6
  let p := s.lge.plan
  let g := nearest (if ek = 3 || ek = 5 then s.lge.cycle else s.grainNo) (bits slot 0 23)
  let e : VoteEv := ⟨ek, o, g⟩
  if ek = 0 || s.leagueSize ≤ o || distance p o s.pos ≠ distance p o (behind p s.pos port) + 1 || s.lge.events.contains e then s
  else
    let s := s.addVote e
    let s := (s.leaguePorts.filter fun n => distance p o s.pos < distance p o (behind p s.pos n)).foldl
      (fun s n => s.queueVote n e) s
    if ek = 3 then addLtrig g o s
    else if ek = 5 then (if s.isMaster then takeSnapReq s else s)
    else
      let late := g + s.H < s.grainNo
      let s :=
        if ek = 4 then
          let s := s.setFld F.SFB_HOLD_STAT_FAULT 1
          let s := if s.formed then
              let s := raise 242 (s.setFld F.LGE_STAT_STATE 2)
              if s.pos = 0 then formMessage 2 s else s
            else s
          if s.ctl.mode == .armed || s.ctl.mode == .run || s.ctl.mode == .step || s.ctl.mode == .hold then requestSafe 5 s else s
        else s
      if late then leagueLate 1 port o s else s

/-- The VOTE contents that came while FORMING take part from formation on (R364; DEDUCED, assumption 61). -/
def takeEarly (s : State) : State :=
  let l := s.lge.early
  l.foldl (fun s x => x.2.foldl (fun s e => takeEvent x.1 e s) s) { s with lge := { s.lge with early := [] } }

/-- The member becomes FORMED (R353, R354). -/
def becomeFormed (s : State) : State :=
  let s := raise 240 (s.setFld F.LGE_STAT_STATE 1)
  takeEarly (if s.pos = 0 then formMessage 0 s else s)

/-- Cycle number and TB_LEAGUE at 0 (R353, R354). -/
def zeroTime (s : State) : State :=
  let s := rebase 0 s
  { s with lge := { s.lge with cycle := 0 } }

/-- Write EN of port `n` as formation does (R349). -/
def formPort (n : Nat) (on : Bool) (s : State) : State :=
  lnkCtlWrite n (BitVec.ofNat 32 (putBits (s.reg (A.LNK_CTL n)).toNat 31 1 (b2n on))) s

/-- A valid start of formation (R349). A league of one is formed at once, with TB_LEAGUE held at 0 where it has no step clock yet (R354);
triggers on their way belong to cycles of the former count. Whatever source of wall time the new place brings is settled (R375), and ACQ_ALOFS is 0 until a
calibration (R268). -/
def startFormation (plan lid tmo : Nat) (s : State) : State :=
  let s := if s.ctl.mode == .armed then setMode .idle (discardImage s) else s
  let n := planCount plan
  let p := bits plan 13 6
  let plan := plan / 8192 * 8192
  let s := s.setFlds [(F.LGE_STAT_STATE, 0), (F.LGE_STAT_MASTER, b2n (p == 0)), (F.LGE_STAT_REFLOCK, 0),
    (F.LGE_STAT_UPPORT, upstream plan p), (F.LGE_STAT_DIAM, diameter plan), (F.LGE_STAT_SIZE, n), (F.SFB_HORIZON_H, 8),
    (F.SFB_HOLD_STAT_FAULT, 0), (F.SFB_HOLD_STAT_REMOTE, 0), (F.ACQ_ALOFS_OFS, 0)]
  let s := ((s.setReg A.LGE_PLAN (BitVec.ofNat 32 plan)).setReg A.LGE_LID (BitVec.ofNat 32 lid)).setFld F.LGE_TMO_MS tmo
  let s := { s with
   lanes := s.lanes.map fun (p : LanePort) => { p with evseq := none, vrx := [] }
   acq := { s.acq with lgs := [], lgNow := none }
   lge := { s.lge with
    ready := if n = 1 then 1 else 0, gradebad := 0, wrong := 0, reported := none, tbsyncDue := false, rated := false
    needSync := n = 1 && (s.fld F.SFB_CLK_MHZ = 0 || !s.flag F.SFB_CLK_LOCK)
    plan := plan, lid := lid, events := [], causes := [], early := [], tok := none, start := none, begun := none, last := none } }
  let s := (List.range 6).foldl (fun s k => formPort k (s.topoPorts.contains k) s) s
  let s := updThr (selectSource ((List.range 6).foldl (fun s k => portCheck k s) s))
  if n = 1 then becomeFormed (zeroTime s) else s

/-- A new formation of the settings plan once the module is in IDLE with its league broken (R356). -/
def autoForm (s : State) : State :=
  if s.ctl.mode == .idle && s.fld F.LGE_STAT_STATE == 2 && s.flag F.LGE_CTL_AUTO then
    let c := s.mgt.settings
    let plan := leNat (Mem.read c 12 4)
    if planOk plan then startFormation plan (leNat (Mem.read c 16 4)) (leNat (Mem.read c 20 2)) s else s
  else s

/-- Enter IDLE. -/
def enterIdle (s : State) : State := autoForm (setMode .idle s)

/-- What happens at the end of BOOT (R349): the settings plan under AUTO, else a league of one. -/
def bootFormation (s : State) : State :=
  let c := s.mgt.settings
  let plan := leNat (Mem.read c 12 4)
  if s.flag F.LGE_CTL_AUTO && planOk plan then startFormation plan (leNat (Mem.read c 16 4)) (leNat (Mem.read c 20 2)) s
  else
    let p := s.reg A.LGE_PLAN
    let l := s.reg A.LGE_LID
    let s := startFormation 0 0 (s.fld F.LGE_TMO_MS) s
    (s.setReg A.LGE_PLAN p).setReg A.LGE_LID l

/-- LGE_FORM (R349, R384). -/
def execLgeForm (msg : Msg) (s : State) : Host.Outcome State Fault Refusal :=
  .next (request msg { op := 0x0900, len := (· == 10), claim := true, mode := fun s => s.ctl.mode == .idle || s.ctl.mode == .armed }
    (fun _ p s =>
      if planOk (leAt p 0 4) then (0, [], startFormation (leAt p 0 4) (leAt p 4 4) (leAt p 8 2) s) else (0x0981, [], s)) s)

/-- A write of LGE_CTL (R349, R386). -/
def lgeCtlWrite (d : Word) (s : State) : State :=
  let s := plainWrite A.LGE_CTL d s
  let plan := (s.reg A.LGE_PLAN).toNat
  if bit d.toNat 0 && (s.ctl.mode == .idle || s.ctl.mode == .armed) && planOk plan then
    startFormation plan (s.reg A.LGE_LID).toNat (s.fld F.LGE_TMO_MS) s
  else s

/-- LGE_CTL_FORM. -/
def execLgeCtlForm (m : Nat) (d : Word) (s : State) : Host.Outcome State Fault Refusal :=
  .next (regWrite m A.LGE_CTL d (lgeCtlWrite d) s)

/-- This member's own bits of the masks (R352). -/
def ownMasks (s : State) : State :=
  let all := s.topoPorts.all fun n => s.portCode n == 2
  let me := 2 ^ s.pos
  let ready := if all && (s.pos = 0 || s.flag F.LGE_STAT_REFLOCK) then me else 0
  let at_ (n : Nat) : Nat := 2 ^ behind s.lge.plan s.pos n
  let grade := (s.topoPorts.filter fun n => s.portCode n == 3).foldl (fun m n => m ||| at_ n) 0
  let wrong := (s.topoPorts.filter fun n => 4 ≤ s.portCode n).foldl
    (fun m n => m ||| at_ n ||| (if s.portCode n = 6 then me else 0)) 0
  { s with lge := { s.lge with
    ready := s.lge.ready ||| ready, gradebad := s.lge.gradebad ||| grade, wrong := s.lge.wrong ||| wrong } }

/-- The master completes formation when READY is full (R353, R354). -/
def tryComplete (s : State) : State :=
  if s.forming && s.pos = 0 && !s.lge.tbsyncDue && s.lge.ready == 2 ^ s.leagueSize - 1 then
    let h := s.fld F.LGE_STAT_DIAM * s.fld F.LNK_NHOP_GRAINS + 8
    let mhz := if s.flag F.SFB_CLK_LOCK then s.fld F.SFB_CLK_MHZ else 0
    let s := (s.setFld F.SFB_HORIZON_H h).relay 6 (formedBody h mhz) 1
    if mhz = 0 then becomeFormed { (zeroTime s) with lge := { (zeroTime s).lge with needSync := true } }
    else { s with lge := { s.lge with tbsyncDue := true } }
  else s

/-- FORM_TOKEN_SEND: every 10 µs while FORMING (R352). -/
def formTokenSend (s : State) : State :=
  if s.forming then
    let s := ownMasks s
    tryComplete (s.relay 6 (formBody s.lge.ready s.lge.gradebad s.lge.wrong) 1)
  else s

/-- FORM_TOKEN_SEND. -/
def execFormTokenSend (s : State) : Host.Outcome State Fault Refusal := .next (formTokenSend s)

/-- A received FORM token (R352). -/
def formReceive (port r g w : Nat) (s : State) : State :=
  if s.forming && s.portCode port == 2 then
    let s := { s with lge := { s.lge with
      ready := s.lge.ready ||| r, gradebad := s.lge.gradebad ||| g, wrong := s.lge.wrong ||| w } }
    tryComplete (ownMasks s)
  else s

/-- TOKEN_FORM. -/
def execTokenForm (port : Nat) (ready gradebad wrong : BitVec 64) (s : State) : Host.Outcome State Fault Refusal :=
  .next (formReceive port ready.toNat gradebad.toNat wrong.toNat s)

/-- The port is the upstream port of a member and in league use: the one tree kinds are taken from (R359). -/
def State.fromTree (s : State) (port : Nat) : Bool :=
  1 < s.leagueSize && port == s.fld F.LGE_STAT_UPPORT && s.portCode port == 2

/-- A frequency taken over from the master (R353, R371). -/
def takeRate (mhz : Nat) (s : State) : State :=
  let s := s.setFlds [(F.SFB_CLK_MHZ, mhz), (F.SFB_CLK_LOCK, 0)]
  { s with lge := { s.lge with wasLocked := false } }

/-- A received FORMED token (R353, R354). -/
def formedReceive (port h mhz : Nat) (s : State) : State :=
  if s.fromTree port && s.forming && !s.lge.tbsyncDue then
    let s := (s.setFld F.SFB_HORIZON_H h).relay port (formedBody h mhz) 1
    if mhz = 0 then
      let s := takeRate 0 (zeroTime s)
      becomeFormed { s with lge := { s.lge with needSync := true } }
    else
      let s := if mhz = s.fld F.SFB_CLK_MHZ then s else takeRate mhz s
      { s with lge := { s.lge with tbsyncDue := true } }
  else s

/-- TOKEN_FORMED. -/
def execTokenFormed (port h mhz : Nat) (s : State) : Host.Outcome State Fault Refusal := .next (formedReceive port h mhz s)

/-- TBSYNC_SEND: 1 ms after FORMED or RATE (R353, R371). One that a RATE has preceded raises EV244, the one that ends formation EV240; where
a league of one was formed with no step clock TB_LEAGUE, held at 0 so far, runs from here (R354). -/
def tbsyncSend (s : State) : State :=
  if s.lge.tbsyncDue && s.isMaster then
    let rated := s.lge.rated
    let s := { s with lge := { s.lge with tbsyncDue := false, needSync := false, rated := false } }
    if s.forming then raiseIf rated 244 (becomeFormed ((zeroTime s).relay 6 tbsyncBody 1))
    else raise 244 (s.relay 6 tbsyncBody 1)
  else s

/-- TBSYNC_SEND. -/
def execTbsyncSend (s : State) : Host.Outcome State Fault Refusal := .next (tbsyncSend s)

/-- The number of whole grains nearest to a time in ps at the present frequency; a half rounds upward (R372, assumption 20). -/
def State.grainsOf (s : State) (ps : Int) : Int := (2 * ps * (s.fld F.SFB_CLK_MHZ : Int) + 1000000) / 2000000

/-- A received TBSYNC (R353, R354, R371, R372); a step PLL still unlocked puts the member in SAFE. -/
def tbsyncReceive (port t : Nat) (s : State) : State :=
  if s.fromTree port && s.lge.tbsyncDue then
    let form := s.forming
    let rated := s.lge.rated
    let s := rebase (unsgn 64 ((t : Int) + s.grainsOf (s.delay port))) s
    let s := { s with lge := { s.lge with
      tbsyncDue := false, needSync := false, rated := false, cycle := if form then 0 else s.lge.cycle } }
    let s := s.relay port tbsyncBody 1
    let s := if form then raiseIf rated 244 (becomeFormed s) else raise 244 s
    if s.flag F.SFB_CLK_LOCK then s else enterSafe 7 s
  else s

/-- TOKEN_TBSYNC. -/
def execTokenTbsync (port t : Nat) (s : State) : Host.Outcome State Fault Refusal := .next (tbsyncReceive port t s)

/-- The masks as reported: MISS, GRADEBAD, WRONG (R355). -/
def State.masks (s : State) : Nat × Nat × Nat :=
  let all := 2 ^ s.leagueSize - 1
  (all - (s.lge.ready &&& all), s.lge.gradebad, s.lge.wrong)

/-- LGE_TMO milliseconds without FORMED: reported first, and again when a mask has changed (R355). -/
def formationTimeout (s : State) : State :=
  if s.forming then
    let s := ownMasks s
    if s.lge.reported = some s.masks then s
    else
      let m := s.masks
      let s := ((s.setPair A.LGE_MISSLO A.LGE_MISSHI m.1).setPair A.LGE_GRADELO A.LGE_GRADEHI m.2.1).setPair A.LGE_WRONGLO
        A.LGE_WRONGHI m.2.2
      let s := raise 241 { s with lge := { s.lge with reported := some m } }
      if s.pos = 0 then formMessage 1 s else s
  else s

/-- FORMATION_TIMEOUT. -/
def execFormationTimeout (s : State) : Host.Outcome State Fault Refusal := .next (formationTimeout s)

/-- REFLOCK: pull-in to the upstream port's clock is complete (R347). -/
def reflock (s : State) : State :=
  if s.fromTree (s.fld F.LGE_STAT_UPPORT) then s.setFld F.LGE_STAT_REFLOCK 1 else s

/-- REFLOCK. -/
def execReflock (s : State) : Host.Outcome State Fault Refusal := .next (reflock s)

/-! ### Events between members (R361 to R365) -/

/-- A received VOTE (R357, R361, R363): content held already is ignored (R359). A neighbour may be FORMED before this member: what it sends
by then is held until this member is (R364; DEDUCED, assumption 61). -/
def voteReceive (port vseq : Nat) (slots : List Nat) (s : State) : State :=
  let p := s.lane port
  if s.leagueSize ≤ 1 || s.portCode port ≠ 2 || p.vrx.contains (vseq % 256) then s
  else if slots.any fun x => 6 ≤ bits x 29 3 then toDetect port 11 s
  else
    let s := s.setLane port { p with vrx := (vseq % 256 :: p.vrx).take 128 }
    if s.forming then { s with lge := { s.lge with early := s.lge.early ++ [(port, slots.take 5)] } }
    else (slots.take 5).foldl (fun s x => takeEvent port x s) s

/-- TOKEN_VOTE. -/
def execTokenVote (port vseq : Nat) (slots : List (BitVec 32)) (s : State) : Host.Outcome State Fault Refusal :=
  .next (autoForm (voteReceive port vseq (slots.map BitVec.toNat) s))

/-! ### Run control over the league (R367 to R371) -/

/-- A CYCLE token that names a snapshot makes it pending on a member until the boundary (R222, R240), and where the snapshot region does
not exist it is created (R20). A member whose snapshot is still held has none pending: it keeps the one it holds (assumption 56). -/
def snapNamed (t : CycleTok) (s : State) : State :=
  if !t.snap || s.snp.snap.isSome then s
  else match if (s.region 6).isSome then some s else s.create 6 (s.partFor ((s.copyMi + 16 * s.logMi) * 0x100000)) with
    | none => s
    | some s =>
      { s with snp := { s.snp with lastId := t.snapid, pend := some (some t.cycle) } }.setFlds
        [(F.SNP_ID_SNAPID, t.snapid), (F.SNP_STAT_STATE, 1), (F.SNP_STAT_FIELDOK, 0), (F.SNP_UNDO_ENTRIES, 0)]

/-- A received CYCLE token (R358, R367): relayed, and kept for its boundary grain, in a broken league too while it runs on to its hold;
another cycle is a lockstep error. A member that is FORMING executes no cycle and only relays it. -/
def cycleReceive (port : Nat) (t : CycleTok) (s : State) : State :=
  if !s.fromTree port || s.lge.tok = some t then s
  else
    let s := s.relay port (CycleTok.body t) 2
    if s.forming then s
    else if t.cycle ≠ s.lge.cycle then lockstepError 1 port 0 s else snapNamed t { s with lge := { s.lge with tok := some t } }

/-- TOKEN_CYCLE. -/
def execTokenCycle (port : Nat) (tok : CycleTok) (s : State) : Host.Outcome State Fault Refusal := .next (cycleReceive port tok s)

/-- A START that is taken: RUN, or STEP in a burst; the step clock starts at grain GS (R631). -/
def startMode (gs last : Nat) (s : State) : State :=
  let s := { s with
    lge := { s.lge with start := some (gs, last) }
    ctl := { s.ctl with burst := last ≠ 2 ^ 64 - 1, left := if last = 2 ^ 64 - 1 then 0 else last + 1 - s.lge.cycle, stopReq := false } }
  setMode (if last = 2 ^ 64 - 1 then .run else .step) s

/-- A received START token (R358, R365, R370): relayed whatever comes of it; a broken league does not start (R356). The CYM of the next cycle to execute goes out before the first grain (R314). -/
def startReceive (port gs last : Nat) (s : State) : State :=
  if !s.fromTree port || s.lge.start = some (gs, last) || s.lge.begun = some (gs, last) then s
  else
    let s := s.relay port (startBody gs last) 2
    if !s.formed then s
    else if gs ≤ s.grainNo then leagueLate 4 port 0 s
    else
      let t := if s.ctl.mode == .armed || s.stepStopped then startMode gs last s else { s with lge := { s.lge with start := some (gs, last) } }
      cymSend t.lge.cycle t

/-- TOKEN_START. -/
def execTokenStart (port gs last : Nat) (s : State) : Host.Outcome State Fault Refusal := .next (startReceive port gs last s)

/-- Grain GS has come: the step clock runs (R28, R370). -/
def runStart (s : State) : State :=
  match s.lge.start with
  | some (gs, last) =>
    if s.flag F.SFB_CLK_LOCK && s.grainNo = gs && !s.ctl.clock && (s.ctl.mode == .run || s.ctl.mode == .step && s.ctl.burst) then
      { s with
        lge := { s.lge with start := none, begun := some (gs, last), last := if last = 2 ^ 64 - 1 then none else some last }
        ctl := { s.ctl with clock := true } }
    else s
  | none => s

/-- RUN_START. -/
def execRunStart (s : State) : Host.Outcome State Fault Refusal := .next (runStart s)

/-- A received RATE token (R371), from FORMED on, in a broken league too (R104); while its TBSYNC is due the same RATE is content already
held (R359). Before FORMED it is only relayed (R358). -/
def rateReceive (port mhz : Nat) (s : State) : State :=
  if !s.fromTree port || (s.lge.tbsyncDue && mhz = s.fld F.SFB_CLK_MHZ) then s
  else if s.forming && !s.lge.tbsyncDue then s.relay port (rateBody mhz) 1
  else
    let s := (takeRate mhz s).relay port (rateBody mhz) 1
    { s with lge := { s.lge with tbsyncDue := true, rated := true } }

/-- TOKEN_RATE. -/
def execTokenRate (port mhz : Nat) (s : State) : Host.Outcome State Fault Refusal := .next (rateReceive port mhz s)

/-! ### The step clock's setting (R104, R118, R354) -/

/-- A write of SFB_CLK: accepted, or ignored with the reason in ERR. Each accepted change goes out as RATE, once FORMED has, which carries
the setting of its own moment (R104, R353, R371). -/
def sfbClkWrite (d : Word) (s : State) : State :=
  let mhz := bits d.toNat 0 12
  if mhz < 250 || s.fuses.grade.maxMhz < mhz then s.setFld F.SFB_CLK_ERR 1
  else if s.ctl.clock then s.setFld F.SFB_CLK_ERR 2
  else if !s.isMaster then s.setFld F.SFB_CLK_ERR 3
  else
    let s := (takeRate mhz s).setFld F.SFB_CLK_ERR 0
    if s.forming && !s.lge.tbsyncDue then s
    else { s with lge := { s.lge with tbsyncDue := true, rated := true } }.relay 6 (rateBody mhz) 1

/-- SFB_CLK_WRITE. -/
def execSfbClkWrite (m : Nat) (d : Word) (s : State) : Host.Outcome State Fault Refusal :=
  .next (regWrite m A.SFB_CLK d (sfbClkWrite d) s)

/-- STEP_PLL_LOCK: the step PLL locks at the frequency set. -/
def stepPllLock (s : State) : State :=
  if s.fld F.SFB_CLK_MHZ = 0 || !s.ctl.corePower then s
  else { s.setFld F.SFB_CLK_LOCK 1 with lge := { s.lge with wasLocked := true } }

/-- STEP_PLL_LOCK. -/
def execStepPllLock (s : State) : Host.Outcome State Fault Refusal := .next (stepPllLock s)

/-- LGE_QUERY (R384): LGE_STAT, LGE_PSTAT, the three masks, the cycle number and SFB_HORIZON. -/
def execLgeQuery (msg : Msg) (s : State) : Host.Outcome State Fault Refusal :=
  .next (request msg { op := 0x0901, mode := fun s => s.ctl.corePower }
    (fun _ _ s => (0, leBytes 4 (s.reg A.LGE_STAT).toNat ++ leBytes 4 (s.reg A.LGE_PSTAT).toNat ++
      leBytes 8 (s.pair A.LGE_MISSLO A.LGE_MISSHI) ++ leBytes 8 (s.pair A.LGE_GRADELO A.LGE_GRADEHI) ++
      leBytes 8 (s.pair A.LGE_WRONGLO A.LGE_WRONGHI) ++ leBytes 8 s.lge.cycle ++ leBytes 4 (s.reg A.SFB_HORIZON).toNat, s)) s)

/-! ### Commands of the lane ports that can break the league -/

/-- STAGE_TIMEOUT. -/
def execStageTimeout (port : Nat) (s : State) : Host.Outcome State Fault Refusal := .next (autoForm (stageTimeout port s))

/-- LANE_LOST. -/
def execLaneLost (port : Nat) (s : State) : Host.Outcome State Fault Refusal := .next (autoForm (laneLost port s))

/-- LNK_RETRAIN. -/
def execLnkRetrain (m port : Nat) (d : Word) (s : State) : Host.Outcome State Fault Refusal :=
  .next (regWrite m (A.LNK_CTL port) d (fun s => autoForm (lnkCtlWrite port d s)) s)

/-- LNK_ENABLE. -/
def execLnkEnable (m port : Nat) (d : Word) (s : State) : Host.Outcome State Fault Refusal :=
  .next (regWrite m (A.LNK_CTL port) d (fun s => autoForm (lnkCtlWrite port d s)) s)

end Sys2Proof.Machine
end

