-- ==== Sys2Proof/Machine/Loader.lean ====
section
/-! DEFINITION. The image loader: load and staging requests, progress of the checks as bytes arrive, refusal, and completion
(R189 to R206). -/
namespace Sys2Proof.Machine

/-! ### What the checks need of the module -/

/-- The module as the checks see it (R187, R188, R192). -/
def State.site (s : State) (staging verified : Bool) : Site where
  grade := s.fuses.grade
  plan := if s.fld F.LGE_STAT_STATE = 1 then some s.lge.plan else none
  h := s.H
  signreq := bit (leNat (Mem.read s.mgt.settings 9 1)) 0
  ikeys := (List.range 4).map fun k => Mem.read s.mgt.settings (512 + 2048 * k) 2048
  staging := staging
  verified := verified

/-- The sum of FKMAX of the image's channels (R468). -/
def fkmaxSum (b : List Byte) : Nat := ((chanDescs (sectOf (parseTable b) b 7)).map (·.fkmax)).foldl (· + ·) 0

/-- The NoC base of a region, if it exists (R513). -/
def State.baseOf (s : State) (k : Nat) : Option Nat := (s.region k).map fun x => regionAddr x.1 x.2 0

/-- The bases of an image being loaded, or those a staging assumes for the regions the image will create. -/
def State.bases (s : State) (staging : Bool) (b : List Byte) : Bases where
  hbmdm := if staging then (if bit (parseHeader b).flags 1 then some 0x10000000000 else none) else s.baseOf 1
  firkin := if staging then (if fkmaxSum b = 0 then none else some 0x10000000000) else s.baseOf 8
  spare := s.fuses.spare

/-! ### Progress -/

/-- The bytes that phase 1 waits for: header and section table, or the whole of a shorter image. -/
def Intake.headLen (t : Intake) : Nat :=
  Nat.min t.length (if t.bytes.length < 256 then 256 else 256 + 32 * Nat.min (parseHeader t.bytes).nsect 1024)

/-- Create the HBM design-memory region that an image states (R191, R513): none when it cannot be created. -/
def createDesign (mib : Nat) (s : State) : Option State :=
  if mib = 0 then some s
  else if mib % (2 * s.fuses.grade.stacks) ≠ 0 then none
  else s.create 1 (mib / (2 * s.fuses.grade.stacks))

/-- Write the stores that a section holds, with fresh parity (R8, R183, R184, R191). -/
def writeStores (l : Nat) (x : Sect) (d : List Byte) (s : State) : State :=
  match x.type with
  | 1 => { s with arr := { s.arr with
      instr := (instrMap x.die l d).foldr (fun e m => SMap.set 0 m e.1 e.2) s.arr.instr
      badInstr := s.arr.badInstr.filter fun k => k / 0x20000000 ≠ x.die } }
  | 2 => { s with arr := { s.arr with
      dict := (recs 2 d).zipIdx.foldr (fun e m => SMap.set 0 m (x.die * 131072 + e.2) e.1) s.arr.dict
      badDict := s.arr.badDict.filter fun k => k / 131072 ≠ x.die } }
  | 3 =>
    let l := (recs 16 d).map (emitRec x.die)
    { s with arr := { s.arr with
        emit := l.foldr (fun r m => SMap.set 0 m r.at_ r.entry) s.arr.emit, badEmit := s.arr.badEmit.filter fun k => l.all fun r => r.at_ ≠ k } }
  | 4 =>
    let m := ((recs 8 d).map hubRec).foldr (fun r m => SMap.set 0 m (r.input * 2048 + r.step) r.entry) s.arr.hubEmit
    { s with arr := { s.arr with hubEmit := m, badHub := [] } }
  | _ => s

/-- Record the outcome of a check in the load in progress. -/
def State.setTake (s : State) (t : Intake) : State :=
  { s with ldr := { s.ldr with loading := s.ldr.loading.map fun x => { x with take := t } } }

/-- The stray bytes after the last section (R179). -/
def trailing (b : List Byte) : Bool :=
  let h := parseHeader b
  let x := parseSect b (h.nsect - 1)
  allZero (b.drop (x.off + x.len))

/-- One check of the load, if enough bytes are in (R191): phase 1, the next section, or phase 3. A load from a VERIFIED slot makes
the checks that a staging leaves to it, and no other (R195). -/
def loadStep (x : Loading) (s : State) : State :=
  let t := x.take
  let v := s.site false x.slot.isSome
  if t.fault.isSome || t.ready then s
  else if t.at_ = 0 then
    if t.bytes.length < t.headLen then s
    else match phase1 v t.length t.bytes with
      | some r => s.setTake { t with fault := some r }
      | none =>
        match createDesign (parseHeader t.bytes).hbmMib s with
        | none => s.setTake { t with fault := some (rep 0x0506 1) }
        | some s => (s.setTake { t with at_ := 1 }).setFld F.LDR_STAT_PHASE 2
  else
    let h := parseHeader t.bytes
    if t.at_ ≤ h.nsect then
      let x := parseSect t.bytes (t.at_ - 1)
      if t.bytes.length < x.off + x.len then s
      else match phase2 v t.bytes (t.at_ - 1) with
        | some r => s.setTake { t with fault := some r }
        | none =>
          let n := if x.type = 7 then fkmaxSum t.bytes else 0
          match (if n = 0 then some s else s.create 8 (s.partFor (4096 * n))) with
          | none => s.setTake { t with fault := some { rep 0x0506 2 with index := some (t.at_ - 1) } }
          | some s => (writeStores h.l x (x.bytes t.bytes) s).setTake { t with at_ := t.at_ + 1 }
    else if t.bytes.length < t.length then s
    else
      let s := s.setFld F.LDR_STAT_PHASE 3
      if !v.verified && !trailing t.bytes then s.setTake { t with fault := some (rep 0x0505 2) }
      else match phase3 v (s.bases false t.bytes) t.bytes with
        | some r => s.setTake { t with fault := some r }
        | none => s.setTake { t with ready := true }

/-- As many checks of the load as the bytes allow; the first argument bounds their number. -/
def loadProgress : Nat → State → State
  | 0, s => s
  | n + 1, s =>
    match s.ldr.loading with
    | none => s
    | some x => loadProgress n (loadStep x s)

/-- Bytes of the load stream arrive (R34, R191, R210). -/
def loadBytes (d : List Byte) (s : State) : State :=
  match s.ldr.loading with
  | none => s
  | some x =>
    let t := { x.take with bytes := (x.take.bytes ++ d).take x.take.length }
    loadProgress 1030 ((s.setTake t).setFld F.LDR_PROG_UNITS (t.bytes.length / 65536))

/-- The result of a staging's checks (R195). -/
def stageCheck (t : Intake) (s : State) : Intake :=
  let v := s.site true false
  if t.bytes.length < t.headLen then t
  else match phase1 v t.length t.bytes with
    | some r => { t with fault := some r }
    | none =>
      let n := (parseHeader t.bytes).nsect
      let held := (List.range n).filter fun i => let x := parseSect t.bytes i; x.off + x.len ≤ t.bytes.length
      match held.findSome? (fun i => phase2 v t.bytes i) with
      | some r => { t with fault := some r }
      | none =>
        if t.bytes.length < t.length then t
        else if !trailing t.bytes then { t with fault := some (rep 0x0505 2) }
        else match phase3 v (s.bases true t.bytes) t.bytes with
          | some r => { t with fault := some r }
          | none => { t with ready := true }

/-- Bytes of a staging stream arrive: they go to the slot's region (R195). -/
def stageBytes (k : Nat) (d : List Byte) (s : State) : State :=
  match s.ldr.stagings.find? (fun (x : Staging) => x.slot == k) with
  | none => s
  | some x =>
    let d := d.take (x.take.length - x.take.bytes.length)
    let s := s.putRegion (2 + k) x.take.bytes.length d
    let t := stageCheck { x.take with bytes := x.take.bytes ++ d } s
    { s with ldr := { s.ldr with stagings := s.ldr.stagings.map fun (y : Staging) => if y.slot == k then { y with take := t } else y } }

/-! ### Requests (R189, R190) -/

/-- The counters and first-occurrence records of the ARR, SFB and DMC blocks, and the array counters (R190, R577), by block and
offset. -/
def loadClears (a : Nat) : Bool :=
  let o := a % 65536
  match a / 65536 with
  | 0 => o < 8 || (0x14 ≤ o && o < 0x28) || (0x30 ≤ o && o < 0x3C)
  | 1 => (0x20 ≤ o && o < 0x2C) || (0x30 ≤ o && o < 0x38) || (0x100 ≤ o && o < 0x158)
  | 2 => (0x10 ≤ o && o < 0x18) || (0x20 ≤ o && o < 0x3C) || (0x40 ≤ o && o < 0x4C) || (0x50 ≤ o && o < 0x68)
  | 17 => 0x420 ≤ o && o < 0x440
  | _ => false

/-- Begin a load (R189, R190, R201, R373): from the host, or from a staging slot. -/
def beginLoad (session length : Nat) (slot : Option Nat) (s : State) : State :=
  let s := discardImage s
  let s := { s with
    regs := s.regs.filter fun x => !loadClears x.1
    tim := { s.tim with td := List.replicate 16 0 }
    arr := Arr.reset
    ldr := { s.ldr with loading := some ⟨session, slot, ⟨length, [], 0, none, false⟩⟩ } }
  let s := s.setFlds [(F.LDR_STAT_STATE, 1), (F.LDR_STAT_SRC, b2n slot.isSome), (F.LDR_STAT_SLOT, slot.getD 0), (F.LDR_STAT_PHASE, 1),
    (F.LDR_STAT_SIGNED, 0), (F.LDR_PROG_UNITS, 0)]
  setMode .load s

/-- IDLE or ARMED. -/
def loadModes (s : State) : Bool := s.ctl.mode == .idle || s.ctl.mode == .armed

/-- LOAD_BEGIN: image bytes follow as stream data. -/
def execLoadBegin (msg : Msg) (s : State) : Host.Outcome State Fault Refusal :=
  .next (request msg { op := 0x0500, optical := true, len := fun n => n == 8, claim := true, mode := loadModes }
    (fun x p s => ok ((beginLoad x.num (leAt p 0 8) none s).openIn x.num .load 0x0500 (leAt p 0 8))) s)

/-- A staging slot number of a request. -/
def slotOk (p : List Byte) : Bool := leAt p 0 1 ≤ 3

/-- LOAD_STAGED: the staged bytes are taken at once. -/
def loadStaged (n k : Nat) (s : State) : Nat × List Byte × State :=
  if s.ldr.stagings.any (fun (x : Staging) => x.slot == k) then (0x581, [], s)
  else if !(s.flag (F.LDR_SLOT_VALID k) && s.flag (F.LDR_SLOT_VERIFIED k)) then (0x580, [], s)
  else
    let len := SMap.get 0 s.ldr.staged k
    let r := hubRead (2 + k) 0 (s.getRegion (2 + k) 0 len) ((beginLoad n len (some k) s).setFld (F.LDR_SLOT_INUSE k) 1)
    ok (loadBytes r.1 r.2)

/-- LOAD_STAGED. A slot above 3 is a payload fault (DESIGN CHOICE, assumption 25). -/
def execLoadStaged (msg : Msg) (s : State) : Host.Outcome State Fault Refusal :=
  .next (request msg { op := 0x0501, optical := true, len := fun n => n == 1, zeros := slotOk, claim := true, mode := loadModes }
    (fun x p s => loadStaged x.num (leAt p 0 1) s) s)

/-- Refuse the load in progress: everything discarded, the return to IDLE, and then EV74 and the event message (R189, R194). -/
def endLoad (r : Report) (s : State) : State :=
  match s.ldr.loading with
  | some ld => tellRefusal ld r (enterIdle (dropLoad ld r s))
  | none => s

/-- LOAD_ABORT. -/
def execLoadAbort (msg : Msg) (s : State) : Host.Outcome State Fault Refusal :=
  .next (request msg { op := 0x0502, optical := true, claim := true, mode := fun s => s.ctl.mode == .load }
    (fun _ _ s => ok (endLoad (rep 0x0511 0) s)) s)

/-- UNLOAD. -/
def execUnload (msg : Msg) (s : State) : Host.Outcome State Fault Refusal :=
  .next (request msg { op := 0x0503, optical := true, claim := true, mode := fun s => s.ctl.mode == .armed }
    (fun _ _ s => ok (enterIdle (discardImage s))) s)

/-- The modes of the staging requests. -/
def stageModes (s : State) : Bool :=
  s.ctl.mode == .idle || s.ctl.mode == .load || s.ctl.mode == .armed || s.ctl.mode == .run || s.ctl.mode == .step || s.ctl.mode == .hold

/-- A slot is being staged or loaded from. -/
def State.slotBusy (s : State) (k : Nat) : Bool :=
  s.ldr.stagings.any (fun (x : Staging) => x.slot == k) || (match s.ldr.loading with | some x => x.slot == some k | none => false)

/-- Empty a slot and free its region. -/
def emptySlot (k : Nat) (s : State) : State :=
  let s := (s.free (2 + k)).clearRegs [A.LDR_SLOT k]
  { s with ldr := { s.ldr with staged := SMap.set 0 s.ldr.staged k 0 } }

/-- STAGE_BEGIN (R189, R195). -/
def stageBegin (n k len : Nat) (s : State) : Nat × List Byte × State :=
  if s.slotBusy k then (0x581, [], s)
  else
    let e := emptySlot k s
    match e.create (2 + k) (e.partFor len) with
    | none => (0x582, [], s)
    | some e =>
      let e := e.setFlds [(F.LDR_SLOT_INUSE k, 1), (F.LDR_SLOT_SIZE k, e.partFor len * 2 * s.fuses.grade.stacks)]
      let e := { e with ldr := { e.ldr with stagings := e.ldr.stagings ++ [(⟨k, n, ⟨len, [], 0, none, false⟩⟩ : Staging)] } }
      ok (e.openIn n (.stage k) 0x0504 len)

/-- STAGE_BEGIN. -/
def execStageBegin (msg : Msg) (s : State) : Host.Outcome State Fault Refusal :=
  .next (request msg { op := 0x0504, optical := true, len := fun n => n == 16, zeros := fun p => slotOk p && leAt p 1 7 == 0,
                       claim := true, mode := stageModes }
    (fun x p s => stageBegin x.num (leAt p 0 1) (leAt p 8 8) s) s)

/-- STAGE_DELETE. -/
def execStageDelete (msg : Msg) (s : State) : Host.Outcome State Fault Refusal :=
  .next (request msg { op := 0x0505, optical := true, len := fun n => n == 1, zeros := slotOk, claim := true, mode := stageModes }
    (fun _ p s => if s.slotBusy (leAt p 0 1) then (0x581, [], s) else ok (emptySlot (leAt p 0 1) s)) s)

/-- The report as LDR_REF0 to LDR_REF4 hold it (R193, R211). -/
def State.reportBytes (s : State) : List Byte :=
  leBytes 2 (s.fld F.LDR_REF0_CODE) ++ leBytes 1 (s.fld F.LDR_REF0_PHASE) ++ leBytes 1 (s.fld F.LDR_REF0_DIE) ++
    leBytes 4 (if s.fld F.LDR_REF1_WHO = 0x3FFFF then 0xFFFFFFFF else s.fld F.LDR_REF1_WHO) ++
    leBytes 2 (s.fld F.LDR_REF2_STEP) ++ leBytes 2 (s.fld F.LDR_REF2_STEP2) ++ leBytes 2 (s.fld F.LDR_REF3_WHERE) ++
    leBytes 2 (s.fld F.LDR_REF3_INDEX) ++ leBytes 4 (s.fld F.LDR_REF4_RECORD) ++ leBytes 4 0

/-- LOAD_QUERY: LDR_STAT, LDR_PROG and the refusal report. -/
def execLoadQuery (msg : Msg) (s : State) : Host.Outcome State Fault Refusal :=
  .next (request msg { op := 0x0506, optical := true, mode := fun s => s.ctl.corePower }
    (fun _ _ s => (0, leBytes 4 (s.reg A.LDR_STAT).toNat ++ leBytes 4 (s.reg A.LDR_PROG).toNat ++ s.reportBytes, s)) s)

/-! ### Refusal and stall (R190, R194) -/

/-- LOAD_REFUSE: the fault that the checks found. -/
def execLoadRefuse (s : State) : Host.Outcome State Fault Refusal :=
  .next (match s.ldr.loading.bind (·.take.fault) with
    | some r => endLoad r s
    | none => s)

/-- LOAD_STALL: a load stream made no progress for 1 s; one of LENGTH 0 never makes any. -/
def execLoadStall (s : State) : Host.Outcome State Fault Refusal :=
  .next (match s.ldr.loading with
    | some x => if x.take.fault.isNone && (x.take.bytes.length < x.take.length || x.take.length = 0) then endLoad (rep 0x0510 0) s else s
    | none => s)

/-! ### Completion (R200) -/

/-- The report of a success: CODE 0x0000, all else all ones. -/
def goodReport : Report := rep 0 0xFF

/-- The NoC address of word `a` of a memory (R135, R513). -/
def State.wordAddr (s : State) (d : MemDesc) (a : Nat) : Nat :=
  if d.home < 8 then dieWord d.home (d.base + a) else s.regAddr 1 (d.hbmOffset a)

/-- Bytes of design memory: the banks of every die and the HBM design-memory region. -/
def State.isDesignByte (s : State) (a : Nat) : Bool :=
  isDieByte a || (match s.region 1 with
    | some (b, p) => 0x10000000000 ≤ a && a < 0x11800000000 &&
        decide (b ≤ (a - 0x10000000000) % 0x600000000 ∧ (a - 0x10000000000) % 0x600000000 < b + p)
    | none => false)

/-- Zero every design memory, then write the initial contents (R136, R185). -/
def initMemories (mems : List MemDesc) (inits : List (Nat × Nat × List Nat)) (s : State) : State :=
  let s := { s with mem := s.mem.filter fun c => !s.isDesignByte c.1, badMem := s.badMem.filter fun a => !s.isDesignByte a }
  inits.foldl (fun s r =>
    match mems.find? fun d => d.index == r.1 with
    | none => s
    | some d => r.2.2.zipIdx.foldl (fun s w =>
        { s with mem := Mem.write s.mem (s.wordAddr d (r.2.1 + w.2)) (leBytes 4 w.1) }) s) s

/-- Program the channel registers (R473, R486 to R489): the queue places are those of the content as received, all else that
of the patched content. -/
def programChannels (asRead patched : List ChanRec) (s : State) : State :=
  let s := { s with regs := s.regs.filter fun x => !(0xC0000 ≤ x.1 && x.1 < 0xC8000) }
  let s := (patched.zip (queueOffsets 0 asRead).1).foldl (fun s c =>
    let n := c.1.index
    s.setFlds [(F.CHN_CFG_VALID n, 1), (F.CHN_CFG_DIR n, c.1.dir), (F.CHN_CFG_FR n, c.1.fr), (F.CHN_CFG_STAMP n, c.1.stamp),
      (F.CHN_CFG_RECBITSM1 n, c.1.recbits - 1), (F.CHN_CFG_DEPTHM1 n, c.1.depth - 1), (F.CHN_QINFO_ESZ n, c.1.esz),
      (F.CHN_QINFO_OFF n, c.2), (F.CHN_SPILL_FKMAX n, c.1.fkmax)]) s
  s.setFlds [(F.CHN_NCH_VAL, patched.length), (F.CHN_FKBASE_VAL, ((s.baseOf 8).getD 0) / 65536)]

/-- Complete the load (R200, R203, R473): ARMED with release stage 0. LDR_STAT.REFUSED of an earlier load or staging stays until it is written
1, as its access code W1C has it (DESIGN CHOICE, assumption 66: R209 says whether the last one was refused, and no hardware clearing). -/
def completeLoad (x : Loading) (s : State) : State :=
  let b := x.take.bytes
  let p := parse s.fuses.grade b
  let q := parse s.fuses.grade (p.patched (s.bases false b) b)
  let s := initMemories p.mems p.inits s
  let s := programChannels p.chans q.chans s
  let s := { s with
    regs := s.regs.filter fun r => !(A.TSK_FLAG 0 ≤ r.1 && r.1 < A.TSK_FLAG 128)
    ldr := { s.ldr with img := some p.h, releases := p.releases, lanemap := q.lanes, loading := none, relCount := 0, begun := false }
    dm := { s.dm with descs := p.mems, acc := [], recs := [], reads := [] }
    chn := { s.chn with
      descs := q.chans.map fun (c : ChanRec) => (⟨c.index, c.slot0, c.due⟩ : ChanDesc)
      outs := q.outs, bits := [], taken := [], head := [], reserved := [], spill := [], times := [], holding := [] }
    tsk := { s.tsk with alloc := q.flags }
    fio := { s.fio with slots := q.fields, bits := [] }
    acq := { s.acq with probes := q.probes.foldr (fun (r : Nat × Probe) m => SMap.set none m r.1 (some r.2)) [] }
    hmp := { s.hmp with ins := s.hmp.ins.filter fun (i : InStream) => i.kind != InKind.load } }
  let s := match x.slot with
    | some k => s.setFld (F.LDR_SLOT_INUSE k) 0
    | none => s
  let s := s.setFlds [(F.SFB_SCHED_L, p.h.l), (F.SFB_SCHED_S, p.h.s), (F.SFB_HORIZON_IMGH, p.h.imgh),
    (F.LDR_DESLO_DESIGN, p.h.design), (F.LDR_DESHI_DESIGN, p.h.design / 2 ^ 32), (F.LDR_REL_STAGE, 0), (F.LDR_REL_WAIT, 0),
    (F.LDR_RELCYC_CYC, 0), (F.SNP_STAT_REASON, 0), (F.LDR_STAT_STATE, 2), (F.LDR_STAT_PHASE, 0), (F.LDR_STAT_SIGNED, b2n p.signed)]
  let s := s.setReport goodReport
  let s := (raise 73 (setMode .armed s)).eventTo x.session (if x.slot.isSome then 0x0501 else 0x0500) goodReport.bytes
  primeFrames none s

/-- The end of a staging (R195): the slot VERIFIED, or emptied with the report mirrored. -/
def endStaging (x : Staging) (r : Option Report) (s : State) : State :=
  let k := x.slot
  let s := { s with
    ldr := { s.ldr with stagings := s.ldr.stagings.filter fun (y : Staging) => y.slot != k }
    hmp := { s.hmp with ins := s.hmp.ins.filter fun (i : InStream) => i.kind != InKind.stage k } }
  match r with
  | some r =>
    let s := ((emptySlot k s).setReport r).setFld F.LDR_STAT_REFUSED 1
    (raise 76 s).eventTo x.session 0x0504 r.bytes
  | none =>
    let s := s.setFlds [(F.LDR_SLOT_VALID k, 1), (F.LDR_SLOT_VERIFIED k, 1), (F.LDR_SLOT_INUSE k, 0),
      (F.LDR_SLOT_SIGNED k, b2n (parse s.fuses.grade x.take.bytes).signed)]
    let s := { s with ldr := { s.ldr with staged := SMap.set 0 s.ldr.staged k x.take.length } }
    (raise 76 (s.setReport goodReport)).eventTo x.session 0x0504 goodReport.bytes

/-- STAGE_COMPLETE: the first staging whose checks have ended. -/
def execStageComplete (s : State) : Host.Outcome State Fault Refusal :=
  .next (match s.ldr.stagings.find? (fun (x : Staging) => x.take.ready || x.take.fault.isSome) with
    | some x => endStaging x x.take.fault s
    | none => s)

/-- A session is gone or lost the claim (R190): its load ends with 0x0511; with the session gone its stagings end as well
(assumption 25). -/
def loaderLoses (n : Nat) (gone : Bool) (s : State) : State :=
  let s := match s.ldr.loading with
    | some x => if x.session = n then endLoad (rep 0x0511 0) s else s
    | none => s
  if gone then (s.ldr.stagings.filter fun (x : Staging) => x.session == n).foldl (fun s x => endStaging x (some (rep 0x0511 0)) s) s else s

/-- The release control register (R205, R214): HOLDRST takes no write after stage 3. -/
def relWrite (d : Word) (s : State) : State :=
  let old := s.fld F.LDR_REL_HOLDRST
  let done := s.fld F.LDR_REL_STAGE = 3
  let s := plainWrite A.LDR_REL d s
  if done then s.setFld F.LDR_REL_HOLDRST old else s

end Sys2Proof.Machine
end

