-- ==== Sys2Proof/Machine/Checkpoint.lean ====
section
/-! DEFINITION. The checkpoint stream and the restore (R230 to R237). -/
namespace Sys2Proof.Machine

/-! ### The checkpoint's layout (R230, R231) -/

/-- The bytes of a list of bits, bit 0 of byte 0 first: `n` bytes from byte `k`. -/
def bitBytes (f : Nat → Bool) (k n : Nat) : List Byte :=
  (List.range n).map fun i => BitVec.ofNat 8 (bitsNat ((List.range 8).map fun j => f (8 * (k + i) + j)))

/-- Bytes of the HBMDM section: the region of the loaded image. -/
def State.hbmLen (s : State) : Nat := (s.ldr.img.map (·.hbmMib)).getD 0 * 0x100000

/-- The lengths of the sections HEADER to HBMDM. -/
def State.sectionLens (s : State) : List Nat := [256, 8388608 * s.dies, 50331648 * s.dies, 192, s.hbmLen]

/-- The offset of section `i`. -/
def State.sectionAt (s : State) (i : Nat) : Nat := (s.sectionLens.take i).foldl (· + ·) 0

/-- The header of a snapshot of the loaded image. -/
def State.ckHeader (s : State) (x : Snap) : List Byte :=
  let h := (s.ldr.img.getD (parseHeader []))
  let b := leBytes 4 0x4B434855 ++ leBytes 2 1 ++ leBytes 2 h.grade ++ leBytes 1 h.topo ++ leBytes 1 h.pos ++
    h.dims.flatMap (leBytes 1) ++ leBytes 3 0 ++ leBytes 8 h.design ++ h.hash ++ leBytes 4 (s.fld F.SNP_ID_SNAPID) ++ leBytes 4 0 ++
    leBytes 8 x.cycle ++ x.tbd.flatMap (leBytes 8) ++ leBytes 2 x.relcyc ++ leBytes 1 x.stage ++ leBytes 1 0 ++ leBytes 8 s.hbmLen ++
    leBytes 40 0
  b ++ leBytes 4 (crc32 b)

/-- `n` bytes of the ONDIE section from byte `k`, as the snapshot holds them (R224). -/
def State.ckOnDie (s : State) (x : Snap) (k n : Nat) : List Byte :=
  (List.range n).map fun i =>
    let o := k + i
    BitVec.ofNat 8 (s.snapWord x (dieWord (o / 50331648) (o % 50331648 / 4)) / 2 ^ (8 * (o % 4)))

/-- `n` bytes of section `i` from byte `k`; none while its copy is not complete. -/
def State.ckBytes (s : State) (x : Snap) (i k n : Nat) : Option (List Byte) :=
  match i with
  | 0 => some (slice (s.ckHeader x) k n)
  | 1 => if x.drained.any (· < 128) then none else some (bitBytes (NSet.has x.shadow) k n)
  | 2 => if x.diesCopied then some (s.ckOnDie x k n) else none
  | 3 => x.inp.map fun inp => slice (bitBytes (NSet.has x.out) 0 64 ++ bitBytes (NSet.has x.oe) 0 64 ++ bitBytes (NSet.has inp) 0 64) k n
  | 4 => some (s.getRegion 1 k n)
  | _ => some (slice (x.undo.flatMap fun e => leBytes 8 e.1 ++ leBytes 8 e.2) k n)

/-- The next message of the checkpoint stream: at most 4,096 bytes of one section (assumption 13), and the trailer last. The sections but
HEADER and FIELD are read from HBM: corrections count, and a codeword uncorrectable at both reads is recorded and aborts the snapshot (R228,
R512, R516). -/
def ckNext (s : State) : State :=
  match s.snp.snap, s.snp.stream with
  | some x, some c =>
    if c.trailer then s
    else
      let lens := s.sectionLens ++ [16 * x.undo.length]
      let i := ((List.range 6).find? fun i => c.pos < (lens.take (i + 1)).foldl (· + ·) 0).getD 6
      if i = 6 then
        let b := leBytes 4 x.undo.length ++ leBytes 4 0 ++ leBytes 4 (s.fld F.SNP_ID_SNAPID)
        let b := b ++ leBytes 4 (crcReg c.crc b ^^^ 0xFFFFFFFF)
        { s with snp := { s.snp with stream := some { c with trailer := true, pos := c.pos + 16 } } }.putStream c.session 0x0602 [b]
      else
        let k := c.pos - (lens.take i).foldl (· + ·) 0
        match s.ckBytes x i k (Nat.min 4096 (lens.getD i 0 - k)) with
        | none => s
        | some d =>
          let r := eccReads (if i = 0 || i = 3 then [] else (codewords k d.length).map fun o => s.regAddr (if i = 4 then 1 else 6) o) [] s
          let s := r.2
          if !r.1 then abortSnap 3 s else
          let c := { c with pos := c.pos + d.length, crc := crcReg c.crc d }
          let s := { s with snp := { s.snp with stream := some c } }.putStream c.session 0x0602 [d]
          s.setFld F.SNP_CURSOR_POS (Nat.min (s.cursor c) s.hbmLen / 65536)
  | _, _ => s

/-- Put out what the window of 4,096 unacknowledged messages has room for (R34); the first argument bounds it. -/
def ckPump : Nat → State → State
  | 0, s => s
  | n + 1, s =>
    match s.snp.stream with
    | none => s
    | some c =>
      let out := (s.hmp.outs.find? fun (o : OutStream) => o.session == c.session && o.opcode == 0x0602).map (·.data.length)
      if 4096 ≤ out.getD 0 then s
      else
        let t := ckNext s
        match t.snp.stream with
        | some d => if d.pos = c.pos then s else ckPump n t
        | none => t

/-- CHECKPOINT (R221, R230). -/
def checkpoint (n : Nat) (s : State) : Nat × List Byte × State :=
  if s.snp.snap.isNone || s.snp.stream.isSome then (0x683, [], s)
  else
    let s := { s with
      snp := { s.snp with stream := some ⟨n, 0, 0xFFFFFFFF, false⟩ }
      hmp := { s.hmp with outs := s.hmp.outs.filter fun (o : OutStream) => !(o.session == n && o.opcode == 0x0602) } }
    ok (s.setFld F.SNP_STAT_STATE 4)

/-- The modes of CHECKPOINT. -/
def ckModes (s : State) : Bool := snapModes s || s.ctl.mode == .safe

/-- CHECKPOINT: the stream follows the response. -/
def execCheckpoint (msg : Msg) (s : State) : Host.Outcome State Fault Refusal :=
  .next (ckPump 4097 (request msg { op := 0x0602, optical := true, claim := true, mode := ckModes }
    (fun x _ s => checkpoint x.num s) s))

/-- SHADOW_PLANE_DRAIN: a stream that waits for the DS section goes on. -/
def execShadowPlaneDrain (die : Nat) (bad : Bool) (s : State) : Host.Outcome State Fault Refusal :=
  .next (ckPump 4097 (shadowDrain die bad s))

/-- SNAPSHOT_KEPT: a stream that waits for the ONDIE or FIELD section goes on. -/
def execSnapshotKept (s : State) : Host.Outcome State Fault Refusal := .next (ckPump 4097 (snapKept s))

/-- CHECKPOINT_STALL: 1 s without progress while messages are outstanding (R230). -/
def execCheckpointStall (s : State) : Host.Outcome State Fault Refusal :=
  .next (match s.snp.stream with
    | some c =>
      if s.hmp.outs.any (fun (o : OutStream) => o.session == c.session && o.opcode == 0x0602 && !o.data.isEmpty) then abortSnap 4 s else s
    | none => s)

/-- The whole stream was acknowledged, trailer included (R230): the snapshot is released. -/
def ckAcked (s : State) : State :=
  match s.snp.stream with
  | some c =>
    if c.trailer && !s.hmp.outs.any (fun (o : OutStream) => o.session == c.session && o.opcode == 0x0602 && !o.data.isEmpty) then
      raise 80 ({ s with snp := { s.snp with snap := none, stream := none } }.setFlds
        [(F.SNP_STAT_STATE, 0), (F.SNP_STAT_FIELDOK, 0), (F.SNP_UNDO_ENTRIES, 0), (F.SFB_HOLD_STAT_SNAPSHOT, 0)])
    else s
  | none => s

/-! ### Restore (R232 to R237) -/

/-- RESTORE_BEGIN: it ends a snapshot (R228) and a capture (R272). -/
def restoreBegin (n len : Nat) (s : State) : State :=
  let s := endCapture 4 (abortSnap 6 s)
  let s := { s with snp := { s.snp with restoring := some ⟨n, len, [], false⟩ } }
  (((setMode .restore s).setFld F.LDR_STAT_STATE 3).openIn n .restore 0x0603 len)

/-- RESTORE_BEGIN: accepted only in ARMED. -/
def execRestoreBegin (msg : Msg) (s : State) : Host.Outcome State Fault Refusal :=
  .next (request msg { op := 0x0603, optical := true, len := fun n => n == 8, claim := true, mode := fun s => s.ctl.mode == .armed }
    (fun x p s => ok (restoreBegin x.num (leAt p 0 8) s)) s)

/-- The first field of a list that differs: its offset. -/
def firstAt (l : List (Nat × Bool)) : Option Nat := (l.find? (·.2)).map (·.1)

/-- The first nonzero byte among some ranges of a header. -/
def firstNonzero (b : List Byte) (l : List (Nat × Nat)) : Option Nat :=
  (l.flatMap fun r => (List.range r.2).map (r.1 + ·)).find? fun i => b.getD i 0 != 0

/-- The header checks of R233, by code, then by offset. -/
def State.ckHeaderFault (s : State) (len : Nat) (b : List Byte) : Option (Nat × Nat) :=
  let h := (s.ldr.img.getD (parseHeader []))
  let fixed := s.sectionAt 5 + 16
  let format := minNat ((if leAt b 0 4 = 0x4B434855 then [] else [0]) ++ (if leAt b 4 2 = 1 then [] else [4]) ++
    (firstNonzero b [(13, 3), (60, 4), (203, 1), (212, 40)]).toList ++ (if crc32 (b.take 252) = leAt b 252 4 then [] else [252]))
  let image := firstAt [(6, leAt b 6 2 != h.grade), (8, leAt b 8 1 != h.topo), (9, leAt b 9 1 != h.pos),
    (10, (List.range 3).map (fun i => leAt b (10 + i) 1) != h.dims), (16, leAt b 16 8 != h.design), (24, slice b 24 32 != h.hash)]
  match format, image with
  | some o, _ => some (0x0601, o)
  | none, some o => some (0x0602, o)
  | none, none =>
    if leAt b 204 8 ≠ s.hbmLen || len < fixed || (len - fixed) % 16 ≠ 0 then some (0x0603, 204) else none

/-- 0x0604 among the bytes received: words of storage, then undo entries. -/
def State.ckContent (s : State) (len : Nat) (b : List Byte) : Option (Nat × Nat) :=
  let word (o : Nat) : Nat := leAt b o 4
  let die := s.sectionAt 2
  let hbm := s.sectionAt 4
  let undo := s.sectionAt 5
  let got (lo hi w : Nat) : List Nat := (List.range ((Nat.min hi b.length - lo) / w)).map fun i => lo + w * i
  let bad :=
    ((got die (s.sectionAt 3) 4).find? fun o => let k := o - die
      2 ^ s.dieWidth (k / 50331648) (k % 50331648 / 4) ≤ word o).or
    (((got hbm undo 4).find? fun o => 2 ^ s.hbmWidth (o - hbm) ≤ word o).or
    ((got undo (len - 16) 16).find? fun o => leAt b o 8 % 8 ≠ 0 || s.hbmLen ≤ leAt b o 8))
  bad.map fun o => (0x0604, o)

/-- The trailer checks of R233: CRC, length, STATUS. -/
def State.ckTrailer (s : State) (len : Nat) (b : List Byte) : Option (Nat × Nat) :=
  let t := len - 16
  if crc32 (b.take (len - 4)) ≠ leAt b (t + 12) 4 then some (0x0606, t + 12)
  else if s.sectionAt 5 + 16 * leAt b t 4 + 16 ≠ len then some (0x0603, t)
  else if leAt b (t + 4) 4 ≠ 0 then some (0x0605, t + 4)
  else none

/-- The first fault of the bytes received so far: code and offset (R233, R235). -/
def State.ckFault (s : State) (r : Restoring) : Option (Nat × Nat) :=
  let b := r.bytes
  if b.length < 256 then (if b.length < r.length then none else some (0x0603, 204))
  else
    match s.ckHeaderFault r.length b with
    | some f => some f
    | none =>
      match s.ckContent r.length b with
      | some f => some f
      | none => if b.length < r.length then none else s.ckTrailer r.length b

/-- Write the section `i` of a checkpoint that has come in whole (R233). -/
def writeSection (b : List Byte) (i : Nat) (s : State) : State :=
  let d := slice b (s.sectionAt i) (s.sectionLens.getD i 0)
  match i with
  | 1 => { s with arr := { s.arr with
      ds := d.zipIdx.flatMap (fun (x : Byte × Nat) => ((List.range 8).filter fun j => bit x.1.toNat j).map (8 * x.2 + ·)), badDs := [] } }
  | 2 =>
    let cells := d.zipIdx.map fun (x : Byte × Nat) => (dieWord (x.2 / 50331648) (x.2 % 50331648 / 4) + x.2 % 4, x.1)
    { s with
      mem := cells.foldl (fun m (c : Nat × Byte) => Mem.write1 m c.1 c.2) (s.mem.filter fun c => !isDieByte c.1)
      badMem := s.badMem.filter fun a => !isDieByte a }
  | 4 => s.putRegion 1 0 d
  | _ => s

/-- Bytes of the restore stream arrive: each section is written as it passes. -/
def restoreBytes (d : List Byte) (s : State) : State :=
  match s.snp.restoring with
  | none => s
  | some r =>
    let had := r.bytes.length
    let r := { r with bytes := (r.bytes ++ d).take r.length }
    let s := { s with snp := { s.snp with restoring := some r } }
    match s.ckFault r with
    | some _ => s
    | none =>
      (List.range 5).foldl (fun s i =>
        if s.sectionAt (i + 1) ≤ r.bytes.length && had < s.sectionAt (i + 1) then writeSection r.bytes i s else s) s

/-- The undo entries, from last to first (R234). -/
def applyUndo (b : List Byte) (n : Nat) (s : State) : State :=
  ((List.range n).reverse).foldl (fun s i =>
    let o := s.sectionAt 5 + 16 * i
    s.putRegion 1 (leAt b o 8) (slice b (o + 8) 8)) s

/-- Every channel queue empty, every firkin free (R234, R473). -/
def emptyChannels (s : State) : State :=
  let s := s.chn.descs.foldl (fun s c =>
    s.setFlds [(F.CHN_PROD_WRAP c.index, 0), (F.CHN_PROD_IDX c.index, 0), (F.CHN_CONS_WRAP c.index, 0), (F.CHN_CONS_IDX c.index, 0),
      (F.CHN_SPILL_FKUSE c.index, 0), (F.CHN_STAT_SPILL c.index, 0)]) s
  { s with chn := { s.chn with
      reserved := [], spill := [], times := [], bits := [], taken := [], head := [], holding := [] } }.setFld F.CHN_FKUSED_VAL 0

/-- Complete a restore (R234). -/
def completeRestore (r : Restoring) (s : State) : State :=
  let b := r.bytes
  let s := applyUndo b (leAt b (r.length - 16) 4) s
  let c := leAt b 64 8
  let rel := leAt b 200 2
  let f := s.sectionAt 3
  let s := { s with
    lge := { s.lge with cycle := (c + 1) % 2 ^ 64 }
    tim := { s.tim with td := (List.range 16).map fun i => BitVec.ofNat 64 (leAt b (72 + 8 * i) 8) }
    ldr := { s.ldr with relCount := rel, begun := rel != 0, gap := Nat.max 4 (s.fld F.LDR_REL_GAP) }
    snp := { s.snp with restoring := none, restored := some (leAt b 56 4, c) }
    arr := { s.arr with pos := 0, wires := [], carry := [], line := [], stopped := false }
    hmp := { s.hmp with ins := s.hmp.ins.filter fun (i : InStream) => i.kind != InKind.restore } }
  let s := s.setFlds [(F.LDR_REL_STAGE, leAt b 202 1), (F.LDR_REL_WAIT, 0), (F.LDR_RELCYC_CYC, rel), (F.LDR_STAT_STATE, 2)]
  let s := setMode .armed (dropSlotBits (emptyChannels s))
  raise 82 (primeFrames (some (cellsAt b f, cellsAt b (f + 64), cellsAt b (f + 128))) s)

/-- Refuse a restore (R235). -/
def refuseRestore (code offset : Nat) (s : State) : State :=
  match s.snp.restoring with
  | none => s
  | some r =>
    let s := { s with
      snp := { s.snp with restoring := none }
      hmp := { s.hmp with ins := s.hmp.ins.filter fun (i : InStream) => i.kind != InKind.restore } }
    let s := discardImage s
    let s := enterIdle { s with arr := { s.arr with instr := [], badInstr := [] } }
    (raise 82 s).eventTo r.session 0x0603 (leBytes 2 code ++ leBytes 8 offset)

/-- RESTORE_REFUSE: the fault that the checks found. -/
def execRestoreRefuse (s : State) : Host.Outcome State Fault Refusal :=
  .next (match s.snp.restoring with
    | some r => (match s.ckFault r with
      | some f => refuseRestore f.1 f.2 s
      | none => s)
    | none => s)

/-- RESTORE_STALL: no stream progress for 1 s. -/
def execRestoreStall (s : State) : Host.Outcome State Fault Refusal :=
  .next (match s.snp.restoring with
    | some r => if r.bytes.length < r.length && (s.ckFault r).isNone then refuseRestore 0x0607 r.bytes.length s else s
    | none => s)

/-- A session is gone or lost the claim (R230, R233). -/
def snapshotLoses (n : Nat) (s : State) : State :=
  let s := match s.snp.stream with
    | some c => if c.session = n then abortSnap 4 s else s
    | none => s
  match s.snp.restoring with
  | some r => if r.session = n then refuseRestore 0x0607 r.bytes.length s else s
  | none => s

end Sys2Proof.Machine
end

