-- ==== Sys2Proof/Machine/Trace.lean ====
section
/-! DEFINITION. Trace (R564 to R573) and the core performance counters (R574 to R576). -/
namespace Sys2Proof.Machine

/-! ### Packets (R565, R571) -/

/-- Groups of 7 bits, least significant first, bit 7 set in all but the last (R565). -/
def varint : Nat → Nat → List Byte
  | 0, _ => []
  | k + 1, n => if n < 128 then [BitVec.ofNat 8 n] else BitVec.ofNat 8 (128 + n % 128) :: varint k (n / 128)

/-- Trace source `n`. -/
def State.trcSrc (s : State) (n : Nat) : TrcSrc := s.trc.srcs.getD n ⟨0, 0, 0, false⟩

/-- Replace trace source `n`. -/
def State.setSrc (s : State) (n : Nat) (x : TrcSrc) : State := { s with trc := { s.trc with srcs := setAt s.trc.srcs n x } }

/-- A header byte and its content into the FIFO of 64 KiB, or a loss (R571). -/
def trcPut (n type : Nat) (body : List Byte) (s : State) : State :=
  let b := BitVec.ofNat 8 (16 * type + n % 16) :: body
  if s.trc.fifo.length + b.length ≤ 65536 then { s with trc := { s.trc with fifo := s.trc.fifo ++ b } }
  else
    let x := s.trcSrc n
    raise 292 ((s.setSrc n { x with lost := x.lost + 1 }).count F.TRC_LOST_COUNT)

/-- SYNC with TB_LOCAL (R570). -/
def trcSync (n : Nat) (s : State) : State :=
  let s := trcPut n 5 (leBytes 8 s.local) s
  s.setSrc n { s.trcSrc n with delta := 0, since := 0, due := false }

/-- A packet of source `n` whose body begins with DELTA when `timed` (R565): a SYNC that is due comes first (R570). -/
def trcEmit (n type : Nat) (timed : Bool) (body : List Byte) (s : State) : State :=
  if !s.flag (F.TRC_SRC_EN n) then s
  else
    let s := if (s.trcSrc n).due then trcSync n s else s
    let s := trcPut n type ((if timed then varint 10 (s.trcSrc n).delta else []) ++ body) s
    let x := s.trcSrc n
    s.setSrc n { x with delta := 0, since := x.since + 1, due := x.due || x.since + 1 == 256 }

/-- TRACE_SYNC_EMIT: the SYNC after 256 packets. -/
def execTraceSyncEmit (n : Nat) (s : State) : Host.Outcome State Fault Refusal :=
  .next (if n < 16 && s.flag (F.TRC_SRC_EN n) && (s.trcSrc n).due then trcSync n s else s)

/-- OVF and SYNC of the sources that lost packets, in order, once 1 KiB is free (R571). -/
def trcOvf (s : State) : State :=
  if 65536 - s.trc.fifo.length < 1024 then s
  else
    (List.range 16).foldl (fun s n =>
      let k := (s.trcSrc n).lost
      if k = 0 then s
      else trcSync n (trcPut n 6 (varint 10 k) (s.setSrc n { s.trcSrc n with lost := 0 }))) s

/-- TRACE_OVF_EMIT. -/
def execTraceOvfEmit (s : State) : Host.Outcome State Fault Refusal := .next (trcOvf s)

/-- The next `k` bytes of the stream: what the FIFO holds, then PAD (R565). -/
def Trc.bytes (x : Trc) (k : Nat) : List Byte := x.fifo.take k ++ List.replicate (k - x.fifo.length) 0

/-- One stream byte on the parallel output: at [7:0] of TRCD when its number is even, at [15:8] when it is odd (R572). -/
def Trc.edge (x : Trc) (b : Byte) : Trc :=
  { x with sent := x.sent + 1, trcval := true, trcd := putBits x.trcd (8 * (x.sent % 2)) 8 b.toNat }

/-- The parallel output takes `k` stream bytes; TRCVAL is low at an edge without one. -/
def Trc.parallel (x : Trc) (k : Nat) : Trc :=
  let b := x.bytes k
  let y := b.foldl Trc.edge { x with fifo := x.fifo.drop k, put := b, blocks := [] }
  if k = 0 then { y with trcval := false } else y

/-- `n` bits of `w`, least significant first, through the scrambler x^58 + x^39 + 1 with register `r` (R572; PRESUMED, assumption 67). -/
def scramble64 : Nat → Nat → Nat → Nat × Nat
  | 0, _, r => (0, r)
  | n + 1, w, r =>
    let b := xor (bit w 0) (xor (bit r 38) (bit r 57))
    let t := scramble64 n (w / 2) (r * 2 % 2 ^ 58 + b2n b)
    (b2n b + 2 * t.1, t.2)

/-- One block on a serial lane. -/
def Trc.block (x : Trc) (lane : Nat) (control : Bool) (b : List Byte) : Trc :=
  let w := scramble64 64 (leNat b) (x.scr.getD lane 0)
  { x with blocks := x.blocks ++ [⟨lane, control, b, w.1⟩], scr := setAt x.scr lane w.2 }

/-- The next block dealt to the lanes in turn: 8 stream bytes, PAD after the last, or an idle block (type 0x1E) when the FIFO is empty; after
every 16,384 blocks on a lane an ordered set (type 0x4B) with the lane's number. -/
def Trc.deal (x : Trc) : Trc :=
  let lane := x.dealt % 4
  let idle := x.fifo.isEmpty
  let b := if idle then 0x1E :: List.replicate 7 0 else x.bytes 8
  let y := { x.block lane idle b with
    fifo := x.fifo.drop 8, dealt := x.dealt + 1, put := x.put ++ x.fifo.take 8, sent := x.sent + Nat.min 8 x.fifo.length }
  if (x.dealt / 4 + 1) % 16384 = 0 then y.block lane true (0x4B :: BitVec.ofNat 8 lane :: List.replicate 6 0) else y

/-- The FIFO gives the next `k` bytes to the selected output, or up to `k` to none (R564, R572): the serial output takes as many blocks as
they need. -/
def trcDrain (k : Nat) (s : State) : State :=
  let out := s.fld F.TRC_CTL_OUT
  { s with trc :=
    if out = 1 then s.trc.parallel k
    else if out = 2 then (List.range ((k + 7) / 8)).foldl (fun x _ => x.deal) { s.trc with put := [], blocks := [] }
    else { s.trc with fifo := s.trc.fifo.drop k, put := [], blocks := [] } }

/-- TRCD and TRCVAL at J15: high impedance, none, while OUT is not 0b01 (R683). -/
def State.trcPins (s : State) : Option (Nat × Bool) :=
  if s.ctl.corePower && s.fld F.TRC_CTL_OUT == 1 then some (s.trc.trcd, s.trc.trcval) else none

/-- TRACE_FIFO_DRAIN. -/
def execTraceFifoDrain (count : Nat) (s : State) : Host.Outcome State Fault Refusal := .next (trcDrain count s)

/-! ### Runs of taken backward branches (R567, R568) -/

/-- The run that core `n` watches ends. -/
def endRun (n : Nat) (s : State) : State :=
  let c := s.core n
  match c.run with
  | none => s
  | some r =>
    let s := s.setCore n { c with run := none }
    if Nat.max 2 (s.fld (F.TRC_SRC_MINRUN n)) ≤ r.count && s.flag (F.TRC_SRC_LOOP n) && (!r.hidden || s.flag F.TRC_AUTH_PRIV) then
      trcEmit n 2 true (leBytes 4 r.pc.toNat ++ varint 10 r.count) s
    else s

/-- A taken execution of the backward branch at `pc`; `hidden` when it executes in privileged or monitor mode. -/
def takeRun (n : Nat) (pc : Word) (hidden : Bool) (s : State) : State :=
  if 16 ≤ n || !(s.flag (F.TRC_SRC_EN n) && s.flag (F.TRC_SRC_LOOP n)) then endRun n s
  else
    let s := match (s.core n).run with
      | some r => if r.pc = pc then s else endRun n s
      | none => s
    let c := s.core n
    let k := match c.run with | some r => r.count + 1 | none => 1
    let h := match c.run with | some r => r.hidden | none => hidden
    let s := s.setCore n { c with run := some ⟨pc, k, h⟩ }
    if k = 2 ^ 32 - 1 then endRun n s else s

/-! ### Registers -/

/-- A write of TRC_MSG by master `n` (R566, R568). -/
def msgWrite (n : Nat) (d : Word) (s : State) : State :=
  if n < 16 && !(bit ((rget (fun _ => 0) (s.core n).sys 0)).toNat 8 && !s.flag F.TRC_AUTH_PRIV) then trcEmit n 1 true (leBytes 4 d.toNat) s
  else s

/-- TRC_MSG_WRITE. -/
def execTrcMsgWrite (m : Nat) (d : Word) (s : State) : Host.Outcome State Fault Refusal :=
  .next (regWrite m A.TRC_MSG d (msgWrite m d) s)

/-- A write of TRC_SRCn (R567, R570): an enable emits SYNC; a disable, or an end of LOOP, ends the run first (DEDUCED for LOOP, assumption
67). -/
def srcWrite (n : Nat) (d : Word) (s : State) : State :=
  let was := s.flag (F.TRC_SRC_EN n)
  let on := bit d.toNat 31
  let s := if was && !(on && bit d.toNat 30) then endRun n s else s
  let s := plainWrite (A.TRC_SRC n) d s
  if !was && on then trcSync n s else s

/-- TRC_SRC_WRITE. -/
def execTrcSrcWrite (m n : Nat) (d : Word) (s : State) : Host.Outcome State Fault Refusal :=
  .next (if n < 16 then regWrite m (A.TRC_SRC n) d (srcWrite n d) s else s)

/-- A write of TRC_CTL.OUT (R328, R330, R351, R573). -/
def outWrite (d : Word) (s : State) : State :=
  let owner := s.fld F.LNK_SHARE_OWNER
  if bits d.toNat 0 2 = 2 then
    if owner = 1 then raise 293 (s.setFld F.TRC_CTL_OUT 0)
    else
      let gone := s.flag (F.LNK_STAT_PRESENT 5) && s.flag (F.LNK_CTL_PRESEV 5)
      raiseIf gone 234 (portCheck 5 ((plainWrite A.TRC_CTL d s).setFlds [(F.LNK_SHARE_OWNER, 2), (F.LNK_STAT_PRESENT 5, 0)]))
  else
    let s := plainWrite A.TRC_CTL d s
    if owner = 2 then portCheck 5 (s.setFld F.LNK_SHARE_OWNER 0) else s

/-- TRC_OUT_WRITE. -/
def execTrcOutWrite (m : Nat) (d : Word) (s : State) : Host.Outcome State Fault Refusal :=
  .next (regWrite m A.TRC_CTL d (outWrite d) s)

/-! ### Core sleep (R569) -/

/-- The clock of a core that waits in WFE stops. -/
def sleepCore (n : Nat) (s : State) : State :=
  let c := s.core n
  if c.running && c.wfe && !c.asleep && !c.lockup then
    let s := trcEmit n 3 true [] s
    s.setCore n { s.core n with asleep := true, sleptAt := s.local }
  else s

/-- CORE_SLEEP. -/
def execCoreSleep (n : Nat) (s : State) : Host.Outcome State Fault Refusal := .next (if n < 16 then sleepCore n s else s)

/-- The clock of a sleeping core restarts. -/
def wakeCore (n : Nat) (s : State) : State :=
  let c := s.core n
  if c.asleep then
    let s := s.setCore n { c with asleep := false }
    trcEmit n 4 false (varint 10 (s.local - c.sleptAt)) s
  else s

/-! ### Core counters (R574 to R576) -/

/-- Add to counter `k` of core `n`: a pass of 0xFFFF_FFFF wraps, sets the overflow bit and raises EV294 when OVFEV is 1. -/
def pmcAdd (n k amount : Nat) (s : State) : State :=
  let v := s.fld (F.PMC_CNT_COUNT n k) + amount
  let s := s.setFld (F.PMC_CNT_COUNT n k) v
  if v < 2 ^ 32 then s
  else
    let i := 8 * n + k
    raiseIf (s.flag (F.PMC_SEL_OVFEV n k)) 294 (s.setFld ⟨A.PMC_OVF (i / 32), i % 32, 1⟩ 1)

/-- The privilege state of core `n` is enabled in its counter `k`. -/
def State.pmcMode (s : State) (n k : Nat) : Bool :=
  let st := (rget (fun _ => 4) (s.core n).sys 0).toNat
  if bit st 8 then s.flag (F.PMC_SEL_M n k) else if bit st 2 then s.flag (F.PMC_SEL_P n k) else s.flag (F.PMC_SEL_U n k)

/-- Counter `k` of core `n` counts event `ev` now. -/
def State.pmcOn (s : State) (n k ev : Nat) : Bool :=
  s.fld (F.PMC_SEL_EVENT n k) == ev && s.flag (F.PMC_SEL_EN n k) && !s.flag F.PMC_GCTL_FREEZE && s.pmcMode n k

/-- Event `ev` of core `n` happens `amount` times. -/
def pmcCount (n ev amount : Nat) (s : State) : State :=
  if 16 ≤ n then s
  else (List.range 8).foldl (fun s k => if s.pmcOn n k ev then pmcAdd n k amount s else s) s

/-- Occupancy event `ev` of core `n` in some cycles (R575). -/
def pmcOccupy (n ev occ cycles : Nat) (s : State) : State :=
  (List.range 8).foldl (fun s k =>
    if s.pmcOn n k ev then
      pmcAdd n k (if s.flag (F.PMC_SEL_THR n k) then (if s.fld (F.PMC_SEL_N n k) < occ then cycles else 0) else occ * cycles) s
    else s) s

/-- The events of R574; any other EVENT counts nothing. -/
def pmcListed (ev : Nat) : Bool := (1 ≤ ev && ev ≤ 0xD) || (0x10 ≤ ev && ev ≤ 0x12)

/-- The greatest occupancy of an occupancy event (R574). -/
def occMax (ev : Nat) : Nat := if ev = 0x10 then 8 else if ev = 0x11 then 4 else 320

/-- PMC_WRAP: a counter at 0xFFFF_FFFF counts once more, where it counts at all: an occupancy in threshold mode only where it can exceed N
(R574 to R576). -/
def execPmcWrap (n k : Nat) (s : State) : Host.Outcome State Fault Refusal :=
  .next (if n < 16 && k < 8 && s.pmcOn n k (s.fld (F.PMC_SEL_EVENT n k)) && pmcListed (s.fld (F.PMC_SEL_EVENT n k)) &&
      (s.fld (F.PMC_SEL_EVENT n k) < 0x10 || !s.flag (F.PMC_SEL_THR n k) || s.fld (F.PMC_SEL_N n k) < occMax (s.fld (F.PMC_SEL_EVENT n k))) &&
      s.fld (F.PMC_CNT_COUNT n k) == 0xFFFFFFFF then pmcAdd n k 1 s else s)

/-- A write of PMC_GCTL (R592). -/
def gctlWrite (d : Word) (s : State) : State :=
  let s := plainWrite A.PMC_GCTL d s
  if bit d.toNat 1 then { s with regs := s.regs.filter fun x => !(A.PMC_CNT 0 0 ≤ x.1 && x.1 < A.PMC_CNT 16 0) } else s

/-- PMC_CLEAR. -/
def execPmcClear (m : Nat) (d : Word) (s : State) : Host.Outcome State Fault Refusal :=
  .next (regWrite m A.PMC_GCTL d (gctlWrite d) s)

end Sys2Proof.Machine
end

