-- ==== Sys2Proof/Machine/Sched.lean ====
section
/-! DEFINITION. The task scheduler and the sync flags (R444 to R457): commands come one at a time, and one that says so waits for the
others of its NOCCK cycle (assumption 26). -/
namespace Sys2Proof.Machine

/-! ### Entries (R445, R484) -/

/-- STATE of entry `t`: 0 DORMANT or FREE, 1 READY, 2 RUNNING, 3 BLOCKED. -/
def State.thr (s : State) (t : Nat) : Nat := s.fld (F.TSK_THR_STATE t)

/-- The scheduler is in pool mode (R444). -/
def State.poolMode (s : State) : Bool := s.flag F.TSK_MODE_POOL

/-- The entry RUNNING on core `n`, if any (R481). -/
def State.running (s : State) (n : Nat) : Option Nat :=
  if s.flag (F.TSK_RUN_VALID n) then some (s.fld (F.TSK_RUN_ID n)) else none

/-- The candidate for core `n` among some READY entries (R446): greatest PRI, then their order. -/
def State.candidateIn (s : State) (l : List Nat) (n : Nat) : Option Nat :=
  (l.foldl (fun (b : Option (Nat × Nat)) t =>
    if bit (s.fld (F.TSK_AFF_AFF t)) n then
      let p := s.fld (F.TSK_THR_PRI t)
      match b with
      | some (_, q) => if q < p then some (t, p) else b
      | none => some (t, p)
    else b) none).map (·.1)

/-- The candidate for core `n` (R446). -/
def State.candidate (s : State) (n : Nat) : Option Nat := s.candidateIn s.tsk.ready n

/-- Take an entry off the ready list. -/
def State.unready (s : State) (t : Nat) : State := { s with tsk := { s.tsk with ready := s.tsk.ready.filter (· ≠ t) } }

/-- Put an entry at the tail of the ready list, from which R446 reads the order within each priority. -/
def State.toTail (s : State) (t : Nat) : State :=
  { s with tsk := { s.tsk with ready := s.tsk.ready.filter (· ≠ t) ++ [t], moved := NSet.ins s.tsk.moved t } }

/-- Free the core that runs entry `t` (R447). -/
def State.freeCore (s : State) (t : Nat) : State :=
  let n := s.fld (F.TSK_THR_CORE t)
  if s.thr t = 2 then s.setFlds [(F.TSK_RUN_VALID n, 0), (F.TSK_RUN_ID n, 0)] else s

/-- Entry `t` becomes READY at the tail of its priority. -/
def makeReady (t : Nat) (s : State) : State :=
  let s := (s.freeCore t).setFlds [(F.TSK_THR_STATE t, 1), (F.TSK_THR_CONS t, 0), (F.TSK_THR_FLAG t, 0)]
  let s := s.toTail t
  { s with tsk := { s.tsk with since := s.tsk.since.set 0 t s.local, readied := NSet.ins s.tsk.readied t } }

/-- Entry `t` becomes DORMANT or FREE. -/
def makeIdle (t : Nat) (s : State) : State :=
  ((s.freeCore t).setFlds [(F.TSK_THR_STATE t, 0), (F.TSK_THR_CONS t, 0), (F.TSK_THR_FLAG t, 0)]).unready t

/-- A refused command (R448). -/
def badCommand (s : State) : State := raise 16 (s.count F.TSK_BADCMD_VAL)

/-! ### Flags (R452, R456, R457) -/

/-- Flag `f` of the 4,096 (R456). -/
def State.syncFlag (s : State) (f : Nat) : Bool := bit (s.reg (A.TSK_FLAG (f / 32 % 128))).toNat (f % 32)

/-- Write flag `f`. -/
def State.setSync (s : State) (f : Nat) (b : Bool) : State := s.setFld ⟨A.TSK_FLAG (f / 32 % 128), f % 32, 1⟩ (b2n b)

/-- Ring occupancy as the indices show it (R460). -/
def State.occ (s : State) (n : Nat) : Nat :=
  let p := s.fld (F.CHN_PROD_IDX n)
  let c := s.fld (F.CHN_CONS_IDX n)
  if s.fld (F.CHN_PROD_WRAP n) = s.fld (F.CHN_CONS_WRAP n) then p - c else p + (s.fld (F.CHN_CFG_DEPTHM1 n) + 1) - c

/-- The condition of a CHSERV flag of channel `n`: outbound, the queue holds an entry; inbound, it has a free entry. -/
def State.served (s : State) (n : Nat) : Bool :=
  s.flag (F.CHN_CFG_VALID n) &&
    (if s.flag (F.CHN_CFG_DIR n) then s.occ n < s.fld (F.CHN_CFG_DEPTHM1 n) + 1 else 0 < s.occ n)

/-- Set the CHSERV flags whose condition holds (R457). -/
def chservSet (s : State) : State :=
  s.tsk.alloc.foldl (fun s x => if x.2.1 == 1 && s.served x.2.2 then s.setSync x.1 true else s) s

/-- Threads BLOCKED, in increasing number. -/
def State.blockedThreads (s : State) : List Nat :=
  s.regs.filterMap fun x =>
    if A.TSK_THR 0 ≤ x.1 && x.1 < A.TSK_THR 512 && x.1 % 8 == 0 && bits x.2.toNat 29 3 == 3 then some ((x.1 - A.TSK_THR 0) / 8) else none

/-- The wakes of flag `f` (R452): every waiter with CONS 0, and the first with CONS 1, which clears the flag. -/
def wakeFlag (s : State) (f : Nat) : State :=
  if s.syncFlag f then
    let w := s.blockedThreads.filter fun t => s.fld (F.TSK_THR_FLAG t) == f
    let first := (w.filter fun t => s.flag (F.TSK_THR_CONS t)).foldl (fun (b : Option Nat) t =>
      match b with
      | some u => if s.fld (F.TSK_THR_PRI u) < s.fld (F.TSK_THR_PRI t) then some t else b
      | none => some t) none
    let go := w.filter fun t => !s.flag (F.TSK_THR_CONS t) || some t == first
    let s := go.foldl (fun s t => makeReady t s) s
    if first.isSome then s.setSync f false else s
  else s

/-- The flags that threads wait on. -/
def State.waitFlags (s : State) : List Nat := (s.blockedThreads.map fun t => s.fld (F.TSK_THR_FLAG t)).eraseDups

/-- The flag wakes of one cycle, of the flags as the change `hub` of the same cycle leaves them; a flag that stood at 1 and that `hub` sets
again stays at 1 whatever the wakes clear (R15, R452). -/
def flagWakes (hub : State → State) (s : State) : State :=
  let l := s.waitFlags
  l.foldl (fun t f => if s.syncFlag f && (hub (s.setSync f false)).syncFlag f then t.setSync f true else t) (l.foldl wakeFlag (chservSet (hub s)))

/-! ### Commands (R447, R448) -/

/-- READY. -/
def cmdReady (t : Nat) (s : State) : State :=
  if !s.poolMode && (s.thr t == 0 || s.thr t == 3) && s.fld (F.TSK_AFF_AFF t) ≠ 0 then makeReady t s else badCommand s

/-- BLOCK. -/
def cmdBlock (t f : Nat) (cons : Bool) (s : State) : State :=
  if !s.poolMode && (s.thr t == 1 || s.thr t == 2) then
    (makeIdle t s).setFlds [(F.TSK_THR_STATE t, 3), (F.TSK_THR_CONS t, b2n cons), (F.TSK_THR_FLAG t, f)]
  else badCommand s

/-- YIELD. -/
def cmdYield (t : Nat) (s : State) : State := if !s.poolMode && s.thr t == 2 then makeReady t s else badCommand s

/-- SETPRI. -/
def cmdSetpri (t pri : Nat) (s : State) : State :=
  if !s.poolMode || s.thr t == 1 || s.thr t == 2 then
    let s := s.setFld (F.TSK_THR_PRI t) pri
    if s.thr t = 1 then s.toTail t else s
  else badCommand s

/-- DONE. -/
def cmdDone (t : Nat) (s : State) : State := if s.poolMode && s.thr t == 2 then makeIdle t s else badCommand s

/-- CANCEL; `met` when a readying or a dispatch of the entry lies in the same cycle (R449), or the reset of its core (R453). -/
def cmdCancel (t : Nat) (met : Bool) (s : State) : State :=
  if met || (if s.poolMode then s.thr t == 1 || s.thr t == 2 else s.thr t != 0) then
    let s := makeIdle t s
    if met then s.count F.TSK_CANCELRDY_VAL else s
  else badCommand s

/-- A write of TSK_CMD other than CANCEL (R479). -/
def cmdRun (d : Word) (s : State) : State :=
  let d := d.toNat
  let t := bits d 16 9
  match bits d 28 4 with
  | 1 => cmdReady t s
  | 2 => cmdBlock t (bits d 0 12) (bit d 27) s
  | 3 => cmdYield t s
  | 5 => cmdSetpri t (bits d 0 5) s
  | 6 => cmdDone t s
  | _ => badCommand s

/-- A submission from core `n`'s staging registers (R455): in thread mode no entry is FREE. -/
def submit (n : Nat) (s : State) : State :=
  let s := s.setFlds [(F.TSK_PSUB_OK n, 0), (F.TSK_PSUB_FULL n, 0)]
  let aff := s.fld (F.TSK_PAFF_AFF n)
  if aff = 0 then s
  else
    match (List.range 512).find? fun t => s.poolMode && s.thr t == 0 with
    | none => raise 18 (s.setFld (F.TSK_PSUB_FULL n) 1)
    | some t =>
      let s := ((s.setReg (A.TSK_IFUNC t) (s.reg (A.TSK_PFUNC n))).setReg (A.TSK_IARG t) (s.reg (A.TSK_PARG n))).setFlds
        [(F.TSK_THR_PRI t, s.fld (F.TSK_PAFF_PRI n)), (F.TSK_AFF_AFF t, aff), (F.TSK_PSUB_OK n, 1), (F.TSK_PSUB_SLOT n, t)]
      makeReady t s

/-! ### The commands of one cycle (R449) -/

/-- The register number that orders a command, and what the command is. -/
def TskCmd.num : TskCmd → Nat
  | .word n _ => n
  | .submit n => n
  | .dispatch _ n => n

/-- The commands of a cycle in increasing register number. -/
def byNumber (l : List TskCmd) : List TskCmd := sortBy TskCmd.num l

/-- The entry that a CANCEL names. -/
def TskCmd.cancels : TskCmd → Option Nat
  | .word _ d => if bits d.toNat 28 4 = 4 then some (bits d.toNat 16 9) else none
  | _ => none

/-- The master and the core of a dispatch read. -/
def TskCmd.reads : TskCmd → Option (Nat × Nat)
  | .dispatch m n => some (m, n)
  | _ => none

/-- A command other than a CANCEL or a dispatch. -/
def TskCmd.run (c : TskCmd) (s : State) : State :=
  match c with
  | .word _ d => if bits d.toNat 28 4 = 4 then s else cmdRun d s
  | .submit n => Sys2Proof.Machine.submit n s
  | .dispatch _ _ => s

/-- A dispatch read (R450): its master, its core, the entry it takes, and the word it returns. -/
structure TskRead where
  master : Nat
  core : Nat
  entry : Option Nat
  word : Nat
  deriving DecidableEq, Repr

/-- The dispatches of a cycle, in increasing core number (R449, R450): the entries READY at its start and not cancelled in it, each taken
once; a core with a RUNNING entry reads BUSY. -/
def State.assign (s : State) (gone : List Nat) (l : List (Nat × Nat)) : List TskRead :=
  l.foldl (fun (a : List TskRead) x =>
    let mine := a.any fun y => y.core == x.2 && y.entry.isSome
    if (s.running x.2).isSome || mine then a ++ [⟨x.1, x.2, none, 2 ^ 30⟩]
    else
      match s.candidateIn (s.tsk.ready.filter fun t => !gone.contains t && !a.any fun y => y.entry == some t) x.2 with
      | some t => a ++ [⟨x.1, x.2, some t, 2 ^ 31 + s.fld (F.TSK_THR_PRI t) * 2 ^ 24 + t⟩]
      | none => a ++ [⟨x.1, x.2, none, 0⟩]) []

/-- The word that a read of TSK_DISPn would return by itself; a peek returns it too. -/
def State.dispWord (s : State) (n : Nat) : Nat := ((s.assign [] [(0, n)]).head?.map (·.word)).getD 0

/-- Entry `t` becomes RUNNING on core `n`. -/
def runOn (n t : Nat) (s : State) : State :=
  let waited := (s.local - s.tsk.since.get 0 t) / 500
  let s := (s.unready t).setFlds [(F.TSK_THR_STATE t, 2), (F.TSK_THR_CORE t, n), (F.TSK_RUN_VALID n, 1), (F.TSK_RUN_ID n, t),
    (F.TSK_WAITMAX_VAL, Nat.min (Nat.max waited (s.fld F.TSK_WAITMAX_VAL)) (2 ^ 32 - 1))]
  s.count (F.TSK_NDISP_COUNT n)

/-- A dispatch takes its entry. -/
def TskRead.take (x : TskRead) (s : State) : State :=
  match x.entry with
  | some t => runOn x.core t s
  | none => s

/-! ### One cycle (R446, R449, R451, R452) -/

/-- The first condition of R451 for core `n`: a candidate and no RUNNING entry. -/
def State.wantsIdle (s : State) (n : Nat) : Bool := (s.candidate n).isSome && (s.running n).isNone

/-- The second: a candidate of higher PRI than the thread that runs. -/
def State.wantsSwitch (s : State) (n : Nat) : Bool :=
  match s.candidate n, s.running n with
  | some t, some u => !s.poolMode && s.fld (F.TSK_THR_PRI u) < s.fld (F.TSK_THR_PRI t)
  | _, _ => false

/-- TSK_STAT and TSK_POOLOUT (R477, R478). -/
def tskCounts (s : State) : State :=
  let run := ((List.range 16).filter fun n => s.flag (F.TSK_RUN_VALID n)).length
  s.setFlds [(F.TSK_STAT_NREADY, s.tsk.ready.length), (F.TSK_STAT_NBLOCKED, s.blockedThreads.length),
    (F.TSK_POOLOUT_VAL, if s.poolMode then s.tsk.ready.length + run else 0)]

/-- The order of the ready list at the end of a cycle: what was moved to a tail in it follows the rest by entry number (R446). -/
def tskOrder (s : State) : State :=
  let new (t : Nat) : Bool := NSet.has s.tsk.moved t
  { s with tsk := { s.tsk with
    ready := s.tsk.ready.filter (fun t => !new t) ++ (s.tsk.ready.filter new).foldl NSet.ins [], moved := [], readied := [] } }

/-- The events at the end of a cycle (R451, R455): a condition that was not there at its start in `old`. -/
def tskEvents (old s : State) : State :=
  let s := raiseIf (0 < old.fld F.TSK_POOLOUT_VAL && s.fld F.TSK_POOLOUT_VAL == 0) 17 s
  (List.range 16).foldl (fun s n =>
    raiseIf (s.wantsIdle n && !old.wantsIdle n || s.wantsSwitch n && !old.wantsSwitch n) n s) s

/-- Core `n`'s RUNNING entry `t` when the core is reset (R453): DORMANT, or in pool mode READY again. -/
def resetEntry (t : Nat) (s : State) : State :=
  let pool := s.poolMode
  let s := makeIdle t s
  if pool then
    { (s.setFld (F.TSK_THR_STATE t) 1) with tsk := { s.tsk with ready := t :: s.tsk.ready, since := s.tsk.since.set 0 t s.local } }
  else s

/-- One NOCCK cycle with the commands queued for it and `now`, a change of flags `hub`, and the entry of a core that is reset: dispatches,
commands, flag wakes, CANCELs (R449); then the order of the list, the counts and the events. A queued dispatch is answered. -/
def tskOnce (now : List TskCmd) (hub : State → State) (reset : Option Nat) (s : State) : State :=
  let old := s
  let l := byNumber (s.tsk.batch ++ now)
  let gone := l.filterMap TskCmd.cancels
  let given := s.assign gone (l.filterMap TskCmd.reads)
  let hit := (s.assign [] (l.filterMap TskCmd.reads)).filterMap (·.entry)
  let queued := (s.tsk.batch.filterMap TskCmd.reads)
  let s := { s with tsk := { s.tsk with batch := [], moved := [], readied := [] } }
  let s := (given.filter fun x => queued.contains (x.master, x.core)).foldl
    (fun s x => s.answer (s.packet x.master 17 (A.TSK_DISP x.core) 4 false) 0 (leBytes 4 x.word)) s
  let s := given.foldl (fun s x => x.take s) s
  let s := l.foldl (fun s c => c.run s) s
  let s := match reset with
    | some t => resetEntry t s
    | none => s
  let s := flagWakes hub s
  let s := gone.foldl (fun s t =>
    cmdCancel t (NSet.has s.tsk.readied t && s.thr t == 1 || hit.contains t || reset == some t) s) s
  tskEvents old (tskCounts (chservSet (tskOrder s)))

/-- A flag at 1 still wakes a thread. -/
def State.wakeable (s : State) : Bool := s.blockedThreads.any fun t => s.syncFlag (s.fld (F.TSK_THR_FLAG t))

/-- The cycles that follow while a flag at 1 still wakes a thread (R452); each wakes one at least, so their number is bounded by the first
argument. -/
def tskMore : Nat → State → State
  | 0, s => s
  | k + 1, s => if s.wakeable then tskMore k (tskOnce [] (fun s => s) none s) else s

/-- A cycle and those that its flags bring after it. -/
def tskCycle (now : List TskCmd) (hub : State → State) (reset : Option Nat) (s : State) : State :=
  let s := tskOnce now hub reset s
  tskMore s.blockedThreads.length s

/-- The cycles that the hub's own flags bring. -/
def flagWork (s : State) : State :=
  let s := chservSet s
  tskMore s.blockedThreads.length s

/-- A command: it waits for the others of its cycle when there are `more`, else the cycle takes place. -/
def tskTake (c : TskCmd) (more : Bool) (s : State) : State :=
  if more then { s with tsk := { s.tsk with batch := s.tsk.batch ++ [c] } } else tskCycle [c] (fun s => s) none s

/-! ### The commands' rows (R447, R450, R479, R480) -/

/-- The word a row's command stands for (R479). -/
def cmdWord (op : Nat) (cons : Bool) (id flag : Nat) : Word :=
  BitVec.ofNat 32 (op * 2 ^ 28 + b2n cons * 2 ^ 27 + id % 512 * 2 ^ 16 + flag % 4096)

/-- A write of TSK_CMDn by master `m` with the command of a row. -/
def sendCmd (m n op : Nat) (cons : Bool) (t flag : Nat) (more : Bool) (s : State) : State :=
  let d := cmdWord op cons t flag
  regWrite m (A.TSK_CMD (n % 16)) d (tskTake (.word (n % 16) d) more) s

/-- TSK_READY. -/
def execTskReady (c : TskSender) (n t : Nat) (s : State) : Host.Outcome State Fault Refusal := .next (sendCmd c.m n 1 false t 0 c.more s)

/-- TSK_BLOCK. -/
def execTskBlock (c : TskSender) (n t flag : Nat) (cons : Bool) (s : State) : Host.Outcome State Fault Refusal :=
  .next (sendCmd c.m n 2 cons t flag c.more s)

/-- TSK_YIELD. -/
def execTskYield (c : TskSender) (n t : Nat) (s : State) : Host.Outcome State Fault Refusal := .next (sendCmd c.m n 3 false t 0 c.more s)

/-- TSK_CANCEL. -/
def execTskCancel (m n t : Nat) (more : Bool) (s : State) : Host.Outcome State Fault Refusal := .next (sendCmd m n 4 false t 0 more s)

/-- TSK_SETPRI. -/
def execTskSetpri (c : TskSender) (n t pri : Nat) (s : State) : Host.Outcome State Fault Refusal :=
  .next (sendCmd c.m n 5 false t pri c.more s)

/-- TSK_DONE. -/
def execTskDone (c : TskSender) (n t : Nat) (s : State) : Host.Outcome State Fault Refusal := .next (sendCmd c.m n 6 false t 0 c.more s)

/-- A read of TSK_DISPn (R450): its word, in the cycle it ends. -/
def dispRead (n : Nat) (s : State) : Nat × State :=
  let l := byNumber (s.tsk.batch ++ [.dispatch 64 n])
  let given := s.assign (l.filterMap TskCmd.cancels) (l.filterMap TskCmd.reads)
  (((given.find? fun x => x.master == 64).map (·.word)).getD 0, tskCycle [.dispatch 64 n] (fun s => s) none s)

/-- TSK_DISPATCH: a read whose cycle has more commands is answered when the cycle takes place. -/
def execTskDispatch (c : TskSender) (n : Nat) (s : State) : Host.Outcome State Fault Refusal :=
  .next (
    if n < 16 then
      if c.more then
        match netStop c.m 17 (A.TSK_DISP n) false 4 [] s with
        | some t => t
        | none => tskTake (.dispatch c.m n) true s
      else regRead c.m (A.TSK_DISP n) (dispRead n) s
    else s)

/-! ### Modes, the pool, core reset (R453 to R455) -/

/-- PRI and AFF of every entry at 0; CORE stays (R454, R484). -/
def State.clearEntries (s : State) : State :=
  s.regs.foldl (fun t x =>
    if A.TSK_THR 0 ≤ x.1 && x.1 < A.TSK_THR 512 then t.setReg x.1 (x.2 &&& (if x.1 % 8 = 0 then 0xE0FFFFFF#32 else 0xFFFF0000#32))
    else t) s

/-- A write of TSK_MODE (R454, R476): ERR is W1C, and POOL is taken only while every entry is idle. -/
def modeWrite (d : Word) (s : State) : State :=
  let s := if bit d.toNat 1 then s.setFld F.TSK_MODE_ERR 0 else s
  if (List.range 512).all fun t => s.thr t == 0 then
    let s := if s.poolMode && !bit d.toNat 31 then s.clearEntries else s
    s.setFld F.TSK_MODE_POOL (bits d.toNat 31 1)
  else s.setFld F.TSK_MODE_ERR 1

/-- TSK_MODE_WRITE. -/
def execTskModeWrite (m : Nat) (d : Word) (s : State) : Host.Outcome State Fault Refusal :=
  .next (regWrite m A.TSK_MODE d (modeWrite d) s)

/-- A write of TSK_PSUBn (R483). -/
def psubWrite (n : Nat) (d : Word) (more : Bool) (s : State) : State := if bit d.toNat 31 then tskTake (.submit n) more s else s

/-- POOL_SUBMIT. -/
def execPoolSubmit (c : TskSender) (n : Nat) (d : Word) (s : State) : Host.Outcome State Fault Refusal :=
  .next (if n < 16 then regWrite c.m (A.TSK_PSUB n) d (psubWrite n d c.more) s else s)

/-- A direct write of TSK_THRt or TSK_AFFt (R445): taken only in thread mode, while the thread is DORMANT. -/
def entryWrite (a : Nat) (d : Word) (s : State) : State :=
  if !s.poolMode && s.thr ((a - A.TSK_THR 0) / 8) == 0 then plainWrite a d s else s

/-- Core `n` is reset (R453). -/
def tskCoreReset (n : Nat) (s : State) : State :=
  match s.running n with
  | none => s
  | some t => tskCycle [] (fun s => s) (some t) s

/-! ### Flags -/

/-- A write of TSK_FSETn (R457, R482): the flags are set, and wake what waits on them. -/
def fsetWrite (n : Nat) (d : Word) (s : State) : State :=
  tskCycle [] (fun s => s.setReg (A.TSK_FLAG n) (s.reg (A.TSK_FLAG n) ||| d)) none s

/-- A write of TSK_FCLRn: the flags are cleared; a set by the hub in the same cycle wins (R15). -/
def fclrWrite (n : Nat) (d : Word) (s : State) : State :=
  tskCycle [] (fun s => s.setReg (A.TSK_FLAG n) (s.reg (A.TSK_FLAG n) &&& ~~~d)) none s

/-- The BOUNDARY flags in an executed boundary grain (R457). -/
def boundaryFlags (s : State) : State :=
  if s.tsk.alloc.any fun x => x.2.1 == 2 then
    tskCycle [] (fun s => s.tsk.alloc.foldl (fun s x => if x.2.1 == 2 then s.setSync x.1 true else s) s) none s
  else s

/-- FLAG_SET. -/
def execFlagSet (m n : Nat) (d : Word) (s : State) : Host.Outcome State Fault Refusal :=
  .next (if n < 128 then regWrite m (A.TSK_FSET n) d (fsetWrite n d) s else s)

end Sys2Proof.Machine
end

