-- ==== Sys2Proof/Machine/Channels.lean ====
section
/-! DEFINITION. Channels between the array and the cores (R458 to R473). -/
namespace Sys2Proof.Machine

/-! ### Rings (R459, R460) -/

/-- DEPTH of channel `n`. -/
def State.depth (s : State) (n : Nat) : Nat := s.fld (F.CHN_CFG_DEPTHM1 n) + 1

/-- The entry size of channel `n` in bytes. -/
def State.entryBytes (s : State) (n : Nat) : Nat := 8 * s.fld (F.CHN_QINFO_ESZ n)

/-- The NoC address of entry `idx` of channel `n`'s ring. -/
def State.ringAddr (s : State) (n idx : Nat) : Nat := 0x4000000 + s.fld (F.CHN_QINFO_OFF n) + idx * s.entryBytes n

/-- Entries that a commit has reserved and not yet published. -/
def State.held (s : State) (n : Nat) : Nat := (s.chn.reserved.filter fun r => r.chan == n).length

/-- The occupancy that R468 and R470 decide by: reserved entries count (R465). -/
def State.occAll (s : State) (n : Nat) : Nat := s.occ n + s.held n

/-- An index moved on by `k` entries: WRAP changes each time IDX passes DEPTH − 1. -/
def moveIdx (depth : Nat) (x : Nat × Nat) (k : Nat) : Nat × Nat :=
  let p := (x.1 * depth + x.2 + k) % (2 * depth)
  (p / depth, p % depth)

/-- Advance the hub's index of channel `n` by one: CONS when `cons`, else PROD. -/
def State.advance (s : State) (n : Nat) (cons : Bool) : State :=
  if cons then
    let x := moveIdx (s.depth n) (s.fld (F.CHN_CONS_WRAP n), s.fld (F.CHN_CONS_IDX n)) 1
    s.setFlds [(F.CHN_CONS_WRAP n, x.1), (F.CHN_CONS_IDX n, x.2)]
  else
    let x := moveIdx (s.depth n) (s.fld (F.CHN_PROD_WRAP n), s.fld (F.CHN_PROD_IDX n)) 1
    s.setFlds [(F.CHN_PROD_WRAP n, x.1), (F.CHN_PROD_IDX n, x.2)]

/-- The greatest ring occupancy since load (R490). -/
def State.highWater (s : State) (n : Nat) : State := s.setFld (F.CHN_STAT_HWM n) (Nat.max (s.occ n) (s.fld (F.CHN_STAT_HWM n)))

/-- `k` entries of channel `n` enter its ring at a time. -/
def State.arrive (s : State) (n k t : Nat) : State :=
  { s with chn := { s.chn with times := SMap.set [] s.chn.times n (SMap.get [] s.chn.times n ++ List.replicate k t) } }

/-- An entry committed at time `t` is removed: the longest residency is kept in CHN_WAIT (R488). -/
def State.waited (s : State) (n t : Nat) : State :=
  s.setFld (F.CHN_WAIT_US n) (Nat.min (Nat.max (s.fld (F.CHN_WAIT_US n)) ((s.local - t) / 500)) 0xFFFFFF)

/-- `k` entries leave channel `n`'s ring. -/
def State.leave (s : State) (n k : Nat) : State :=
  let l := SMap.get [] s.chn.times n
  let s := (l.take k).foldl (fun s t => s.waited n t) s
  { s with chn := { s.chn with times := SMap.set [] s.chn.times n (l.drop k) } }
/-- Write an entry at PROD and advance it. -/
def State.enqueue (s : State) (n : Nat) (data : List Byte) (t : Nat) : State :=
  let a := s.ringAddr n (s.fld (F.CHN_PROD_IDX n))
  let s := { s with
    mem := Mem.write s.mem a data
    badMem := s.badMem.filter fun b => b < a || a + data.length ≤ b }
  (((s.clearResv a data.length).advance n false).arrive n 1 t).highWater n

/-! ### The spill (R468, R469) -/

/-- Entries that a firkin holds. -/
def State.perFirkin (s : State) (n : Nat) : Nat := 4096 / Nat.max 8 (s.entryBytes n)

/-- Firkins that a spill of `k` entries takes when `h` entries have left its first one. -/
def State.firkins (s : State) (n h k : Nat) : Nat := if k = 0 then 0 else (h + k + s.perFirkin n - 1) / s.perFirkin n

/-- Put back the spill of channel `n`, with FKUSE, FKUSED and SPILL to match. -/
def State.setSpill (s : State) (n h : Nat) (l : List (List Byte × Nat)) : State :=
  let h := if l.isEmpty then 0 else h % s.perFirkin n
  let k := s.firkins n h l.length
  let was := s.fld (F.CHN_SPILL_FKUSE n)
  { s with chn := { s.chn with spill := SMap.set [] s.chn.spill n l, head := SMap.set 0 s.chn.head n h } }.setFlds
    [(F.CHN_SPILL_FKUSE n, k), (F.CHN_FKUSED_VAL, s.fld F.CHN_FKUSED_VAL + k - was), (F.CHN_STAT_SPILL n, b2n !l.isEmpty)]

/-- A record is dropped (R469). -/
def dropRecord (n ev : Nat) (s : State) : State := raise ev ((s.setFld (F.CHN_STAT_DROP n) 1).count F.CHN_DROPS_VAL)

/-- Append to the spill, or drop when it needs a firkin beyond FKMAX. -/
def spillEntry (n : Nat) (data : List Byte) (s : State) : State :=
  let l := SMap.get [] s.chn.spill n
  let h := SMap.get 0 s.chn.head n
  if s.fld (F.CHN_SPILL_FKMAX n) < s.firkins n h (l.length + 1) then dropRecord n 32 s
  else
    let first := !s.flag (F.CHN_STAT_SPILL n)
    raiseIf first 33 (s.setSpill n h (l ++ [(data, s.local)]))

/-- Publish the reserved entries up to the oldest of channel `n`, in commit order (R465). -/
def publishTo (n : Nat) : List Reserved → State → State
  | [], s => s
  | r :: l, s =>
    let s := { s with chn := { s.chn with reserved := l } }.enqueue r.chan r.data r.at_
    if r.chan = n then s else publishTo n l s

/-- CHANNEL_PUBLISH. -/
def execChannelPublish (n : Nat) (s : State) : Host.Outcome State Fault Refusal :=
  .next (if 0 < s.held n then flagWork (publishTo n s.chn.reserved s) else s)

/-- An uncorrectable error in a spill read (R469, R516): which place of the pool an entry has is not given, so the line recorded is a free one
of the region (DESIGN CHOICE, assumption 46). -/
def spillUe (s : State) : State :=
  let x := s.freshNat 48
  match s.region 8 with
  | some (b, p) => hbmUe false (regionAddr b p (x.1 % (p * s.fuses.grade.stacks))) x.2
  | none => x.2

/-- Move the oldest spill entry of channel `n` into the ring, behind what is already reserved; one whose read fails is
dropped (R468, R469). -/
def refill (n : Nat) (ecc : Ecc) (s : State) : State :=
  match SMap.get [] s.chn.spill n with
  | [] => s
  | (d, t) :: r =>
    if s.depth n ≤ s.occAll n then s
    else
      let s := s.setSpill n (SMap.get 0 s.chn.head n + 1) r
      let s := if ecc = .corrected then hbmCorrect s else s
      if ecc = .uncorrectable then dropRecord n 36 ((spillUe s).waited n t |>.setFld (F.CHN_STAT_PERR n) 1)
      else if 0 < s.held n then { s with chn := { s.chn with reserved := s.chn.reserved ++ [(⟨n, d, t⟩ : Reserved)] } }
      else s.enqueue n d t

/-- SPILL_REFILL. -/
def execSpillRefill (n : Nat) (ecc : Ecc) (s : State) : Host.Outcome State Fault Refusal := .next (flagWork (refill n ecc s))

/-! ### The boundary grain (R465, R577) -/

/-- The entry of channel `c` as its slots stand (R459, R463). -/
def State.record (s : State) (c : ChanDesc) (cycle : Nat) : List Byte :=
  let n := s.fld (F.CHN_CFG_RECBITSM1 c.index) + 1
  let v := (List.range n).foldl (fun v i => if NSet.has s.chn.bits (c.slot0 + i) then v + 2 ^ i else v) 0
  (if s.flag (F.CHN_CFG_STAMP c.index) then leBytes 8 cycle else []) ++ leBytes (8 * ((n + 63) / 64)) v

/-- Commit the record of one outbound channel whose PUT is 1. -/
def commit (cycle : Nat) (s : State) (c : ChanDesc) : State :=
  let n := c.index
  if s.flag (F.CHN_CFG_DIR n) || !NSet.has s.chn.bits c.slot0 then s
  else
    let d := s.record c cycle
    let full := s.depth n ≤ s.occAll n
    if s.flag (F.CHN_CFG_FR n) then
      if full then dropRecord n 32 s
      else { s with chn := { s.chn with reserved := s.chn.reserved ++ [(⟨n, d, s.local⟩ : Reserved)] } }
    else if full || !(SMap.get [] s.chn.spill n).isEmpty then spillEntry n d s
    else { s with chn := { s.chn with reserved := s.chn.reserved ++ [(⟨n, d, s.local⟩ : Reserved)] } }

/-- The boundary grain of a cycle: every commit in increasing index, the occupancies, the slots of the next cycle. -/
def chnBoundary (cycle : Nat) (s : State) : State :=
  let s := s.chn.descs.foldl (commit cycle) s
  let occ := s.chn.descs.foldl (fun k (c : ChanDesc) => k + s.occ c.index) 0
  let s := s.setFlds [(F.PMC_CHOCC_VAL, occ), (F.PMC_CHOCCMAX_VAL, Nat.max occ (s.fld F.PMC_CHOCCMAX_VAL))]
  { s with chn := { s.chn with bits := [], taken := [] } }

/-! ### Due points (R466, R470 to R472) -/

/-- Take the head entry of inbound channel `n`: a parity error consumes it and delivers nothing. -/
def takeEntry (n : Nat) (s : State) : State :=
  let e := s.entryBytes n
  let a := s.ringAddr n (s.fld (F.CHN_CONS_IDX n))
  let bad := s.badMem.any fun b => a ≤ b && b < a + e
  let v := leNat (Mem.read s.mem a e) % 2 ^ (s.fld (F.CHN_CFG_RECBITSM1 n) + 1)
  let s := (s.advance n true).leave n 1
  if bad then raise 34 (s.setFld (F.CHN_STAT_PERR n) 1)
  else { s with chn := { s.chn with taken := SMap.set 0 s.chn.taken n (v / 2 * 2 + 1) } }

/-- No entry is taken for this cycle yet: one that a hold brought in after the boundary belonged to an earlier cycle (R466, R467). -/
def noneTaken (n : Nat) (s : State) : State := { s with chn := { s.chn with taken := SMap.set 0 s.chn.taken n 0 } }

/-- Channel `n` sets cause CHANNEL (R471). -/
def chnHold (n : Nat) (s : State) : State :=
  raise 35 ({ s with chn := { s.chn with holding := NSet.ins s.chn.holding n } }.setFld (F.CHN_STAT_FRH n) 1)

/-- The due point of one channel. -/
def chnDue (s : State) (c : ChanDesc) : State :=
  let n := c.index
  if s.flag (F.CHN_CFG_DIR n) then
    let s := noneTaken n s
    if 0 < s.occ n then takeEntry n s
    else if s.flag (F.CHN_CFG_FR n) then chnHold n s
    else s.count F.CHN_UNDER_VAL
  else if s.flag (F.CHN_CFG_FR n) && s.depth n ≤ s.occAll n then chnHold n s
  else s

/-- A forerunner channel that holds: its condition may have ended, and an inbound one then takes its entry. -/
def chnRelease (s : State) (n : Nat) : State :=
  if s.flag (F.CHN_CFG_DIR n) then
    if 0 < s.occ n then takeEntry n <| noneTaken n { s with chn := { s.chn with holding := NSet.del s.chn.holding n } } else s
  else if s.occAll n < s.depth n then { s with chn := { s.chn with holding := NSet.del s.chn.holding n } }
  else s

/-- The channels in a grain: holds that end, then the due points of the position it executes, if it executes one. -/
def chnGrain (p : Option Nat) (s : State) : State :=
  let s := s.chn.holding.foldl chnRelease s
  let s := match p with
    | some p => (s.chn.descs.filter fun (c : ChanDesc) => c.due == p).foldl chnDue s
    | none => s
  s.setFld F.SFB_HOLD_STAT_CHANNEL (b2n !s.chn.holding.isEmpty)

/-- The output slots of step `t` (R464, R466). -/
def chnSlots (t : Nat) (s : State) : State :=
  (s.chn.outs.filter fun o => o.step == t).foldl (fun s o =>
    let due := ((s.chn.descs.find? fun (c : ChanDesc) => c.index == o.chan).map (·.due)).getD 0
    placeHub (o.line / 2048) (o.line % 2048) t (due ≤ t && bit (SMap.get 0 s.chn.taken o.chan) o.bit) s) s

/-! ### The end of a load and of a restore (R200, R234, R457) -/

/-- LOAD_COMPLETE: after phase 3 has passed; the CHSERV flags of the emptied queues follow at once. -/
def execLoadComplete (s : State) : Host.Outcome State Fault Refusal :=
  .next (match s.ldr.loading with
    | some x => if x.take.ready then flagWork (completeLoad x s) else s
    | none => s)

/-- RESTORE_COMPLETE: the whole checkpoint is in and no check fails. -/
def execRestoreComplete (s : State) : Host.Outcome State Fault Refusal :=
  .next (match s.snp.restoring with
    | some r => if r.length ≤ r.bytes.length && (s.ckFault r).isNone then flagWork (completeRestore r s) else s
    | none => s)

/-! ### Firmware's index (R461) -/

/-- A firmware write of CHN_PRODn, or of CHN_CONSn when `cons`. -/
def indexWrite (n : Nat) (cons : Bool) (d : Word) (s : State) : State :=
  if !s.flag (F.CHN_CFG_VALID n) then s
  else
    let inbound := s.flag (F.CHN_CFG_DIR n)
    let dep := s.depth n
    let w := bits d.toNat 31 1
    let i := bits d.toNat 0 18
    let old := if cons then s.fld (F.CHN_CONS_WRAP n) * dep + s.fld (F.CHN_CONS_IDX n)
      else s.fld (F.CHN_PROD_WRAP n) * dep + s.fld (F.CHN_PROD_IDX n)
    let k := (w * dep + i + 2 * dep - old) % (2 * dep)
    let room := if cons then s.occ n else dep - s.occ n
    if cons == inbound || dep ≤ i || room < k then raise 34 (s.setFld (F.CHN_STAT_PTRERR n) 1)
    else if cons then (s.setFlds [(F.CHN_CONS_WRAP n, w), (F.CHN_CONS_IDX n, i)]).leave n k
    else ((s.setFlds [(F.CHN_PROD_WRAP n, w), (F.CHN_PROD_IDX n, i)]).arrive n k s.local).highWater n

/-- CHN_INDEX_WRITE. -/
def execChnIndexWrite (m n : Nat) (cons : Bool) (d : Word) (s : State) : Host.Outcome State Fault Refusal :=
  .next (
    if n < 1024 then
      regWrite m (if cons then A.CHN_CONS n else A.CHN_PROD n) d (fun s => flagWork (indexWrite n cons d s)) s
    else s)

end Sys2Proof.Machine
end

