-- ==== Sys2Proof/Machine/Control.lean ====
section
/-! DEFINITION. Hold causes written by software, the throttle, the release stages, run control (R105, R109, R112 to R114, R202 to
R206, R636, R637), and HBM temperature and scrubbing (R511, R516, R517). -/
namespace Sys2Proof.Machine

/-! ### Hold causes of R109 -/

/-- A write of SFB_HOLD_REQ: causes HOST and DEBUG follow it. -/
def holdReqWrite (d : Word) (s : State) : State :=
  (plainWrite A.SFB_HOLD_REQ d s).setFlds [(F.SFB_HOLD_STAT_HOST, bits d.toNat 0 1), (F.SFB_HOLD_STAT_DEBUG, bits d.toNat 1 1)]

/-- HOLD_REQ_HOST: the HOST bit of SFB_HOLD_REQ is written, the other as it stands. -/
def execHoldReqHost (m : Nat) (d : Word) (s : State) : Host.Outcome State Fault Refusal :=
  let d := BitVec.ofNat 32 (bits d.toNat 0 1 + 2 * s.fld F.SFB_HOLD_REQ_DEBUG)
  .next (regWrite m A.SFB_HOLD_REQ d (holdReqWrite d) s)

/-- HOLD_REQ_DEBUG: the DEBUG bit of SFB_HOLD_REQ is written, the other as it stands. -/
def execHoldReqDebug (m : Nat) (d : Word) (s : State) : Host.Outcome State Fault Refusal :=
  let d := BitVec.ofNat 32 (s.fld F.SFB_HOLD_REQ_HOST + 2 * bits d.toNat 1 1)
  .next (regWrite m A.SFB_HOLD_REQ d (holdReqWrite d) s)

/-- HOLD_CLEAR_DESIGN. -/
def execHoldClearDesign (m : Nat) (d : Word) (s : State) : Host.Outcome State Fault Refusal :=
  .next (regWrite m A.SFB_HOLD_STAT (d &&& 1) (plainWrite A.SFB_HOLD_STAT (d &&& 1)) s)

/-- HOLD_CLEAR_TRIGGER. -/
def execHoldClearTrigger (m : Nat) (d : Word) (s : State) : Host.Outcome State Fault Refusal :=
  .next (regWrite m A.SFB_HOLD_STAT (d &&& 0x20) (plainWrite A.SFB_HOLD_STAT (d &&& 0x20)) s)

/-- HOLD_LIMIT_EXCEEDED: EV71 once for a hold longer than SFB_HOLD_LIMIT (R112). -/
def execHoldLimitExceeded (s : State) : Host.Outcome State Fault Refusal :=
  .next (
    if s.lge.held && s.fld F.SFB_HOLD_LIMIT_US ≠ 0 && !s.lge.longDone then raise 71 { s with lge := { s.lge with longDone := true } }
    else s)

/-! ### The throttle (R113, R114, R119) -/

/-- A write of SFB_THR. -/
def thrWrite (d : Word) (s : State) : State := updThr (plainWrite A.SFB_THR d s)

/-- The level that the master's next token names: one level toward the league level, 1 ms after the previous change upward and
100 ms downward. -/
def State.nextThr (s : State) : Nat :=
  let cur := s.fld F.SFB_THR_CUR
  let want := s.fld F.SFB_THR_LEAGUE
  let since := s.local - s.lge.thrAt
  if cur < want && 500000 ≤ since then cur + 1
  else if want < cur && 50000000 ≤ since then cur - 1
  else cur

/-- The level that a boundary grain named takes effect. -/
def applyThr (s : State) : State :=
  match s.lge.thrDue with
  | none => s
  | some k =>
    let s := { s with lge := { s.lge with thrDue := none } }
    if s.fld F.SFB_THR_CUR = k then s
    else raise 70 ({ s with lge := { s.lge with thrAt := s.local } }.setFld F.SFB_THR_CUR k)

/-- THROTTLE_CHANGE. -/
def execThrottleChange (s : State) : Host.Outcome State Fault Refusal := .next (applyThr s)

/-! ### Staged release (R203 to R206) -/

/-- The release stage that a boundary grain named takes effect. -/
def applyRel (s : State) : State :=
  if s.lge.relDue = 0 then s
  else
    let k := s.lge.relDue
    let s := { s with lge := { s.lge with relDue := 0 } }
    raise 75 (s.setFlds [(F.LDR_REL_STAGE, k), (F.LDR_REL_WAIT, 0)])

/-- RELEASE_STAGE. -/
def execReleaseStage (s : State) : Host.Outcome State Fault Refusal := .next (applyRel s)

/-! ### Run control (R636, R637) -/

/-- The end of a burst or a stop: the step clock stops at the boundary, in STEP (R631); a SAFE that waits for a boundary comes at
once (R634). -/
def stopClock (s : State) : State :=
  let s := { s with
    ctl := { s.ctl with clock := false, burst := false, stopReq := false, left := 0 }
    lge := { s.lge with burstDue := false, last := none }
    fio := { s.fio with edges := none } }
  let s := standField (setMode .step s)
  match s.ctl.safeDue with
  | some (why, _) => enterSafe why s
  | none => s

/-- STEP_BURST_END. -/
def execStepBurstEnd (s : State) : Host.Outcome State Fault Refusal := .next (if s.lge.burstDue then stopClock s else s)

/-- The modes of RUN and STEP, on the league master of a formed league (R37, R38, assumption 29). -/
def runModes (s : State) : Bool :=
  (s.ctl.mode == .armed || s.stepStopped) && s.isMaster && (s.leagueSize ≤ 1 || s.formed) && s.lge.start.isNone

/-- The restored mark of another member (R237): a free value, none or a SNAPID and a CYCLE (assumption 29). -/
def State.freshMark (s : State) : Option (Nat × Nat) × State :=
  let a := s.freshBit
  let b := a.2.freshNat 32
  let c := b.2.freshNat 64
  (if a.1 then some (b.1, c.1) else none, c.2)

/-- The lowest of the positions from `p` on, `k` of them, of which a free answer says that it differs from the master. -/
def lowestDiffers (ask : State → Bool × State) : Nat → Nat → State → Option Nat × State
  | 0, _, s => (none, s)
  | k + 1, p, s =>
    let x := ask s
    if x.1 then (some p, x.2) else lowestDiffers ask k (p + 1) x.2

/-- The checks of R637 after BAD_COUNT. In STEP the league has executed a cycle, and no member's image is marked restored (R237). Whether
another member is ARMED with the master's image (R202), and its restored mark, which is
compared with the master's own (R237), are free values (assumption 29). -/
def runChecks (s : State) : Nat × List Byte × State :=
  let n := s.leagueSize - 1
  let a := lowestDiffers State.freshBit n 1 s
  let s := a.2
  let b := if a.1.isSome || s.ctl.mode == .step then (none, s) else lowestDiffers (fun s => let x := s.freshMark; (x.1 != s.snp.restored, x.2)) n 1 s
  let s := b.2
  let period := s.L + s.S
  if let some p := a.1 then (0x583, leBytes 1 p, s)
  else if let some p := b.1 then (0x684, leBytes 1 p, s)
  else if period < s.H + 2 then (0x980, [], s)
  else if s.fieldImage && 2000000 * period < s.fld F.SFB_CLK_MHZ * 1000000 then (0x300, [], s)
  else if s.fld F.SFB_CLK_MHZ = 0 || !s.flag F.SFB_CLK_LOCK || s.lge.tbsyncDue || s.lge.needSync then (0x301, [], s)
  else (0, [], s)

/-- The START of the master, which enters RUN or STEP (R370, R631): GS is the present TB_LEAGUE plus H (assumption 29). -/
def beginRun (last : Nat) (s : State) : State :=
  let gs := s.grainNo + s.H
  let t := startMode gs last s
  cymSend t.lge.cycle (t.relay 6 (startBody gs last) 2)

/-- RUN. -/
def execRun (msg : Msg) (s : State) : Host.Outcome State Fault Refusal :=
  .next (request msg { op := 0x0F03, claim := true, mode := runModes }
    (fun _ _ s =>
      let r := runChecks s
      if r.1 = 0 then (0, [], beginRun (2 ^ 64 - 1) r.2.2) else r) s)

/-- STEP. -/
def execStep (msg : Msg) (s : State) : Host.Outcome State Fault Refusal :=
  .next (request msg { op := 0x0F04, len := (· == 4), claim := true, mode := runModes }
    (fun _ p s =>
      if leAt p 0 4 = 0 then (0xF89, [], s)
      else
        let r := runChecks s
        if r.1 = 0 then (0, [], beginRun (r.2.2.lge.cycle + leAt p 0 4 - 1) r.2.2) else r) s)

/-- STOP: the next CYCLE token that can be queued carries STOP 1. -/
def execStop (msg : Msg) (s : State) : Host.Outcome State Fault Refusal :=
  .next (request msg
    { op := 0x0F05, claim := true
      mode := fun s => (s.ctl.mode == .run || s.ctl.mode == .hold || s.ctl.mode == .step && s.ctl.burst) && s.isMaster }
    (fun _ _ s => ok { s with ctl := { s.ctl with stopReq := true } }) s)

/-- BOOT to TEST: the modes that a SAFE request leaves. -/
def safeModes (s : State) : Bool := !(s.ctl.mode == .off || s.ctl.mode == .standby || s.ctl.mode == .safe)

/-- SAFE (R35, R634): always carried out on the management port, where it may override another session's claim. -/
def execSafe (msg : Msg) (s : State) : Host.Outcome State Fault Refusal :=
  .next (request msg { op := 0x0F06, claim := true, claimNotMgmt := true, mode := safeModes }
    (fun x _ s =>
      let s := match s.hmp.claim with
        | some o =>
          if o ≠ x.num then
            (s.eventAll 0x0F06 (leBytes 4 o ++ leBytes 4 x.num)).log 0x800E (leBytes 4 o ++ leBytes 4 x.num)
          else s
        | none => s
      ok (requestSafe 1 s)) s)

/-- A write of MGT_SAFE (R666). -/
def safeReqWrite (d : Word) (s : State) : State := if bit d.toNat 0 && safeModes s then requestSafe 1 s else s

/-- MGT_SAFE_REQ. -/
def execMgtSafeReq (m : Nat) (d : Word) (s : State) : Host.Outcome State Fault Refusal :=
  .next (regWrite m A.MGT_SAFE d (safeReqWrite d) s)

/-- DISCARD: the image of a stopped STEP is discarded, the cells are inert, the module is in IDLE. -/
def execDiscard (msg : Msg) (s : State) : Host.Outcome State Fault Refusal :=
  .next (request msg { op := 0x0F08, claim := true, mode := fun s => s.stepStopped }
    (fun _ _ s => ok (enterIdle (inertIfDriven (discardImage s)))) s)

/-! ### HBM temperature and scrubbing (R147, R511, R516, R517) -/

/-- HBM_TEMP_READ: HBK_HTEMP, and double refresh above 85 °C. -/
def hbmTemps (t : List (BitVec 8)) (s : State) : State :=
  (List.range 4).foldl (fun s n =>
    let v : Nat := if n < s.fuses.grade.stacks then (t.getD n 0).toNat else 0
    let hot : Bool := 85 < sgn 8 v
    let s := s.setFld ⟨A.HBK_HTEMP, 8 * n, 8⟩ v
    if hot == s.hub.hot.getD n false then s
    else raise 135 ({ s with hub := { s.hub with hot := setAt s.hub.hot n hot } }.setFld ⟨A.DMC_STAT, 8 + n, 1⟩ (b2n hot))) s

/-- HBM_TEMP_READ. -/
def execHbmTempRead (t0 t1 t2 t3 : BitVec 8) (s : State) : Host.Outcome State Fault Refusal :=
  .next (if s.ctl.corePower then hbmTemps [t0, t1, t2, t3] s else s)

/-- The memory and word that an offset of the HBM design-memory region holds, if any. -/
def State.designWord (s : State) (o : Nat) : Option (Nat × Nat) :=
  (s.dm.descs.find? fun (d : MemDesc) => 8 ≤ d.home && d.base * 64 ≤ o && o < d.base * 64 + 4 * (d.depthM1 + 1)).map fun d =>
    (d.index, (o - d.base * 64) / 4)

/-- SCRUB_READ: a codeword at a stack's offset that lies in a region (R158, R166, R516). Outside every memory of the design region MEM and
ADDR record 0 (DESIGN CHOICE, assumption 57). -/
def scrubRead (stack offset : Nat) (e : Ecc) (s : State) : State :=
  let a := 0x10000000000 + stack * 0x600000000 + offset
  if !s.flag F.HBK_SCRUB_EN || s.fuses.grade.stacks ≤ stack || 0x600000000 ≤ offset then s
  else
    match s.regionOf a, e with
    | none, _ => s
    | _, .clean => s
    | _, .corrected => hbmCorrect s
    | some 1, .uncorrectable =>
      let w := match s.region 1 with
        | some (b, p) => (s.designWord (stack * p + (offset - b))).getD (0, 0)
        | none => (0, 0)
      raise 129 (s.first F.DMC_UE_STAT_VALID F.DMC_UE_STAT_MORE
        [(F.DMC_UE_STAT_SCRUB, 1), (F.DMC_UE_STAT_MEM, w.1), (F.DMC_UE_STAT_STACK, stack), (F.DMC_UE_STAT_STEP, 0),
         (F.DMC_UE_ADDR_ADDR, w.2)])
    | _, .uncorrectable => hbmUe true a s

/-- SCRUB_READ. -/
def execScrubRead (stack offset : Nat) (ecc : Ecc) (s : State) : Host.Outcome State Fault Refusal :=
  .next (scrubRead stack offset ecc s)

/-- SCRUB_PASS_END. -/
def execScrubPassEnd (stack : Nat) (s : State) : Host.Outcome State Fault Refusal :=
  .next (raiseIf (s.flag F.HBK_SCRUB_EN && stack < s.fuses.grade.stacks) 271 s)

end Sys2Proof.Machine
end

