-- ==== Sys2Proof/Machine/Cores.lean ====
section
/-! DEFINITION. Entry to exceptions and to monitor mode, instruction boundaries, the event controller's claims, and the
core watchdogs (R404, R411, R412, R418 to R443). -/
namespace Sys2Proof.Machine

/-! ### System registers (R411, R412) -/

/-- The Reset column of R411. -/
def sysReset (n k : Nat) : Word := if k = 0 then 4 else if k = 8 then BitVec.ofNat 32 n else if k = 0x20 then 0xF else 0

/-- System register `k` of core `n`. -/
def State.sysReg (s : State) (n k : Nat) : Word := rget (sysReset n) (s.core n).sys k

/-- Write system register `k` of core `n`. -/
def State.setSys (s : State) (n k : Nat) (w : Word) : State :=
  s.setCore n { s.core n with sys := rset (sysReset n) (s.core n).sys k w }

/-- Bit `b` of STATUS of core `n`: 0 IE, 1 PIE, 2 PRV, 3 PPRV, 4 EXL, 8 MON, 9 SS. -/
def State.status (s : State) (n b : Nat) : Bool := bit (s.sysReg n 0).toNat b

/-- Write one bit of STATUS. -/
def State.setStatus (s : State) (n b : Nat) (v : Bool) : State :=
  s.setSys n 0 (BitVec.ofNat 32 (putBits (s.sysReg n 0).toNat b 1 (b2n v)))

/-- Set the pc of core `n`. -/
def State.setPc (s : State) (n : Nat) (w : Word) : State := s.setCore n { s.core n with pc := w }

/-- Drop the reservation of core `n` (R413). -/
def State.dropResv (s : State) (n : Nat) : State := s.setCore n { s.core n with resv := none }

/-- TCC_STATn as it reads (R438): LOCKUP, MON and WFE show the core. -/
def State.tccStat (s : State) (n : Nat) : Nat :=
  let c := s.core n
  putBits (putBits (putBits (s.reg (A.TCC_STAT n)).toNat 30 1 (b2n c.lockup)) 29 1 (b2n (s.status n 8))) 28 1 (b2n c.wfe)

/-! ### Pending events (R427, R428) -/

/-- The numbers of the pending events. -/
def State.pendingEvents (s : State) : List Nat :=
  (List.range 10).flatMap fun i =>
    let w := (s.reg (A.EVT_PEND i)).toNat
    if w = 0 then [] else (List.range 32).filterMap fun j => if bit w j then some (32 * i + j) else none

/-- Event `k` is enabled and routed to core `n`. -/
def State.routed (s : State) (n k : Nat) : Bool := s.flag (F.EVT_CFG_EN k) && s.fld (F.EVT_CFG_CORE k) == n

/-- The pending event of core `n` with the greatest PRI above `low`, the lowest-numbered among equals. -/
def State.bestEvent (s : State) (n low : Nat) : Option Nat :=
  (s.pendingEvents.foldl (fun (b : Option (Nat × Nat)) k =>
    let p := s.fld (F.EVT_CFG_PRI k)
    if s.routed n k && low < p then
      match b with
      | some (_, q) => if q < p then some (k, p) else b
      | none => some (k, p)
    else b) none).map (·.1)

/-- The interrupt request of core `n` (R427), or of the management controller (R646): the number EADDR takes. -/
def State.irq (s : State) (n low : Nat) : Option Nat :=
  if n = 16 then s.mgt.mcIrq.head? else s.bestEvent n low

/-- A core's IPL. -/
def State.ipl (s : State) (n : Nat) : Nat := bits (s.sysReg n 7).toNat 0 5

/-- The interrupt taken at a boundary (R424, R427). -/
def State.irqNow (s : State) (n : Nat) : Option Nat :=
  if s.status n 0 then s.irq n (if s.status n 8 then Nat.max (s.ipl n) (bits (s.sysReg n 0x13).toNat 0 5) else s.ipl n)
  else none

/-! ### Exceptions (R420, R421) -/

/-- STATUS after the entry of an exception: PIE takes IE, PPRV takes PRV, IE 0, PRV 1, EXL 1. -/
def statusIn (st : Nat) : Nat := bits st 8 2 * 256 + 16 + bits st 2 1 * 8 + 4 + bits st 0 1 * 2

/-- STATUS after ERET: IE from PIE, PRV from PPRV, EXL 0. -/
def statusOut (st : Nat) : Nat := bits st 8 2 * 256 + bits st 3 1 * 12 + bits st 1 1 * 3

/-- Causes that are not synchronous: WDOG and INTERRUPT. -/
def asyncCause (cause : Nat) : Bool := cause == 0x10 || cause == 0x11

/-- Entry to an exception of core `n` (R420): EPC, ECAUSE, EADDR and STATUS in one step, the reservation cleared, pc to
EVEC, or to MVEC + 0x100 for a synchronous cause in monitor mode. -/
def enterException (n cause addr : Nat) (s : State) : State :=
  let s := pmcCount n (if cause = 0x11 then 9 else 8) 1 (endRun n s)
  let st := (s.sysReg n 0).toNat
  let vec : Word := if bit st 8 && !asyncCause cause then s.sysReg n 0x12 + 0x100 else s.sysReg n 4
  let s := (s.setSys n 1 (s.core n).pc).setSys n 2 (BitVec.ofNat 32 (cause + (if cause = 0x11 then 2 ^ 31 else 0)))
  let s := (s.setSys n 3 (BitVec.ofNat 32 addr)).setSys n 0 (BitVec.ofNat 32 (statusIn st))
  (s.dropResv n).setPc n vec

/-- A double fault (R421): lockup, DFAULT, the pc in TCC_FAULTPC, EV48 + n; the management controller has no TCC block. -/
def lockup (n : Nat) (s : State) : State :=
  let s := (endRun n s)
  let s := s.setCore n { s.core n with lockup := true }
  if n < 16 then
    raise (48 + n) ((s.setFld (F.TCC_STAT_DFAULT n) 1).setReg (A.TCC_FAULTPC n) (s.core n).pc)
  else s

/-- A synchronous exception of the instruction at the pc: an entry, or a double fault while EXL is 1. -/
def except (n cause addr : Nat) (s : State) : State :=
  if s.status n 4 then lockup n s else enterException n cause addr s

/-! ### Monitor mode (R422, R423) -/

/-- Entry to monitor mode with a debug cause: MEPC, MCAUSE, MON and PRV; a halt request is answered (R559). -/
def enterMonitor (n cause : Nat) (s : State) : State :=
  let s := endRun n s
  let c := s.core n
  let st := (s.sysReg n 0).toNat
  let s := (s.setSys n 0x10 c.pc).setSys n 0x11 (BitVec.ofNat 32 (cause + b2n c.lockup * 2 ^ 31))
  let s := s.setSys n 0 (BitVec.ofNat 32 (putBits (putBits st 8 1 1) 2 1 1))
  let s := s.setCore n { s.core n with
    monPrv := bit st 2, resv := none, pc := s.sysReg n 0x12, lockup := false, wfe := false, stepped := false,
    rstHalt := if cause = 1 then false else (s.core n).rstHalt }
  let q : Fld := ⟨A.DBG_HALTREQ, n, 1⟩
  if cause = 1 && s.flag q then raise 290 (s.setFld q 0) else s

/-- A halt request for core `n`, from the debug island or from release with RSTHALT. -/
def State.haltReq (s : State) (n : Nat) : Bool := n < 16 && (s.flag ⟨A.DBG_HALTREQ, n, 1⟩ || (s.core n).rstHalt)

/-- The breakpoint `k` of core `n` is enabled and names the pc. -/
def State.ibrk (s : State) (n k : Nat) : Bool :=
  let w := (s.sysReg n (0x18 + k)).toNat
  n < 16 && bit w 0 && bits w 2 30 == (s.core n).pc.toNat / 4

/-- The debug cause that a boundary takes, in the order of R422; a locked-up core meets HALTREQ alone. -/
def State.debugCause (s : State) (n : Nat) : Option Nat :=
  if s.status n 8 || n = 16 then none
  else if (s.core n).lockup then (if s.haltReq n then some 1 else none)
  else if (s.core n).stepped then some 7
  else if s.ibrk n 0 then some 3
  else if s.ibrk n 1 then some 4
  else if s.haltReq n then some 1
  else none

/-! ### Boundaries (R419, R429) -/

/-- What ends a wait in WFE is present (R429). -/
def State.wfeDone (s : State) (n : Nat) : Bool :=
  (s.irq n (s.ipl n)).isSome || (s.debugCause n).isSome || (s.core n).wdog

/-- The core executes at its next boundary: released, not locked up for good, and not waiting. -/
def State.executes (s : State) (n : Nat) : Bool :=
  let c := s.core n
  c.running && (!c.lockup || (s.debugCause n).isSome) && (!c.wfe || s.wfeDone n)

/-- A wait in WFE that is over: the clock restarts if it had stopped, and the core goes on (R569). -/
def endWait (n : Nat) (s : State) : State :=
  if (s.core n).wfe && s.wfeDone n then
    let s := if n < 16 then wakeCore n s else s
    s.setCore n { s.core n with wfe := false }
  else s

/-- The entry of interrupt `k` on core `n` (R420); on the MC taking an interrupt ends its source (assumption 50). -/
def enterInterrupt (n k : Nat) (s : State) : State :=
  enterException n 0x11 k (if n = 16 then { s with mgt := { s.mgt with mcIrq := NSet.del s.mgt.mcIrq k } } else s)

/-- What the boundary of core `n` takes before an instruction: a debug cause, a first watchdog expiry while EXL is 0 and
outside monitor mode (R431), an interrupt; none when the next instruction is its turn. -/
def boundary (n : Nat) (s : State) : Option State :=
  match s.debugCause n with
  | some c => some (enterMonitor n c s)
  | none =>
    if (s.core n).wdog && !s.status n 4 && !s.status n 8 then
      some (enterException n 0x10 0 (s.setCore n { s.core n with wdog := false }))
    else (s.irqNow n).map fun k => enterInterrupt n k s

/-- INTERRUPT_ENTRY: the boundary of core `n` takes its interrupt. -/
def execInterruptEntry (n : Nat) (s : State) : Host.Outcome State Fault Refusal :=
  .next (
    if s.executes n && n ≤ 16 && (s.debugCause n).isNone && !((s.core n).wdog && !s.status n 4 && !s.status n 8) then
      match s.irqNow n with
      | some k => enterInterrupt n k (endWait n s)
      | none => s
    else s)

/-- MONITOR_ENTRY: the boundary of core `n` takes its debug cause. -/
def execMonitorEntry (n : Nat) (s : State) : Host.Outcome State Fault Refusal :=
  .next (
    if s.executes n && n < 16 then
      match s.debugCause n with
      | some c => enterMonitor n c (endWait n s)
      | none => s
    else s)

/-- CORE_WAKE: the wait of a sleeping core is over. -/
def execCoreWake (n : Nat) (s : State) : Host.Outcome State Fault Refusal :=
  .next (if n < 16 && (s.core n).asleep then endWait n s else s)

/-! ### The event controller (R428, R430, R434) -/

/-- A read of EVT_CLAIMn: the word, and the pending bit cleared. -/
def claimRead (n : Nat) (s : State) : Nat × State :=
  match s.bestEvent n 0 with
  | some k => (2 ^ 31 + k, s.setFld ⟨A.EVT_PEND (k / 32), k % 32, 1⟩ 0)
  | none => (0, s)

/-- EVT_CLAIM. -/
def execEvtClaim (m n : Nat) (s : State) : Host.Outcome State Fault Refusal :=
  .next (if n < 16 then regRead m (A.EVT_CLAIM n) (claimRead n) s else s)

/-- A write of EVT_TEST (R434). A number that no event table lists is raised all the same, as if it had a source: R7 says that none raises
it (DESIGN CHOICE, assumption 63). -/
def testRaise (d : Word) (s : State) : State := raise (bits d.toNat 0 9) s

/-- EVT_TEST. -/
def execEvtTest (m : Nat) (d : Word) (s : State) : Host.Outcome State Fault Refusal :=
  .next (regWrite m A.EVT_TEST d (testRaise d) s)

/-- EVENT_HOST_MESSAGE: the 1 ms of event `k` has passed; raises merged in it leave as one message, which opens the next
(R430). -/
def execEventHostMessage (k : Nat) (s : State) : Host.Outcome State Fault Refusal :=
  let w := s.evt.windows.get 0 k
  .next (
    if 1 < w then { s.eventAll 0x0A00 (s.eventPayload k (w - 1)) with evt := ⟨s.evt.windows.set 0 k 1⟩ }
    else { s with evt := ⟨s.evt.windows.set 0 k 0⟩ })

/-! ### Release and reset (R405, R437) -/

/-- Hold core `n` in reset: registers, caches and reservation are gone; its scheduler entry moves (R453). -/
def coreHold (n : Nat) (s : State) : State :=
  let s := endRun n s
  (tskCoreReset n (s.setCore n Core.reset)).setFld (F.TCC_STAT_INRST n) 1

/-- Release core `n` (R405). -/
def coreRelease (n : Nat) (s : State) : State :=
  let c : Core := { Core.reset with
    running := true, pc := s.reg (A.TCC_RSTVEC n) &&& 0xFFFFFFFC, rstHalt := s.flag (F.TCC_CTL_RSTHALT n) }
  (s.setCore n c).setFld (F.TCC_STAT_INRST n) 0

/-- A write of TCC_CTLn (R437). -/
def tccWrite (n : Nat) (d : Word) (s : State) : State :=
  let was := (s.core n).running
  let s := plainWrite (A.TCC_CTL n) d s
  if bit d.toNat 31 then (if was then s else coreRelease n s) else (if was then coreHold n s else s)

/-- TCC_RUN_WRITE. -/
def execTccRunWrite (m n : Nat) (d : Word) (s : State) : Host.Outcome State Fault Refusal :=
  .next (if n < 16 then regWrite m (A.TCC_CTL n) d (tccWrite n d) s else s)

/-! ### Watchdogs (R431, R440 to R442) -/

/-- Reload the count of core `n` with its period. -/
def reload (n : Nat) (s : State) : State :=
  let s := s.setFld (F.TCC_WDCNT_US n) (Nat.max 1 (s.fld (F.TCC_WDCTL_US n)))
  s.setCore n { s.core n with wdogOnce := false }

/-- A write of TCC_WDKICKn. -/
def kick (n : Nat) (d : Word) (s : State) : State := if d = 0xC0DE then reload n s else s

/-- WATCHDOG_KICK. -/
def execWatchdogKick (m n : Nat) (d : Word) (s : State) : Host.Outcome State Fault Refusal :=
  .next (if n < 16 then regWrite m (A.TCC_WDKICK n) d (kick n d) s else s)

/-- A write of TCC_WDCTLn: one that sets EN to 1 reloads the count. -/
def wdctl (n : Nat) (d : Word) (s : State) : State :=
  let s := plainWrite (A.TCC_WDCTL n) d s
  if bit d.toNat 31 then reload n s else s

/-- WDCTL_WRITE. -/
def execWdctlWrite (m n : Nat) (d : Word) (s : State) : Host.Outcome State Fault Refusal :=
  .next (if n < 16 then regWrite m (A.TCC_WDCTL n) d (wdctl n d) s else s)

/-- The count of core `n` stands still (R431). -/
def State.frozen (s : State) (n : Nat) : Bool := s.status n 8 && s.flag (F.TCC_WDCTL_FREEZE n)

/-- An expiry of core `n`'s watchdog: the first makes WDOG pending, the second without a reload resets the core. A core held
in reset has neither (assumption 27). -/
def expiry (n : Nat) (s : State) : State :=
  if !s.flag (F.TCC_WDCTL_EN n) || s.frozen n || !(s.core n).running then s
  else if (s.core n).wdogOnce then
    let pc := (s.core n).pc
    let s := reload n (coreRelease n (coreHold n s))
    raise (48 + n) ((s.setFld (F.TCC_STAT_WDRST n) 1).setReg (A.TCC_FAULTPC n) pc)
  else
    let s := reload n s
    s.setCore n { s.core n with wdog := true, wdogOnce := true }

/-- WATCHDOG_EXPIRY. -/
def execWatchdogExpiry (n : Nat) (s : State) : Host.Outcome State Fault Refusal := .next (if n < 16 then expiry n s else s)

/-! ### Returns (R420, R423, R431) -/

/-- ERET: IE, PRV and EXL restored, the reservation cleared, pc to EPC with bits [1:0] ignored. -/
def returnException (n : Nat) (s : State) : State :=
  let s := endRun n s
  let s := s.setSys n 0 (BitVec.ofNat 32 (statusOut (s.sysReg n 0).toNat))
  (s.dropResv n).setPc n (s.sysReg n 1 &&& 0xFFFFFFFC)

/-- MRET: MON cleared, PRV as at entry (kept when no entry came before), pc to MEPC; with FREEZE set the watchdog reloads
and a pending first expiry is discarded. -/
def returnMonitor (n : Nat) (s : State) : State :=
  let s := endRun n s
  let mon := s.status n 8
  let thaw := n < 16 && s.frozen n
  let prv := if mon then (s.core n).monPrv else s.status n 2
  let s := ((s.setStatus n 8 false).setStatus n 2 prv).dropResv n
  let s := s.setPc n (s.sysReg n 0x10 &&& 0xFFFFFFFC)
  if thaw then
    let s := reload n s
    s.setCore n { s.core n with wdog := false }
  else s

end Sys2Proof.Machine
end

