-- ==== Sys2Proof/Machine/HubMem.lean ====
section
/-! DEFINITION. Bank power states, march runs, the core-addressable region, fences, routers and route tables (R501, R504 to R510,
R515, R521, R525, R526). -/
namespace Sys2Proof.Machine

/-! ### Fences (R525) -/

/-- The hub fences target `t` itself; one that is fenced and drained already stays so (R543). -/
def State.autoFence (s : State) (t : Nat) : State := s.setFld (F.NOC_FENCE_AUTO t) 1

/-- The hub's own fence of target `t` ends. -/
def State.autoFree (s : State) (t : Nat) : State :=
  let s := s.setFld (F.NOC_FENCE_AUTO t) 0
  if s.flag (F.NOC_FENCE_FENCE t) then s else s.setFld (F.NOC_FENCE_DRAINED t) 0

/-- A write of NOC_FENCEt: ignored while AUTO is 1. -/
def fenceWrite (t : Nat) (d : Word) (s : State) : State :=
  if s.flag (F.NOC_FENCE_AUTO t) then s
  else if bit d.toNat 31 then s.setFld (F.NOC_FENCE_FENCE t) 1
  else s.setFlds [(F.NOC_FENCE_FENCE t, 0), (F.NOC_FENCE_DRAINED t, 0)]

/-- NOC_FENCE_WRITE. -/
def execNocFenceWrite (m t : Nat) (d : Word) (s : State) : Host.Outcome State Fault Refusal :=
  .next (if t < 64 then regWrite m (A.NOC_FENCE t) d (fenceWrite t d) s else s)

/-- FENCE_DRAINED: the fenced target has answered what it accepted; a request stalled at its borrowed chunk is not answered yet (R508,
R525). -/
def execFenceDrained (t : Nat) (s : State) : Host.Outcome State Fault Refusal :=
  .next (if t < 64 && s.fenced t && !s.flag (F.NOC_FENCE_DRAINED t) && !(s.noc.flights.any fun f => f.stalled && f.target == t) then
      raise 260 (s.setFld (F.NOC_FENCE_DRAINED t) 1) else s)

/-! ### Bank power (R504) -/

/-- The NoC address of local bank `b`. -/
def bankBase (b : Nat) : Nat := 0x1000000 + b * 0x100000

/-- Bank `b` with every word 0 and correct parity. -/
def State.wipeBank (s : State) (b : Nat) : State :=
  { s with
    mem := Mem.clear s.mem (bankBase b) 0x100000
    badMem := s.badMem.filter fun a => a < bankBase b || bankBase b + 0x100000 ≤ a }

/-- A write of HBK_BPWRb: ERR is W1C; STATE starts a change, or is ignored with ERR. -/
def bpwrWrite (b : Nat) (d : Word) (s : State) : State :=
  let s := if bit d.toNat 30 then s.setFld (F.HBK_BPWR_ERR b) 0 else s
  let want := bits d.toNat 0 2
  if s.flag (F.HBK_BPWR_BUSY b) || s.flag (F.HBK_MCTL_BUSY b) || s.flag (F.HBK_BPWR_FAIL b) || want = 3 then
    s.setFld (F.HBK_BPWR_ERR b) 1
  else if want = s.fld (F.HBK_BPWR_STATE b) then s
  else
    let s := if s.fld (F.HBK_BPWR_STATE b) = 0 then s.autoFence b else s
    { s with hub := { s.hub with power := s.hub.power ++ [(b, want)] } }.setFld (F.HBK_BPWR_BUSY b) 1

/-- HBK_BPWR_WRITE. -/
def execHbkBpwrWrite (m b : Nat) (d : Word) (s : State) : Host.Outcome State Fault Refusal :=
  .next (if b < 16 then regWrite m (A.HBK_BPWR b) d (bpwrWrite b d) s else s)

/-- The change of bank `b` completes; a change out of ON first waits for DRAINED. -/
def powerDone (b : Nat) (s : State) : State :=
  match s.hub.power.find? fun x => x.1 == b with
  | none => s
  | some (_, want) =>
    let from_ := s.fld (F.HBK_BPWR_STATE b)
    if from_ = 0 && !s.flag (F.NOC_FENCE_DRAINED b) then s
    else
      let s := { s with hub := { s.hub with power := s.hub.power.filter fun x => x.1 != b } }
      let s := if from_ = 0 then s.clearResv (bankBase b) 0x100000 else s
      let s := if want = 2 || from_ = 2 then s.wipeBank b else s
      let s := s.setFlds [(F.HBK_BPWR_STATE b, want), (F.HBK_BPWR_BUSY b, 0)]
      raise 270 (if want = 0 then s.autoFree b else s)

/-- BANK_POWER_DONE. -/
def execBankPowerDone (b : Nat) (s : State) : Host.Outcome State Fault Refusal := .next (powerDone b s)

/-! ### March runs (R505 to R510) -/

/-- The no-borrow ranges of bank `b` (R509). -/
def State.noBorrow (s : State) (b : Nat) : List (Nat × Nat) :=
  (List.range 4).filterMap fun k =>
    if s.flag (F.HBK_NB_EN b k) then some (s.fld (F.HBK_NB_BASE b k), s.fld (F.HBK_NB_BASE b k) + s.fld (F.HBK_NB_LENM1 b k)) else none

/-- Chunk `c` is never borrowed in this run. -/
def March.skips (m : March) (c : Nat) : Bool := m.nb.any fun r => r.1 ≤ c && c ≤ r.2

/-- The next chunk and background of a preserving run. -/
def March.succ (m : March) : March := if m.chunk = 255 then { m with chunk := 0, ground := m.ground + 1 } else { m with chunk := m.chunk + 1 }

/-- Pass over no-borrow chunks; the number of them passed in the first background is the run's SKIP. -/
def marchNext : Nat → March → Nat → March × Nat
  | 0, m, k => (m, k)
  | n + 1, m, k => if m.ground < 4 && m.skips m.chunk then marchNext n m.succ (if m.ground = 0 then k + 1 else k) else (m, k)

/-- The march of bank `b` in progress. -/
def State.march (s : State) (b : Nat) : Option March := s.hub.marches.find? fun m => m.bank == b

/-- Put back the march of a bank, past the no-borrow chunks that come next. -/
def State.setMarch (s : State) (m : March) : State :=
  let r := marchNext 1024 m (s.fld (F.HBK_MSTAT_SKIP m.bank))
  { s with hub := { s.hub with marches := s.hub.marches.filter (fun (x : March) => x.bank != m.bank) ++ [r.1] } }.setFld
    (F.HBK_MSTAT_SKIP m.bank) r.2

/-- A write of HBK_MCTLb: ERR and FAIL are W1C, PRESERVE is taken, and GO starts a run or sets ERR. -/
def mctlWrite (b : Nat) (d : Word) (s : State) : State :=
  let s := plainWrite (A.HBK_MCTL b) d s
  if !bit d.toNat 31 then s
  else if s.flag (F.HBK_MCTL_BUSY b) || s.fld (F.HBK_BPWR_STATE b) ≠ 0 || s.flag (F.HBK_BPWR_BUSY b) then s.setFld (F.HBK_MCTL_ERR b) 1
  else
    let s := s.setFlds [(F.HBK_MCTL_BUSY b, 1), (F.HBK_MSTAT_SKIP b, 0)]
    if bit d.toNat 8 then s.setMarch ⟨b, true, 0, 0, false, s.noBorrow b⟩
    else
      let s := (s.autoFence b).clearResv (bankBase b) 0x100000
      { s with hub := { s.hub with marches := s.hub.marches ++ [(⟨b, false, 0, 0, false, []⟩ : March)] } }

/-- MARCH_START. -/
def execMarchStart (m b : Nat) (d : Word) (s : State) : Host.Outcome State Fault Refusal :=
  .next (if b < 16 then regWrite m (A.HBK_MCTL b) d (mctlWrite b d) s else s)

/-- Failing words of a run (R510). -/
def marchFails (b : Nat) (fails : List Nat) (s : State) : State :=
  fails.foldl (fun s w =>
    raise 267 ((s.first (F.HBK_MSTAT_VALID b) (F.HBK_MSTAT_MORE b) [(F.HBK_MSTAT_WORD b, w)]).setFld (F.HBK_MCTL_FAIL b) 1)) s

/-- A bank that fails its march at BOOT is OFF, fenced, with FAIL 1 (R504, R505). -/
def bankOff (s : State) (b : Nat) : State :=
  (s.autoFence b).setFlds [(F.HBK_BPWR_STATE b, 2), (F.HBK_BPWR_FAIL b, 1)]

/-- The destructive run on bank `b` that BOOT makes ends (R505, R510): a bank that passed is ON with every word 0. -/
def bootMarch (b : Nat) (fails : List Nat) (s : State) : State :=
  let t := marchFails b fails s
  raise 266 (if fails.isEmpty then t.wipeBank b else bankOff t b)

/-- MARCH_END: a preserving run has passed every chunk on every background; a destructive one leaves every word 0. In row 6 of the boot
every bank is under test (R505, R650). -/
def execMarchEnd (b : Nat) (fails : List Nat) (s : State) : Host.Outcome State Fault Refusal :=
  .next (match s.march b with
    | some m =>
      if m.preserve && m.ground < 4 then s
      else
        let s := marchFails b fails s
        let s := if m.preserve then s else (s.wipeBank b).autoFree b
        let s := { s with hub := { s.hub with marches := s.hub.marches.filter fun (x : March) => x.bank != b } }
        raise 266 (s.setFld (F.HBK_MCTL_BUSY b) 0)
    | none => if s.ctl.mode == .boot && s.mgt.stage == 6 && b < 16 then bootMarch b fails s else s)

/-! ### Regions (R501, R515) -/

/-- A write of HBK_RLOCK. -/
def rlockWrite (d : Word) (s : State) : State := plainWrite A.HBK_RLOCK d s

/-- HBK_RLOCK_WRITE. -/
def execHbkRlockWrite (m : Nat) (d : Word) (s : State) : Host.Outcome State Fault Refusal :=
  .next (regWrite m A.HBK_RLOCK d (rlockWrite d) s)

/-- A write of HBK_CAM: ERR is W1C, PSIZE is taken, CREATE makes the region of that part size or sets ERR, FREE begins to free
it. -/
def camWrite (d : Word) (s : State) : State :=
  let s := plainWrite A.HBK_CAM d s
  let s := if bit d.toNat 31 then
      (match s.create 9 (bits d.toNat 0 14) with
       | some t => t
       | none => s.setFld F.HBK_CAM_ERR 1)
    else s
  if bit d.toNat 30 && s.flag (F.HBK_HRGN_VALID 8) then { s with hub := { s.hub with camFreeing := true } } else s

/-- HBK_CAM_CREATE. -/
def execHbkCamCreate (m : Nat) (d : Word) (s : State) : Host.Outcome State Fault Refusal :=
  .next (regWrite m A.HBK_CAM (d ||| 0x80000000) (camWrite (d ||| 0x80000000)) s)

/-- HBK_CAM_FREE. -/
def execHbkCamFree (m : Nat) (d : Word) (s : State) : Host.Outcome State Fault Refusal :=
  .next (regWrite m A.HBK_CAM (d ||| 0x40000000) (camWrite (d ||| 0x40000000)) s)

/-- CAM_FREE_DONE. -/
def execCamFreeDone (s : State) : Host.Outcome State Fault Refusal :=
  .next (if s.hub.camFreeing then { s.free 9 with hub := { s.hub with camFreeing := false } } else s)

/-! ### Routers and route tables (R520, R521, R526) -/

/-- A write of NOC_RCFGr: a router under reconfiguration does not forward. -/
def rcfgWrite (r : Nat) (d : Word) (s : State) : State :=
  if bit d.toNat 31 then s.setFlds [(F.NOC_RCFG_RECONF r, 1), (F.NOC_RCFG_READY r, 0)] else s.setFld (F.NOC_RCFG_RECONF r) 0

/-- NOC_RCFG_WRITE. -/
def execNocRcfgWrite (m r : Nat) (d : Word) (s : State) : Host.Outcome State Fault Refusal :=
  .next (if r < 32 then regWrite m (A.NOC_RCFG r) d (rcfgWrite r d) s else s)

/-- The code under which R521 refuses a route word, 0 when it is accepted. -/
def State.routeCode (s : State) (i e : Nat) (d : Word) : Nat :=
  if !bit d.toNat 31 then 0
  else match targetRouter e with
    | none => 1
    | some t =>
      let p := routePath (masterRouter i) d
      if bits d.toNat 0 23 ≠ 0 then 1
      else if p.getLast? ≠ some t then 2
      else if p.any fun r => s.flag (F.NOC_RCFG_ABSENT r) then 3
      else 0

/-- A write of NOC_RTi_e. -/
def rtWrite (i e : Nat) (d : Word) (s : State) : State :=
  let c := s.routeCode i e d
  if c = 0 then plainWrite (A.NOC_RT i e) d s
  else raise 258 (s.first F.NOC_RTERR_VALID F.NOC_RTERR_MORE
    [(F.NOC_RTERR_MASTER, i), (F.NOC_RTERR_ENTRY, e), (F.NOC_RTERR_CODE, c)])

/-- NOC_RT_WRITE. -/
def execNocRtWrite (m i e : Nat) (d : Word) (s : State) : Host.Outcome State Fault Refusal :=
  .next (if i < 25 && e < 64 then regWrite m (A.NOC_RT i e) d (rtWrite i e d) s else s)

end Sys2Proof.Machine
end

