-- ==== Sys2Proof/Machine/Power.lean ====
section
/-! DEFINITION. Power, entry to BOOT, the boot steps, input power loss, clock monitors, thermal limits and the crossing to the
host island (R16, R17, R22, R23, R27, R631, R638 to R651, R664). -/
namespace Sys2Proof.Machine

/-! ### Settings copies (R653) -/

/-- The active settings copy: a flash copy, or the factory values of the boot ROM (R654). -/
def Mgt.activeCopy (g : Mgt) : List Host.Cell :=
  match g.active with
  | none => factorySettings
  | some 0 => g.copy0
  | some _ => g.copy1

/-- A number of `n` bytes in a settings copy. -/
def setAtByte (c : List Host.Cell) (a n : Nat) : Nat := leNat (Mem.read c a n)

/-- The bytes of slot `k`. -/
def Mgt.slot (g : Mgt) (k : Nat) : List Byte := if k = 0 then g.slotA else g.slotB

/-! ### The core domain off and at its reset values (R16, R17, R549, R638) -/

/-- The core domain with every register, store and unit at its reset values, and the island's own state, the MC's memories among it,
kept. At TEST_EXIT the domain has not lost power: TB_LOCAL, TB_WALL with its first lock (R378), the sessions and the core-addressable region
of R515 with its FREE stay (assumption 30). -/
def coreReset (test : Bool) (s : State) : State :=
  let r := State.reset
  let fw := leAt (s.mgt.slot s.mgt.runSlot) 8 4 % 65536
  let keep := if test then s.hmp.sessions else s.hmp.sessions.filter fun x => x.port == .mgmt
  let alive (n : Nat) : Bool := keep.any fun x => x.num == n
  let regs := bootRegs s.fuses s.mgt.settings fw s.mgt.runSlot
  let regs := if test then rset resetWord (rset resetWord regs (A.HBK_HRGN 8) (s.reg (A.HBK_HRGN 8))) A.TIM_STAT
      (BitVec.ofNat 32 (putBits (r.reg A.TIM_STAT).toNat 31 1 (s.fld F.TIM_STAT_LOCKED))) else regs
  let stays (a : Nat) : Bool := match if test then s.region 9 else none with
    | some x => 0x10000000000 ≤ a && a < 0x11800000000 && (let o := (a - 0x10000000000) % 0x600000000; x.1 ≤ o && o < x.1 + x.2)
    | none => false
  let mem := s.mem.filter fun c => mcMem 0 ≤ c.1 || stays c.1
  { r with
    regs := regs
    ctl := s.ctl
    fuses := s.fuses
    mgt := { s.mgt with upd := s.mgt.upd.bind fun (u : Nat × List Byte × Msg) => if alive u.2.2.session.toNat then some u else none }
    tim := if test then { r.tim with loc := s.tim.loc, wall := s.tim.wall, rem := s.tim.rem } else r.tim
    hub := { r.hub with camFreeing := test && s.hub.camFreeing }
    cores := r.cores.take 16 ++ [s.core 16]
    dbg := { r.dbg with draws := s.dbg.draws }
    hmp := { s.hmp with
      sessions := keep.map fun (x : Session) => { x with debug := false, priv := false, key := none, chal := none, holdOne := false, granted := 0 }
      claim := s.hmp.claim.bind fun (n : Nat) => if alive n then some n else none
      ins := s.hmp.ins.filter fun (x : InStream) => x.kind == .update && alive x.session
      outs := [] }
    fb := if test then s.fb else r.fb
    thm := { r.thm with overInlet := s.thm.overInlet }
    mem := mem
    out := s.out
    freeCtr := s.freeCtr
    pending := s.pending }

/-- The register blocks whose words the host island keeps while the core domain is off: MGT and PWR (assumption 30). -/
def islandReg (a : Nat) : Bool := 0x130000 ≤ a && a < 0x150000

/-- The register words that come from fuses, the slot and the settings (R16), in the blocks the island keeps. -/
def State.islandSources (s : State) : List (Nat × Word) :=
  let c := s.mgt.activeCopy
  (fuseRegs s.fuses (leAt (s.mgt.slot s.mgt.runSlot) 8 4 % 65536) s.mgt.runSlot (setAtByte c 45 1) (setAtByte c 46 1) ++ settingsRegs c).filter
    fun x => islandReg x.1

/-- The host island's words at power-on: each at its Reset (R16). -/
def islandReset (s : State) : State :=
  { s with regs := s.islandSources.foldl (fun m x => rset resetWord m x.1 x.2) (s.regs.filter fun x => !islandReg x.1) }

/-- The core domain and the field island are switched off; sessions on the optical ports end (R22, R638, R664). -/
def coreOff (s : State) : State :=
  let t := coreReset false { s with ctl := { s.ctl with corePower := false, fieldPower := false, switchingOff := false, clock := false } }
  { t with regs := (s.regs.filter fun x => islandReg x.1).foldl (fun m x => rset resetWord m x.1 x.2) (t.regs.filter fun x => !islandReg x.1) }

/-- The step-clock, hold and burst state of a mode in which no image runs. -/
def Ctl.boot (c : Ctl) : Ctl :=
  { c with
    mode := .boot, holdFrom := .run, burst := false, left := 0, reason := 0, safeDue := none, safeNext := false, corePower := true
    fieldPower := true, switchingOff := false, stopReq := false, clock := false }

/-- Entry to BOOT (R16, R631, R653): the settings of the active copy take effect, every register takes its Reset value. From
STANDBY the boot begins at row 4 of R650, from TEST, with the domain powered, at row 5 (assumption 5). -/
def enterBoot (test : Bool) (s : State) : State :=
  let s := setMode .boot s
  let s := { s with mgt := { s.mgt with settings := s.mgt.activeCopy, stage := if test then 5 else 4 } }
  let s := coreReset test s
  { s with ctl := s.ctl.boot, mgt := { s.mgt with bootAt := s.local } }

/-- STANDBY with the core domain off. -/
def toStandby (s : State) : State := setMode .standby (coreOff s)

/-! ### Input power (R639, R664) -/

/-- The input has returned after a loss and the domain is off: STANDBY, and BOOT when AUTOON is 1 (R664 step 4). -/
def afterLoss (s : State) : State :=
  if s.mgt.lost && s.ctl.inputGood && !s.ctl.corePower && s.ctl.mode != .off then
    let s := setMode .standby { s with ctl := { s.ctl with reason := 0 } }
    let s := (({ s with mgt := { s.mgt with lost := false } }).log 0x8002 [])
    if s.mgt.mcUp && !s.mgt.recovery && bit (setAtByte s.mgt.activeCopy 8 1) 0 then enterBoot false s else s
  else s

/-- INPUT_POWER_RISE: from OFF, which is power-on, to STANDBY with the MC about to start, which makes the record of the change (R633); after
a loss, R664 step 4. -/
def powerRise (s : State) : State :=
  let s := { s with ctl := { s.ctl with inputGood := true } }
  match s.ctl.mode with
  | .off => setMode .standby (islandReset s)
  | _ => afterLoss s

/-- INPUT_POWER_RISE. -/
def execInputPowerRise (s : State) : Host.Outcome State Fault Refusal := .next (powerRise s)

/-- Write a settings copy: edit the given bytes, SEQ one above the active copy's, CRC; it becomes active (R655). Bytes from 16,896
up are the commit's own. -/
def programCopy (edit : List Host.Cell) (s : State) : State :=
  let k := if s.mgt.active == some 0 then 1 else 0
  let q := (setAtByte s.mgt.activeCopy 16896 4 + 1) % 2 ^ 32
  let c := Mem.write edit 16896 (leBytes 4 q)
  let c := Mem.write c 16900 (leBytes 4 (crc32 (Mem.read c 0 16900)))
  let s := { s with mgt := { s.mgt with
    copy0 := if k = 0 then c else s.mgt.copy0, copy1 := if k = 0 then s.mgt.copy1 else c
    active := some k, staging := c, erasing := true } }
  let s := s.setFlds [(F.PWR_LIM_THROT, setAtByte c 42 1), (F.PWR_LIM_INLETW, setAtByte c 43 1), (F.PWR_LIM_PLIM, setAtByte c 40 2)]
  (raise 319 s).log 0x8003 (leBytes 4 q)

/-- An erase of the inactive sector that stops half done leaves a copy that fails its CRC (R655, R664); its bytes, which nothing uses, are
not kept. -/
def cutErase (s : State) : State :=
  if !s.mgt.erasing then s
  else if s.mgt.active == some 0 then { s with mgt := { s.mgt with copy1 := [] } }
  else { s with mgt := { s.mgt with copy0 := [] } }

/-- SETTINGS_COMMIT_DONE: page 66 is programmed, the copy active, the commit answered, and the erase begun (R655, R656). -/
def commitDone (s : State) : State :=
  match s.mgt.commit with
  | none => s
  | some c => (programCopy c.bytes { s with mgt := { s.mgt with commit := none } }).respond c.answer 0x0F0F 0 []

/-- SETTINGS_COMMIT_DONE. -/
def execSettingsCommitDone (s : State) : Host.Outcome State Fault Refusal := .next (commitDone s)

/-- INPUT_POWER_LOSS (R664): the hub enters SAFE and raises EV313; a running MC stops an update write, completes its commit, and
writes its log with record 0x8001. -/
def powerLoss (s : State) : State :=
  if s.ctl.mode == .off || !s.ctl.inputGood then s
  else
    let s := { s with ctl := { s.ctl with inputGood := false, switchingOff := s.ctl.corePower } }
    let s := if s.ctl.corePower then raise 313 (enterSafe 9 s) else s
    if s.mgt.mcUp then
      let s := cutErase s
      let s := { s with mgt := { s.mgt with lost := true, upd := none, mcIrq := NSet.ins s.mgt.mcIrq 0 } }
      ((commitDone s).log 0x8001 []).flushLog
    else { s with mgt := { s.mgt with lost := true } }

/-- INPUT_POWER_LOSS. -/
def execInputPowerLoss (s : State) : Host.Outcome State Fault Refusal := .next (powerLoss s)

/-- CORE_DOMAIN_OFF: the domain that is to be switched off goes off; after POWER with ON 0 the module is in STANDBY, after an
input loss it stays in SAFE until the input returns or OFF (R631, R664). -/
def domainOff (s : State) : State :=
  if s.ctl.switchingOff && s.ctl.corePower && !s.ctl.clock then
    if s.mgt.lost then afterLoss (coreOff s) else toStandby s
  else s

/-- CORE_DOMAIN_OFF. -/
def execCoreDomainOff (s : State) : Host.Outcome State Fault Refusal := .next (domainOff s)

/-- HOLDUP_SPENT: OFF; the MC's SRAM, its sessions and its claim are gone with the island. -/
def holdupSpent (s : State) : State :=
  if s.ctl.inputGood || s.ctl.mode == .off then s
  else
    let s := islandReset (coreOff s)
    { s with
      ctl := { s.ctl.boot with mode := .off, corePower := false, fieldPower := false }
      hmp := { s.hmp with sessions := [], claim := none, ins := [], outs := [], opened := [] }
      cores := setAt s.cores 16 Core.reset
      mem := s.mem.filter fun c => !(mcMem 0x10000000 ≤ c.1)
      mgt := { s.mgt with
        restarting := false, lost := true, commit := none, upd := none, logBuf := [], mcUp := false, recovery := false, onTrial := false, xingUp := false
        mcIrq := [], hubWin := 0, wallSec := 0, wallNs := 0, wallKnown := false, mbox := none, reply := (false, 0), modeKnown := .off } }

/-- HOLDUP_SPENT. -/
def execHoldupSpent (s : State) : Host.Outcome State Fault Refusal := .next (holdupSpent s)

/-- RAIL_FAULT: a core rail outside its limit: SAFE with reason POWER, and the core domain off (R640). Rails 12 and 13 are the
islands' and 15 is none (R671). -/
def railFault (r : Nat) (s : State) : State :=
  if s.ctl.corePower && (r ≤ 11 || r == 14) then coreOff (enterSafe 9 s) else s

/-- RAIL_FAULT. -/
def execRailFault (rail : Nat) (s : State) : Host.Outcome State Fault Refusal := .next (railFault rail s)

/-! ### Clock monitors (R27, R668) -/

/-- The clock domains that exist and whose loss counts: no island domain, no step domain or HBM controller absent on the grade, an
LNKRX domain only while its port is ACTIVE. -/
def State.clockKnown (s : State) (d : Nat) : Bool :=
  d ≤ 24 && d ≠ 20 && d ≠ 21 && !(d < 6 && s.dies ≤ d) && !(8 ≤ d && d ≤ 11 && s.fuses.grade.stacks ≤ d - 8) &&
    !(13 ≤ d && d ≤ 18 && s.stage (d - 13) ≠ 4)

/-- The loss of domain `d` in MGT_CLKSTAT, with EV311 (R668). -/
def clockRecord (d : Nat) (s : State) : State :=
  let s := s.setFld ⟨A.MGT_CLKSTAT, d, 1⟩ 1
  let s := if s.flag F.MGT_CLKSTAT_VALID then s else s.setFlds [(F.MGT_CLKSTAT_FIRST, d), (F.MGT_CLKSTAT_VALID, 1)]
  raise 311 s

/-- The loss of one clock domain: a step domain, one of the PLL's distribution trees (R26), while the PLL had locked at the present MHZ:
SAFE at once. Another domain: SAFE at the next boundary if the budget of the unit that owns the clock cannot be met, which is a free bit
(R27, assumption 31). -/
def domainLoss (d : Nat) (s : State) : State :=
  if !s.clockKnown d || (d < 6 && !s.lge.wasLocked) then s
  else
    let s := clockRecord d s
    if d < 6 then enterSafe 7 s
    else
      let x := s.freshBit
      if x.1 then
        if x.2.ctl.clock then { x.2 with ctl := { x.2.ctl with safeNext := true } } else enterSafe 7 x.2
      else x.2

/-- The step PLL, which had locked at the present MHZ, loses its lock (R27, R354): EV72 and SAFE at once. Every step domain is lost with it
(DEDUCED, assumption 31): they are one clock (R26). -/
def pllLoss (s : State) : State :=
  if !s.lge.wasLocked then s
  else
    let s := (List.range s.dies).foldl (fun s d => clockRecord d s) (s.setFld F.SFB_CLK_LOCK 0)
    enterSafe 7 (raise 72 s)

/-- CLOCK_LOSS. -/
def clockLoss (d : ClockLost) (s : State) : State :=
  if !s.ctl.corePower then s
  else match d with
    | .domain k => domainLoss k s
    | .stepPll => pllLoss s

/-- CLOCK_LOSS. -/
def execClockLoss (dom : ClockLost) (s : State) : Host.Outcome State Fault Refusal := .next (clockLoss dom s)

/-! ### The crossing to the host island (R23, R647, R648) -/

/-- MGT_IDLE_FRAME_SEND: an end that has sent nothing for 10 µs sends an idle frame. -/
def mgtIdle (hubEnd : Bool) (s : State) : State :=
  if hubEnd then (if s.ctl.corePower then { s with mgt := { s.mgt with idles := (s.mgt.idles.1 + 1, s.mgt.idles.2) } } else s)
  else if s.mgt.mcUp then { s with mgt := { s.mgt with idles := (s.mgt.idles.1, s.mgt.idles.2 + 1) } }
  else s

/-- MGT_IDLE_FRAME_SEND. -/
def execMgtIdleFrameSend (hubEnd : Bool) (s : State) : Host.Outcome State Fault Refusal := .next (mgtIdle hubEnd s)

/-- The answer to MODE_QUERY as the hub holds it (R636). -/
def State.modeBytes (s : State) : List Byte :=
  leBytes 4 s.mgtMode.toNat ++ leBytes 4 (s.reg A.MGT_BOOT).toNat ++ leBytes 4 (s.reg A.MGT_UPD).toNat ++ leBytes 8 s.lge.cycle

/-- Every PWR register, in offset order (R636). -/
def State.sensorBytes (s : State) : List Byte :=
  ([A.PWR_IN, A.PWR_PIN, A.PWR_PMAX, A.PWR_THM, A.PWR_TSTAT, A.PWR_LIM] ++ (List.range 48).map (fun k => A.PWR_TEMP k) ++
    (List.range 16).map fun r => A.PWR_RAIL r).flatMap fun a => leBytes 4 (s.reg a).toNat

/-- MGT_CROSSING_DOWN: EV310, log record 0x800A, the MC's source 2, and what the MC last knew of the hub (R21, R23, R646, R648). -/
def crossingDown (s : State) : State :=
  if s.mgt.xingUp then
    let s := { s with mgt := { s.mgt with
      xingUp := false, modeKnown := s.ctl.mode, modeWords := s.modeBytes, pwrWords := s.sensorBytes, mcIrq := NSet.ins s.mgt.mcIrq 2 } }
    let s := if s.ctl.corePower then raise 310 s else s
    s.log 0x800A []
  else s

/-- MGT_CROSSING_DOWN. -/
def execMgtCrossingDown (s : State) : Host.Outcome State Fault Refusal := .next (crossingDown s)

/-- MGT_CROSSING_UP: a valid frame in both directions, which takes the hub and the MC. -/
def crossingUp (s : State) : State :=
  if !s.mgt.xingUp && s.mgt.mcUp && s.ctl.corePower then raise 310 { s with mgt := { s.mgt with xingUp := true } } else s

/-- MGT_CROSSING_UP. -/
def execMgtCrossingUp (s : State) : Host.Outcome State Fault Refusal := .next (crossingUp s)

/-- MC_POWER_CYCLE: the core domain off and on again, to BOOT, with EV312 and log records 0x800C and 0x800B (R631, R633, R648); a load is
refused (R190). -/
def mcPowerCycle (s : State) : State :=
  if !s.mgt.xingUp && s.mgt.mcUp && s.ctl.corePower then
    let s := (s.log 0x800C []).log 0x800B (leBytes 1 Mode.boot.code)
    let s := coreOff (refuseLoad abortedLoad (raise 312 s))
    enterBoot false { s with ctl := { s.ctl with mode := .boot } }
  else s

/-- MC_POWER_CYCLE. -/
def execMcPowerCycle (s : State) : Host.Outcome State Fault Refusal := .next (mcPowerCycle s)

/-! ### Boot (R650, R651) -/

/-- The MC's copy of the slot's transactor firmware to local bank 0 (R650, R660), which takes it while it is ON. -/
def copyFirmware (s : State) : State :=
  if s.fld (F.HBK_BPWR_STATE 0) ≠ 0 then s else
  let b := s.mgt.slot s.mgt.runSlot
  let mc := leAt b 56 4
  let tc := Nat.min (leAt b 60 4) 0x100000
  { s with mem := Mem.write s.mem 0x1000000 (slice b (4096 + mc) tc) }

/-- BOOT_STEP_DONE: the row in progress completes. In row 6 MARCH_END has brought the banks that failed (R505). Row 7 brings a CONFIG frame for every bank (R606), row 8 the transactor firmware
and the release of TC0. Row 9 ends by MGT_BOOT.DONE. -/
def bootStep (s : State) : State :=
  if s.ctl.mode == .boot && s.mgt.stage < 9 then
    let k := s.mgt.stage
    let s := if k = 7 then { s with fio := { s.fio with cfgDue := List.range 16 } } else s
    let s := if k = 8 then (let t := copyFirmware s; tccWrite 0 (t.reg (A.TCC_CTL 0) ||| 0x80000000) t) else s
    ({ s with mgt := { s.mgt with stage := k + 1 } }).setFld F.MGT_BOOT_STAGE (k + 1)
  else s

/-- BOOT_STEP_DONE. -/
def execBootStepDone (s : State) : Host.Outcome State Fault Refusal := .next (bootStep s)

/-- BOOT_STEP_TIMEOUT: SAFE with reason BOOT and STAGE naming the step, or STANDBY with record 0x800D when the core domain cannot
be powered (R651). -/
def bootTimeout (s : State) : State :=
  if s.ctl.mode == .boot then
    if s.mgt.stage ≤ 4 then (toStandby s).log 0x800D []
    else enterSafe 10 (s.setFld F.MGT_BOOT_STAGE s.mgt.stage)
  else s

/-- BOOT_STEP_TIMEOUT. -/
def execBootStepTimeout (s : State) : Host.Outcome State Fault Refusal := .next (bootTimeout s)

/-- The milliseconds of TB_LOCAL since the entry to BOOT (R651, assumption 5). -/
def State.bootMs (s : State) : Nat := Nat.min 0xFFFF ((s.local - s.mgt.bootAt) / 500000)

/-- A write of MGT_BOOT: DONE 1 ends row 9 of the boot, and the module enters IDLE, with the time to it in MS (R650, R651). -/
def bootWrite (d : Word) (s : State) : State :=
  if bit d.toNat 31 && s.ctl.mode == .boot && s.mgt.stage == 9 then
    let s := s.setFlds [(F.MGT_BOOT_STAGE, 0), (F.MGT_BOOT_MS, s.bootMs)]
    enterIdle (bootFormation s)
  else s

/-- MGT_BOOT_DONE. -/
def execMgtBootDone (m : Nat) (d : Word) (s : State) : Host.Outcome State Fault Refusal :=
  .next (regWrite m A.MGT_BOOT d (bootWrite d) s)

/-! ### Thermal limits (R641 to R644) -/

/-- A thermal trip: cause FAULT, SAFE with reason THERMAL, EV316, and the log written at once (R643, R658). -/
def thermalTrip (s : State) : State :=
  let s := s.setFld F.PWR_TSTAT_TRIP 1
  let s := s.hubLog 0x8008 (leBytes 2 (s.fld F.PWR_THM_TJMAX))
  (raise 316 (requestSafe 8 s)).flushLog

/-- HWREQ falls by 1 after 100 consecutive cool samples (R642). -/
def coolDown (s : State) : State :=
  if 100 ≤ s.thm.cool then
    updThr ((({ s with thm := { s.thm with cool := 0 } })).setFld F.SFB_THR_HWREQ (s.fld F.SFB_THR_HWREQ - 1))
  else s

/-- THROTTLE_COOL_DOWN. -/
def execThrottleCoolDown (s : State) : Host.Outcome State Fault Refusal := .next (coolDown s)

/-- The readings go into the PWR registers. Those the MC takes, the inlet, the input and the converters' and islands' sensors and rails, come
from a running MC, to the hub through the crossing (R21, R641). The sensors and rails of the core domain are read only while it is powered, the field
island's only while that is; sensors and rails of absent dies read 0 (R641, R669 to R671). -/
def takeReadings (x : Sensors) (s : State) : State :=
  let live (k : Nat) : Bool :=
    if k < 44 then s.ctl.corePower && (36 ≤ k || k / 6 < s.dies) else if k = 46 then s.ctl.fieldPower else true
  let mc := s.mgt.mcUp && s.mcReached
  let s := (List.range 48).foldl (fun s k =>
    if 44 ≤ k && !mc then s else
    match if live k then x.temps.getD k none else none with
    | some t => s.setFlds [(F.PWR_TEMP_VALID k, 1), (F.PWR_TEMP_T k, unsgn 16 t)]
    | none => s.setReg (A.PWR_TEMP k) 0) s
  let s := (List.range 15).foldl (fun s r =>
    let on := if r < 6 then s.ctl.corePower && decide (r < s.dies) else if r = 12 then s.ctl.fieldPower else if r = 13 then true else s.ctl.corePower
    let v := if on then x.rails.getD r (0, 0) else (0, 0)
    if (r = 12 || r = 13) && !mc then s else
    s.setFlds [(F.PWR_RAIL_V r, v.1), (F.PWR_RAIL_I r, v.2)]) s
  let valid := (List.range 44).filter fun k => s.flag (F.PWR_TEMP_VALID k)
  let best := valid.foldl (fun (b : Option (Int × Nat)) k =>
    let t := sgn 16 (s.fld (F.PWR_TEMP_T k))
    match b with
    | some (m, _) => if m < t then some (t, k) else b
    | none => some (t, k)) none
  let tj := best.getD (0, 0)
  let s := if mc then s.setFlds [(F.PWR_IN_VIN, x.vin10mV), (F.PWR_IN_IIN, x.iinmA), (F.PWR_THM_INLET, unsgn 16 x.inlet)] else s
  s.setFlds [(F.PWR_PIN_P, x.pinDeciW), (F.PWR_PMAX_P, Nat.max (s.fld F.PWR_PMAX_P) (x.pinDeciW % 65536)),
    (F.PWR_THM_TJMAX, unsgn 16 tj.1), (F.PWR_TSTAT_SRC, tj.2)]

/-- THERMAL_SAMPLE: the sample of the hub's thermal logic, and the inlet warning (R641 to R644). -/
def thermalSample (x : Sensors) (s : State) : State :=
  let s := takeReadings x (coolDown s)
  let inlet := sgn 16 (s.fld F.PWR_THM_INLET)
  let warm := decide ((s.fld F.PWR_LIM_INLETW : Int) * 16 < inlet)
  let s := if warm then
      raiseIf (!s.thm.overInlet) 317 (s.setFld F.PWR_TSTAT_INLETW 1)
    else s
  let s := { s with thm := { s.thm with overInlet := warm }, mgt := { s.mgt with mcIrq := if s.mgt.mcUp then NSet.ins s.mgt.mcIrq 6 else s.mgt.mcIrq } }
  if !s.ctl.corePower then s
  else
    let tj := sgn 16 (s.fld F.PWR_THM_TJMAX)
    let throt : Int := (s.fld F.PWR_LIM_THROT : Int) * 16
    let pin := s.fld F.PWR_PIN_P
    let plim := s.fld F.PWR_LIM_PLIM * 10
    let temps := (List.range s.fuses.grade.stacks).map fun n => sgn 8 (bits (s.reg A.HBK_HTEMP).toNat (8 * n) 8)
    let above := decide (plim < pin)
    let hot := decide (throt ≤ tj) || temps.any (fun t => decide (95 < t)) || above
    let cool := decide (tj ≤ throt - 80) && temps.all (fun t => decide (t ≤ 90)) && decide (pin + 200 ≤ plim)
    let hw := s.fld F.SFB_THR_HWREQ
    let s := if above then raiseIf (!s.thm.overPlim) 314 (s.setFld F.PWR_TSTAT_PLIM 1) else s
    let s := if hot then raiseIf (!s.thm.lastHot) 315 s else s
    let s := if hot && hw < 8 then updThr (s.setFld F.SFB_THR_HWREQ (hw + 1)) else s
    let n := if decide (1760 ≤ tj) then Nat.min 2 (s.thm.over110 + 1) else 0
    let trip := n = 2 && s.thm.over110 = 1
    let s := { s with thm := { s.thm with
      overPlim := above, lastHot := if hot then true else if cool then false else s.thm.lastHot
      cool := if cool && 0 < hw then s.thm.cool + 1 else 0, over110 := n } }
    let s := s.setFld F.PWR_TSTAT_HOT (b2n hot)
    if trip then thermalTrip s else s

/-- THERMAL_SAMPLE. -/
def execThermalSample (x : Sensors) (s : State) : Host.Outcome State Fault Refusal := .next (thermalSample x s)

/-- THERMAL_SHUTDOWN: TJMAX at or above 115 °C, or still at or above 105 °C after a thermal entry to SAFE: the core domain goes off
and the module stays in SAFE (R643). -/
def thermalShutdown (s : State) : State :=
  let tj := sgn 16 (s.fld F.PWR_THM_TJMAX)
  if s.ctl.corePower && (decide (1840 ≤ tj) || (s.ctl.mode == .safe && s.ctl.reason == 8 && decide (1680 ≤ tj))) then
    coreOff (if s.ctl.mode == .safe then s else enterSafe 8 s)
  else s

/-- THERMAL_SHUTDOWN. -/
def execThermalShutdown (s : State) : Host.Outcome State Fault Refusal := .next (thermalShutdown s)

/-! ### Leaving SAFE, TEST, and POWER (R631, R635, R636) -/

/-- CLEAR (R635). The input is below 36 V where it is lost and where the last sample of it, if there was one, read so. -/
def clearSafe (s : State) : Nat × List Byte × State :=
  let hot := s.ctl.corePower && decide ((s.fld F.PWR_LIM_THROT : Int) * 16 - 80 ≤ sgn 16 (s.fld F.PWR_THM_TJMAX))
  let low := !s.ctl.inputGood || (0 < s.fld F.PWR_IN_VIN && s.fld F.PWR_IN_VIN < 3600)
  if low || hot || s.ctl.switchingOff then (0xF80, [], s)
  else
    let s := (discardImage s).setFld F.SFB_HOLD_STAT_FAULT 0
    let s := { s with ctl := { s.ctl with reason := 0 }, arr := { s.arr with stopped := false } }
    ok (if s.ctl.corePower then enterIdle s else enterBoot false s)

/-- CLEAR. -/
def execClear (msg : Msg) (s : State) : Host.Outcome State Fault Refusal :=
  .next (request msg { op := 0x0F07, claim := true, mode := fun s => s.ctl.mode == .safe } (fun _ _ s => clearSafe s) s)

/-- Entry to TEST (R195, R272, R631): image, stagings, slots, snapshot and tun are lost; every region but the core-addressable one
is freed. -/
def enterTest (s : State) : State :=
  let s := s.setFlds ((List.range 32).map fun r => (F.NOC_RCFG_READY r, 0))
  let s := s.ldr.stagings.foldl (fun s x => endStaging x (some (rep 0x0511 0)) s) (discardImage s)
  let s := endCapture 4 (abortSnap 6 s)
  let s := (List.range 4).foldl (fun s k => emptySlot k s) s
  let s := (((s.free 1).free 6).free 7).free 8
  setMode .test { s with acq := { s.acq with buffer := [], streams := [], armed := false } }

/-- TEST_ENTER. -/
def execTestEnter (msg : Msg) (s : State) : Host.Outcome State Fault Refusal :=
  .next (request msg { op := 0x0F09, claim := true, mode := fun s => s.ctl.mode == .idle } (fun _ _ s => ok (enterTest s)) s)

/-- TEST_EXIT: the response leaves before the optical ports carry no more messages (R631). -/
def execTestExit (msg : Msg) (s : State) : Host.Outcome State Fault Refusal :=
  .next (request msg { op := 0x0F0A, claim := true, mode := fun s => s.ctl.mode == .test }
    (fun _ _ s => (later, [], enterBoot true (s.respond msg 0x0F0A 0 []))) s)

/-- POWER (R631, R636, R644). With ON 0 while the step clock runs, SAFE comes first and CORE_DOMAIN_OFF follows it; a load is refused
(R190). -/
def power (on : Bool) (s : State) : Nat × List Byte × State :=
  if on then
    if 720 < sgn 16 (s.fld F.PWR_THM_INLET) then (0xF88, [], s) else ok (enterBoot false s)
  else if s.ctl.clock then
    let s := requestSafe 1 s
    ok { s with ctl := { s.ctl with switchingOff := true } }
  else ok (toStandby (refuseLoad abortedLoad s))

/-- POWER: ON 1 in STANDBY, ON 0 from BOOT to SAFE; the mode is a check of its own once ON is known (R687). -/
def execPower (msg : Msg) (s : State) : Host.Outcome State Fault Refusal :=
  .next (request msg { op := 0x0F0B, claim := true, len := fun n => n == 4, zeros := fun p => bits (leAt p 0 1) 1 7 == 0 && leAt p 1 3 == 0 }
    (fun _ p s =>
      let on := bit (leAt p 0 1) 0
      if (if on then s.ctl.mode == .standby && s.ctl.inputGood && !s.mgt.recovery else s.ctl.mode != .off && s.ctl.mode != .standby)
      then power on s else (0x3, [], s)) s)

/-- HOST_LINK_CHANGE: the link of an optical host port comes up or goes down (R679); a module that reports more than the 3.5 W of its cage
is left in low-power mode, and its port stays down (R681). -/
def execHostLinkChange (hport : Nat) (optic : Optic) (s : State) : Host.Outcome State Fault Refusal :=
  let low : Bool := 3500 < optic.milliwatts
  .next (
    if hport = 0 then { s with hmp := { s.hmp with link0 := optic.link && !low, lowPower0 := low } }
    else if hport = 1 then { s with hmp := { s.hmp with link1 := optic.link && !low, lowPower1 := low } }
    else s)

end Sys2Proof.Machine
end

