-- ==== Sys2Proof/Machine/Mgmt.lean ====
section
/-! DEFINITION. The management controller's messages, settings, event log, firmware updates, start and restart, and its mailbox
(R35, R636, R646 to R649, R652 to R664). -/
namespace Sys2Proof.Machine

/-! ### The control claim (R35, R190, R230, R233) -/

/-- The claim held by session `n` is released: what needs it ends. -/
def dropClaim (n : Nat) (s : State) : State :=
  if s.hmp.claim == some n then snapshotLoses n (loaderLoses n false { s with hmp := { s.hmp with claim := none } }) else s

/-- A request of the table of R636: any mode but OFF is permitted where the table says so, since no port runs in OFF. -/
def execClaim (msg : Msg) (s : State) : Host.Outcome State Fault Refusal :=
  .next (request msg { op := 0x0F00 }
    (fun x _ s =>
      match s.hmp.claim with
      | none => ok { s with hmp := { s.hmp with claim := some x.num } }
      | some n => if n = x.num then ok s else (5, [], s)) s)

/-- UNCLAIM. -/
def execUnclaim (msg : Msg) (s : State) : Host.Outcome State Fault Refusal :=
  .next (request msg { op := 0x0F01, claim := true } (fun x _ s => ok (dropClaim x.num s)) s)

/-- CLAIM_TIMEOUT: the holding session sent nothing for 30 s. -/
def execClaimTimeout (s : State) : Host.Outcome State Fault Refusal :=
  .next (match s.hmp.claim with | some n => dropClaim n s | none => s)

/-! ### Queries (R636) -/

/-- MODE_QUERY. On the management port the MC answers alone: with the crossing down, with what it last knew (R21; DESIGN CHOICE, assumption
55). -/
def execModeQuery (msg : Msg) (s : State) : Host.Outcome State Fault Refusal :=
  .next (request msg { op := 0x0F02 }
    (fun _ _ s => (0, if msg.port == .mgmt && !s.mcReached then s.mgt.modeWords else s.modeBytes, s)) s)

/-- SENSORS. -/
def execSensors (msg : Msg) (s : State) : Host.Outcome State Fault Refusal :=
  .next (request msg { op := 0x0F0C } (fun _ _ s => (0, if msg.port == .mgmt && !s.mcReached then s.mgt.pwrWords else s.sensorBytes, s)) s)

/-! ### Settings (R653 to R657) -/

/-- The bytes of a settings copy that hold a field; every other byte is 0 (R653). -/
def settingsByte (a : Nat) : Bool :=
  if a < 512 then a < 6 || (8 ≤ a && a ≤ 10) || (12 ≤ a && a ≤ 26) || (28 ≤ a && a ≤ 46)
  else if a < 16896 then (let k := (a - 512) % 2048; k == 0 || (32 ≤ k && k < 2016))
  else a < 16904

/-- MAGIC, FORMAT and the ranges of R653. -/
def settingsForm (c : List Host.Cell) : Bool :=
  let v (a n : Nat) : Nat := setAtByte c a n
  v 0 4 == 0x54544553 && v 4 2 == 1 && [8, 9, 10, 26, 44].all (fun a => v a 1 ≤ 1) && 100 ≤ v 40 2 && v 40 2 ≤ 620 &&
    85 ≤ v 42 1 && v 42 1 ≤ 100 && 15 ≤ v 43 1 && v 43 1 ≤ 45 && v 45 1 ≤ 2 && v 46 1 ≤ 3 &&
    (List.range 8).all (fun k => v (512 + 2048 * k) 1 ≤ 1) && c.all fun x => settingsByte x.1

/-- A valid copy (R654). -/
def settingsValid (c : List Host.Cell) : Bool := settingsForm c && setAtByte c 16900 4 == crc32 (Mem.read c 0 16900)

/-- The copy that is active at MC start: of two valid ones the greater SEQ in serial arithmetic (R654). -/
def chooseCopy (a b : List Host.Cell) : Option Nat :=
  match settingsValid a, settingsValid b with
  | true, true =>
    let d := (setAtByte a 16896 4 + 2 ^ 32 - setAtByte b 16896 4) % 2 ^ 32
    if 0 < d && d < 2 ^ 31 then some 0 else some 1
  | true, false => some 0
  | false, true => some 1
  | false, false => none

/-- A commit would change SIGNREQ or a key slot (R657). -/
def keysChange (a b : List Host.Cell) : Bool :=
  let f (c : List Host.Cell) : List Host.Cell := c.filter fun x => x.1 == 9 || (512 ≤ x.1 && x.1 < 16896)
  f a != f b

/-- SET_READ. A range outside the copy, a length outside 1 to 1,024 or a copy number above 1 is SET_FORMAT (assumption 32). -/
def execSetRead (msg : Msg) (s : State) : Host.Outcome State Fault Refusal :=
  .next (request msg { op := 0x0F0D, len := fun n => n == 5 }
    (fun _ p s =>
      let o := leAt p 0 2
      let n := leAt p 2 2
      if n = 0 || 1024 < n || 16904 < o + n || 1 < leAt p 4 1 then (0xF81, [], s)
      else (0, Mem.read (if leAt p 4 1 = 1 then s.mgt.staging else s.mgt.activeCopy) o n, s)) s)

/-- SET_STAGE (R656). -/
def execSetStage (msg : Msg) (s : State) : Host.Outcome State Fault Refusal :=
  .next (request msg { op := 0x0F0E, claim := true, len := fun n => 5 ≤ n && n ≤ 1028, lens := fun p => leAt p 2 2 + 4 == p.length }
    (fun _ p s =>
      if 16896 < leAt p 0 2 + leAt p 2 2 then (0xF81, [], s)
      else ok { s with mgt := { s.mgt with staging := Mem.write s.mgt.staging (leAt p 0 2) (p.drop 4) } }) s)

/-- SET_DROP. -/
def execSetDrop (msg : Msg) (s : State) : Host.Outcome State Fault Refusal :=
  .next (request msg { op := 0x0F10, claim := true }
    (fun _ _ s => ok { s with mgt := { s.mgt with staging := s.mgt.activeCopy } }) s)

/-- SET_COMMIT: the checks of R655 and R657; the response comes with SETTINGS_COMMIT_DONE. -/
def execSetCommit (msg : Msg) (s : State) : Host.Outcome State Fault Refusal :=
  .next (request msg { op := 0x0F0F, claim := true }
    (fun x _ s =>
      let a := s.mgt.activeCopy
      let noKey := (List.range 4).all fun k => setAtByte a (8704 + 2048 * k) 1 % 2 == 0
      if !settingsForm s.mgt.staging then (0xF81, [], s)
      else if keysChange a s.mgt.staging && !x.debug && !noKey then (0xF82, [], s)
      else if s.mgt.commit.isSome || s.mgt.erasing || s.mgt.lost then (0xF83, [], s)
      else
        (later, [], { s with mgt := { s.mgt with
          commit := some ⟨if s.mgt.active == some 0 then 1 else 0, s.mgt.staging, msg⟩ } })) s)

/-- SETTINGS_ERASE_DONE: the inactive sector is erased. -/
def execSettingsEraseDone (s : State) : Host.Outcome State Fault Refusal :=
  .next (
    if s.mgt.erasing && !s.mgt.lost && s.mgt.mcUp then
      { s with mgt := { s.mgt with
        erasing := false, copy0 := if s.mgt.active == some 0 then s.mgt.copy0 else []
        copy1 := if s.mgt.active == some 0 then [] else s.mgt.copy1 } }
    else s)

/-! ### The event log (R658) -/

/-- A log record as 32 bytes. -/
def LogRec.bytes (r : LogRec) : List Byte :=
  let b := leBytes 4 r.seq ++ leBytes 6 r.sec ++ leBytes 4 r.ns ++ leBytes 2 r.src ++ leBytes 1 (b2n r.own) ++ r.data
  b ++ leBytes 4 (crc32 b)

/-- LOG_READ: records of flash and buffer in SEQ order; a count above the port's most is cut to it (assumption 32). -/
def execLogRead (msg : Msg) (s : State) : Host.Outcome State Fault Refusal :=
  .next (request msg { op := 0x0F11, len := fun n => n == 6 }
    (fun _ p s =>
      let all := s.mgt.log ++ s.mgt.logBuf
      let from_ := leAt p 0 4
      let n := Nat.min (leAt p 4 2) (if msg.port == .mgmt then 40 else 255)
      let l := if from_ = 2 ^ 32 - 1 then all else all.filter fun r => from_ ≤ r.seq
      (0, (l.take n).flatMap LogRec.bytes, s)) s)

/-- LOG_FLUSH. -/
def execLogFlush (s : State) : Host.Outcome State Fault Refusal := .next (if s.mgt.mcUp then s.flushLog else s)

/-- WALL_TIME_TO_MC: the hub's TB_WALL reaches the MC. -/
def execWallTimeToMc (s : State) : Host.Outcome State Fault Refusal :=
  .next (
    if s.ctl.corePower && s.mgt.mcUp && s.mgt.xingUp then
      { s with mgt := { s.mgt with wallSec := s.wallSec, wallNs := s.wallNs, wallKnown := true } }
    else s)

/-! ### Updates (R660 to R663) -/

/-- The fault of a package under R660 and R661 in the order of the status table; 0 for none. -/
def packageFault (rb : Nat) (b : List Byte) : Nat :=
  let formOk := 4096 ≤ b.length && leAt b 0 4 == 0x4B504455 && leAt b 4 2 == 1 && leAt b 6 2 == 0 && leAt b 12 4 ≤ 64 &&
    leAt b 16 8 == b.length && b.length == 4096 + leAt b 56 4 + leAt b 60 4 && b.length ≤ 0x1800000 && leAt b 60 4 ≤ 0x100000 &&
    (slice b 3437 659).all (· == 0)
  if !formOk then 0xF84
  else if !(sha256 (b.drop 4096) == slice b 24 32 && Config.ed25519 Config.updEd (b.take 64) (slice b 64 64) &&
      Config.mldsa65 Config.updMl (b.take 64) (slice b 128 3309)) then 0xF85
  else if leAt b 12 4 < rb then 0xF86
  else 0

/-- Put bytes into slot `k`. -/
def State.setSlot (s : State) (k : Nat) (b : List Byte) : State :=
  { s with mgt := if k = 0 then { s.mgt with slotA := b } else { s.mgt with slotB := b } }

/-- UPD_BEGIN (R661): the slot that is not running is erased, and the package follows as stream data. -/
def updBegin (m : Msg) (n len : Nat) (s : State) : Nat × List Byte × State :=
  if s.mgt.lost then (0xF83, [], s)
  else if s.mgt.upd.isSome then (8, [], s)
  else if len < 4096 || 0x1800000 < len then (0xF84, [], s)
  else if s.mgt.onTrial then (0xF87, [], s)
  else
    let k := 1 - s.mgt.runSlot
    let s := raiseIf (!(s.mgt.slot k).isEmpty) 319 (s.setSlot k [])
    (later, [], ({ s with mgt := { s.mgt with upd := some (k, [], m) } }).openIn n .update 0x0F12 len)

/-- UPD_BEGIN. -/
def execUpdBegin (msg : Msg) (s : State) : Host.Outcome State Fault Refusal :=
  .next (request msg { op := 0x0F12, claim := true, len := fun n => n == 4 } (fun x p s => updBegin msg x.num (leAt p 0 4) s) s)

/-- Bytes of an update package arrive. -/
def updBytes (d : List Byte) (s : State) : State :=
  match s.mgt.upd with
  | some (k, b, m) => { s with mgt := { s.mgt with upd := some (k, b ++ d, m) } }
  | none => s

/-- UPD_WRITE_DONE: the written package is checked; a pass sets TRIAL and TRIES by a commit and makes record 0x8005. Its commit waits for a
commit or an erase that runs: until then the completed write changes nothing (R655; DESIGN CHOICE, assumption 32). -/
def updDone (s : State) : State :=
  match s.mgt.upd with
  | none => s
  | some (k, b, m) =>
    if b.length < leAt m.payload 0 4 || s.mgt.commit.isSome || s.mgt.erasing then s
    else
      let f := packageFault s.fuses.rbcnt b
      let s := { s with
        mgt := { s.mgt with upd := none }
        hmp := { s.hmp with ins := s.hmp.ins.filter fun x => x.kind != InKind.update } }
      if f ≠ 0 then (raise 319 (s.setSlot k [])).respond m 0x0F12 f []
      else
        let s := s.setSlot k b
        let s := programCopy (Mem.write s.mgt.activeCopy 45 [BitVec.ofNat 8 (k + 1), 3]) s
        (s.log 0x8005 (leBytes 1 k)).respond m 0x0F12 0 []

/-- UPD_WRITE_DONE. -/
def execUpdWriteDone (s : State) : Host.Outcome State Fault Refusal := .next (updDone s)

/-- UPD_CONFIRM (R662): its commit is refused while a commit or erase runs, or after power loss (R636, R655). -/
def updConfirm (s : State) : Nat × List Byte × State :=
  if !s.mgt.onTrial then (0xF87, [], s)
  else if s.mgt.commit.isSome || s.mgt.erasing || s.mgt.lost then (0xF83, [], s)
  else
    let k := s.mgt.runSlot
    let s := programCopy (Mem.write s.mgt.activeCopy 44 [BitVec.ofNat 8 k, 0]) s
    let n := Nat.max s.fuses.rbcnt (leAt (s.mgt.slot k) 12 4)
    let s := { s with fuses := { s.fuses with rbcnt := n }, mgt := { s.mgt with onTrial := false } }
    ok ((s.setFld F.MGT_UPD_RBCNT n).log 0x8007 (leBytes 1 n))

/-- UPD_CONFIRM. -/
def execUpdConfirm (msg : Msg) (s : State) : Host.Outcome State Fault Refusal :=
  .next (request msg { op := 0x0F13, claim := true } (fun _ _ s => updConfirm s) s)

/-! ### Start and restart of the MC (R646, R647, R662, R663) -/

/-- The MC goes down: what its SRAM holds of a commit, an update and the mailbox is lost; sessions and claim stay (assumption 32). -/
def mcDown (s : State) : State :=
  let s := cutErase s
  { s with
    cores := setAt s.cores 16 Core.reset
    hmp := { s.hmp with ins := s.hmp.ins.filter fun x => x.kind != InKind.update }
    mgt := { s.mgt with mcUp := false, upd := none, commit := none, mbox := none, recovery := false, mcIrq := [], logBuf := [], restarting := true } }

/-- MC_RESTART: the response leaves and the log buffer is written first (assumption 32). -/
def execMcRestart (msg : Msg) (s : State) : Host.Outcome State Fault Refusal :=
  .next (request msg { op := 0x0F14, claim := true } (fun _ _ s => (later, [], mcDown (s.respond msg 0x0F14 0 []).flushLog)) s)

/-- MC_WATCHDOG_EXPIRY: the first raises WDOG, a second restarts the MC with record 0x8009. -/
def mcWatchdog (s : State) : State :=
  if !s.mgt.mcUp then s
  else if (s.core 16).wdogOnce then mcDown ((({ s with mgt := { s.mgt with logBuf := [] } }).log 0x8009 []).flushLog)
  else s.setCore 16 { s.core 16 with wdog := true, wdogOnce := true }

/-- MC_WATCHDOG_EXPIRY. -/
def execMcWatchdogExpiry (s : State) : Host.Outcome State Fault Refusal := .next (mcWatchdog s)

/-- The slot's package passes the boot ROM's checks. -/
def State.slotPasses (s : State) (k : Nat) : Bool := packageFault s.fuses.rbcnt (s.mgt.slot k) == 0

/-- The slot the boot ROM boots, and whether as a trial (R662, R663). The ROM makes its commits before anything else can: an erase that was
due is over by then (assumption 32). -/
def bootSlot (s : State) : State :=
  let c := s.mgt.activeCopy
  let trial := setAtByte c 45 1
  let s := if 0 < trial && 0 < setAtByte c 46 1 then programCopy (Mem.write c 46 (leBytes 1 (setAtByte c 46 1 - 1))) s else s
  if 0 < trial && 0 < setAtByte c 46 1 && s.slotPasses (trial - 1) then
    { s with mgt := { s.mgt with runSlot := trial - 1, onTrial := true } }
  else
    let s := if 0 < trial then (programCopy (Mem.write s.mgt.activeCopy 45 [0]) s).log 0x8006 [] else s
    let a := setAtByte c 44 1
    if s.slotPasses a then { s with mgt := { s.mgt with runSlot := a } }
    else if s.slotPasses (1 - a) then { s with mgt := { s.mgt with runSlot := 1 - a } }
    else { s with mgt := { s.mgt with recovery := true } }

/-- MC_START: the record of the change to STANDBY at power-on (R633), settings selected, the words that come from fuses, slot and settings set while the core domain is off (R16), slot booted, management port up, and BOOT when AUTOON is 1 in STANDBY, but not after a mere restart, which changes no mode (R631, R647, R650, R654, R662, R664). -/
def mcStart (s : State) : State :=
  if s.mgt.mcUp || s.ctl.mode == .off then s
  else
    let a := chooseCopy s.mgt.copy0 s.mgt.copy1
    let seq := s.mgt.log.foldl (fun n r => Nat.max n (r.seq + 1)) 0
    let back := s.mgt.lost && s.ctl.inputGood
    let first := !s.mgt.restarting
    let s := { s with
      cores := setAt s.cores 16 Core.mc
      mgt := { s.mgt with
        active := a, erasing := true, commit := none, mcUp := true, recovery := false, onTrial := false, logSeq := seq, logBuf := []
        wallSec := 0, wallNs := 0, wallKnown := false, hubWin := 0, restarting := false, lost := s.mgt.lost && !s.ctl.inputGood } }
    let s := if first then s.log 0x800B (leBytes 1 Mode.standby.code) else s
    let s := if a.isNone then (raise 319 s).log 0x8004 [] else s
    let s := bootSlot s
    let s := { s with mgt := { s.mgt with staging := s.mgt.activeCopy } }
    let s := if back then s.log 0x8002 [] else s
    let s := if s.ctl.corePower then
        (if s.mgt.recovery then s
         else s.setFlds [(F.MGT_UPD_RUNSLOT, s.mgt.runSlot), (F.MGT_ID_FWVER, leAt (s.mgt.slot s.mgt.runSlot) 8 4)])
      else s.islandSources.foldl (fun s x => s.setReg x.1 x.2) s
    if s.ctl.mode == .standby && (first || back) && s.ctl.inputGood && !s.mgt.recovery && bit (setAtByte s.mgt.activeCopy 8 1) 0 then enterBoot false s
    else s

/-- MC_START. -/
def execMcStart (s : State) : Host.Outcome State Fault Refusal := .next (mcStart s)

/-! ### The mailbox (R649) -/

/-- The mailbox's TOMC and FROMMC. -/
def tomcBase : Nat := 0x20000800000
def frommcBase : Nat := 0x20000801000

/-- A write of MBX_DOOR by master `m`: TOMC's first LEN bytes go to the MC, which takes its three commands and drops any other
(assumption 33). Ignored while BUSY. -/
def doorWrite (m : Nat) (d : Word) (s : State) : State :=
  let n := bits d.toNat 0 13
  if s.mgt.mbox.isSome || n = 0 || 4096 < n then s
  else
    let b := Mem.read s.mem tomcBase n
    let c := leAt b 0 4
    if s.mgt.mcUp && s.mgt.xingUp && 1 ≤ c && c ≤ 3 && 4 ≤ n then { s with mgt := { s.mgt with mbox := some (m, b) } } else s

/-- The MC places a message in FROMMC: EV318. -/
def placeReply (b : List Byte) (s : State) : State :=
  raise 318 { s with mem := Mem.write s.mem frommcBase b, mgt := { s.mgt with reply := (true, b.length), mbox := none } }

/-- The message waiting for the MC with the given command. -/
def State.mbxCommand (s : State) (c : Nat) : Option (Nat × List Byte) :=
  s.mgt.mbox.bind fun (x : Nat × List Byte) => if leAt x.2 0 4 = c then some x else none

/-- MBX_LOG: a record with SRC 0x9000 + core. -/
def execMbxLog (s : State) : Host.Outcome State Fault Refusal :=
  .next (match s.mbxCommand 1 with
    | some x => ({ s with mgt := { s.mgt with mbox := none } }).log (0x9000 + x.1) (slice x.2 4 11)
    | none => s)

/-- MBX_SENSORS. -/
def execMbxSensors (s : State) : Host.Outcome State Fault Refusal :=
  .next (match s.mbxCommand 2 with | some _ => placeReply s.sensorBytes s | none => s)

/-- MBX_SETREAD: bytes of the active copy, at most 1,024 and inside the copy (assumption 33). -/
def execMbxSetread (s : State) : Host.Outcome State Fault Refusal :=
  .next (match s.mbxCommand 3 with
    | some x =>
      let o := leAt x.2 4 2
      placeReply (Mem.read s.mgt.activeCopy o (Nat.min (Nat.min (leAt x.2 6 2) 1024) (16904 - o))) s
    | none => s)

end Sys2Proof.Machine
end

