-- ==== Sys2Proof/Machine/Views.lean ====
section
/-! DEFINITION. What a register reads as: the registers that show a unit's state, the latched high words of 64-bit pairs, the peek
value, and the effects of a read (R12 to R14, R116, R373, R428, R450). -/
namespace Sys2Proof.Machine

/-- The index of an address in an array of registers. -/
def regIndex (base stride count a : Nat) : Option Nat :=
  if base ≤ a && a < base + stride * count && (a - base) % stride == 0 then some ((a - base) / stride) else none

/-- Half `h` (0 low, 1 high) of a 64-bit value. -/
def half (v h : Nat) : Nat := v / 2 ^ (32 * h) % 2 ^ 32

/-- The current value of a register word: units that hold the value themselves show it. -/
def State.live (s : State) (a : Nat) : Nat :=
  match a / 0x10000 with
  | 1 => if a = A.SFB_POS then b2n s.lge.held * 2 ^ 31 + s.arr.pos % 4096 else (s.reg a).toNat
  | 4 => if a = A.TRG_LG then putBits (s.reg a).toNat 16 8 s.lgDelay else (s.reg a).toNat
  | 7 =>
    if a = A.LGE_CYCLO then half s.lge.cycle 0 else if a = A.LGE_CYCHI then half s.lge.cycle 1 else (s.reg a).toNat
  | 8 =>
    if a = A.TIM_LOCLO then half s.local 0 else if a = A.TIM_LOCHI then half s.local 1
    else if a = A.TIM_LGLO then half s.grainNo 0 else if a = A.TIM_LGHI then half s.grainNo 1
    else if a = A.TIM_WSECLO then half s.wallSec 0 else if a = A.TIM_WSECHI then half s.wallSec 1 % 65536
    else if a = A.TIM_WNS then s.wallNs else if a = A.TIM_WFRAC then s.tim.wall % 65536
    else match regIndex (A.TIM_DCNTLO 0) 32 16 a, regIndex (A.TIM_DCNTHI 0) 32 16 a with
      | some n, _ => half (s.tim.td.getD n 0).toNat 0
      | _, some n => half (s.tim.td.getD n 0).toNat 1
      | none, none => (s.reg a).toNat
  | 10 => match regIndex (A.TCC_STAT 0) 256 16 a with
    | some n => s.tccStat n
    | none => (s.reg a).toNat
  | 11 => match regIndex (A.TSK_DISP 0) 4 16 a, regIndex (A.TSK_FSET 0) 4 128 a, regIndex (A.TSK_FCLR 0) 4 128 a with
    | some n, _, _ => s.dispWord n
    | _, some n, _ => (s.reg (A.TSK_FLAG n)).toNat
    | _, _, some n => (s.reg (A.TSK_FLAG n)).toNat
    | none, none, none => (s.reg a).toNat
  | 15 =>
    if a = A.DBG_SESS then (s.hmp.sessions.filter (·.debug)).length * 256 + s.hmp.sessions.length else (s.reg a).toNat
  | 16 => if a = A.TRC_STAT then s.trc.fifo.length else (s.reg a).toNat
  | 19 => if a = A.MGT_MODE then s.mgtMode.toNat else (s.reg a).toNat
  | 21 => match regIndex (A.EVT_CLAIM 0) 4 16 a with
    | some n => (claimRead n s).1
    | none => (s.reg a).toNat
  | _ => (s.reg a).toNat

/-- The words that a read of a low word latches (R116, R373). -/
def latchedBy (a : Nat) : List Nat :=
  if a = A.TIM_WSECLO then [A.TIM_WSECHI, A.TIM_WNS, A.TIM_WFRAC]
  else if [A.SFB_HOLD_TOTLO, A.SNP_CYCLO, A.TRG_HITLO, A.TRG_TCYCLO, A.TRG_OCYCLO, A.LGE_MISSLO, A.LGE_GRADELO, A.LGE_WRONGLO, A.LGE_CYCLO,
      A.TIM_LOCLO, A.TIM_LGLO, A.PMC_ASTEPLO, A.PMC_ASCRLO, A.PMC_ACYCLO].contains a ||
      (regIndex (A.SFB_HCNTLO 0) 8 11 a).isSome || (regIndex (A.TIM_DCNTLO 0) 32 16 a).isSome then [a + 4]
  else []

/-- A word that reads as latched. -/
def isLatched (a : Nat) : Bool :=
  [A.TIM_WSECHI, A.TIM_WNS, A.TIM_WFRAC].contains a || (4 ≤ a && a ≠ A.TIM_WSECLO + 4 && (latchedBy (a - 4)).contains a)

/-- A register's value, without any read side effect: the peek alias (R13). -/
def State.peek (s : State) (a : Nat) : Nat := if isLatched a then (SMap.get 0 s.latches a).toNat else s.live a

/-- A read of a register: its value, and what the read does: latches, RC fields, a claim, a dispatch (R14, R428, R450). -/
def readReg (a : Nat) (s : State) : Nat × State :=
  match findRow a with
  | none => (0, s)
  | some r =>
    match regIndex (A.EVT_CLAIM 0) 4 16 a, regIndex (A.TSK_DISP 0) 4 16 a with
    | some n, _ => claimRead n s
    | _, some n => dispRead n s
    | none, none =>
      let v := s.peek a
      let s := { s with latches := (latchedBy a).foldl (fun m h => SMap.set 0 m h (BitVec.ofNat 32 (s.live h))) s.latches }
      (v, if r.rc = 0 then s else s.setReg a (s.reg a &&& ~~~r.rc))

end Sys2Proof.Machine
end

