-- ==== Sys2Proof/Machine/Targets.lean ====
section
/-! DEFINITION. The network's targets: the address map, reads of registers, local banks and their aliases, channel RAM, core die
windows, HBM, the pin image and the management mailbox; and how a unit's own request fares (R11 to R15, R491 to R503, R512, R514, R516,
R620, R649). -/
namespace Sys2Proof.Machine

/-! ### The address map (R491) -/

/-- The target an address belongs to. -/
def targetOf (a : Nat) : Option Nat :=
  if a < 0x160000 then some 17
  else if 0x1000000 ≤ a && a < 0x4000000 then some (a % 0x1000000 / 0x100000)
  else if 0x4000000 ≤ a && a < 0x4200000 then some 16
  else if 0x1000000000 ≤ a && a < 0x1600000000 then
    some (22 + 2 * ((a - 0x1000000000) / 0x100000000) + (if a % 0x100000000 < 0x80000000 then 0 else 1))
  else if 0x10000000000 ≤ a && a < 0x11800000000 then some (18 + (a - 0x10000000000) / 0x600000000)
  else if 0x20000000000 ≤ a && a < 0x20001000000 then some 34
  else none

/-- A naturally aligned request of 1 to 64 bytes, a power of two (R492). -/
def natural (a n : Nat) : Bool := [1, 2, 4, 8, 16, 32, 64].contains n && a % n == 0

/-- Whole words inside one 64-byte line (R492, R620). -/
def wordRun (a n : Nat) : Bool := 0 < n && n % 4 == 0 && a % 4 == 0 && a % 64 + n ≤ 64

/-! ### Registers read (R11 to R13) -/

/-- A read of a register through the network: answer kind, data, and the state after it. -/
def regFetch (a n : Nat) (s : State) : Nat × List Byte × State :=
  if n ≠ 4 || a % 4 ≠ 0 then (3, [], s)
  else if 0x8000 ≤ a % 0x10000 then (0, leBytes 4 (s.peek (a - 0x8000)), s)
  else
    let x := readReg a s
    (0, leBytes 4 x.1, x.2)

/-! ### Local banks, aliases, channel RAM (R498 to R503) -/

/-- The region registers of core `m` permit the access at an offset of the local-bank space (R500). -/
def State.permitted (s : State) (m off : Nat) (wr : Bool) : Bool :=
  16 ≤ m || (List.range 8).any fun k =>
    s.flag (F.HBK_RGN_EN m k) && (!wr || s.flag (F.HBK_RGN_W m k)) && s.fld (F.HBK_RGN_BASE m k) ≤ off / 4096 &&
      off / 4096 ≤ s.fld (F.HBK_RGN_BASE m k) + s.fld (F.HBK_RGN_LENM1 m k)

/-- A region denial: count, record, EV264 (R500). -/
def denied (m off : Nat) (wr : Bool) (s : State) : State :=
  let s := s.count F.HBK_DENYCNT_COUNT
  raise 264 (s.first F.HBK_DENY_VALID F.HBK_DENY_MORE
    [(F.HBK_DENY_WR, b2n wr), (F.HBK_DENY_MASTER, m), (F.HBK_DENYADDR_ADDR, off)])

/-- The first byte of a range that fails parity. -/
def State.badByte (s : State) (a n : Nat) : Option Nat := ((List.range n).find? fun i => NSet.has s.badMem (a + i)).map (a + ·)

/-- A read of a local bank or the channel RAM meets a parity error (R499). -/
def ramFails (a : Nat) (s : State) : State :=
  let chan := 0x4000000 ≤ a
  let s := s.count F.HBK_LPERRCNT_COUNT
  raise 265 (s.first F.HBK_LPERR_VALID F.HBK_LPERR_MORE
    [(F.HBK_LPERR_BANK, if chan then 16 else a % 0x1000000 / 0x100000),
     (F.HBK_LPERR_WORD, if chan then (a - 0x4000000) / 16 else a % 0x100000 / 16)])

/-- A write of whole bytes: fresh parity, and reservations on the granules cleared (R413, R498). -/
def ramWrite (a : Nat) (d : List Byte) (s : State) : State :=
  { (s.clearResv a d.length) with
    mem := Mem.write s.mem a d, badMem := s.badMem.filter fun x => x < a || a + d.length ≤ x }

/-- A read or write of plain bytes. -/
def ramAccess (a n : Nat) (wr : Bool) (d : List Byte) (s : State) : Nat × List Byte × State :=
  if wr then (0, [], ramWrite a d s)
  else match s.badByte a n with
    | some b => (7, [], ramFails b s)
    | none => (0, Mem.read s.mem a n, s)

/-- A request to a local bank. -/
def bankAccess (m a n : Nat) (wr : Bool) (d : List Byte) (s : State) : Nat × List Byte × State :=
  if !natural a n then (3, [], s)
  else if !s.permitted m (a % 0x1000000) wr then (4, [], denied m (a % 0x1000000) wr s)
  else ramAccess a n wr d s

/-- A request to an alias window: a write sets or clears bits of the words in one access, a read returns them (R502); either is checked
as a write (R500). -/
def aliasAccess (m a n : Nat) (wr : Bool) (d : List Byte) (s : State) : Nat × List Byte × State :=
  let off := a % 0x1000000
  let b := 0x1000000 + off
  if !wordRun a n then (3, [], s)
  else if !s.permitted m off true then (4, [], denied m off wr s)
  else match s.badByte b n with
    | some x => (7, [], ramFails x s)
    | none =>
      let old := Mem.read s.mem b n
      if wr then (0, [], ramWrite b (List.zipWith (fun (o x : Byte) => if a < 0x3000000 then o ||| x else o &&& ~~~x) old d) s)
      else (0, old, s)

/-! ### Core die windows (R144, R156, R496, R497) -/

/-- The modes in which master `m` may write a store or bank through a window: while the step clock is stopped in ARMED, STEP and
SAFE, and in TEST; in LOAD the loader, in RESTORE the snapshot unit. -/
def State.windowWrites (s : State) (m : Nat) : Bool :=
  match s.ctl.mode with
  | .armed | .safe | .test => true
  | .step => !s.ctl.clock
  | .load => m == 18
  | .restore => m == 19
  | _ => false

/-- The logical bushel that a physical one holds on die `n` (R216, R496). -/
def State.logical (s : State) (n p : Nat) : Option Nat :=
  let sp := s.reg (A.LDR_SPARE n)
  let used := bit sp.toNat 31
  let b := bits sp.toNat 0 5
  if 32 < p then none else if p = 32 then (if used then some b else none) else if used && p = b then none else some p

/-- What a word of a die window is: an instruction-store half, four data-store bytes, two dictionary entries, a bank word. -/
inductive Cell where
  | instr (key half : Nat)
  | ds (key : Nat)
  | dict (key : Nat)
  | bank (g : Nat)
  deriving DecidableEq, Repr

/-- The cell at offset `o` of die window `n`. -/
def State.cell (s : State) (n o : Nat) : Option Cell :=
  if o < 0x40000000 then
    (s.logical n (o / 0x1000000)).map fun b =>
      .instr ((n * 32768 + b * 1024 + o / 0x100000 % 16 * 64 + o / 0x4000 % 64) * 2048 + o / 8 % 2048) (o / 4 % 2)
  else if o < 0x41000000 then
    let o := o - 0x40000000
    (s.logical n (o / 0x40000)).map fun b => .ds ((n * 32768 + b * 1024 + o / 0x4000 % 16 * 64 + o / 0x100 % 64) * 256 + o % 256)
  else if o < 0x41080000 then
    let o := o - 0x41000000
    (s.logical n (o / 0x2000)).map fun b => .dict ((n * 512 + b * 16 + o / 0x200 % 16) * 256 + o % 0x200 / 2)
  else if 0x80000000 ≤ o && o < 0x83000000 then some (.bank ((o - 0x80000000) / 4))
  else none

/-- The word a cell holds, and whether it is answered DATA for its parity: in SAFE a data store is read as it stands (R72 to R87,
assumption 46). Bits at or above a memory's WIDTH read as 0 (R144). -/
def State.cellRead (s : State) (n : Nat) : Cell → Nat × Bool
  | .instr k h => (SMap.get 0 s.arr.instr k / 2 ^ (32 * h) % 2 ^ 32,
      (List.range 4).any fun i => NSet.has s.arr.badInstr (8 * k + 4 * h + i))
  | .ds k => (bitsNat ((List.range 32).map fun i => NSet.has s.arr.ds (k * 8 + i)),
      s.ctl.mode != .safe && (List.range 4).any fun i => NSet.has s.arr.badDs (k + i))
  | .dict k => (SMap.get 0 s.arr.dict k + SMap.get 0 s.arr.dict (k + 1) * 65536, NSet.has s.arr.badDict k || NSet.has s.arr.badDict (k + 1))
  | .bank g =>
    let a := dieWord n g
    let w := s.dieWidth n g
    (if w = 0 then leNat (Mem.read s.mem a 4) else leNat (Mem.read s.mem a 4) % 2 ^ w, (s.badByte a 4).isSome)

/-- A cell written with correct parity, byte by byte in an instruction store (R48). A bank word keeps no bit at or above its memory's WIDTH
(R135); one that no memory occupies keeps what is written, since R144 takes the write and R136 gives the 0 of such storage at load
(DESIGN CHOICE, assumption 57). -/
def cellWriteAt (n : Nat) (w : Nat) (s : State) : Cell → State
  | .instr k h => { s with arr := { s.arr with
      instr := SMap.set 0 s.arr.instr k (putBits (SMap.get 0 s.arr.instr k) (32 * h) 32 w), badInstr := s.arr.badInstr.filter fun x => !(8 * k + 4 * h ≤ x && x < 8 * k + 4 * h + 4) } }
  | .ds k => { s with arr := { s.arr with
      ds := (List.range 32).foldl (fun m i => NSet.put m (k * 8 + i) (bit w i)) s.arr.ds
      badDs := s.arr.badDs.filter fun x => !(k ≤ x && x < k + 4) } }
  | .dict k => { s with arr := { s.arr with
      dict := SMap.set 0 (SMap.set 0 s.arr.dict k (w % 65536)) (k + 1) (w / 65536)
      badDict := s.arr.badDict.filter fun x => !(x == k || x == k + 1) } }
  | .bank g =>
    let d := s.dieWidth n g
    ramWrite (dieWord n g) (leBytes 4 (if d = 0 then w else w % 2 ^ d)) (keepWord (dieWord n g) s)

/-- A request to core die window `n`. -/
def dieAccessNoc (m a n : Nat) (wr : Bool) (d : List Byte) (s : State) : Nat × List Byte × State :=
  let die := (a - 0x1000000000) / 0x100000000
  let o := a % 0x100000000
  let cells := (List.range (n / 4)).map fun i => s.cell die (o + 4 * i)
  if s.dies ≤ die then (2, [], s)
  else if (s.cell die o).isNone then (1, [], s)
  else if !wordRun a n then (3, [], s)
  else if wr then
    if !s.windowWrites m then (5, [], s)
    else (0, [], cells.zipIdx.foldl (fun s x => match x.1 with | some c => cellWriteAt die (leAt d (4 * x.2) 4) s c | none => s) s)
  else
    let got : List (Cell × Nat × Bool) := cells.filterMap fun c => c.map fun c => (c, s.cellRead die c)
    let bad := got.filter fun x => x.2.2
    match bad with
    | (Cell.bank g, _) :: more => (7, [], serviceFails die g (s.badBytes (dieWord die g)) (!more.isEmpty) s)
    | _ :: _ => (7, [], s)
    | [] => (0, got.flatMap fun x => leBytes 4 x.2.1, s)

/-! ### HBM (R512, R514, R516) -/

/-- Why region `k` refuses a write of master `m`; 0 when it takes it. -/
def State.hbmWriteErr (s : State) (m k : Nat) : Nat :=
  if k = 9 then 0
  else if k = 1 then (if s.windowWrites m then 0 else 5)
  else if m = (if k = 6 then 19 else if k = 7 then 20 else if k = 8 then 21 else 18) then 0
  else 4

/-- The offset in the HBM design-memory region of a NoC address that lies in it (R20, R135). -/
def State.designOffset (s : State) (a : Nat) : Nat :=
  let o := a - 0x10000000000
  match s.region 1 with
  | some (b, p) => o / 0x600000000 * p + (o % 0x600000000 - b)
  | none => 0

/-- Bytes as a write to address `a` of region `k` leaves them: in design memory a word keeps no bit at or above its memory's WIDTH
(R135). -/
def State.hbmMask (s : State) (k a : Nat) (d : List Byte) : List Byte :=
  if k ≠ 1 then d
  else d.zipIdx.map fun x =>
    let o := s.designOffset a + x.2
    let w := s.hbmWidth (o / 4 * 4)
    if w = 0 then x.1 else x.1 &&& BitVec.ofNat 8 ((2 ^ w - 1) / 2 ^ (8 * (o % 4)))

/-- A request to HBM. A write of less than a codeword is merged with what a read of the codeword gives (R512); a merge read that fails
answers DATA, and nothing is written (assumption 46). -/
def hbmAccess (m a n : Nat) (wr : Bool) (d : List Byte) (e : List (Ecc × Ecc)) (s : State) : Nat × List Byte × State :=
  if s.fuses.grade.stacks ≤ (a - 0x10000000000) / 0x600000000 then (2, [], s)
  else match s.regionOf a with
  | none => (1, [], s)
  | some k =>
    if !natural a n then (3, [], s)
    else if wr then
      let c := s.hbmWriteErr m k
      if 0 < c then (c, [], s)
      else
        let r := eccReads (if n < 8 then codewords a n else []) e s
        if r.1 then (0, [], { r.2 with mem := Mem.write r.2.mem a (r.2.hbmMask k a d) }) else (7, [], r.2)
    else
      let r := eccReads (codewords a n) e s
      if r.1 then (0, Mem.read s.mem a n, r.2) else (7, [], r.2)

/-! ### Pin image and mailbox (R620, R649) -/

/-- The byte `i` of the pin image. -/
def State.pinByte (s : State) (i : Nat) : Byte :=
  let set := if i < 64 then s.fio.lastIn else if i < 128 then s.fio.lastOutBits else if i < 192 then s.fio.lastOe else s.fio.lastCont
  BitVec.ofNat 8 (bitsNat ((List.range 8).map fun j => NSet.has set (i % 64 * 8 + j)))

/-- A request to the window of target 34. The mailbox is held to the rule of the pin image for size and alignment (assumption 33). -/
def windowAccess (m a n : Nat) (wr : Bool) (d : List Byte) (s : State) : Nat × List Byte × State :=
  let o := a - 0x20000000000
  if o < 0x100 then
    if !wordRun a n then (3, [], s) else if wr then (0, [], s) else (0, (List.range n).map fun i => s.pinByte (o + i), s)
  else if o < 0x800000 || 0x802008 ≤ o then (1, [], s)
  else if !wordRun a n then (3, [], s)
  else if o < 0x802000 then
    if !wr then (0, Mem.read s.mem a n, s)
    else if o < 0x801000 || m = 22 then (0, [], { s with mem := Mem.write s.mem a d })
    else (0, [], s)
  else
    let words := (List.range (n / 4)).map fun i => (o + 4 * i, leAt d (4 * i) 4)
    if wr then
      (0, [], words.foldl (fun s w =>
        if w.1 = 0x802000 then doorWrite m (BitVec.ofNat 32 w.2) s
        else if w.1 = 0x802004 && bit w.2 31 then { s with mgt := { s.mgt with reply := (false, s.mgt.reply.2) } }
        else s) s)
    else
      (0, words.flatMap fun w => leBytes 4 (
        if w.1 = 0x802000 then b2n s.mgt.mbox.isSome * 2 ^ 31
        else if w.1 = 0x802004 then b2n s.mgt.reply.1 * 2 ^ 31 + s.mgt.reply.2
        else 0), s)

/-! ### Requests of units -/

/-- A read as its target serves it: answer kind under R495, data, and the state after it. -/
def serveRead (m a n : Nat) (s : State) : Nat × List Byte × State :=
  if a < 0x160000 then regFetch a n s
  else if a < 0x2000000 then bankAccess m a n false [] s
  else if a < 0x4000000 then aliasAccess m a n false [] s
  else if a < 0x4200000 then (if natural a n then ramAccess a n false [] s else (3, [], s))
  else if a < 0x1600000000 then dieAccessNoc m a n false [] s
  else if a < 0x11800000000 then hbmAccess m a n false [] [] s
  else windowAccess m a n false [] s

/-- An initiator makes a TIMEOUT response itself: count, record, EV256 (R523). -/
def timedOut (m t a : Nat) (s : State) : State :=
  raise 256 ((s.count F.NOC_TMOCNT_COUNT).first F.NOC_TMOSTAT_VALID F.NOC_TMOSTAT_MORE
    [(F.NOC_TMOSTAT_TARGET, t), (F.NOC_TMOSTAT_MASTER, m), (F.NOC_TMOADDRLO_ADDR, a), (F.NOC_TMOADDRHI_ADDR, a / 2 ^ 32)])

/-- The address lies in a chunk that a march engine has borrowed (R507, R508), in the bank itself or through an alias. -/
def State.borrowed (s : State) (a : Nat) : Bool :=
  0x1000000 ≤ a && a < 0x4000000 &&
    s.hub.marches.any fun m => m.borrowed && m.bank == a % 0x1000000 / 0x100000 && m.chunk == a % 0x100000 / 4096

/-- How a request of a core or unit ends that waits for it: its response, or the request as it stands in the network. -/
inductive Got where
  | ans (kind : Nat) (d : List Byte) (s : State)
  | wait (f : Flight)

/-- The network and the target take a request `p` of a core or unit, behind those of the requests `l`; `f` is how the target serves it.
A packet lost to parity is TIMEOUT, at once (R523, R527, assumption 46). -/
def takeRequest (p : Flight) (l : List Flight) (f : State → Nat × List Byte × State) (s : State) : Got :=
  let gone (s : State) : Got := .ans 8 [] (timedOut p.master p.target p.addr (flitLost s))
  if 22 ≤ p.target && p.target < 34 && s.dies ≤ (p.target - 22) / 2 then .ans 2 [] s
  else if !bit p.route.toNat 31 then .ans 1 [] (s.count F.NOC_UNMAPCNT_COUNT)
  else if s.noc.flit then gone { s with noc := { s.noc with flit := false } }
  else if !p.stalled && s.blocked false l p.master p.route then .wait { p with waits := some [], asks := true }
  else if !p.stalled && s.fenced p.target then .ans 6 [] s
  else if s.borrowed p.addr then .wait { p with waits := some [], asks := true, stalled := true }
  else
    let x := f s
    let t := if x.1 = 1 then x.2.2.count F.NOC_UNMAPCNT_COUNT else x.2.2
    if t.noc.answer then gone { t with noc := { t.noc with answer := false } } else .ans x.1 x.2.1 t

/-- A request of core or unit master `m` at address `a` that the target serves by `f`. It stalls at a borrowed chunk (R508) and waits
before a stopped router; when its timeout has run out its response is TIMEOUT, and one that comes too late has no effect and no response
(R416, R523, R524). -/
def coreVia (m a n : Nat) (wr : Bool) (f : State → Nat × List Byte × State) (s : State) : Got :=
  let mine (x : Flight) : Bool := x.asks && x.master == m && x.addr == a
  let rest : State := { s with noc := { s.noc with flights := s.noc.flights.filter fun x => !mine x } }
  match s.noc.flights.find? mine with
  | some p =>
    if p.timedOut then .ans 8 [] rest
    else if p.lost || (!p.stalled && p.due < s.local) then .wait { p with waits := none, lost := true }
    else takeRequest p (s.noc.flights.takeWhile fun x => !mine x) f rest
  | none =>
    match targetOf a with
    | none => .ans 1 [] (s.count F.NOC_UNMAPCNT_COUNT)
    | some t => takeRequest (s.packet m t a n wr) s.noc.flights f s

/-- A core or unit waits: its request stands in the network once (R523). -/
def State.await (s : State) (f : Flight) : State :=
  if s.noc.flights.any fun x => x.asks && x.master == f.master && x.addr == f.addr then
    { s with noc := { s.noc with flights := s.noc.flights.map fun x => if x.asks && x.master == f.master && x.addr == f.addr then f else x } }
  else s.fly f

end Sys2Proof.Machine
end

