-- ==== Sys2Proof/Machine/Arming.lean ====
section
/-! DEFINITION. Arming the trigger and acquisition unit (R254, R256, R266, R270, R271). -/
namespace Sys2Proof.Machine

/-- Read `k` words at address `a` as the acquisition unit, master 20: the table, if no read meets an error response; or the request that
waits. -/
def tableRead : Nat → Nat → List (List Byte) → State → Except Flight (Option (List Byte) × State)
  | 0, _, b, s => .ok (some (b.reverse.flatMap id), s)
  | k + 1, a, b, s =>
    match coreVia 20 a 4 false (serveRead 20 a 4) s with
    | .ans 0 d t => tableRead k (a + 4) (d :: b) t
    | .ans _ _ t => .ok (none, t)
    | .wait f => .error f

/-- The bytes of the capture set table that an arm reads over the network, or those of the unit's own buffer (R254, R270, assumption 21). A
read that meets an error response has no table; an arm then refuses as for a table that breaks its rules. -/
def setRead (s : State) : Except Flight (Option (List Byte) × State) :=
  let n := s.fld F.ACQ_SETN_NB + s.fld F.ACQ_SETN_NW
  if s.acq.ownSet then .ok (some (s.acq.setBuf.take (4 * n)), s)
  else tableRead n ((s.fld F.ACQ_SETLO_ADDR + 2 ^ 32 * s.fld F.ACQ_SETHI_ADDR) / 4 * 4) [] s

/-- The entries of the capture set table in bytes `b`, or none when it breaks R253 or R254. -/
def State.capTable (s : State) (b : List Byte) : Option (List CapEntry) :=
  let nb := s.fld F.ACQ_SETN_NB
  let nw := s.fld F.ACQ_SETN_NW
  let raw := (List.range (nb + nw)).map fun i => (decide (nb ≤ i), leAt b (4 * i) 4)
  let es := raw.map fun x => capEntry x.1 x.2
  if 16384 < nb || 512 < nw || b.length < 4 * (nb + nw) then none
  else if !raw.all (fun x => capEntryOk x.1 x.2) || 1024 < (es.filter (·.meas)).length then none
  else if es.all fun e => e.probes.all fun p => (s.probe p).isSome then some es
  else none

/-- The status of an arm with a START (R270) as far as the registers alone decide it, 0 when they refuse nothing. A SIZE of 0 and shares that
are all 0 or sum above 16 are ACQ_CONFIG before the tun they describe is asked for (R291). Only the raw share carries R266's guarantee. -/
def armStatus (start : Nat) (s : State) : Nat :=
  let nb := s.fld F.ACQ_SETN_NB
  let nw := s.fld F.ACQ_SETN_NW
  let size := s.fld F.ACQ_TUN_SIZE
  let sum := s.shares.foldl (· + ·) 0
  if s.flag F.ACQ_CTL_CAPT then 0x780
  else if start ≠ 0 && start < s.firstCycle then 0x781
  else if size = 0 || sum = 0 || 16 < sum then 0x784
  else if (s.region 7).isNone && (s.place (s.partFor s.tunBytes)).isNone then 0x782
  else if s.fld F.ACQ_TUN_RAWP * (s.tunBytes / 16) / valueLen nb nw < s.fld F.ACQ_PRE_CYC + s.fld F.ACQ_POST_CYC + 1 then 0x783
  else if 256 < size || 16384 < nb || 512 < nw || !s.cmps.all s.cmpOk then 0x784
  else 0

/-- What an accepted arm sets (R265, R266, R271). -/
def armAccept (start : Nat) (es : List CapEntry) (s : State) : State :=
  let nb := s.fld F.ACQ_SETN_NB
  let nw := s.fld F.ACQ_SETN_NW
  let f := if start = 0 then s.firstCycle else start
  let vlen := valueLen nb nw
  let wlen := windowLen nb nw ((es.filter fun e => e.meas && !e.word).length) ((es.filter fun e => e.meas && e.word).length)
  let s := if (s.region 7).isSome then s else (s.create 7 (s.partFor s.tunBytes)).getD s
  let s := { s with acq := { s.acq with
    entries := es, f := f, t := none, stopCycle := none, fired := false
    post := s.fld F.ACQ_POST_CYC, pre := s.fld F.ACQ_PRE_CYC, decN := s.fld F.ACQ_DEC_NM1 + 1, winN := s.fld F.ACQ_WIN_WM1 + 1
    vals := [], perrVals := [], prev := none, prevCmp := [], prevMatch := [], win := none
    rises := List.replicate nb ⟨none, none⟩
    streams := rings s.tunBytes s.shares vlen wlen
    buffer := [], fresh := 0, acts := 0, forced := false, heldNow := 0, stopEnd := none
    armed := true, goDone := false, autoDue := false, autoDone := false, lgNow := none } }
  let s := s.clearRegs ([A.TRG_SEQ, A.TRG_HITLO, A.TRG_HITHI, A.TRG_TSTAT, A.TRG_TCYCLO, A.TRG_TCYCHI, A.TRG_OCYCLO, A.TRG_OCYCHI,
    A.TRG_IGN] ++ (List.range 64).map A.TRG_CMP_STAT)
  let s := s.setFlds [(F.ACQ_CTL_DONE, 0), (F.ACQ_CTL_TRIGD, 0), (F.ACQ_CTL_END, 0), (F.ACQ_RECLEN_WIN, wlen),
    (F.ACQ_RECLEN_VAL, vlen), (F.ACQ_ERR_STATUS, 0)]
  s.setPair A.ACQ_FCYCLO A.ACQ_FCYCHI f

/-- Arm, or leave the status in ACQ_ERR (R270, R296): the table is read last. An arm whose table read waits in the network, before a stopped
router (R526) or at a borrowed chunk (R508), is taken when the read is answered; `m` is the request that asked. -/
def arm (start : Nat) (m : Option Msg) (s : State) : Nat × State :=
  let c := armStatus start s
  if c ≠ 0 then (c, s.setFld F.ACQ_ERR_STATUS c)
  else match setRead s with
    | .error f => (later, { s.await f with acq := { s.acq with arming := s.acq.arming ++ [(start, m)] } })
    | .ok r =>
      match r.1.bind r.2.capTable with
      | some es => (0, armAccept start es r.2)
      | none => (0x784, r.2.setFld F.ACQ_ERR_STATUS 0x784)

/-- The checks that ACQ_ARM passes before the unit takes it; one that fails is a refusal of the arm like any other (R270). -/
def armSpec : ReqSpec :=
  { op := 0x0700, len := fun n => n == 8, claim := true, mode := armModes
    refused := fun c s => if c = 1 || !s.ctl.corePower then s else s.setFld F.ACQ_ERR_STATUS c }

/-- ACQ_ARM: whatever refuses it leaves its status in ACQ_ERR (R270, R296). -/
def execAcqArm (msg : Msg) (s : State) : Host.Outcome State Fault Refusal :=
  .next (request msg armSpec (fun _ p s => let r := arm (leAt p 0 8) (some msg) s; (r.1, [], r.2)) s)

/-- A write of 1 to ACQ_CTL.ARM (R270). -/
def ctlArm (d : Word) (s : State) : State :=
  let s := plainWrite A.ACQ_CTL d s
  if bit d.toNat 0 then (if armModes s then (arm 0 none s).2 else s.setFld F.ACQ_ERR_STATUS 3) else s

/-- The arms that waited for their table go on, in their order; each is answered if a request asked for it. The mode is judged again. -/
def armRetry (s : State) : State :=
  s.acq.arming.foldl (fun s x =>
    let r := if armModes s then arm x.1 x.2 s else (3, s.setFld F.ACQ_ERR_STATUS 3)
    match x.2 with
    | some m => if r.1 = later then r.2 else r.2.respond m 0x0700 r.1 []
    | none => r.2) { s with acq := { s.acq with arming := [] } }

/-- ACQ_CTL_ARM. -/
def execAcqCtlArm (m : Nat) (d : Word) (s : State) : Host.Outcome State Fault Refusal :=
  .next (regWrite m A.ACQ_CTL d (ctlArm d) s)

end Sys2Proof.Machine
end

