-- ==== Sys2Proof/Machine/Counters.lean ====
section
/-! DEFINITION. The sampling buffer and the counter dump record (R578 to R582). -/
namespace Sys2Proof.Machine

/-! ### The sampling buffer (R578, R579) -/

/-- A write of PMC_SBFREE. -/
def sbFree (d : Word) (s : State) : State :=
  let n := Nat.min (bits d.toNat 0 10) (s.fld F.PMC_SBSTAT_COUNT)
  s.setFlds [(F.PMC_SBSTAT_HEAD, (s.fld F.PMC_SBSTAT_HEAD + n) % 512), (F.PMC_SBSTAT_COUNT, s.fld F.PMC_SBSTAT_COUNT - n)]

/-- PMC_SBFREE_WRITE. -/
def execPmcSbfreeWrite (m : Nat) (d : Word) (s : State) : Host.Outcome State Fault Refusal :=
  .next (regWrite m A.PMC_SBFREE d (sbFree d) s)

/-- A write of PMC_SBENn: the first enable takes the buffer, another's is refused with EV296, and 0 releases it. -/
def sbEnable (n : Nat) (d : Word) (s : State) : State :=
  let owned := s.flag F.PMC_SBOWN_VALID
  let mine := owned && s.fld F.PMC_SBOWN_CORE == n
  if bit d.toNat 0 then
    if owned && !mine then raise 296 s
    else
      let s := if mine then s else { s with pmc := { s.pmc with eligible := 0 } }
      s.setFlds [(F.PMC_SBOWN_VALID, 1), (F.PMC_SBOWN_CORE, n), (F.PMC_SBEN_EN n, 1)]
  else if mine then
    s.setFlds [(F.PMC_SBOWN_VALID, 0), (F.PMC_SBOWN_CORE, 0), (F.PMC_SBEN_EN n, 0), (F.PMC_SBSTAT_HEAD, 0), (F.PMC_SBSTAT_COUNT, 0)]
  else s

/-- PMC_SBEN_WRITE. -/
def execPmcSbenWrite (m n : Nat) (d : Word) (s : State) : Host.Outcome State Fault Refusal :=
  .next (if n < 16 then regWrite m (A.PMC_SBEN n) d (sbEnable n d) s else s)

/-- The instruction is one that KIND selects. -/
def eligible (kind : Nat) (x : Sampled) : Bool :=
  match kind with
  | 0 => x.load || x.store
  | 1 => x.load
  | 2 => x.store
  | _ => true

/-- The 16 bytes of a sample. -/
def sampleBytes (core mode : Nat) (x : Sampled) : List Byte :=
  leBytes 4 x.pc.toNat ++ leBytes 4 x.insn.toNat ++ leBytes 4 (if x.load || x.store then x.addr.toNat else 0) ++
    leBytes 2 (Nat.min x.lat 0xFFFF) ++
    leBytes 1 (b2n x.load + 2 * b2n x.store + 4 * b2n x.cached + 8 * b2n x.miss + 16 * b2n x.exc + 32 * mode) ++ leBytes 1 core

/-- SAMPLE_RECORD: the owner completed an instruction, in the mode that it began in; every PERIOD + 1 eligible ones one is recorded or discarded. -/
def sample (x : Sampled) (s : State) : State :=
  let n := s.fld F.PMC_SBOWN_CORE
  if !s.flag F.PMC_SBOWN_VALID || !eligible (s.fld F.PMC_SBCTL_KIND) x then s
  else if s.pmc.eligible < s.fld F.PMC_SBCTL_PERIOD then { s with pmc := { s.pmc with eligible := s.pmc.eligible + 1 } }
  else
    let s := { s with pmc := { s.pmc with eligible := 0 } }
    let mode := (s.core n).ran
    let k := s.fld F.PMC_SBSTAT_COUNT
    if x.lat < s.fld F.PMC_SBCTL_MINLAT || (0 < mode && !s.flag F.TRC_AUTH_PRIV) || 512 ≤ k then s.count F.PMC_SBLOST_COUNT
    else
      let i := (s.fld F.PMC_SBSTAT_HEAD + k) % 512
      let b := sampleBytes n mode x
      let s := (List.range 4).foldl (fun s j => s.setReg (A.PMC_SBREC i j) (BitVec.ofNat 32 (leAt b (4 * j) 4))) s
      raiseIf (k + 1 == s.fld F.PMC_SBWM_WM) 295 (s.setFld F.PMC_SBSTAT_COUNT (k + 1))

/-- SAMPLE_RECORD. -/
def execSampleRecord (x : Sampled) (s : State) : Host.Outcome State Fault Refusal := .next (sample x s)

/-! ### Counter dumps (R580 to R582) -/

/-- The registers of a record's body, in order. -/
def dumpRegs : List Nat :=
  [A.SFB_HOLD_TOTLO, A.SFB_HOLD_TOTHI, A.SFB_HOLD_COUNT] ++ (List.range 11).flatMap (fun n => [A.SFB_HCNTLO n, A.SFB_HCNTHI n]) ++
  [A.ARR_ASRT_COUNT, A.ARR_HOLDQ_COUNT, A.DMC_CE_COUNT, A.DMC_RETRY_COUNT, A.DMC_COLL_COUNT, A.DMC_RANGE_COUNT] ++
  (List.range 5).map (fun n => A.DMC_OVR_CNT n) ++ [A.DMC_OVR_MAX, A.TRG_IGN, A.ACQ_DROP, A.ACQ_PERRCNT] ++
  (List.range 6).flatMap (fun n => [A.LNK_CRCCNT n, A.LNK_RPLCNT n] ++ (List.range 11).map fun j => A.LNK_DCNT n j) ++
  [A.TSK_CANCELRDY, A.TSK_BADCMD, A.TSK_WAITMAX, A.TSK_POOLOUT] ++ (List.range 16).map (fun n => A.TSK_BUSY n) ++
  (List.range 16).map (fun n => A.TSK_NDISP n) ++ [A.CHN_DROPS, A.CHN_UNDER, A.CHN_FKUSED, A.NOC_TMOCNT, A.NOC_LATE, A.NOC_PERRCNT,
    A.NOC_UNMAPCNT, A.HBK_DENYCNT, A.HBK_LPERRCNT, A.HBK_HCE, A.PMC_ASTEPLO, A.PMC_ASTEPHI, A.PMC_ASCRLO, A.PMC_ASCRHI, A.PMC_ACYCLO,
    A.PMC_ACYCHI, A.PMC_CHOCC, A.PMC_CHOCCMAX] ++
  (List.range 16).flatMap fun n => (List.range 8).map fun k => A.PMC_CNT n k

/-- A dump record with number `q`, its CRC last filled in. -/
def State.dumpBytes (s : State) (q : Nat) : List Byte :=
  let chan := s.flag F.PMC_DCTL_CHAN
  let body := dumpRegs.flatMap fun a => leBytes 4 (s.live a)
  let chans := if chan then (List.range 1024).flatMap (fun n => leBytes 4 (s.live (A.CHN_STAT n)) ++ leBytes 4 (s.live (A.CHN_WAIT n))) else []
  let head := leBytes 4 0x504D4455 ++ leBytes 2 1 ++ leBytes 2 (if chan then 9472 else 1280) ++ leBytes 4 q ++ leBytes 4 0 ++
    leBytes 8 s.local ++ leBytes 8 s.grainNo ++ leBytes 8 s.lge.cycle ++ leBytes 6 s.wallSec ++ leBytes 2 0 ++ leBytes 4 s.wallNs ++
    leBytes 4 s.pmc.skipped ++ leBytes 4 0
  let rest := body ++ List.replicate (1216 - body.length) 0 ++ chans
  head ++ leBytes 4 (crc32 (head ++ leBytes 4 0 ++ rest)) ++ rest

/-- A dump is skipped: PMC_DMISS and EV298. -/
def dumpSkip (s : State) : State := raise 298 ({ s with pmc := { s.pmc with skipped := s.pmc.skipped + 1 } }.count F.PMC_DMISS_COUNT)

/-- A dump falls due: its values are taken at once; while the previous one is still writing it is skipped. -/
def dumpTake (s : State) : State :=
  if s.pmc.dump.isSome then dumpSkip s
  else { s with pmc := { s.pmc with dump := some (s.pmc.seq, s.dumpBytes s.pmc.seq) } }

/-- A write of PMC_DCTL. -/
def dctlWrite (d : Word) (s : State) : State :=
  let s := plainWrite A.PMC_DCTL d s
  if bit d.toNat 28 then dumpTake s else s

/-- DUMP_NOW. -/
def execDumpNow (m : Nat) (d : Word) (s : State) : Host.Outcome State Fault Refusal :=
  .next (regWrite m A.PMC_DCTL d (dctlWrite d) s)

/-- DUMP_DUE: a periodic dump (MODE 0b01) falls due; GRAIN takes those of MODE 0b10 in their boundary grain (assumption 34). -/
def execDumpDue (s : State) : Host.Outcome State Fault Refusal :=
  .next (if s.ctl.corePower && s.fld F.PMC_DCTL_MODE == 1 then dumpTake s else s)

end Sys2Proof.Machine
end

