-- ==== Sys2Proof/Machine/Time.lean ====
section
/-! DEFINITION. Wall time: TIME words, IEEE 1588, the servo, holdover, and TIM_SET (R373 to R384). -/
namespace Sys2Proof.Machine

/-- One TBCK period advances TB_LOCAL, and TB_WALL at 2 ns × (1 + rate × 10^-9) (R373, R379); `r` is the rate in units of
2^-16 ppb. -/
def advance (r : Int) (t : Tim) : Tim :=
  let w := t.rem + 2 * r
  { t with
    loc := t.loc + 1
    wall := ((t.wall : Int) + 131072 + w / 1000000000).toNat % (2 ^ 48 * 1000000000 * 65536)
    rem := w % 1000000000 }

/-- The rate that the proportional term and the integrator give, in units of 2^-16 ppb, clamped (R379). -/
def clampRate (x : Int) : Int := max (-500000 * 65536) (min (500000 * 65536) x)

/-- A quotient to the nearest unit; a half rounds upward (assumption 20). -/
def nearDiv (a b : Int) : Int := (2 * a + b) / (2 * b)

/-- TAU in seconds (R399). -/
def State.tau (s : State) : Int := ((Nat.max 1 (s.fld F.TIM_SERVO_VAL)) : Nat)

/-- TB_WALL set to a number of units of 2^-16 ns. -/
def State.setWall (s : State) (w : Int) : State :=
  { s with tim := { s.tim with wall := (w % (2 ^ 48 * 1000000000 * 65536 : Nat)).toNat, rem := 0 } }

/-- The element of a sorted list that each number takes. -/
def insInt (a : Int) : List Int → List Int
  | [] => [a]
  | b :: r => if a ≤ b then a :: b :: r else b :: insInt a r

/-- The median of eight offsets: the mean of the middle two, a half rounded upward (assumption 20). -/
def median8 (l : List Int) : Int :=
  let m := l.foldr insInt []
  nearDiv (m.getD 3 0 + m.getD 4 0) 2

/-- The first lock (R378). -/
def firstLock (s : State) : State := raise 245 (s.setFld F.TIM_STAT_LOCKED 1)

/-- A valid offset `o` in ns from source `from_` (R378 to R382). -/
def offset (from_ : Nat) (o : Int) (s : State) : State :=
  let sat : Int := max (-2147483648) (min 2147483647 o)
  let s := s.setFlds [(F.TIM_OFS_VAL, unsgn 32 sat), (F.TIM_STAT_FROM, from_), (F.TIM_STAT_HOLDOVER, 0)]
  let s :=
    if s.flag F.TIM_STAT_LOCKED then
      let s := if 1000000 < o || o < -1000000 then raise 246 (s.setFld F.TIM_STAT_DISC 1) else s
      let fi := clampRate (s.tim.fi - nearDiv (o * 65536) (16 * s.tau))
      let rate := clampRate (fi - nearDiv (o * 65536) s.tau)
      { s with tim := { s.tim with fi := fi, rate := rate } }.setFld F.TIM_RATE_VAL (unsgn 32 (nearDiv rate 65536))
    else
      let l := s.tim.offs ++ [o]
      if l.length < 8 then { s with tim := { s.tim with offs := l } }
      else
        let s := { s with tim := { s.tim with offs := [] } }
        firstLock (s.setWall ((s.tim.wall : Int) - median8 l * 65536))
  let n := match s.tim.retrain with
    | none => none
    | some k => if s.stage (s.fld F.LGE_STAT_UPPORT) ≠ 4 then some k else if k + 1 < 8 then some (k + 1) else none
  updateUncert { s with tim := { s.tim with retrain := n } }

/-- TIME_SYNC_SEND: a pair of TIME words on each league port whose partner has this member as its upstream (R376); the send
stamp is filled in when the words are issued. -/
def timeSyncSend (s : State) : State :=
  if s.formed && 1 < s.leagueSize then
    (s.leaguePorts.filter fun n => upstream s.lge.plan (behind s.lge.plan s.pos n) == n ^^^ 1).foldl (fun s n =>
      let p := s.lane n
      let q := (p.tseq + 1) % 256
      s.setLane n { p with tseq := q, a := (p.a.push 4 (2 ^ 192 + q * 2 ^ 184)).push 4 (2 * 2 ^ 192 + q * 2 ^ 184) }) s
  else s

/-- TIME_SYNC_SEND. -/
def execTimeSyncSend (s : State) : Host.Outcome State Fault Refusal := .next (timeSyncSend s)

/-- A FOLLOW received on a port (R376): the offset is the receive stamp minus the FOLLOW time, the delay and the asymmetry. -/
def timeFollow (port : Nat) (f : FollowWord) (s : State) : State :=
  if !(s.fromTree port && s.timeMember) then s
  else
    let s := updateUncert { s with tim := { s.tim with srcUnc := f.unc, srcLocked := f.locked } }
    if !f.locked then s
    else
      let rx : Int := ((f.rxSec * 1000000000 + f.rxNs : Nat) : Int) * 65536 + f.rxFrac
      let tx : Int := ((f.sec * 1000000000 + f.ns : Nat) : Int) * 65536 + f.frac
      offset 4 (nearDiv ((rx - tx) * 1000 - s.delay port * 65536) 65536000) s

/-- TIME_FOLLOW. -/
def execTimeFollow (port : Nat) (f : FollowWord) (s : State) : Host.Outcome State Fault Refusal := .next (timeFollow port f s)

/-! ### IEEE 1588 (R375) -/

/-- The module's present best master is this one. -/
def State.isBest (s : State) (h clock domain : Nat) : Bool :=
  domain == s.fld F.TIM_CTL_DOMAIN && s.srcPort h &&
    (match s.tim.best with | some b => b.hport == h && b.clock == clock | none => false)

/-- A change of the filtered meanPathDelay (R382): the value after a jump is the first of the sixteen. -/
def pathDelay (v : Int) (s : State) : State :=
  let lim : Int := s.fld F.TIM_PDJ_VAL
  let agree := match s.tim.mpd with
    | none => s.tim.pdAgree
    | some o =>
      if lim < v - o || lim < o - v then some 1
      else match s.tim.pdAgree with
        | none => none
        | some k => if k + 1 < 16 then some (k + 1) else none
  updateUncert { s with tim := { s.tim with mpd := some v, pdAgree := agree } }

/-- PTP_MESSAGE (R375): Announce feeds the selection, Sync the offset, Delay_Resp the path delay. -/
def ptpMessage (h : Nat) (p : PtpMsg) (s : State) : State :=
  match p with
  | .announce clock q domain =>
    if domain = s.fld F.TIM_CTL_DOMAIN && s.srcPort h then
      let l := s.tim.masters.filter fun m => !(m.hport == h && m.clock == clock)
      selectSource { s with tim := { s.tim with masters := l ++ [⟨h, clock, q, domain, s.local⟩] } }
    else s
  | .sync clock domain t1 t2 =>
    if s.isBest h clock domain then
      let s := { s with tim := { s.tim with sync := some (t1, t2) } }
      match s.tim.mpd with
      | some d => offset (h + 1) (nearDiv ((t2 - t1 - d) * 1000 - sgn 24 (s.fld (F.TIM_HASYM_PS h))) 1000) s
      | none => s
    else s
  | .delayResp clock domain t3 t4 _ =>
    if s.isBest h clock domain then
      match s.tim.sync with
      | some (t1, t2) => pathDelay (Config.filterDelay s.tim.mpd (nearDiv ((t2 - t1) + (t4 - t3)) 2)) s
      | none => s
    else s

/-- PTP_MESSAGE: none comes through a port that is down (R679). -/
def execPtpMessage (hport : Nat) (p : PtpMsg) (s : State) : Host.Outcome State Fault Refusal :=
  .next (if s.hostLink hport then ptpMessage hport p s else s)

/-- PTP_DELAY_REQ: a Delay_Req toward the best master on host port `h`. -/
def ptpDelayReq (h : Nat) (s : State) : State :=
  match s.tim.best with
  | some b =>
    if b.hport = h then
      let r := s.tim.reqs
      { s with tim := { s.tim with reqs := if h = 0 then (r.1 + 1, r.2) else (r.1, r.2 + 1) } }
    else s
  | none => s

/-- PTP_DELAY_REQ: none leaves through a port that is down (R679). -/
def execPtpDelayReq (hport : Nat) (s : State) : Host.Outcome State Fault Refusal :=
  .next (if s.hostLink hport then ptpDelayReq hport s else s)

/-- TIM_HOLDOVER: no valid offset for 3 s under 1588, or for 10 ms under league time (R381); a master that has fallen silent is
dropped. -/
def holdover (s : State) : State :=
  let s := selectSource s
  if (s.timeMember || s.ptpSource) && !s.flag F.TIM_STAT_HOLDOVER then
    let s := raise 250 (s.setFld F.TIM_STAT_HOLDOVER 1)
    { s with tim := { s.tim with rate := s.tim.fi } }.setFld F.TIM_RATE_VAL (unsgn 32 (nearDiv s.tim.fi 65536))
  else s

/-- TIM_HOLDOVER. -/
def execTimHoldover (s : State) : Host.Outcome State Fault Refusal := .next (holdover s)

/-! ### Setting the time (R377, R384, R395, R397) -/

/-- TIM_SET with seconds and nanoseconds: its status, and the state after it; it is the first lock with SRC at 0. -/
def timeSet (sec ns : Nat) (s : State) : Nat × State :=
  if s.flag F.TIM_STAT_LOCKED then (0x0982, s.setFld F.TIM_STAT_SETERR 1)
  else
    let s := s.setWall (((sec * 1000000000 + ns) * 65536 : Nat) : Int)
    if s.src = 0 && !s.timeMember then (0, updateUncert (firstLock s)) else (0, s)

/-- TIM_SET. -/
def execTimSet (msg : Msg) (s : State) : Host.Outcome State Fault Refusal :=
  .next (request msg { op := 0x0903, len := (· == 10), claim := true, mode := fun s => s.ctl.corePower }
    (fun _ p s =>
      let r := timeSet (leAt p 0 6) (leAt p 6 4) s
      (r.1, [], r.2)) s)

/-- A write of TIM_CTL. -/
def timCtlWrite (d : Word) (s : State) : State :=
  let s := selectSource (plainWrite A.TIM_CTL d s)
  if bit d.toNat 31 then (timeSet (s.tim.setSecLo + 2 ^ 32 * s.tim.setSecHi) s.tim.setNs s).2 else s

/-- TIM_CTL_SET. -/
def execTimCtlSet (m : Nat) (d : Word) (s : State) : Host.Outcome State Fault Refusal :=
  .next (regWrite m A.TIM_CTL d (timCtlWrite d) s)

/-- TIM_QUERY (R384): TIM_STAT, TB_WALL as seconds, ns and fraction, TIM_OFS, TIM_RATE, TB_LEAGUE and TB_LOCAL. -/
def execTimQuery (msg : Msg) (s : State) : Host.Outcome State Fault Refusal :=
  .next (request msg { op := 0x0902, mode := fun s => s.ctl.corePower }
    (fun _ _ s => (0, leBytes 4 (s.reg A.TIM_STAT).toNat ++ leBytes 6 s.wallSec ++ leBytes 4 s.wallNs ++
      leBytes 2 (s.tim.wall % 65536) ++ leBytes 4 (s.reg A.TIM_OFS).toNat ++ leBytes 4 (s.reg A.TIM_RATE).toNat ++
      leBytes 8 s.grainNo ++ leBytes 8 s.local, s)) s)

end Sys2Proof.Machine
end

