-- ==== Sys2Proof/Machine/Bus.lean ====
section
/-! DEFINITION. Register writes, requests over the network, responses, timeouts and routers, the end of a borrowed chunk, and counter dumps
(R11 to R15, R507, R508, R520 to R527, R580, R581). -/
namespace Sys2Proof.Machine

/-! ### Registers (R11 to R14) -/

/-- A send of core `n`'s outbound mailbox (R561, R586): LEN 1 to 256, ignored while OUTBUSY is 1. -/
def mbSend (n : Nat) (d : Word) (s : State) : State :=
  let len := bits d.toNat 0 9
  if !bit d.toNat 31 || len = 0 || 256 < len || s.flag (F.DBG_MBSTAT_OUTBUSY n) then s
  else { s with dbg := { s.dbg with sends := SMap.set 0 s.dbg.sends n len } }.setFld (F.DBG_MBSTAT_OUTBUSY n) 1

/-- The first of some alternatives that applies. -/
def firstOf (l : List (Option State)) (d : State) : State := (l.findSome? id).getD d

/-- A write of a register by master `m`: the units' own handlers, and else its access codes (R14). -/
def writeReg (m a : Nat) (d : Word) (s : State) : State :=
  let at_ (base stride count : Nat) (f : Nat → State) : Option State := (regIndex base stride count a).map f
  let plain := plainWrite a d s
  if 0x8000 ≤ a % 0x10000 then s
  else match a / 0x10000 with
  | 1 =>
    if a = A.SFB_CLK then sfbClkWrite d s else if a = A.SFB_HOLD_REQ then holdReqWrite d s
    else if a = A.SFB_THR then thrWrite d s else plain
  | 3 => if a = A.SNP_CTL then snapRequest d s else plain
  | 5 =>
    if a = A.ACQ_CTL then ctlArm d (ctlStop d s)
    else if a = A.ACQ_SETLO || a = A.ACQ_SETHI then { plain with acq := { plain.acq with ownSet := false } }
    else if a = A.ACQ_ALOFS then alignWrite 6 d s
    else firstOf [at_ (A.ACQ_ALIGN 0) 4 6 fun k => alignWrite k d s] plain
  | 6 => firstOf [at_ (A.LNK_CTL 0) 256 6 fun n => autoForm (lnkCtlWrite n d s), at_ (A.LNK_ESCTL 0) 256 6 fun n => eyeStart n d s] plain
  | 7 => if a = A.LGE_CTL then lgeCtlWrite d s else plain
  | 8 =>
    if a = A.TIM_CTL then timCtlWrite d s
    else if a = A.TIM_WSECHI then { s with tim := { s.tim with setSecHi := d.toNat % 65536 } }
    else if a = A.TIM_WSECLO then { s with tim := { s.tim with setSecLo := d.toNat } }
    else if a = A.TIM_WNS then { s with tim := { s.tim with setNs := d.toNat % 2 ^ 30 } }
    else if A.TIM_DPATLO 0 ≤ a && s.ctl.clock then s
    else plain
  | 9 => if a = A.LDR_REL then relWrite d s else plain
  | 10 => firstOf [at_ (A.TCC_CTL 0) 256 16 fun n => tccWrite n d s, at_ (A.TCC_WDCTL 0) 256 16 fun n => wdctl n d s,
      at_ (A.TCC_WDKICK 0) 256 16 fun n => kick n d s] plain
  | 11 =>
    if a = A.TSK_MODE then modeWrite d s
    else firstOf [at_ (A.TSK_CMD 0) 4 16 fun n => tskTake (.word n d) false s,
      at_ (A.TSK_PSUB 0) 16 16 fun n => psubWrite n d false s,
      at_ (A.TSK_FSET 0) 4 128 fun n => fsetWrite n d s, at_ (A.TSK_FCLR 0) 4 128 fun n => fclrWrite n d s,
      at_ (A.TSK_THR 0) 4 1024 fun _ => entryWrite a d s] plain
  | 12 => firstOf [at_ (A.CHN_PROD 0) 8 1024 fun n => indexWrite n false d s, at_ (A.CHN_CONS 0) 8 1024 fun n => indexWrite n true d s] plain
  | 13 =>
    if a = A.HBK_RLOCK then rlockWrite d s
    else if a = A.HBK_CAM then camWrite d s
    else firstOf [at_ (A.HBK_BPWR 0) 4 16 fun b => bpwrWrite b d s, at_ (A.HBK_MCTL 0) 8 16 fun b => mctlWrite b d s,
      at_ (A.HBK_RGN 0 0) 4 128 fun _ => if s.flag F.HBK_RLOCK_LOCK then s else plain] plain
  | 14 => firstOf [at_ (A.NOC_FENCE 0) 4 64 fun t => fenceWrite t d s, at_ (A.NOC_RCFG 0) 4 32 fun r => rcfgWrite r d s,
      at_ (A.NOC_RT 0 0) 4 1600 fun k => rtWrite (k / 64) (k % 64) d s] plain
  | 15 => firstOf [at_ (A.DBG_MBSEND 0) 4 16 fun n => mbSend n d s] plain
  | 16 =>
    if a = A.TRC_MSG then msgWrite m d s else if a = A.TRC_CTL then outWrite d s
    else firstOf [at_ (A.TRC_SRC 0) 4 16 fun n => srcWrite n d s] plain
  | 17 =>
    if a = A.PMC_GCTL then gctlWrite d s else if a = A.PMC_SBFREE then sbFree d s else if a = A.PMC_DCTL then dctlWrite d s
    else firstOf [at_ (A.PMC_SBEN 0) 4 16 fun n => sbEnable n d s] plain
  | 18 => firstOf [at_ (A.FIO_BANK 0) 4 16 fun n => bankWrite n d s, at_ (A.FIO_CELL 0) 4 512 fun n => cellWrite n d s] plain
  | 19 => if a = A.MGT_SAFE then safeReqWrite d s else if a = A.MGT_BOOT then bootWrite d s else plain
  | 21 => if a = A.EVT_TEST then testRaise d s else plain
  | _ => plain

/-- A request to the register blocks: answer kind, data, and the state after it. -/
def regAccess (m a n : Nat) (wr : Bool) (d : List Byte) (s : State) : Nat × List Byte × State :=
  if !wr then regFetch a n s
  else if n ≠ 4 || a % 4 ≠ 0 then (3, [], s)
  else (0, [], writeReg m a (BitVec.ofNat 32 (leNat d)) s)

/-! ### Requests -/

/-- A request as its target serves it: answer kind under R495, data read, and the state after it; `e` is what the HBM codewords it reads
show, before what is in store. -/
def serve (m a n : Nat) (wr : Bool) (d : List Byte) (e : List (Ecc × Ecc)) (s : State) : Nat × List Byte × State :=
  if a < 0x160000 then regAccess m a n wr d s
  else if a < 0x2000000 then bankAccess m a n wr d s
  else if a < 0x4000000 then aliasAccess m a n wr d s
  else if a < 0x4200000 then (if natural a n then ramAccess a n wr d s else (3, [], s))
  else if a < 0x1600000000 then dieAccessNoc m a n wr d s
  else if a < 0x11800000000 then hbmAccess m a n wr d e s
  else windowAccess m a n wr d s

/-- A request enters the network and, when nothing stops it, is served and answered; one for a borrowed chunk stalls at its bank, whose
notice suspends its timeout (R508). -/
def busAccess (m a n : Nat) (wr : Bool) (d : List Byte) (e : List (Ecc × Ecc)) (s : State) : State :=
  match targetOf a with
  | none => if s.ctl.corePower then s.answer (s.packet m 63 a n wr) 1 [] else s
  | some t =>
    match netStop m t a wr n d s with
    | some u => u
    | none =>
      if s.borrowed a then s.fly { s.packet m t a n wr with waits := some d, stalled := true }
      else
        let x := serve m a n wr d e s
        x.2.2.answer (s.packet m t a n wr) x.1 x.2.1

/-- A plain request of a core, or of a unit that waits for it. -/
def coreAccess (m a n : Nat) (wr : Bool) (d : List Byte) (s : State) : Got := coreVia m a n wr (serve m a n wr d []) s

/-- REGISTER_WRITE: a write through the network to a register (R11, R14). -/
def execRegisterWrite (m addr size : Nat) (d : Word) (s : State) : Host.Outcome State Fault Refusal :=
  .next (busAccess m addr size true (leBytes size d.toNat) [] s)

/-- REGISTER_RC_READ: a read through the network of a register (R13, R14). -/
def execRegisterRcRead (m addr size : Nat) (s : State) : Host.Outcome State Fault Refusal :=
  .next (busAccess m addr size false [] [] s)

/-- A request whose address is one the row names. -/
def request_ (r : Req) (lo hi : Nat) (e : List (Ecc × Ecc)) (s : State) : State :=
  if lo ≤ r.addr && r.addr < hi then busAccess r.master r.addr r.size r.write r.data e s else s

/-- LOCAL_BANK_ACCESS: a request to a local bank or the channel RAM. -/
def execLocalBankAccess (r : Req) (s : State) : Host.Outcome State Fault Refusal :=
  .next (if r.addr < 0x2000000 then request_ r 0x1000000 0x2000000 [] s else request_ r 0x4000000 0x4200000 [] s)

/-- BIT_SET_ALIAS: a 32-bit write at offset `x` of the bit-set window. -/
def execBitSetAlias (m x : Nat) (d : Word) (s : State) : Host.Outcome State Fault Refusal :=
  .next (busAccess m (0x2000000 + x % 0x1000000) 4 true (leBytes 4 d.toNat) [] s)

/-- BIT_CLEAR_ALIAS: a 32-bit write at offset `x` of the bit-clear window. -/
def execBitClearAlias (m x : Nat) (d : Word) (s : State) : Host.Outcome State Fault Refusal :=
  .next (busAccess m (0x3000000 + x % 0x1000000) 4 true (leBytes 4 d.toNat) [] s)

/-- CORE_DIE_WINDOW_ACCESS. -/
def execCoreDieWindowAccess (r : Req) (s : State) : Host.Outcome State Fault Refusal :=
  .next (request_ r 0x1000000000 0x1600000000 [] s)

/-- HBM_NOC_ACCESS, with what its first codeword shows. -/
def execHbmNocAccess (r : Req) (first second : Ecc) (s : State) : Host.Outcome State Fault Refusal :=
  .next (request_ r 0x10000000000 0x11800000000 [(first, second)] s)

/-- PIN_IMAGE_READ. -/
def execPinImageRead (r : Req) (s : State) : Host.Outcome State Fault Refusal :=
  .next (request_ r 0x20000000000 0x20000000100 [] s)

/-- MBX_DOOR_WRITE (R649). -/
def execMbxDoorWrite (m : Nat) (d : Word) (s : State) : Host.Outcome State Fault Refusal :=
  .next (busAccess m 0x20000802000 4 true (leBytes 4 d.toNat) [] s)

/-! ### Responses, timeouts, routers (R523, R524, R526) -/

/-- NOC_RESPONSE: answer `k` reaches its initiator, or is discarded as late and counted; it waits while a stopped router blocks its way
back (R519, R526). -/
def nocResponse (k : Nat) (s : State) : State :=
  match s.noc.flights[k]? with
  | some f =>
    if f.waits.isSome || f.lost || s.blocked true (s.noc.flights.take k) f.master f.route then s
    else
      let s := { s with noc := { s.noc with flights := s.noc.flights.eraseIdx k } }
      if f.timedOut then s.count F.NOC_LATE_COUNT else s
  | none => s

/-- NOC_RESPONSE. -/
def execNocResponse (k : Nat) (s : State) : Host.Outcome State Fault Refusal := .next (nocResponse k s)

/-- NOC_TIMEOUT: the initiator of request `k` makes a TIMEOUT response itself, unless a stall notice is in force (R508); an arm whose
table read it was goes on with it. -/
def nocTimeout (k : Nat) (s : State) : State :=
  match s.noc.flights[k]? with
  | some f =>
    if f.timedOut || f.stalled then s
    else
      let fl := if f.lost && !f.asks then s.noc.flights.eraseIdx k else setAt s.noc.flights k { f with timedOut := true }
      let s := { s with noc := { s.noc with flights := fl } }
      armRetry (Sys2Proof.Machine.timedOut f.master f.target f.addr s)
  | none => s

/-- NOC_TIMEOUT. -/
def execNocTimeout (k : Nat) (s : State) : Host.Outcome State Fault Refusal := .next (nocTimeout k s)

/-- A request that waited with data `d` is served and answered. -/
def serveLate (f : Flight) (d : List Byte) (s : State) : State :=
  let x := serve f.master f.addr f.size f.write d [] s
  x.2.2.answer f x.1 x.2.1

/-- A request that waits before a stopped router, when one resumes: it waits on behind those before it, or reaches its target. Past its
deadline it is discarded there without effect or response (R524); a fenced target answers FENCED; at a borrowed chunk it stalls. A core or
unit goes on with its request itself. -/
def arriveLate (s : State) (f : Flight) : State :=
  match f.waits with
  | none => s.fly f
  | some d =>
    if f.stalled || f.asks || s.blocked false s.noc.flights f.master f.route then s.fly f
    else if f.timedOut then s
    else if f.due < s.local then s.fly { f with waits := none, lost := true }
    else if s.fenced f.target then s.answer f 6 []
    else if s.borrowed f.addr then s.fly { f with stalled := true }
    else serveLate f d s

/-- ROUTER_READY: a router whose RECONF is 0 resumes, and what waited before it goes on, oldest first (R526). -/
def routerReady (r : Nat) (s : State) : State :=
  if 31 < r || s.flag (F.NOC_RCFG_RECONF r) || s.flag (F.NOC_RCFG_READY r) || s.flag (F.NOC_RCFG_ABSENT r) then s
  else
    let s := s.setFld (F.NOC_RCFG_READY r) 1
    armRetry (s.noc.flights.foldl arriveLate { s with noc := { s.noc with flights := [] } })

/-- ROUTER_READY. -/
def execRouterReady (r : Nat) (s : State) : Host.Outcome State Fault Refusal := .next (routerReady r s)

/-! ### A borrowed chunk (R507, R508) -/

/-- A request has stalled at chunk `c` of bank `b` and is not answered yet. -/
def Flight.atChunk (b c : Nat) (f : Flight) : Bool := f.stalled && f.target == b && f.addr % 0x100000 / 4096 == c

/-- MARCH_CHUNK_BORROW: the next chunk of a preserving run is borrowed, once no access to it is in progress, and tested on one background;
when one is borrowed already, it is returned as it was, and the accesses that stalled for it are served in their order, whatever was
fenced since (R507, R508, R525, assumption 62). -/
def chunkBorrow (b : Nat) (fails : List Nat) (s : State) : State :=
  match s.march b with
  | none => s
  | some m =>
    if !m.preserve || 4 ≤ m.ground then s
    else if !m.borrowed then
      if s.noc.flights.any (Flight.atChunk b m.chunk) then s else (marchFails b fails s).setMarch { m with borrowed := true }
    else
      let s := (marchFails b fails s).setMarch { m.succ with borrowed := false }
      let mine (f : Flight) : Bool := f.atChunk b m.chunk && !f.asks
      armRetry ((s.noc.flights.filter mine).foldl (fun s f => serveLate f (f.waits.getD []) s)
        { s with noc := { s.noc with flights := s.noc.flights.filter fun f => !mine f } })

/-- MARCH_CHUNK_BORROW. -/
def execMarchChunkBorrow (b : Nat) (fails : List Nat) (s : State) : Host.Outcome State Fault Refusal := .next (chunkBorrow b fails s)

/-! ### Counter dumps (R580, R581) -/

/-- The writes of a dump record as master 24: the body in increasing address, then the header; the first error response ends it. One that
waits in the network waits as a core's does. -/
def dumpWrite (a : Nat) : List (Nat × List Byte) → State → Except Flight (Bool × State)
  | [], s => .ok (true, s)
  | (o, d) :: r, s =>
    match coreAccess 24 (a + o) 64 true d s with
    | .wait f => .error f
    | .ans 0 _ s => dumpWrite a r s
    | .ans _ _ s => .ok (false, s)

/-- DUMP_COMPLETE: the record is written at slot SEQ mod DNUM, EV297; a write that meets an error response skips it. -/
def dumpComplete (s : State) : State :=
  match s.pmc.dump with
  | none => s
  | some (q, b) =>
    let base := s.fld F.PMC_DBASELO_ADDR * 64 + 2 ^ 32 * s.fld F.PMC_DBASEHI_ADDR
    let a := base + q % Nat.max 1 (s.fld F.PMC_DNUM_N) * b.length
    let l := (List.range (b.length / 64)).map fun i => (64 * i, slice b (64 * i) 64)
    match dumpWrite a (l.drop 1 ++ l.take 1) s with
    | .error f => s.await f
    | .ok (true, s) =>
      let s := { s with pmc := { s.pmc with dump := none, seq := q + 1, skipped := s.pmc.skipped - leAt b 52 4 } }
      raise 297 (s.setReg A.PMC_DSEQ (BitVec.ofNat 32 q))
    | .ok (false, s) => dumpSkip { s with pmc := { s.pmc with dump := none } }

/-- DUMP_COMPLETE. -/
def execDumpComplete (s : State) : Host.Outcome State Fault Refusal := .next (dumpComplete s)

end Sys2Proof.Machine
end

