-- ==== Sys2Proof/Machine/Debug.lean ====
section
/-! DEFINITION. Sessions, challenges and certificates, halts, the core mailboxes, the debug access master, and the streams from the
host (R33, R34, R549 to R563). -/
namespace Sys2Proof.Machine

/-! ### Sessions (R33, R551, R558) -/

/-- The next session number that is neither 0 nor open; the first argument bounds the search. -/
def freeNumber : Nat → Nat → List Session → Nat
  | 0, n, _ => n
  | k + 1, n, l => if n = 0 || l.any (fun x => x.num == n) then freeNumber k ((n + 1) % 2 ^ 32) l else n

/-- SESSION_OPEN: a repeat within 10 s from the same source with the same sequence is answered as before; else a session with no
rights, or SESS_FULL. -/
def sessionOpen (m : Msg) (s : State) : State :=
  let say (n st : Nat) (s : State) : State := { s with out := s.out ++ [⟨m.port, 2, 0x0D00, m.seq.toNat, n, st, [], false⟩] }
  if !s.portUp m.port || m.opcode ≠ 0x0D00 then s
  else if !msgSound m 1 then s.discard
  else if m.version ≠ 1 then say m.session.toNat 2 s
  else if m.session ≠ 0 then say m.session.toNat 9 s
  else if m.length ≠ 0 then say 0 6 s
  else
    let recent := s.hmp.opened.filter fun (o : Nat × Nat × Nat × Nat) => s.hmp.now - o.2.2.2 < 5000000000
    match recent.find? fun o => o.1 == m.src && o.2.1 == m.seq.toNat with
    | some o => say o.2.2.1 (if o.2.2.1 = 0 then 0xD85 else 0) s
    | none =>
      let full := 32 ≤ s.hmp.sessions.length
      let n := if full then 0 else freeNumber 34 s.hmp.nextNum s.hmp.sessions
      let new : Session := ⟨n, m.port, m.src, m.seq.toNat, none, [], false, false, none, none, false, 0⟩
      say n (if full then 0xD85 else 0) { s with hmp := { s.hmp with
        opened := recent ++ [(m.src, m.seq.toNat, n, s.hmp.now)]
        sessions := if full then s.hmp.sessions else s.hmp.sessions ++ [new]
        nextNum := if full then s.hmp.nextNum else (n + 1) % 2 ^ 32 } }

/-- SESSION_OPEN. -/
def execSessionOpen (msg : Msg) (s : State) : Host.Outcome State Fault Refusal := .next (sessionOpen msg s)

/-- A write of SFB_HOLD_REQ.DEBUG by the debug island (R558, R560). -/
def debugHold (v : Bool) (s : State) : State :=
  holdReqWrite (BitVec.ofNat 32 (s.fld F.SFB_HOLD_REQ_HOST + 2 * b2n v)) s

/-- A session closes (R35, R551, R558): its rights end, with the debug hold and the trace grant that only it kept, the claim it
holds, and its transfers. -/
def closeSession (n : Nat) (s : State) : State :=
  match s.session n with
  | none => s
  | some x =>
    let ran := s.dbg.runs.any fun r => r.session == n
    let s := if ran then { s with noc := { s.noc with flights := s.noc.flights.filter fun f => !(f.asks && f.master == 16) } } else s
    let s := { s with
      hmp := { s.hmp with
        sessions := s.hmp.sessions.filter fun y => y.num != n
        ins := s.hmp.ins.filter fun (i : InStream) => i.session != n
        outs := s.hmp.outs.filter fun (o : OutStream) => o.session != n }
      mgt := { s.mgt with upd := s.mgt.upd.filter fun (u : Nat × List Byte × Msg) => u.2.2.session.toNat != n }
      dbg := { s.dbg with runs := s.dbg.runs.filter fun (r : DbgRun) => r.session != n } }
    let s := if x.holdOne && !s.hmp.sessions.any (·.holdOne) then debugHold false s else s
    let s := if 0 < x.granted && !s.hmp.sessions.any (fun y => y.priv && x.granted < y.granted) then s.setFld F.TRC_AUTH_PRIV 0 else s
    snapshotLoses n (loaderLoses n true (dropClaim n s))

/-- SESSION_CLOSE: the response leaves before the session is gone. -/
def execSessionClose (msg : Msg) (s : State) : Host.Outcome State Fault Refusal :=
  .next (request msg { op := 0x0D01 } (fun x _ s => (later, [], closeSession x.num (s.respond msg 0x0D01 0 []))) s)

/-- SESSION_TIMEOUT: 600 s without any message from the host. -/
def execSessionTimeout (session : Nat) (s : State) : Host.Outcome State Fault Refusal := .next (closeSession session s)

/-! ### Authorisation (R552 to R557) -/

/-- A draw of 32 bytes from the random source. -/
def draw (k : Nat) : List Byte := (Config.random k ++ List.replicate 32 0).take 32

/-- DBG_CHALLENGE (R553). -/
def challenge (x : Session) (s : State) : Nat × List Byte × State :=
  let nonce := draw s.dbg.draws
  let key := draw (s.dbg.draws + 1)
  let s := { s with dbg := { s.dbg with draws := s.dbg.draws + 2 } }
  (0, nonce ++ x25519Pub key, s.setSession { x with chal := some ⟨nonce, key⟩ })

/-- DBG_CHALLENGE. -/
def execDbgChallenge (msg : Msg) (s : State) : Host.Outcome State Fault Refusal :=
  .next (request msg { op := 0x0D02, optical := true } (fun x _ s => challenge x s) s)

/-- CHALLENGE_EXPIRE: 60 s after the response. -/
def execChallengeExpire (session : Nat) (s : State) : Host.Outcome State Fault Refusal :=
  .next (match s.session session with | some x => s.setSession { x with chal := none } | none => s)

/-- The certificate's fields have the form of R554. -/
def certForm (c : List Byte) : Bool :=
  leAt c 0 4 == 0x54434244 && leAt c 4 2 == 1 && leAt c 7 1 == 0 && leAt c 8 4 ≤ 3 && leAt c 12 4 == 0 && leAt c 88 8 == 0 &&
    leAt c 3469 3 == 0

/-- The shared secret of a challenge and a certificate (R556). -/
def sharedSecret (q : Challenge) (c : List Byte) : List Byte := x25519 q.priv (slice c 56 32)

/-- The first status of R555 that a certificate meets; 0 when it passes. The debug-signing keys are those of the settings in effect since the
last entry to BOOT (R656). -/
def certFault (x : Session) (c : List Byte) (s : State) : Nat :=
  let slot := Mem.read s.mgt.settings (8704 + 2048 * leAt c 6 1) 2048
  let body := c.take 96
  if !certForm c then 0xD80
  else if 3 < leAt c 6 1 || leAt slot 0 1 % 2 == 0 then 0xD83
  else if leAt c 16 8 ≠ s.fuses.serial.toNat then 0xD81
  else match x.chal with
    | none => 0xD82
    | some q =>
      if q.nonce ≠ slice c 24 32 then 0xD82
      else if !(Config.ed25519 (slice slot 32 32) body (slice c 96 64) && Config.mldsa65 (slice slot 64 1952) body (slice c 160 3309)) then 0xD84
      else if (sharedSecret q c).all (· == 0) then 0xD80
      else 0

/-- DBG_AUTH (R555, R556): on success the response is the first message with a tag, and EV288 comes after it. -/
def authorise (m : Msg) (x : Session) (c : List Byte) (s : State) : Nat × List Byte × State :=
  let f := certFault x c s
  if f ≠ 0 then (f, [], raise 289 ((s.setSession { x with chal := none }).count F.DBG_AUTHFAIL_COUNT))
  else
    let key := match x.chal with
      | some q => hkdf (sharedSecret q c) q.nonce (leBytes 8 s.fuses.serial.toNat)
      | none => []
    let y := { x with chal := none, debug := bit (leAt c 8 4) 0, priv := bit (leAt c 8 4) 1, key := some key }
    (later, [], raise 288 ((s.setSession y).respond m 0x0D03 0 []))

/-- DBG_AUTH. -/
def execDbgAuth (msg : Msg) (s : State) : Host.Outcome State Fault Refusal :=
  .next (request msg { op := 0x0D03, optical := true, len := fun n => n == 3472 } (authorise msg) s)

/-! ### Halts and holds (R559, R560, R568) -/

/-- DBG_HALT. -/
def execDbgHalt (msg : Msg) (s : State) : Host.Outcome State Fault Refusal :=
  .next (request msg { op := 0x0D04, optical := true, len := fun n => n == 2, right := 1 }
    (fun _ p s => ok (plainWrite A.DBG_HALTREQ (BitVec.ofNat 32 (leAt p 0 2)) s)) s)

/-- DBG_HALTREQ_WRITE. -/
def execDbgHaltreqWrite (m : Nat) (d : Word) (s : State) : Host.Outcome State Fault Refusal :=
  .next (regWrite m A.DBG_HALTREQ d (plainWrite A.DBG_HALTREQ d) s)

/-- The order stamp of the latest grant of TRC_AUTH.PRIV. -/
def State.lastGrant (s : State) : Nat := s.hmp.sessions.foldl (fun n x => Nat.max n x.granted) 0

/-- DBG_TRCPRIV (R568): a grant is the session's latest; a revocation ends every grant. -/
def trcPriv (x : Session) (v : Bool) (s : State) : State :=
  let s :=
    if v then s.setSession { x with granted := s.lastGrant + 1 }
    else { s with hmp := { s.hmp with sessions := s.hmp.sessions.map fun (y : Session) => { y with granted := 0 } } }
  s.setFld F.TRC_AUTH_PRIV (b2n v)

/-- DBG_TRCPRIV; a byte other than 0 and 1 is BAD_PAYLOAD (assumption 35). -/
def execDbgTrcpriv (msg : Msg) (s : State) : Host.Outcome State Fault Refusal :=
  .next (request msg { op := 0x0D08, optical := true, len := fun n => n == 1, zeros := fun p => leAt p 0 1 ≤ 1, right := 2 }
    (fun x p s => ok (trcPriv x (leAt p 0 1 == 1) s)) s)

/-- DBG_HOLD (R560); a byte other than 0 and 1 is BAD_PAYLOAD (assumption 35). -/
def execDbgHold (msg : Msg) (s : State) : Host.Outcome State Fault Refusal :=
  .next (request msg { op := 0x0D09, optical := true, len := fun n => n == 1, zeros := fun p => leAt p 0 1 ≤ 1, right := 1, claim := true }
    (fun x p s => ok (debugHold (leAt p 0 1 == 1) (s.setSession { x with holdOne := leAt p 0 1 == 1 }))) s)

/-! ### Mailboxes (R561) -/

/-- Bytes into the words of a register array from its first word on, over the bytes that stand there. -/
def fillWords (a : Nat) (d : List Byte) (s : State) : State :=
  (List.range ((d.length + 3) / 4)).foldl (fun s i =>
    let x := slice d (4 * i) 4
    let n := (d.drop (4 * i)).length
    let old := leBytes 4 (s.reg (a + 4 * i)).toNat
    s.setReg (a + 4 * i) (BitVec.ofNat 32 (leNat (if n < 4 then x.take n ++ old.drop n else x)))) s

/-- DBG_MON: the message goes to core `n`'s inbound mailbox. -/
def dbgMon (x : Session) (p : List Byte) (s : State) : Nat × List Byte × State :=
  let n := leAt p 0 1
  if s.flag (F.DBG_MBSTAT_INFULL n) then (0xD86, [], s)
  else
    let s := fillWords (A.DBG_MBIN n 0) (p.drop 4) s
    let s := s.setFlds [(F.DBG_MBSTAT_INFULL n, 1), (F.DBG_MBSTAT_INLEN n, p.length - 4)]
    ok (raise 291 { s with dbg := { s.dbg with lastMon := s.dbg.lastMon.filter (fun y => y.1 != n) ++ [(n, x.num)] } })

/-- DBG_MON; a core above 15 is BAD_PAYLOAD (assumption 35). -/
def execDbgMon (msg : Msg) (s : State) : Host.Outcome State Fault Refusal :=
  .next (request msg { op := 0x0D05, optical := true, len := fun n => 5 ≤ n && n ≤ 260, lens := fun p => leAt p 1 1 + 5 == p.length
                       zeros := fun p => leAt p 2 2 == 0 && leAt p 0 1 < 16, right := 1 } dbgMon s)

/-- MBOX_SEND. -/
def execMboxSend (m n : Nat) (d : Word) (s : State) : Host.Outcome State Fault Refusal :=
  .next (if n < 16 then regWrite m (A.DBG_MBSEND n) d (mbSend n d) s else s)

/-- MBOX_SENT: the message of core `n` leaves, to the session that last sent DBG_MON to it, or to every session with DEBUG. -/
def mboxSent (n : Nat) (s : State) : State :=
  if n < 16 && s.flag (F.DBG_MBSTAT_OUTBUSY n) then
    let len := SMap.get 0 s.dbg.sends n
    let b := ((List.range 64).flatMap fun j => leBytes 4 (s.reg (A.DBG_MBOUT n j)).toNat).take len
    let last := (s.dbg.lastMon.find? fun y => y.1 == n).bind fun y => s.session y.2
    let to_ := match last with
      | some x => [x]
      | none => s.hmp.sessions.filter (·.debug)
    let s := to_.foldl (fun s x => s.eventTo x.num 0x0D05 b) s
    { s with dbg := { s.dbg with sends := SMap.set 0 s.dbg.sends n 0 } }.setFld (F.DBG_MBSTAT_OUTBUSY n) 0
  else s

/-- MBOX_SENT. -/
def execMboxSent (n : Nat) (s : State) : Host.Outcome State Fault Refusal := .next (mboxSent n s)

/-! ### The debug access master (R562) -/

/-- The size of the next request of a run with `left` bytes to go: the largest that R11 or R492 permits at its address. -/
def runSize (a left : Nat) : Nat :=
  if a < 0x160000 then 4
  else if (0x2000000 ≤ a && a < 0x4000000) || (0x1000000000 ≤ a && a < 0x1600000000) || 0x11800000000 ≤ a then
    Nat.min left (64 - a % 64)
  else if a % 64 = 0 && 64 ≤ left then 64
  else if a % 32 = 0 && 32 ≤ left then 32
  else if a % 16 = 0 && 16 ≤ left then 16
  else if a % 8 = 0 && 8 ≤ left then 8
  else 4

/-- The requests of a read run, in increasing address, as master 16, until it is over or one waits in the network (R508, R526): `b` is the
data read, newest first. The first argument bounds the requests. -/
def readRun : Nat → DbgRun → List (List Byte) → State → DbgRun × List (List Byte) × State
  | 0, r, b, s => (r, b, s)
  | k + 1, r, b, s =>
    if r.err ≠ 0 || r.len ≤ r.offset then (r, b, s)
    else
      let at_ := r.addr + r.offset
      let n := runSize at_ (r.len - r.offset)
      match coreAccess 16 (if r.peek && at_ < 0x160000 && at_ % 0x10000 < 0x8000 then at_ + 0x8000 else at_) n false [] s with
      | .wait f => (r, b, s.await f)
      | .ans 0 d s => readRun k { r with offset := r.offset + n } (d :: b) s
      | .ans e _ s => ({ r with err := e }, b, s)

/-- The requests of a write run that its bytes allow, likewise. -/
def writeRun : Nat → DbgRun → State → DbgRun × State
  | 0, r, s => (r, s)
  | k + 1, r, s =>
    let n := runSize (r.addr + r.offset) (r.len - r.offset)
    if r.err ≠ 0 || r.len ≤ r.offset || r.buf.length < n then (r, s)
    else
      match coreAccess 16 (r.addr + r.offset) n true (r.buf.take n) s with
      | .wait f => (r, s.await f)
      | .ans 0 _ s => writeRun k { r with offset := r.offset + n, buf := r.buf.drop n } s
      | .ans e _ s => ({ r with err := e, buf := [] }, s)

/-- The run is over: it completed or met an error. -/
def DbgRun.over (r : DbgRun) : Bool := r.err != 0 || r.offset == r.len

/-- A run's address and length: 4 to 16,777,216 bytes, both multiples of 4; a breach is BAD_PAYLOAD (assumption 35). -/
def runForm (p : List Byte) : Bool :=
  leAt p 0 8 % 4 == 0 && leAt p 8 4 % 4 == 0 && 4 ≤ leAt p 8 4 && leAt p 8 4 ≤ 16777216

/-- Put a run back in place of its session's. -/
def State.setRun (s : State) (r : DbgRun) : State :=
  { s with dbg := { s.dbg with runs := s.dbg.runs.map fun (y : DbgRun) => if y.session == r.session then r else y } }

/-- A read run goes on: once it is over, the bytes it read are streamed to the host. -/
def goRead (r : DbgRun) (s : State) : State :=
  let x := readRun (r.len / 4) r [] s
  let y := { x.1 with buf := x.1.buf ++ x.2.1.reverse.flatMap id }
  if y.over && !y.buf.isEmpty then
    (x.2.2.setRun { y with buf := [] }).putStream y.session 0x0D06 (chunks (y.buf.length / 4096 + 1) y.buf)
  else x.2.2.setRun y

/-- DBG_MEMRD: the run is read; DBG_RUN_END ends it (assumption 36). -/
def memRead (x : Session) (p : List Byte) (s : State) : Nat × List Byte × State :=
  if s.dbg.runs.any (fun r => r.session == x.num) then (8, [], s)
  else
    let r : DbgRun := ⟨x.num, 0x0D06, leAt p 0 8, leAt p 8 4, [], 0, 0, leAt p 12 1 == 1⟩
    ok (goRead r { s with dbg := { s.dbg with runs := s.dbg.runs ++ [r] } })

/-- DBG_MEMRD. -/
def execDbgMemrd (msg : Msg) (s : State) : Host.Outcome State Fault Refusal :=
  .next (request msg { op := 0x0D06, optical := true, len := fun n => n == 16
                       zeros := fun p => leAt p 12 1 ≤ 1 && leAt p 13 3 == 0 && runForm p, right := 1 } memRead s)

/-- DBG_MEMWR: the run's bytes follow as stream data. -/
def memWrite (x : Session) (p : List Byte) (s : State) : Nat × List Byte × State :=
  let a := leAt p 0 8
  let len := leAt p 8 4
  if s.dbg.runs.any (fun r => r.session == x.num) then (8, [], s)
  else
    let s := { s with dbg := { s.dbg with runs := s.dbg.runs ++ [(⟨x.num, 0x0D07, a, len, [], 0, 0, false⟩ : DbgRun)] } }
    ok (s.openIn x.num (.memwr a len) 0x0D07 len)

/-- DBG_MEMWR. -/
def execDbgMemwr (msg : Msg) (s : State) : Host.Outcome State Fault Refusal :=
  .next (request msg { op := 0x0D07, optical := true, len := fun n => n == 12, zeros := runForm, right := 1 } memWrite s)

/-- A write run goes on; one that is over takes no more bytes. -/
def goWrite (r : DbgRun) (s : State) : State :=
  let x := writeRun (r.len / 4) r s
  let s := x.2.setRun x.1
  if x.1.over then
    { s with hmp := { s.hmp with ins := s.hmp.ins.filter fun (i : InStream) => !(i.session == r.session && i.opcode == 0x0D07) } }
  else s

/-- Bytes of a write run arrive. -/
def memBytes (n : Nat) (d : List Byte) (s : State) : State :=
  match s.dbg.runs.find? fun r => r.session == n && r.opcode == 0x0D07 with
  | none => s
  | some r => goWrite { r with buf := r.buf ++ d } s

/-- The runs that wait for a request of theirs go on as far as they can (R508, R523, R526). -/
def goRuns (s : State) : State :=
  s.dbg.runs.foldl (fun s r => if r.over then s else if r.opcode = 0x0D06 then goRead r s else goWrite r s) s

/-- DBG_RUN_END: runs that waited go on; then the first run that is over sends its ending event message. -/
def dbgRunEnd (s : State) : State :=
  let s := goRuns s
  match s.dbg.runs.find? DbgRun.over with
  | none => s
  | some r =>
    let s := { s with dbg := { s.dbg with runs := s.dbg.runs.filter fun (y : DbgRun) => y.session != r.session } }
    s.eventTo r.session r.opcode (leBytes 1 r.err ++ leBytes 8 r.offset)

/-- DBG_RUN_END. -/
def execDbgRunEnd (s : State) : Host.Outcome State Fault Refusal := .next (dbgRunEnd s)

/-! ### Streams from and to the host (R31, R34) -/

/-- What a stream feeds takes its next bytes. -/
def deliverStream (n : Nat) (k : InKind) (d : List Byte) (s : State) : State :=
  match k with
  | .load => loadBytes d s
  | .stage j => stageBytes j d s
  | .restore => restoreBytes d s
  | .capset => { s with acq := { s.acq with setBuf := s.acq.setBuf ++ d } }
  | .update => updBytes d s
  | .memwr _ _ => memBytes n d s

/-- Deliver the messages held from the next expected on, at most the transfer's total; the first argument bounds their number. -/
def takeMessages : Nat → InStream → State → InStream × State
  | 0, x, s => (x, s)
  | k + 1, x, s =>
    match x.early.find? fun e => e.1 == x.next with
    | none => (x, s)
    | some e =>
      let d := e.2.take (x.total - x.got)
      let y := { x with next := x.next + 1, early := x.early.filter fun z => z.1 != x.next, got := x.got + d.length }
      takeMessages k y (if d.isEmpty then s else deliverStream x.session x.kind d s)

/-- The session of a stream message and its tag (R31, R556, R557): none when the message is discarded, with the state that counts it. -/
def streamSession (m : Msg) (s : State) : Option Session × State :=
  match s.session m.session.toNat with
  | none => (none, s.discard)
  | some x =>
    if (match x.key with | some k => !msgTagOk m k | none => false) then (none, raise 289 (s.discard.count F.DBG_TAGFAIL_COUNT))
    else (some x, s)

/-- STREAM_DATA: a message of a transfer in progress is held up to 4,096 ahead, delivered in sequence order, and acknowledged. One of a
bulk transfer on the management port is discarded and counted (DESIGN CHOICE, assumption 55: R34 gives WRONG_PORT for requests only); one
of an update package on an optical port that the crossing cannot carry is lost (R21). -/
def streamData (m : Msg) (s : State) : State :=
  if !s.portUp m.port then s
  else
    match s.hmp.ins.find? fun (x : InStream) =>
        x.session == m.session.toNat && x.opcode == m.opcode.toNat && msgSound m 4 && (m.port != .mgmt || x.kind == InKind.update) with
    | none => s.discard
    | some x =>
      if x.kind == InKind.update && m.port != .mgmt && !(s.mcReached && s.mgt.mcUp) then s
      else if m.version ≠ 1 then s.reply m x.opcode 2
      else match streamSession m s with
        | (none, s) => s
        | (some y, s) =>
          let q := m.seq.toNat
          let x := if q < x.next || x.next + 4096 ≤ q || x.early.any (fun e => e.1 == q) then x
            else { x with early := x.early ++ [(q, msgBody m y)] }
          let r := takeMessages 4097 x s
          let put (i : InStream) : InStream := if i.session == x.session && i.kind == x.kind then r.1 else i
          let s := { r.2 with hmp := { r.2.hmp with ins := r.2.hmp.ins.map put } }
          if r.1.next = 0 then s
          else match s.session x.session with
            | some y => s.sendTo { y with port := m.port } 5 x.opcode (r.1.next - 1) 0 []
            | none => s

/-- STREAM_DATA. -/
def execStreamData (msg : Msg) (s : State) : Host.Outcome State Fault Refusal := .next (streamData msg s)

/-- What an acknowledge of sequence `q` leaves of a stream: the messages it covers are gone. -/
def OutStream.acked (o : OutStream) (q : Nat) : OutStream :=
  let k := Nat.min (q + 1 - o.base) o.sent
  { o with data := o.data.drop k, base := o.base + k, sent := o.sent - k }

/-- STREAM_ACKNOWLEDGE: on an optical port (assumption 55), the window moves on; a stream with nothing left ends, except the checkpoint's while it is made. -/
def streamAck (m : Msg) (s : State) : State :=
  if !s.portUp m.port then s
  else
    match s.hmp.outs.find? fun (o : OutStream) => o.session == m.session.toNat && o.opcode == m.opcode.toNat && msgSound m 5 && m.port != .mgmt with
    | none => s.discard
    | some o =>
      if m.version ≠ 1 then s.reply m o.opcode 2
      else match streamSession m s with
        | (none, s) => s
        | (some _, s) =>
          let mine (y : OutStream) : Bool := y.session == o.session && y.opcode == o.opcode
          let s := { s with hmp := { s.hmp with outs := s.hmp.outs.map fun y => if mine y then y.acked m.seq.toNat else y } }
          let s := ckAcked (ckPump 4097 (s.pump o.session o.opcode))
          let making := o.opcode == 0x0602 && s.snp.stream.isSome
          { s with hmp := { s.hmp with outs := s.hmp.outs.filter fun y => !(mine y && y.data.isEmpty && !making) } }

/-- STREAM_ACKNOWLEDGE. -/
def execStreamAcknowledge (msg : Msg) (s : State) : Host.Outcome State Fault Refusal := .next (streamAck msg s)

/-- STREAM_RESEND: 10 ms without progress: every stream is sent again from its first unacknowledged message. -/
def execStreamResend (s : State) : Host.Outcome State Fault Refusal :=
  .next (s.hmp.outs.foldl (fun s o =>
    State.pump { s with hmp := { s.hmp with outs := s.hmp.outs.map fun (y : OutStream) =>
      if y.session == o.session && y.opcode == o.opcode then { y with sent := 0 } else y } } o.session o.opcode) s)

end Sys2Proof.Machine
end

