-- ==== Sys2Proof/Machine/Grain.lean ====
section
/-! DEFINITION. One edge of the step clock: throttled, held or executing one cycle position, with the fixed uses of the scruple
grains (R43, R101 to R115, R203 to R206, R312 to R318, R362 to R374, R577). -/
namespace Sys2Proof.Machine

/-- Add to a 64-bit counter in a pair of registers, modulo 2^64. -/
def State.addPair (s : State) (lo hi : Nat) : State := s.setPair lo hi ((s.pair lo hi + 1) % 2 ^ 64)

/-- Edge `i` of each group of 16 is removed at throttle level `k` (R113). -/
def edgeRemoved (k i : Nat) : Bool := decide (i * k % 16 < k)

/-! ### The league vote (R106, R111, R362) -/

/-- V(g) as this member knows it. -/
def State.vote (s : State) (g : Nat) : Bool := s.localMask g ≠ 0 || s.remoteVote g

/-- A FAULT vote holds the league in grain `g` (R29, R364). -/
def State.faultHold (s : State) (g : Nat) : Bool :=
  bit (s.localMask (g - s.H)) 10 || s.lge.events.any fun (e : VoteEv) => e.ek == 4 && e.g ≤ g - s.H

/-- Note the local causes as they stand at the end of grain `g`; in a formed league a change of the vote is a RISE or a FALL (R364). -/
def noteVote (g : Nat) (s : State) : State :=
  let m := s.causes
  let old := s.localMask g
  let s := s.setFld F.SFB_HOLD_STAT_REMOTE (b2n (s.remoteVote g))
  if m = old then s
  else
    let keep := s.lge.causes.take ((s.lge.causes.takeWhile fun x => g < x.1 + s.H).length + 1)
    let s := { s with lge := { s.lge with causes := (g, m) :: keep } }
    if 1 < s.leagueSize && !s.forming && (m == 0) != (old == 0) then s.originate (if m = 0 then 2 else 1) g else s

/-- The counters of a held grain (R111): the local causes of grain g − H, and REMOTE when there was none. -/
def holdCounts (m : Nat) (s : State) : State :=
  let s := s.addPair A.SFB_HOLD_TOTLO A.SFB_HOLD_TOTHI
  if m = 0 then s.addPair (A.SFB_HCNTLO 9) (A.SFB_HCNTHI 9)
  else ((List.range 11).filter fun i => bit m i).foldl (fun s i => s.addPair (A.SFB_HCNTLO i) (A.SFB_HCNTHI i)) s

/-- The entry to a hold (R28, R106, R111, R115). -/
def enterHold (s : State) : State :=
  if s.lge.held then s
  else
    let s := { s with
      ctl := { s.ctl with holdFrom := s.ctl.mode }
      lge := { s.lge with held := true, heldSince := s.local, longDone := false } }
    raise 67 ((setMode .hold s).count F.SFB_HOLD_COUNT_CNT)

/-- The first grain that is not held (R28, R115). -/
def leaveHold (s : State) : State :=
  if s.lge.held then raise 68 (setMode s.ctl.holdFrom { s with lge := { s.lge with held := false } }) else s

/-! ### What waits for the start of a grain (assumption 19) -/

/-- A standing vote of an unleagued module holds the first grain of the run (R106). -/
def standingVote (s : State) : State :=
  if s.leagueSize ≤ 1 then { s with lge := { s.lge with causes := [(s.grainNo - s.H, s.causes)] } } else s

/-- This grain is the first of a run (R370). -/
def State.firstGrain (s : State) : Bool := s.ctl.clock && s.lge.begun.map (·.1) == some s.grainNo

/-- Bring in the stage and the end of a burst that an earlier boundary grain named, start a run whose grain GS has come, and begin capturing at cycle f. -/
def catchUp (s : State) : State :=
  let s := applyRel s
  let s := if s.lge.burstDue then stopClock s else s
  let s := runStart s
  let s := match s.lge.start with
    | some (gs, _) => if gs ≤ s.grainNo then { s with lge := { s.lge with start := none } } else s
    | none => s
  let s := if s.firstGrain then standingVote (runField s) else s
  if s.ctl.clock then captureStart s else s

/-! ### The slots of the hub (R92, R186, R312 to R315, R614, R615) -/

/-- The lane output slots that the hub emit tables use at position `p`, in rising order: the entries of step p − 1. -/
def State.laneSlots (s : State) (p : Nat) : NSet :=
  s.arr.hubEmit.foldl (fun m x =>
    if x.1 % 2048 + 1 = p && bit x.2 31 && bits x.2 28 3 == 3 then NSet.ins m (bits x.2 0 12) else m) []

/-- A group takes a slot bit (R313). -/
def Grp.take (g : Grp) (b : Bool) : Grp := { g with bits := g.bits ++ [b], nsent := g.nsent + 1 }

/-- A lane output slot takes its value; only an ACTIVE port in league use carries it. -/
def laneTake (due : List Dest) (s : State) (i : Nat) : State :=
  let n := i / 128
  if s.activePorts.contains n then
    let p := s.lane n
    let b := due.contains (.slot 3 i)
    s.setLane n (if i % 128 < 64 then { p with a := p.a.take b } else { p with b := p.b.take b })
  else s

/-- The hub input slots take the values that reach them at position `p`. -/
def hubTake (p : Nat) (s : State) : State :=
  let due := (s.arr.wires.filter fun w => w.1 = p).map (·.2)
  let s := due.foldl (fun s d => match d with
    | .slot 1 i => { s with chn := { s.chn with bits := NSet.ins s.chn.bits i } }
    | .slot 2 i => { s with fio := { s.fio with bits := NSet.ins s.fio.bits i } }
    | _ => s) s
  (s.laneSlots p).foldl (laneTake due) s

/-- Entry `k` of the receive half of the parity of cycle `c` (R315). -/
def State.laneBit (s : State) (c : Nat) (x : LaneSlot) : Bool :=
  let p := s.lane x.port
  let g := if x.group = 0 then p.a else p.b
  (if c % 2 = 0 then g.even else g.odd).getD x.k false

/-- The hub output slots of kinds lane, field and release place their values at step `t` of cycle `c`. -/
def hubPlace (t c : Nat) (s : State) : State :=
  let s := (s.ldr.lanemap.filter fun x => x.step == t).foldl
    (fun s x => placeHub (x.line / 2048) (x.line % 2048) t (s.laneBit c x) s) s
  let s := (s.fio.slots.filter fun (x : FieldSlot) => x.step == t).foldl
    (fun s x => placeHub (x.line / 2048) (x.line % 2048) t (s.fieldBit c x.cell) s) s
  let asserted := s.fld F.LDR_REL_STAGE < 3
  (s.ldr.releases.filter fun x => x.step == t).foldl
    (fun s x => placeHub (x.line / 2048) (x.line % 2048) t (asserted != x.pol) s) s

/-- A step: probe reads before the step writes, the hub's slots, and the array (R42, R101, R250). -/
def stepPos (p c : Nat) (s : State) : State :=
  let s := hubTake p (probeReads p s)
  let s := arrayStep p (chnSlots p (hubPlace p c s))
  s.addPair A.PMC_ASTEPLO A.PMC_ASTEPHI

/-! ### The boundary grain (R103, R203 to R205, R367, R374) -/

/-- Domain `n` ticks in cycle `c` (R374, R402). -/
def State.ticks (s : State) (n c : Nat) : Bool :=
  let k := Nat.min 64 (s.fld (F.TIM_DLEN_LEN n))
  k ≠ 0 && bit (s.pair (A.TIM_DPATLO n) (A.TIM_DPATHI n)) (c % k)

/-- TB_D0 to TB_D15 advance in the boundary grain of cycle `c` (R374). -/
def tickDomains (c : Nat) (s : State) : State :=
  let td := s.tim.td.zipIdx.map fun x => if s.ticks x.2 c then x.1 + 1 else x.1
  { s with tim := { s.tim with td := td } }

/-- The next release stage is due in the coming boundary grain (R203). -/
def State.relNext (s : State) : Bool :=
  s.fld F.LDR_REL_STAGE < 3 && (s.fld F.LDR_REL_STAGE + 1) * s.ldr.gap ≤ s.ldr.relCount + 1

/-- Stage 3 waits on HOLDRST (R205). -/
def State.relWaits (s : State) : Bool := s.fld F.LDR_REL_STAGE == 2 && s.flag F.LDR_REL_HOLDRST

/-- Release counts this executed cycle; in a league the token names the stage (R203 to R206). -/
def releaseCycle (tok : Option CycleTok) (s : State) : State :=
  let due := s.relNext
  let rel :=
    if 1 < s.leagueSize then (match tok with | some t => t.rel | none => 0)
    else if due && !s.relWaits then s.fld F.LDR_REL_STAGE + 1 else 0
  let s := if due && s.isMaster && s.relWaits && rel = 0 then s.setFld F.LDR_REL_WAIT 1 else s
  let s := { s with ldr := { s.ldr with relCount := s.ldr.relCount + 1 }, lge := { s.lge with relDue := rel } }
  s.setFld F.LDR_RELCYC_CYC (Nat.min s.ldr.relCount 0x3FF)

/-- The flash copy when cycle `c` is the one a token named, which made the snapshot pending (R222); its STAGE is the one this boundary grain leaves. -/
def boundarySnap (c : Nat) (s : State) : State :=
  let stage (s : State) : State :=
    if s.lge.relDue = 0 then s
    else { s with snp := { s.snp with snap := s.snp.snap.map fun (x : Snap) => { x with stage := s.lge.relDue } } }
  if s.snp.pend = some (some c) then stage (flashCopy c s) else s

/-- The token for the coming boundary of cycle `c`, if this member holds it. -/
def State.tokFor (s : State) (c : Nat) : Option CycleTok :=
  match s.lge.tok with
  | some t => if t.cycle = c then some t else none
  | none => none

/-- A member whose CYCLE token has not arrived when its boundary grain is due (R365); the first cycle after a load or a restore
has none. -/
def State.tokMissing (s : State) : Bool :=
  1 < s.leagueSize && !s.isMaster && s.ldr.relCount ≠ 0 && s.snp.restored.isNone && (s.tokFor s.lge.cycle).isNone

/-- Scruple grain 8 (R102, R103). -/
def boundaryGrain (s : State) : State :=
  let c := s.lge.cycle
  let tok := s.tokFor c
  let s := endRecords (chnBoundary c (writeRecords c (autoFire (goComplete s))))
  let s := boundarySnap c (releaseCycle tok (tickDomains c s))
  let stop := (match tok with | some t => t.stop | none => false) || (match s.lge.last with | some l => decide (l ≤ c) | none => false)
  let s := if stop then s else dueField ((c + 1) % 2 ^ 64) s
  let s := { s with
    lge := { s.lge with cycle := (c + 1) % 2 ^ 64, burstDue := stop, thrDue := tok.map CycleTok.thr }
    ctl := { s.ctl with left := s.ctl.left - 1 }
    snp := { s.snp with restored := none } }
  boundaryFlags (s.addPair A.PMC_ACYCLO A.PMC_ACYCHI)

/-- Scruple grain 10 (R102, R113, R220, R314, R367): the master's CYCLE token names the coming boundary, and the CYM of the next cycle is
queued. -/
def tokenGrain (s : State) : State :=
  let n := s.lge.cycle
  let s :=
    if s.isMaster then
      let s := if 1 < s.leagueSize then updThr s else s
      let s := if s.snp.pend = some none then { s with snp := { s.snp with pend := some (some n) } } else s
      let rel := if 1 < s.leagueSize && s.relNext && !s.relWaits then s.fld F.LDR_REL_STAGE + 1 else 0
      let t : CycleTok := ⟨n, s.ctl.stopReq, s.nextThr, s.snp.pend == some (some n), s.fld F.SNP_ID_SNAPID, rel⟩
      { s with lge := { s.lge with tok := some t }, ctl := { s.ctl with stopReq := false } }.relay 6 (CycleTok.body t) 2
    else s
  cymReset (cymSend n s)

/-- The fixed uses of scruple grain `k` (R102). -/
def scrupleGrain (k : Nat) (s : State) : State :=
  let s := s.addPair A.PMC_ASCRLO A.PMC_ASCRHI
  match k with
  | 0 => startOut s.lge.cycle (scrupleClear s)
  | 6 => comparators s
  | 7 => sequencer s.lge.cycle s
  | 8 => boundaryGrain s
  | 9 => triggerActions s.cycleNow s
  | 10 => tokenGrain s
  | _ => s

/-! ### The grain -/

/-- A held grain executes no position; the services of the hub go on (R43, R106, R108). -/
def heldGrain (g : Nat) (s : State) : State :=
  let s := holdCounts (s.localMask (g - s.H)) (enterHold s)
  let s := heldRecord { s with fio := { s.fio with held := s.fio.held + 1 } }
  chnGrain none (overrunGrain s)

/-- A grain that is not held executes the next position (R101). -/
def executeGrain (s : State) : State :=
  let p := s.arr.pos
  if p = s.L + 8 && s.tokMissing then leagueLate 3 (s.fld F.LGE_STAT_UPPORT) 0 (leaveHold s)
  else
    let s := leaveHold s
    let s := if s.ldr.begun then s
      else { s with ldr := { s.ldr with begun := true, gap := Nat.max 4 (s.fld F.LDR_REL_GAP) } }
    let s := chnGrain (some p) (duePoints p (overrunGrain s))
    let s := if p < s.L then stepPos p s.lge.cycle s else s
    let s := memAccesses p s
    let s := if s.L ≤ p then scrupleGrain (p - s.L) s else s
    { s with arr := { s.arr with pos := (p + 1) % Nat.max 1 (s.L + s.S) } }

/-- SAFE that this grain brings: an error of the array in it, the boundary that R27 waits for, and the boundary that the held
league would have reached (R29, R72, R634). -/
def safeAfter (g p : Nat) (held : Bool) (s : State) : State :=
  let fails := s.arr.fails
  let s := fails.foldl (fun s why => enterSafe why s) { s with arr := { s.arr with fails := [] } }
  let s := if s.ctl.safeNext && !held && p = s.L + 8 then enterSafe 7 s else s
  match s.ctl.safeDue with
  | none => s
  | some (why, n) =>
    let period := Nat.max 1 (s.L + s.S)
    let left := match n with
      | some k => some (k - 1)
      | none => if held && s.faultHold g then some ((s.L + 8 + period - s.arr.pos) % period) else none
    if left = some 0 then enterSafe why s else { s with ctl := { s.ctl with safeDue := some (why, left) } }

/-- A counter dump of MODE 0b10 in the boundary grain of every PERIOD-th cycle (R580). -/
def boundaryDump (s : State) : State :=
  if s.fld F.PMC_DCTL_MODE = 2 && s.pair A.PMC_ACYCLO A.PMC_ACYCHI % Nat.max 1 (s.fld F.PMC_DCTL_PERIOD) = 0 then dumpTake s else s

/-- One grain of the league: TB_LEAGUE counts it (R373). A read that has overrun counts the grains in which the step clock runs, those after a
SAFE that stops it not (DESIGN CHOICE, assumption 66). A dump follows a boundary grain that executed. The snapshot unit uses the banks that no design access of the grain does (R142,
R224). -/
def grainCount (s : State) : State :=
  let s := leagueAbort (catchUp s)
  let g := s.grainNo
  let p := s.arr.pos
  let v := s.vote (g - s.H)
  let held := s.ctl.clock && v
  let run := s.ctl.clock && !v
  let ends := run && p = s.L + 8 && !s.tokMissing
  let s := s.setFld F.SFB_HOLD_STAT_INEFF (b2n v)
  let s := snapGrain (fun k => run && s.busyBank p k) s
  let s := if held then heldGrain g s else if run then executeGrain s else s
  let s := if s.ctl.clock then safeAfter g p held s else s
  let s := flagWork (noteVote g s)
  let s := if ends then boundaryDump s else s
  { s with tim := { s.tim with league := s.tim.league + 1 } }

/-- One edge of the step clock: the upsets that fall before it, then a grain unless the throttle, at the level that holds from the grain
after the boundary grain (R114), removes the edge (R113, R373). Until the first TBSYNC of a league formed with no step clock TB_LEAGUE
stands (R354). -/
def grain (ups : List Upset) (s : State) : State :=
  let s := ups.foldl upset s
  let s :=
    if s.ctl.corePower && s.flag F.SFB_CLK_LOCK && s.fld F.SFB_CLK_MHZ ≠ 0 && !s.lge.needSync then
      let s := applyThr s
      let i := s.lge.edge
      let s := { s with
        lge := { s.lge with edge := (i + 1) % 16 }
        fio := { s.fio with edges := s.fio.edges.map (· + 1) } }
      if edgeRemoved (s.fld F.SFB_THR_CUR) i then s else grainCount s
    else s
  { s with dm := { s.dm with oldEcc := [] } }

/-- GRAIN. -/
def execGrain (ups : List Upset) (s : State) : Host.Outcome State Fault Refusal := .next (grain ups s)

end Sys2Proof.Machine
end

