-- ==== Sys2Proof/Machine/LinkWords.lean ====
section
/-! DEFINITION. Link words: issue, line coding, markers, replay, and what each accepted word does (R302 to R315, R325,
R357 to R366, R376). -/
namespace Sys2Proof.Machine

/-! ### Line coding (R302 to R304) -/

/-- The seed of data lane `n` after a marker (R302). -/
def laneSeed (n : Nat) : Nat := (0x12345678 + n * 0x01020304) % 2 ^ 31

/-- One scrambler step: the register after it and the scrambled bit (R302). -/
def scramble (r : Nat) (b : Bool) : Nat × Bool :=
  let k := bit r 30 != bit r 27
  ((2 * r + b2n k) % 2 ^ 31, b != k)

/-- One bit sent on a lane with its stuff bit when 24 identical bits have gone out (R303): the run, and the bits. -/
def stuff (run : Bool × Nat) (b : Bool) : (Bool × Nat) × List Bool :=
  let n := if run.1 = b && run.2 ≠ 0 then run.2 + 1 else 1
  if n = 24 then ((!b, 1), [b, !b]) else ((b, n), [b])

/-- The bits of a lane's 32 payload bits: scrambler, run and line bits (R302, R303). -/
def laneBits (r : Nat) (run : Bool × Nat) (payload : List Bool) : Nat × (Bool × Nat) × List Bool :=
  payload.foldl (fun (x : Nat × (Bool × Nat) × List Bool) b =>
    let y := scramble x.1 b
    let z := stuff x.2.1 y.2
    (y.1, z.1, x.2.2 ++ z.2)) (r, run, [])

/-- One line bit received on a lane (R302, R303): after 24 identical bits it is a stuff bit, removed, and in error unless it has the
opposite value; any other is descrambled. The state is the descrambler, the run, and whether a stuff error was met. -/
def unstuff (x : Nat × (Bool × Nat) × Bool) (b : Bool) : (Nat × (Bool × Nat) × Bool) × List Bool :=
  let run := x.2.1
  if run.2 = 24 then ((x.1, (b, 1), x.2.2 || b == run.1), [])
  else
    let y := scramble x.1 b
    ((y.1, (b, if run.1 = b && run.2 ≠ 0 then run.2 + 1 else 1), x.2.2), [y.2])

/-- The payload of the line bits of one lane, and the state after them. -/
def unstuffAll (x : Nat × (Bool × Nat) × Bool) (line : List Bool) : (Nat × (Bool × Nat) × Bool) × List Bool :=
  line.foldl (fun a b => let y := unstuff a.1 b; (y.1, a.2 ++ y.2)) (x, [])

/-- A word received on the eight lanes of group `k` as their line bits (R302, R303, R305): the word, whether it fails for a stuff error
or for not being 32 payload bits on each lane, and the group after it. -/
def Grp.receive (g : Grp) (k : Nat) (lanes : List (List Bool)) : Nat × Bool × Grp :=
  let r := (List.range 8).map fun i =>
    unstuffAll (g.rxScr.getD i (laneSeed (8 * k + i)), g.rxRuns.getD i (false, 0), false) (lanes.getD i [])
  (r.zipIdx.foldl (fun w x => w + bitsNat x.1.2 * 2 ^ (32 * x.2)) 0 % 2 ^ 256,
    r.any (fun x => x.1.2.2 || x.2.length != 32),
    { g with rxScr := r.map (·.1.1), rxRuns := r.map (·.1.2.1) })

/-- Put a word on the eight lanes of group `k` (R305): lane i carries bits [32i + 31:32i], least significant first. -/
def Grp.send (g : Grp) (k : Nat) (w : Nat) : Grp :=
  let r := (List.range 8).map fun i =>
    laneBits (g.scr.getD i (laneSeed (8 * k + i))) (g.runs.getD i (false, 0)) ((List.range 32).map fun j => bit w (32 * i + j))
  { g with scr := r.map (·.1), runs := r.map (·.2.1), line := r.map (·.2.2) }

/-- The bits of the lane alignment marker of lane `n` (R304). -/
def markerBits (n : Nat) : List Bool :=
  List.replicate 28 true ++ List.replicate 28 false ++ ((List.range 4).map fun i => bit n i) ++ ((List.range 4).map fun i => !bit n i)

/-- What arrived on the lanes of group `k` is its lane alignment marker (R304). -/
def isMarker (k : Nat) (lanes : List (List Bool)) : Bool := lanes == (List.range 8).map fun i => markerBits (8 * k + i)

/-- A marker goes out on each lane of group `k`: scramblers restart, runs end (R302 to R304). -/
def Grp.mark (g : Grp) (k : Nat) : Grp :=
  { g with
    scr := (List.range 8).map fun i => laneSeed (8 * k + i)
    runs := List.replicate 8 (false, 0)
    line := (List.range 8).map fun i => markerBits (8 * k + i)
    sinceMark := 0
    marks := g.marks + 1 }

/-! ### Words (R305, R306) -/

/-- CRC-16 over the 30 bytes [255:248] down to [23:16] (R306). -/
def wordCrc (w : Nat) : Nat := crc16 ((List.range 30).map fun i => BitVec.ofNat 8 (w / 2 ^ (248 - 8 * i)))

/-- Assemble a link word (R305); `body` is bits [215:16]. -/
def linkWord (type seq ack : Nat) (nak : Bool) (lgs body : Nat) : Nat :=
  let w := type * 2 ^ 252 + seq % 256 * 2 ^ 244 + ack % 256 * 2 ^ 236 + b2n nak * 2 ^ 235 + lgs % 65536 * 2 ^ 216 + body % 2 ^ 200 * 2 ^ 16
  w + wordCrc w

/-- The lane group of a port: A is 0, B is 1. -/
def LanePort.grp (p : LanePort) (k : Nat) : Grp := if k = 0 then p.a else p.b

/-- Replace a group. -/
def LanePort.setGrp (p : LanePort) (k : Nat) (g : Grp) : LanePort := if k = 0 then { p with a := g } else { p with b := g }

/-- The LGS field: EVSEQ and TBC (R366). -/
def State.lgs (s : State) (n : Nat) : Nat := (s.lane n).vsent % 256 * 256 + s.grainNo / 4 % 256

/-- The formation data that this module's CAP words carry (R350). -/
def State.lgData (s : State) : Nat := s.lge.lid * 2 ^ 32 + s.lge.plan / 8192 * 8192 % 2 ^ 32

/-- The CAP body (R325). -/
def State.capBody (s : State) (n k : Nat) : Nat :=
  2 ^ 192 + s.fuses.grade.code * 2 ^ 176 + s.fuses.serial.toNat * 2 ^ 112 + n * 2 ^ 109 + k * 2 ^ 108 +
    b2n (((s.lane n).grp k).cap.isSome) * 2 ^ 107 + s.lgData

/-- What a group issues next in ACTIVE: type, body, and the group without it. CYM and the slot bits before it come first, then
TOKEN and TIME at most once in 4 words, then DATA, then IDLE (R307, R314, R358). -/
def Grp.pick (g : Grp) : Nat × Nat × Grp :=
  let rest (x : Nat × Nat) : List (Nat × Nat) := g.queue.erase x
  match g.queue.find? (fun x => x.1 == 1 || x.1 == 2) with
  | some x => (x.1, x.2, { g with queue := rest x, gapTok := g.gapTok + 1 })
  | none =>
    match g.queue.head? with
    | some x =>
      if 3 ≤ g.gapTok then (x.1, x.2, { g with queue := rest x, gapTok := 0 })
      else if g.bits.isEmpty then (0, 0, { g with gapTok := g.gapTok + 1 })
      else (1, (g.bits.take 192).length * 2 ^ 192 + bitsNat (g.bits.take 192), { g with bits := g.bits.drop 192, gapTok := g.gapTok + 1 })
    | none =>
      if g.bits.isEmpty then (0, 0, { g with gapTok := g.gapTok + 1 })
      else (1, (g.bits.take 192).length * 2 ^ 192 + bitsNat (g.bits.take 192), { g with bits := g.bits.drop 192, gapTok := g.gapTok + 1 })

/-- The stamp of the last SYNC as the SEC, NS and FRAC of a FOLLOW body (R376). -/
def LanePort.syncStamp (p : LanePort) : Nat :=
  p.syncAt / 65536 / 1000000000 % 2 ^ 48 * 2 ^ 48 + p.syncAt / 65536 % 1000000000 * 2 ^ 16 + p.syncAt % 65536

/-- What is filled in at issue: T of a TBSYNC, the stamp of a FOLLOW; and what issuing notes: a SYNC's send stamp, the copies of
a VOTE (R366, R372, R376). -/
def stampBody (n type body : Nat) (s : State) : Nat × State :=
  let p := s.lane n
  let tk := bits body 192 8
  if type = 3 && tk = 5 then (body + s.grainNo % 2 ^ 64 * 2 ^ 128, s)
  else if type = 3 && tk = 2 then
    let v := bits body 184 8
    (body, s.setLane n (if p.vfirst = some v then { p with vfirst := none, vsent := v } else { p with vfirst := some v }))
  else if type = 4 && tk = 1 then
    (body + b2n (s.flag F.TIM_STAT_UNCERT) * 2 ^ 87 + b2n (s.flag F.TIM_STAT_LOCKED) * 2 ^ 86, s.setLane n { p with syncAt := s.tim.wall })
  else if type = 4 && tk = 2 then
    (body + p.syncStamp * 2 ^ 88 +
      b2n (s.flag F.TIM_STAT_UNCERT) * 2 ^ 87 + b2n (s.flag F.TIM_STAT_LOCKED) * 2 ^ 86, s)
  else (body, s)

/-- What is stamped as a held word leaves again (R308, R372, R376): T of a TBSYNC, a SYNC's send stamp, and that stamp in its FOLLOW. -/
def restamp (n type body : Nat) (s : State) : Nat × State :=
  let p := s.lane n
  let tk := bits body 192 8
  if type = 3 && tk = 5 then (putBits body 128 64 s.grainNo, s)
  else if type = 4 && tk = 1 then (body, s.setLane n { p with syncAt := s.tim.wall })
  else if type = 4 && tk = 2 then (putBits body 88 96 p.syncStamp, s)
  else (body, s)

/-- A word leaves group `k` of port `n` with type, sequence and body; ACK, NAK and LGS are those of the moment. -/
def sendWord (n k type seq body : Nat) (s : State) : State :=
  let p := s.lane n
  let g := p.grp k
  let w := linkWord type seq (g.rxSeq.getD 0) g.await (s.lgs n) body
  s.setLane n (p.setGrp k { g.send k w with sinceMark := g.sinceMark + 1 })

/-- Issue a new word (R308): it takes the next sequence number and is held for replay (R310). -/
def issueNew (n k type body : Nat) (s : State) : State :=
  let x := stampBody n type body s
  let s := x.2
  let p := s.lane n
  let g := p.grp k
  let q := (g.txSeq + 1) % 256
  let s := s.setLane n (p.setGrp k { g with
    txSeq := q
    held := (g.held ++ [BitVec.ofNat 256 (linkWord type q 0 false 0 x.1)]).drop ((g.held.length + 1) - 64) })
  sendWord n k type q x.1 s

/-- The next 32 bits of PRBS31 from a register, which is the scrambler's (R302), and the register after them. -/
def prbs (r : Nat) : Nat × List Bool :=
  (List.range 32).foldl (fun (x : Nat × List Bool) _ => let y := scramble x.1 false; (y.1, x.2 ++ [y.2])) (r, [])

/-- What a group sends in TRAIN (R322): 32 UI of PRBS31 on each data lane, from the lane's seed on (DESIGN CHOICE, assumption 60), and after
every 4,096 UI the calibration pattern, the markers of R304 in the gap of 4 periods of the forwarded clock, with this end's READY bit in the
marker's place on lane 0. -/
def trainSend (n k : Nat) (s : State) : State :=
  let p := s.lane n
  let g := p.grp k
  if g.sinceMark < 128 then
    let r := (List.range 8).map fun i => prbs (g.scr.getD i (laneSeed (8 * k + i)))
    s.setLane n (p.setGrp k { g with scr := r.map (·.1), line := r.map (·.2), sinceMark := g.sinceMark + 1, gap := false })
  else
    s.setLane n (p.setGrp k { g with
      line := (List.range 8).map fun i => if 8 * k + i = 0 then List.replicate 64 p.ready else markerBits (8 * k + i)
      sinceMark := 0, marks := g.marks + 1, gap := true })

/-- LINK_WORD_ISSUE: words held for resending first (R310), then what the stage of the port sends (R320); none after 16,384 words until
the marker has gone out (R304). -/
def wordIssue (n k : Nat) (s : State) : State :=
  if 5 < n || 1 < k || !s.ctl.corePower || 16384 ≤ ((s.lane n).grp k).sinceMark then s
  else
    let p := s.lane n
    let g := p.grp k
    match g.resend with
    | w :: r =>
      let x := restamp n (w.toNat / 2 ^ 252) (bits w.toNat 16 200) (s.setLane n (p.setGrp k { g with resend := r }))
      sendWord n k (w.toNat / 2 ^ 252) (bits w.toNat 244 8) x.1 x.2
    | [] =>
      match s.stage n with
      | 1 => trainSend n k s
      | 2 => issueNew n k 0 0 s
      | 3 => issueNew n k 5 (s.capBody n k) s
      | 4 =>
        let x := g.pick
        issueNew n k x.1 x.2.1 (s.setLane n (p.setGrp k x.2.2))
      | _ => s

/-- LINK_WORD_ISSUE. -/
def execLinkWordIssue (port group : Nat) (s : State) : Host.Outcome State Fault Refusal := .next (wordIssue port group s)

/-- ALIGN_MARKER_SEND: after every 16,384 words of a group that sends words (R304). -/
def markerSend (n k : Nat) (s : State) : State :=
  let p := s.lane n
  if 5 < n || 1 < k || s.stage n < 2 || (p.grp k).sinceMark < 16384 then s
  else s.setLane n (p.setGrp k ((p.grp k).mark k))

/-- ALIGN_MARKER_SEND. -/
def execAlignMarkerSend (port group : Nat) (s : State) : Host.Outcome State Fault Refusal := .next (markerSend port group s)

/-! ### Receiving (R309 to R315) -/

/-- The NAK and ACK of a received word (R310): resend from ACK + 1, or return to DETECT with REPLAY_FAIL. -/
def takeNak (n k ack : Nat) (nak : Bool) (s : State) : State :=
  let p := s.lane n
  let g := p.grp k
  if !nak then s.setLane n (p.setGrp k { g with lastNak := false })
  else if g.lastNak && g.actedAck = some ack then s
  else
    let times := if g.actedAck = some ack then g.actedTimes + 1 else 1
    let back := (g.txSeq + 256 - ack) % 256
    if g.held.length < back || 8 ≤ times then toDetect n 9 s
    else s.setLane n (p.setGrp k { g with
      lastNak := true, actedAck := some ack, actedTimes := times, resend := g.held.drop (g.held.length - back) })

/-- Discard a word (R309): a replay is requested and counted once until the word expected is accepted (R310). -/
def discardWord (n k : Nat) (bad : Bool) (s : State) : State :=
  let s := if bad then
      let s := s.count (F.LNK_CRCCNT_COUNT n)
      s.setLane n { s.lane n with errs := (s.lane n).errs + 1 }
    else s
  let p := s.lane n
  let g := { p.grp k with good := 0 }
  if g.await then s.setLane n (p.setGrp k g)
  else
    let s := s.setLane n (p.setGrp k { g with await := true })
    let s := s.setFld (if k = 0 then F.LNK_STAT_RPLA n else F.LNK_STAT_RPLB n) 1
    let s := raiseIf (s.flag (F.LNK_CTL_REPEV n)) (195 + 8 * n) (s.count (F.LNK_RPLCNT_COUNT n))
    updateLaneHold s

/-- The checks of an accepted CYM, and its buffer half (R314, R315). -/
def takeCym (n k cyc nprev : Nat) (s : State) : State :=
  let p := s.lane n
  let g := p.grp k
  let again := g.cym = some cyc
  let before := if again then g.nlast else g.nrecv
  let after9 := s.L + 9 ≤ s.arr.pos && s.arr.pos < s.L + 11
  let good := if s.ctl.clock then cyc + b2n after9 == s.lge.cycle
    else cyc == s.lge.cycle || (after9 && cyc + 1 == s.lge.cycle)
  let s := s.setLane n (p.setGrp k { g with
    half := cyc % 2 == 1, nlast := before, nrecv := 0, cym := some cyc
    even := if cyc % 2 = 0 then [] else g.even, odd := if cyc % 2 = 1 then [] else g.odd })
  if !good then lockstepError 1 n k s
  else if before % 2 ^ 18 ≠ nprev then lockstepError 2 n k s
  else s

/-- The slot bits of an accepted DATA word go into the half that the last CYM cleared (R315). -/
def takeData (n k body : Nat) (s : State) : State :=
  let p := s.lane n
  let g := p.grp k
  let m := Nat.min 192 (bits body 192 8)
  let l := (List.range m).map fun i => bit body i
  let put (h : List Bool) : List Bool := (h ++ l).take 131072
  s.setLane n (p.setGrp k { g with
    nrecv := g.nrecv + m, even := if g.half then g.even else put g.even, odd := if g.half then put g.odd else g.odd })

/-- An accepted CAP word in EXCHANGE (R325, R326): ACTIVE when both groups agree. -/
def takeCap (n k body : Nat) (s : State) : State :=
  if s.stage n ≠ 3 then s
  else if bits body 192 8 ≠ 1 then toDetect n 5 s
  else
    let p := s.lane n
    let g := p.grp k
    let s := s.setLane n (p.setGrp k { g with
      cap := some (bits body 176 16, bits body 112 64, bits body 109 3, bits body 0 64), rxok := bit body 107 })
    let p := s.lane n
    match p.a.cap, p.b.cap with
    | some a, some b =>
      if a.2.1 ≠ b.2.1 || a.2.2.1 ≠ b.2.2.1 then toDetect n 6 s
      else if p.a.rxok && p.b.rxok then
        let s := s.setLane n { p with lgdata := a.2.2.2 }
        let s := s.setFlds [(F.LNK_PART_GRADE n, a.1), (F.LNK_PART_VER n, 1), (F.LNK_PART_PORT n, a.2.2.1), (F.LNK_STAT_STAGE n, 4)]
        let s := s.setPair (A.LNK_PARTSLO n) (A.LNK_PARTSHI n) a.2.1
        portCheck n (raise (192 + 8 * n) s)
      else s
    | _, _ => s

/-- A TOKEN word (R357, R359): read whether or not it is accepted. -/
def takeToken (n body : Nat) (s : State) : State :=
  if s.portCode n ≠ 2 || s.stage n ≠ 4 then s
  else match bits body 192 8 with
    | 0x01 => cycleReceive n ⟨bits body 128 64, bit body 127, bits body 123 4, bit body 122, bits body 90 32, bits body 88 2⟩ s
    | 0x02 => voteReceive n (bits body 184 8) ((List.range 5).map fun i => bits body (152 - 32 * i) 32) s
    | 0x03 => startReceive n (bits body 128 64) (bits body 64 64) s
    | 0x04 => rateReceive n (bits body 180 12) s
    | 0x05 => tbsyncReceive n (bits body 128 64) s
    | 0x06 => formReceive n (bits body 128 64) (bits body 64 64) (bits body 0 64) s
    | 0x07 => formedReceive n (bits body 176 16) (bits body 164 12) s
    | _ => toDetect n 11 s

/-- An accepted TIME word (R376): a SYNC is stamped, and its FOLLOW gives an offset. -/
def takeTime (n body : Nat) (s : State) : State :=
  let p := s.lane n
  let q := bits body 184 8
  match bits body 192 8 with
  | 1 => s.setLane n { p with rxSync := some (q, s.tim.wall) }
  | 2 =>
    match p.rxSync with
    | some (q', w) =>
      if q = q' then
        timeFollow n ⟨q, bits body 136 48, bits body 104 32, bits body 88 16, bit body 87, bit body 86,
          w / 65536 / 1000000000, w / 65536 % 1000000000, w % 65536⟩ s
      else s
    | none => s
  | _ => toDetect n 11 s

/-- The checks on the LGS field of a word that passed its CRC, in a formed league (R365, R366): each VOTE content up to EVSEQ has
been received, and TBC fits this end's TB_LEAGUE less the one-way delay. -/
def takeLgs (n k lgs : Nat) (s : State) : State :=
  if !(s.formed && 1 < s.leagueSize) || s.portCode n ≠ 2 then s
  else
    let ev := lgs / 256 % 256
    let p := s.lane n
    let gap := match p.evseq with
      | none => false
      | some o => (List.range ((ev + 256 - o) % 256)).any fun i => !p.vrx.contains ((o + 1 + i) % 256)
    let s := s.setLane n { p with evseq := some ev }
    let d := s.fld (if k = 0 then F.LNK_OWD_OWDA n else F.LNK_OWD_OWDB n) * s.fld F.SFB_CLK_MHZ / 1000000
    let mine := ((s.grainNo : Int) - (d : Int)) / 4
    let diff := (mine - (lgs % 256 : Nat)) % 256
    let drift := !s.lge.tbsyncDue && s.flag F.SFB_CLK_LOCK && !(diff ≤ 1 || diff = 255)
    let s := if gap then leagueLate 2 n 0 s else s
    if drift then leagueLate 5 n 0 s else s

/-- Put back what the receiver of a group knows of its markers: words since the last, how many were missing or misplaced in
succession, and in LOCK how many were found at their places. -/
def setPlace (n k since missed found : Nat) (s : State) : State :=
  let p := s.lane n
  s.setLane n (p.setGrp k { p.grp k with rxSince := since, missed := missed, found := found })

/-- A marker arrives (R304): descramblers restart and runs end. In LOCK a second one 16,384 words after the first counts (R324); in
ACTIVE one misplaced, after one missing or misplaced, is LOCK_LOST (R326). One that comes a word late was counted as missing by then and
counts once (`rxSince` is 16,385 only then). -/
def markerReceive (n k : Nat) (s : State) : State :=
  let p := s.lane n
  let g := p.grp k
  let s := s.setLane n (p.setGrp k { g with
    rxScr := (List.range 8).map fun i => laneSeed (8 * k + i), rxRuns := List.replicate 8 (false, 0) })
  if s.stage n = 2 then setPlace n k 0 0 (if g.found ≠ 0 && g.rxSince = 16384 then 2 else Nat.max 1 (g.found / 2 * 2)) s
  else if g.rxSince = 16384 then setPlace n k 0 0 g.found s
  else if s.stage n = 4 && g.rxSince = 16385 then setPlace n k 0 g.missed g.found s
  else if s.stage n = 4 && 1 ≤ g.missed then toDetect n 8 s
  else setPlace n k 0 (if s.stage n = 4 then g.missed + 1 else 0) g.found s

/-- The place of a word after its marker: in ACTIVE a word in the place of a marker is a marker missing, and the second in succession
LOCK_LOST (R326). -/
def takePlace (n k : Nat) (s : State) : State :=
  let g := (s.lane n).grp k
  if s.stage n ≠ 4 then setPlace n k (g.rxSince + 1) 0 g.found s
  else if g.rxSince < 16384 then setPlace n k (g.rxSince + 1) g.missed g.found s
  else if g.rxSince = 16385 then setPlace n k 2 g.missed g.found s
  else if 1 ≤ g.missed then toDetect n 8 s
  else setPlace n k 16385 (g.missed + 1) g.found s

/-- What an accepted word does (R307, R314, R315, R325, R376); TOKEN words are read before acceptance. -/
def acceptWord (n k type body : Nat) (s : State) : State :=
  let use := s.stage n = 4 && s.portCode n = 2
  match type with
  | 1 => if use then takeData n k body s else s
  | 2 => if use then takeCym n k (bits body 136 64) (bits body 118 18) s else s
  | 4 => if s.stage n = 4 && k = 0 then takeTime n body s else s
  | 5 => takeCap n k body s
  | _ => s

/-- A word in its place: one that fails is discarded; a sound word's ACK, NAK, LGS and TOKEN are read; in sequence it is accepted
(R307, R309 to R311). -/
def wordReceive (n k : Nat) (w : Nat) (stuffErr : Bool) (s : State) : State :=
  if s.stage n < 2 then s
  else if stuffErr || wordCrc w ≠ w % 65536 then discardWord n k true s
  else
    let type := w / 2 ^ 252
    let body := bits w 16 200
    if 6 ≤ type then toDetect n 11 s
    else
      let s := takeNak n k (bits w 236 8) (bit w 235) s
      if s.stage n < 2 then s
      else
        let s := takeLgs n k (bits w 216 16) (if type = 3 && k = 0 then takeToken n body s else s)
        if s.stage n < 2 then s
        else
          let p := s.lane n
          let g := p.grp k
          let seq := bits w 244 8
          let fits := match g.rxSeq with
            | none => true
            | some q => seq = (q + 1) % 256
          if !fits then discardWord n k false s
          else
            let s := s.setLane n (p.setGrp k { g with rxSeq := some seq, await := false, good := Nat.min 32 (g.good + 1) })
            let s := s.setFld (if k = 0 then F.LNK_STAT_RPLA n else F.LNK_STAT_RPLB n) 0
            acceptWord n k type body (updateLaneHold s)

/-- What the eight lanes of a group bring next, a marker or a word. Before the group has found its markers in LOCK (R324) it takes no
word (DEDUCED, assumption 60). -/
def lanesReceive (n k : Nat) (lanes : List (List Bool)) (s : State) : State :=
  if 5 < n || 1 < k || s.stage n < 2 then s
  else if isMarker k lanes then markerReceive n k s
  else
    let p := s.lane n
    let x := (p.grp k).receive k lanes
    let s := takePlace n k (s.setLane n (p.setGrp k x.2.2))
    if s.stage n = 2 && x.2.2.found < 2 then s else wordReceive n k x.1 x.2.1 s

/-- LINK_WORD_RECEIVE: the line bits of each lane of the group; without its forwarded clock the group samples nothing. -/
def execLinkWordReceive (port group : Nat) (low high : List (List Bool)) (clock : Bool) (s : State) : Host.Outcome State Fault Refusal :=
  .next (if clock then autoForm (lanesReceive port group (low ++ high) s) else s)

end Sys2Proof.Machine
end

