-- ==== Sys2Proof/Machine/Operands.lean ====
section
/-! DEFINITION. The operand forms of UC32: general registers, immediates, targets and system registers (R404, R406, R407, R410, R411). -/
namespace Sys2Proof.Machine

/-- Register `r` of core `n`: x0 reads 0 (R404). -/
def State.x (s : State) (n : Nat) (r : BitVec 5) : Word := if r = 0 then 0 else SMap.get 0 (s.core n).x r.toNat

/-- Write register `r` of core `n`: a write of x0 is discarded (R404). -/
def State.setX (s : State) (n : Nat) (r : BitVec 5) (w : Word) : State :=
  if r = 0 then s else s.setCore n { s.core n with x := SMap.set 0 (s.core n).x r.toNat w }

/-- sext() of a 16-bit immediate (R406). -/
def sext (imm : BitVec 16) : Word := imm.signExtend 32

/-- zext() of a 16-bit immediate (R406). -/
def zext (imm : BitVec 16) : Word := imm.zeroExtend 32

/-- The address RA + sext(IMM). -/
def State.ea (s : State) (n : Nat) (ra : BitVec 5) (imm : BitVec 16) : Word := s.x n ra + sext imm

/-- The target of a branch: pc + 4 × sext(OFF) (R406). -/
def State.branchTarget (s : State) (n : Nat) (off : BitVec 16) : Word := (s.core n).pc + 4 * sext off

/-- The target of JAL. -/
def State.jumpTarget (s : State) (n : Nat) (off : BitVec 26) : Word := (s.core n).pc + 4 * off.signExtend 32

/-- The word of an R-format instruction (R406). -/
def wordR (op : Nat) (rd ra rb : BitVec 5) (fn : Nat) : Nat :=
  op * 2 ^ 26 + rd.toNat * 2 ^ 21 + ra.toNat * 2 ^ 16 + rb.toNat * 2 ^ 11 + fn % 2 ^ 11

/-- The word of an I-format instruction (R406). -/
def wordI (op : Nat) (rd ra : BitVec 5) (imm : BitVec 16) : Nat :=
  op * 2 ^ 26 + rd.toNat * 2 ^ 21 + ra.toNat * 2 ^ 16 + imm.toNat

/-- The word of a B-format instruction: RA and RB stand where the I format has RD and RA (R406). -/
def wordB (op : Nat) (ra rb : BitVec 5) (off : BitVec 16) : Nat := wordI op ra rb off

/-- The word of a J-format instruction (R406). -/
def wordJ (op : Nat) (off : BitVec 26) : Nat := op * 2 ^ 26 + off.toNat

/-- The word of a SYS instruction, `z` its RD, RA and RB fields (R406, R407). -/
def wordSys (z : BitVec 15) (fn : Nat) : Nat := 0x30 * 2 ^ 26 + z.toNat * 2 ^ 11 + fn

/-- The opcodes of R407 that name no field as 0. -/
def ucPlain (op : Nat) : Bool :=
  (1 ≤ op && op ≤ 6) || (0x10 ≤ op && op ≤ 0x14) || (0x18 ≤ op && op ≤ 0x1A) || (0x20 ≤ op && op ≤ 0x25) || op == 0x28 || op == 0x29

/-- A word whose opcode, FN and fields R407, R408 and R417 list: any other is an illegal instruction. -/
def ucPermitted (v : Nat) : Bool :=
  let op := bits v 26 6
  let rd := bits v 21 5
  let ra := bits v 16 5
  let imm := bits v 0 16
  let fn := bits v 0 11
  if op = 0 then fn ≤ 9 || (0x10 ≤ fn && fn ≤ 0x17 && fn != 0x13)
  else if op = 7 || op = 8 || op = 9 then imm < 32
  else if op = 0xA || op = 0xB then ra == 0
  else if op = 0x1C then imm == 0
  else if op = 0x1D then fn == 0
  else if op = 0x30 then fn ≤ 5 && bits v 11 15 == 0
  else if op = 0x31 then ra == 0 && imm < 0x1000
  else if op = 0x32 then rd == 0 && imm < 0x1000
  else if op = 0x33 then rd ≤ 3 || (8 ≤ rd && rd ≤ 11)
  else ucPlain op

/-- A load's bytes as the register takes them: sign-extended or zero-extended (R407). -/
def extend (size : Nat) (signed : Bool) (v : Nat) : Word :=
  if signed then BitVec.ofInt 32 (sgn (8 * size) v) else BitVec.ofNat 32 (v % 2 ^ (8 * size))

/-- The system registers that exist (R411); the management controller has neither apertures nor monitor mode (R403). -/
def sysListed (n k : Nat) : Bool :=
  k ≤ 0xA || (n ≠ 16 && ((0x10 ≤ k && k ≤ 0x14) || (0x18 ≤ k && k ≤ 0x1B) || (0x20 ≤ k && k ≤ 0x2F)))

/-- The system registers that MTS may not write. -/
def sysReadOnly (k : Nat) : Bool := k == 2 || k == 3 || k == 8 || k == 9 || k == 0xA || k == 0x11

/-- The bits of a system register that MTS writes (R411, R412, R414). -/
def sysMask (k : Nat) : Word :=
  if k = 0 then 0x21B
  else if k = 4 || k = 0x12 then 0xFFFFFF00
  else if k = 7 || k = 0x13 then 0x1F
  else if k = 0x18 || k = 0x19 then 0xFFFFFFFD
  else if 0x20 ≤ k then 0xFFFFF01F
  else 0xFFFFFFFF

/-- What MFS reads, and the latch that a read of CYCLO leaves (R116, R411). -/
def readSys (n k : Nat) (s : State) : Word × State :=
  let c := s.core n
  if k = 9 then (c.cyc.truncate 32, s.setCore n { c with cycLatch := (c.cyc >>> 32).truncate 32 })
  else if k = 0xA then (c.cycLatch, s)
  else (s.sysReg n k, s)

/-- What MTS writes. -/
def writeSys (n k : Nat) (w : Word) (s : State) : State :=
  s.setSys n k ((s.sysReg n k &&& ~~~sysMask k) ||| (w &&& sysMask k))

end Sys2Proof.Machine
end

