-- ==== Sys2Proof/Machine/Flags.lean ====
section
/-! DEFINITION. UC32 has no condition flags: its comparisons go to a register or decide a branch. This file holds them, and the
arithmetic whose corners R409 lays down. -/
namespace Sys2Proof.Machine

/-- 1 or 0 as a word (R408). -/
def truth (b : Bool) : Word := if b then 1 else 0

/-- Signed less than. -/
def lessS (a b : Word) : Bool := a.toInt < b.toInt

/-- Unsigned less than. -/
def lessU (a b : Word) : Bool := a.toNat < b.toNat

/-- Bits [31:0] of the product. -/
def mulLow (a b : Word) : Word := BitVec.ofNat 32 (a.toNat * b.toNat)

/-- Bits [63:32] of the signed product. -/
def mulHighS (a b : Word) : Word := BitVec.ofInt 32 (a.toInt * b.toInt / 2 ^ 32)

/-- Bits [63:32] of the unsigned product. -/
def mulHighU (a b : Word) : Word := BitVec.ofNat 32 (a.toNat * b.toNat / 2 ^ 32)

/-- The signed quotient, rounded toward zero; 0xFFFF_FFFF for a divisor of 0; it wraps for 0x8000_0000 by -1 (R409). -/
def quotS (a b : Word) : Word := if b = 0 then 0xFFFFFFFF else BitVec.ofInt 32 (a.toInt.tdiv b.toInt)

/-- The unsigned quotient. -/
def quotU (a b : Word) : Word := if b = 0 then 0xFFFFFFFF else BitVec.ofNat 32 (a.toNat / b.toNat)

/-- The signed remainder, with the sign of the dividend; the dividend itself for a divisor of 0 (R409). -/
def remS (a b : Word) : Word := if b = 0 then a else BitVec.ofInt 32 (a.toInt.tmod b.toInt)

/-- The unsigned remainder. -/
def remU (a b : Word) : Word := if b = 0 then a else BitVec.ofNat 32 (a.toNat % b.toNat)

/-- Shifts by RB[4:0] or IMM[4:0] (R408). -/
def shiftLeft (a : Word) (k : Nat) : Word := a <<< (k % 32)
/-- Logical right. -/
def shiftRight (a : Word) (k : Nat) : Word := a >>> (k % 32)
/-- Arithmetic right. -/
def shiftArith (a : Word) (k : Nat) : Word := a.sshiftRight (k % 32)

end Sys2Proof.Machine
end

