-- ==== Sys2Proof/Machine/Access.lean ====
section
/-! DEFINITION. What a UC32 core does at a boundary: fetch, apertures, caches, uncached accesses, reservations, the management
controller's memory map, and the frame of every instruction (R403, R413 to R419, R645). -/
namespace Sys2Proof.Machine

/-- What comes of an access: data, an exception's cause and address, a wait with the request that waits in the network, or a peripheral
of the MC. -/
inductive Reach where
  | done (v : Nat) (s : State)
  | fault (cause addr : Nat) (s : State)
  | stall (f : Flight)
  | peripheral

/-- Core `n` has gone on: no request of its own waits any longer. -/
def State.settle (s : State) (n : Nat) : State :=
  let m := if n = 16 then 22 else n
  { s with noc := { s.noc with flights := s.noc.flights.filter fun x => !(x.asks && x.master == m) } }

/-- Fetch, load or store. -/
inductive Touch where
  | fetch | load | store
  deriving DecidableEq, Repr

/-- The FAULT cause (R418). -/
def Touch.faultCause : Touch → Nat
  | .fetch => 6
  | .load => 7
  | .store => 8

/-- The PROT cause (R418). -/
def Touch.protCause : Touch → Nat
  | .fetch => 9
  | .load => 0xA
  | .store => 0xB

/-- The cause of an error response: DENIED is PROT, every other kind FAULT (R416, R495). -/
def Touch.cause (t : Touch) (kind : Nat) : Nat := if kind = 4 then t.protCause else t.faultCause

/-- The aperture of a core address (R414). -/
def State.aperture (s : State) (n a : Nat) : Nat := (s.sysReg n (0x20 + a / 2 ^ 28 % 16)).toNat

/-- The NoC address of a core address (R414). -/
def State.nocAddr (s : State) (n a : Nat) : Nat := bits (s.aperture n a) 12 20 * 2 ^ 28 + a % 2 ^ 28

/-- The checks of R416 in their order: EN, U, then X or W. The cause of the first that fails, if any. -/
def State.apertureFault (s : State) (n a : Nat) (t : Touch) : Option Nat :=
  let p := s.aperture n a
  if !bit p 0 then some t.faultCause
  else if !bit p 4 && !s.status n 2 then some t.protCause
  else match t with
    | .fetch => if bit p 2 then none else some t.protCause
    | .load => none
    | .store => if bit p 3 then none else some t.protCause

/-- Accesses to the local banks and to HBM through an aperture with C set are cached (R415). -/
def State.cacheable (s : State) (n a : Nat) : Bool :=
  let x := s.nocAddr n a
  bit (s.aperture n a) 1 && ((0x1000000 ≤ x && x < 0x2000000) || (0x10000000000 ≤ x && x < 0x11800000000))

/-! ### Caches (R417) -/

/-- The line of an address among some lines. -/
def findLine (l : List CLine) (x : Nat) : Option CLine := l.find? fun c => c.addr == x / 64 * 64

/-- Lines without the line of an address. -/
def dropLine (l : List CLine) (x : Nat) : List CLine := l.filter fun c => c.addr != x / 64 * 64

/-- The line that a refill for an address replaces: none while its set of four ways has room. The policy is not given
(Config.victim, assumption 10). -/
def victimOf (l : List CLine) (x k : Nat) : Option CLine :=
  let w := l.filter fun c => c.addr / 64 % 128 == x / 64 % 128
  if w.length < 4 then none else w[Config.victim k % 4]?

/-- Write a dirty line back, or the wait for it. An error response has no further effect (assumption 37). -/
def writeBack (n : Nat) (c : CLine) (s : State) : Except Flight State :=
  if !c.dirty then .ok s
  else match coreAccess n c.addr 64 true c.data s with
    | .ans _ _ s => .ok (pmcCount n 6 1 s)
    | .wait f => .error f

/-- Replace a core's data cache. -/
def State.setDcache (s : State) (n : Nat) (l : List CLine) : State := s.setCore n { s.core n with dcache := l }

/-- The line of NoC address `x` in the data cache, refilled on a miss; a dirty line that fails parity raises PARITY and is lost. -/
def dataLine (n a x : Nat) (t : Touch) (s : State) : Reach :=
  let refill (s : State) : Reach :=
    match coreAccess n (x / 64 * 64) 64 false [] (pmcCount n 5 1 s) with
    | .wait f => .stall f
    | .ans 0 d s =>
      let put (s : State) : Reach := .done 0 (s.setDcache n ((s.core n).dcache ++ [⟨x / 64 * 64, d, false, false⟩]))
      match victimOf (s.core n).dcache x s.freeCtr with
      | none => put s
      | some v =>
        let s := { s with freeCtr := s.freeCtr + 1 }
        let gone (s : State) : State := s.setDcache n (dropLine (s.core n).dcache v.addr)
        if v.bad && v.dirty then .fault 0xE a (gone s)
        else match writeBack n v s with
          | .error f => .stall f
          | .ok s => put (gone s)
    | .ans k _ s => .fault (t.cause k) a s
  match findLine (s.core n).dcache x with
  | none => refill s
  | some c =>
    if !c.bad then .done 0 s
    else
      let s := s.setDcache n (dropLine (s.core n).dcache x)
      if c.dirty then .fault 0xE a s else refill s

/-- The data cache's line of an address is written back if dirty, and kept clean or dropped. -/
def cleanLine (n a x : Nat) (drop : Bool) (s : State) : Reach :=
  match findLine (s.core n).dcache x with
  | none => .done 0 s
  | some c =>
    let gone (s : State) : State := s.setDcache n (dropLine (s.core n).dcache x)
    if c.dirty && c.bad then .fault 0xE a (gone s)
    else match writeBack n c s with
      | .error f => .stall f
      | .ok s =>
        if drop then .done 0 (gone s)
        else .done 0 (s.setDcache n ((s.core n).dcache.map fun (y : CLine) => if y.addr == c.addr then { y with dirty := false } else y))

/-- A cached load or store of `size` bytes. -/
def cachedAccess (n a x size : Nat) (t : Touch) (v : Nat) (s : State) : Reach :=
  match dataLine n a x t s with
  | .done _ s =>
    match t with
    | .store =>
      .done 0 (s.setDcache n ((s.core n).dcache.map fun (y : CLine) =>
        if y.addr == x / 64 * 64 then { y with data := splice y.data (x % 64) (leBytes size v), dirty := true } else y))
    | _ => .done (match findLine (s.core n).dcache x with | some c => leAt c.data (x % 64) size | none => 0) s
  | r => r

/-- A request of master `m` for core `n` that no cache takes. -/
def plainAccess (n m a x size : Nat) (t : Touch) (v : Nat) (s : State) : Reach :=
  match coreAccess m x size (t == .store) (if t == .store then leBytes size v else []) (pmcCount n 7 1 s) with
  | .wait f => .stall f
  | .ans 0 d s => .done (leNat d) s
  | .ans k _ s => .fault (t.cause k) a s

/-! ### The management controller's map (R645, R652) -/

/-- A byte of the flash as R652 lays it out; a byte that holds nothing reads 0 (assumption 6). -/
def State.flashByte (s : State) (o : Nat) : Byte :=
  if o < 0x1800000 then s.mgt.slotA.getD o 0
  else if o < 0x3000000 then s.mgt.slotB.getD (o - 0x1800000) 0
  else if o < 0x3010000 then Mem.read1 s.mgt.copy0 (o - 0x3000000)
  else if o < 0x3020000 then Mem.read1 s.mgt.copy1 (o - 0x3010000)
  else match s.mgt.log.find? fun r => r.seq % 520192 == (o - 0x3020000) / 32 with
    | some r => r.bytes.getD (o % 32) 0
    | none => 0

/-- MC_HUBWIN as an access finds it: only the MC's firmware sets it, by a peripheral whose address is not given, so what it holds is a free
value (R645, assumption 38). -/
def freshWin (s : State) : State :=
  let x := s.freshNat 18
  { x.2 with mgt := { x.2.mgt with hubWin := x.1 } }

/-- An access of the MC. A load or fetch of SRAM bytes that fail parity is a fault (DESIGN CHOICE, assumption 38: R645 gives the parity and no
effect of it). -/
def mcAccess (a size : Nat) (t : Touch) (v : Nat) (s : State) : Reach :=
  let rom := a < 0x40000
  let sram := 0x10000000 ≤ a && a < 0x10080000
  let flash := 0x20000000 ≤ a && a < 0x24000000
  if sram then
    let mine (y : Nat) : Bool := mcMem a ≤ y && y < mcMem a + size
    if t == .store then .done 0 { s with mem := Mem.write s.mem (mcMem a) (leBytes size v), badMem := s.badMem.filter fun y => !mine y }
    else if s.badMem.any mine then .fault t.faultCause a s
    else .done (leNat (Mem.read s.mem (mcMem a) size)) s
  else if (rom || flash) && t != .store then
    .done (if rom then leNat (Mem.read s.mem (mcMem a) size) else leNat ((List.range size).map fun i => s.flashByte (a - 0x20000000 + i))) s
  else if t == .fetch then .fault t.faultCause a s
  else if 0x30000000 ≤ a && a < 0x30010000 then .peripheral
  else if 0x40000000 ≤ a && a < 0x80000000 then
    if s.ctl.corePower && s.mgt.xingUp then
      let s := freshWin s
      plainAccess 16 22 a (s.mgt.hubWin * 2 ^ 30 + (a - 0x40000000)) size t v s
    else .fault t.faultCause a s
  else .fault t.faultCause a s

/-! ### Loads and stores -/

/-- An enabled data watch that a load or store at `a` meets outside monitor mode (R422). -/
def State.dataWatch (s : State) (n a : Nat) (t : Touch) : Option Nat :=
  if n = 16 || s.status n 8 then none
  else (List.range 2).findSome? fun k =>
    let w := (s.sysReg n (0x1A + k)).toNat
    if bits w 2 30 == a / 4 && bit w (if t == .store then 1 else 0) then some (5 + k) else none

/-- A load or store of core `n`: alignment, apertures, caches (R416, R418). -/
def dataAccess (n a size : Nat) (t : Touch) (v : Nat) (s : State) : Reach :=
  if a % size ≠ 0 then .fault (if t == .store then 5 else 4) a s
  else if n = 16 then mcAccess a size t v s
  else match s.apertureFault n a t with
    | some c => .fault c a s
    | none =>
      let x := s.nocAddr n a
      if s.cacheable n a then cachedAccess n a x size t v s else plainAccess n n a x size t v s

/-- The NoC address of LL or SC, if it lies in the local banks or the channel RAM (R413). Where the aperture is not enabled its
NBASE still names the address (assumption 38). -/
def State.atomicAddr (s : State) (n a : Nat) : Option Nat :=
  let x := if n = 16 then (if 0x40000000 ≤ a && a < 0x80000000 then s.mgt.hubWin * 2 ^ 30 + (a - 0x40000000) else 0) else s.nocAddr n a
  if (0x1000000 ≤ x && x < 0x2000000) || (0x4000000 ≤ x && x < 0x4200000) then some x else none

/-- The checks that LL and SC share, and the line written back and dropped first (R413): the NoC address in `done`. -/
def atomicAccess (n a : Nat) (t : Touch) (s : State) : Reach :=
  let s := if n = 16 then freshWin s else s
  if a % 4 ≠ 0 then .fault (if t == .store then 5 else 4) a s
  else match s.atomicAddr n a with
    | none => .fault 0xF a s
    | some x =>
      if n = 16 then (if s.ctl.corePower && s.mgt.xingUp then .done x s else .fault t.faultCause a s)
      else match s.apertureFault n a t with
        | some c => .fault c a s
        | none =>
          let dirty := match findLine (s.core n).dcache x with | some c => c.dirty | none => false
          match (if dirty then cleanLine n a x true s else .done 0 s) with
          | .done _ s => .done x s
          | r => r

/-! ### Fetch -/

/-- The instruction at the pc is fetched (R416, R417). -/
def fetchAccess (n : Nat) (s : State) : Reach :=
  let a := (s.core n).pc.toNat
  if n = 16 then mcAccess a 4 .fetch 0 s
  else match s.apertureFault n a .fetch with
    | some c => .fault c a s
    | none =>
      let x := s.nocAddr n a
      if !s.cacheable n a then plainAccess n n a x 4 .fetch 0 s
      else match findLine (s.core n).icache x with
        | some c => if c.bad then fill n a x (s.setCore n { s.core n with icache := dropLine (s.core n).icache x }) else .done (leAt c.data (x % 64) 4) s
        | none => fill n a x s
where
  /-- A miss: the line is read and takes a way of its set. -/
  fill (n a x : Nat) (s : State) : Reach :=
    match coreAccess n (x / 64 * 64) 64 false [] (pmcCount n 4 1 s) with
    | .wait f => .stall f
    | .ans 0 d s =>
      let c := s.core n
      let l := match victimOf c.icache x s.freeCtr with | some v => dropLine c.icache v.addr | none => c.icache
      let k := if (victimOf c.icache x s.freeCtr).isSome then 1 else 0
      let s := { s with freeCtr := s.freeCtr + k }
      .done (leAt d (x % 64) 4) (s.setCore n { s.core n with icache := l ++ [⟨x / 64 * 64, d, false, false⟩] })
    | .ans k _ s => .fault (Touch.fetch.cause k) a s

/-! ### The frame of an instruction (R407, R418 to R422) -/

/-- A synchronous cause ends the instruction. -/
def raised (n cause addr : Nat) (s : State) : Host.Outcome State Fault Refusal := .next (except n cause addr (s.settle n))

/-- Core `n` begins an instruction: its wait in WFE is over, and STATUS.SS and the privilege state are noted (R422, R429, R578). -/
def beginInsn (n : Nat) (s : State) : State :=
  let t := endWait n s
  t.setCore n { t.core n with
    stepped := t.status n 9 && !t.status n 8
    ran := if t.status n 8 then 2 else if t.status n 2 then 1 else 0 }

/-- The next boundary of core `n` with the instruction word `w` at the pc: a debug cause, a watchdog expiry or an interrupt comes first;
then the fetch; then the word that it brings, ILLEGAL unless R407 permits it; then, if it is `w`, the instruction. Nothing happens in a
core that is held in reset, waits or is locked up, nor where another permitted word stands at the pc; a fetch that waits leaves its
request (assumption 39). -/
def uc (n w : Nat) (body : State → Host.Outcome State Fault Refusal) (s : State) : Host.Outcome State Fault Refusal :=
  if 16 < n || !s.executes n then .next s
  else
    match boundary n (endWait n s) with
    | some u => .next u
    | none =>
      match fetchAccess n (beginInsn n s) with
      | .done v u => if !ucPermitted v then raised n 1 0 u else if v = w then body u else .next s
      | .fault c a u => raised n c a u
      | .stall f => .next (s.await { f with fetch := true })
      | .peripheral => .next s

/-- An instruction completes at the pc given: it counts, and a core that its own store put in reset keeps its state. -/
def complete (n : Nat) (pc : Word) (s : State) : State :=
  if (s.core n).running then pmcCount n 2 1 ((s.settle n).setPc n pc) else s

/-- An instruction completes and the next one follows. -/
def retire (n : Nat) (s : State) : State := complete n ((s.core n).pc + 4) s

/-- A result in RD. -/
def result (n : Nat) (rd : BitVec 5) (w : Word) (s : State) : Host.Outcome State Fault Refusal := .next (retire n (s.setX n rd w))

/-- A memory access and what follows it; a watch of the word comes first. `s₀` is the state before the fetch, which a wait leaves. -/
def touch (n a : Nat) (t : Touch) (s₀ s : State) (acc : State → Reach) (k : Nat → State → State) : Host.Outcome State Fault Refusal :=
  match s.dataWatch n a t with
  | some c => .next (enterMonitor n c s)
  | none =>
    match acc s with
    | .done v u => .next (k v u)
    | .fault c x u => raised n c x u
    | .stall f => .next (s₀.await f)
    | .peripheral => .refused .mcPeripheral

/-- A load of `size` bytes with opcode `op`; with RD x0 the access is made and the data discarded (R410). -/
def load (n op size : Nat) (signed : Bool) (rd ra : BitVec 5) (imm : BitVec 16) (s : State) : Host.Outcome State Fault Refusal :=
  uc n (wordI op rd ra imm) (fun u =>
    let a := (u.ea n ra imm).toNat
    touch n a .load s u (dataAccess n a size .load 0) fun v u => retire n (u.setX n rd (extend size signed v))) s

/-- A store of the low `size` bytes of RD with opcode `op`. -/
def store (n op size : Nat) (rd ra : BitVec 5) (imm : BitVec 16) (s : State) : Host.Outcome State Fault Refusal :=
  uc n (wordI op rd ra imm) (fun u =>
    let a := (u.ea n ra imm).toNat
    touch n a .store s u (dataAccess n a size .store ((u.x n rd).toNat % 2 ^ (8 * size))) fun _ u => retire n u) s

/-- A taken branch or jump to a target; `back` when it is a B-format branch or JAL with a negative OFF (R567). -/
def takeJump (n : Nat) (target : Word) (back : Bool) (s : State) : State :=
  let s := if back then takeRun n (s.core n).pc (s.status n 2 || s.status n 8) s else endRun n s
  complete n target (pmcCount n 3 1 s)

/-- A branch (R406, R407) with opcode `op`. -/
def branch (n op : Nat) (ra rb : BitVec 5) (off : BitVec 16) (c : State → Bool) (s : State) : Host.Outcome State Fault Refusal :=
  uc n (wordB op ra rb off) (fun u =>
    if c u then .next (takeJump n (u.branchTarget n off) off.msb u)
    else
      let mine := match (u.core n).run with | some r => r.pc == (u.core n).pc | none => false
      .next (retire n (if mine then endRun n u else u))) s

/-- Instructions that user mode may not execute raise PRIV (R411, R417). -/
def privileged (n : Nat) (body : State → Host.Outcome State Fault Refusal) (s : State) : Host.Outcome State Fault Refusal :=
  if s.status n 2 then body s else raised n 2 0 s

/-- Line operation `k` of CACHE (R417): the checks of R416 as a load makes them, then the line of a cacheable address; the MC has no
aperture and nothing to do. -/
def cacheLine (n k : Nat) (user : Bool) (ra : BitVec 5) (imm : BitVec 16) (op : Nat → Nat → State → Reach) (s : State) :
    Host.Outcome State Fault Refusal :=
  uc n (wordI 0x33 (BitVec.ofNat 5 k) ra imm) (fun u =>
    if !user && !u.status n 2 then raised n 2 0 u
    else if n = 16 then .next (retire n u)
    else
      let a := (u.ea n ra imm).toNat
      match u.apertureFault n a .load with
      | some c => raised n c a u
      | none =>
        match (if u.cacheable n a then op a (u.nocAddr n a) u else .done 0 u) with
        | .done _ v => .next (retire n v)
        | .fault c x v => raised n c x v
        | .stall f => .next (s.await f)
        | .peripheral => .next s) s

/-- Every line of the data cache written back if dirty, one after the other. -/
def cleanAll (n : Nat) (drop : Bool) : List CLine → State → Reach
  | [], s => .done 0 s
  | c :: r, s =>
    match cleanLine n 0 c.addr drop s with
    | .done _ s => cleanAll n drop r s
    | x => x

/-- CACHE operation `k` on all lines. -/
def cacheAll (n k : Nat) (ra : BitVec 5) (imm : BitVec 16) (op : State → Reach) (s : State) : Host.Outcome State Fault Refusal :=
  uc n (wordI 0x33 (BitVec.ofNat 5 k) ra imm) (privileged n fun u =>
    match op u with
    | .done _ v => .next (retire n v)
    | .fault c x v => raised n c x v
    | .stall f => .next (s.await f)
    | .peripheral => .next s) s

end Sys2Proof.Machine
end

