-- ==== Sys2Proof/Machine/Uc32.lean ====
section
/-! DEFINITION. The UC32 instructions (R403 to R424, R429): each command is the next boundary of core `n` with that instruction at the
pc (assumption 39). -/
namespace Sys2Proof.Machine

/-! ### Arithmetic (R408, R409) -/

/-- ALU function `fn` of RA and RB into RD. -/
def alu (n fn : Nat) (rd ra rb : BitVec 5) (f : Word → Word → Word) (s : State) : Host.Outcome State Fault Refusal :=
  uc n (wordR 0 rd ra rb fn) (fun u => result n rd (f (u.x n ra) (u.x n rb)) u) s

/-- A function of RA and the immediate into RD, with opcode `op`. -/
def aluImm (n op : Nat) (rd ra : BitVec 5) (imm : BitVec 16) (f : Word → Word) (s : State) : Host.Outcome State Fault Refusal :=
  uc n (wordI op rd ra imm) (fun u => result n rd (f (u.x n ra)) u) s

/-- ADD: RA + RB. -/
def execUcAdd (n : Nat) (rd ra rb : BitVec 5) (s : State) : Host.Outcome State Fault Refusal :=
  alu n 0x000 rd ra rb (fun a b => a + b) s

/-- SUB: RA − RB. -/
def execUcSub (n : Nat) (rd ra rb : BitVec 5) (s : State) : Host.Outcome State Fault Refusal :=
  alu n 0x001 rd ra rb (fun a b => a - b) s

/-- AND: RA and RB. -/
def execUcAnd (n : Nat) (rd ra rb : BitVec 5) (s : State) : Host.Outcome State Fault Refusal :=
  alu n 0x002 rd ra rb (fun a b => a &&& b) s

/-- OR: RA or RB. -/
def execUcOr (n : Nat) (rd ra rb : BitVec 5) (s : State) : Host.Outcome State Fault Refusal :=
  alu n 0x003 rd ra rb (fun a b => a ||| b) s

/-- XOR: RA xor RB. -/
def execUcXor (n : Nat) (rd ra rb : BitVec 5) (s : State) : Host.Outcome State Fault Refusal :=
  alu n 0x004 rd ra rb (fun a b => a ^^^ b) s

/-- SLL: RA << RB[4:0]. -/
def execUcSll (n : Nat) (rd ra rb : BitVec 5) (s : State) : Host.Outcome State Fault Refusal :=
  alu n 0x005 rd ra rb (fun a b => shiftLeft a b.toNat) s

/-- SRL: logical right shift. -/
def execUcSrl (n : Nat) (rd ra rb : BitVec 5) (s : State) : Host.Outcome State Fault Refusal :=
  alu n 0x006 rd ra rb (fun a b => shiftRight a b.toNat) s

/-- SRA: arithmetic right shift. -/
def execUcSra (n : Nat) (rd ra rb : BitVec 5) (s : State) : Host.Outcome State Fault Refusal :=
  alu n 0x007 rd ra rb (fun a b => shiftArith a b.toNat) s

/-- SLT: 1 if RA < RB signed. -/
def execUcSlt (n : Nat) (rd ra rb : BitVec 5) (s : State) : Host.Outcome State Fault Refusal :=
  alu n 0x008 rd ra rb (fun a b => truth (lessS a b)) s

/-- SLTU: 1 if RA < RB unsigned. -/
def execUcSltu (n : Nat) (rd ra rb : BitVec 5) (s : State) : Host.Outcome State Fault Refusal :=
  alu n 0x009 rd ra rb (fun a b => truth (lessU a b)) s

/-- MUL: bits [31:0] of the product. -/
def execUcMul (n : Nat) (rd ra rb : BitVec 5) (s : State) : Host.Outcome State Fault Refusal :=
  alu n 0x010 rd ra rb (fun a b => mulLow a b) s

/-- MULH: bits [63:32] of the signed product. -/
def execUcMulh (n : Nat) (rd ra rb : BitVec 5) (s : State) : Host.Outcome State Fault Refusal :=
  alu n 0x011 rd ra rb (fun a b => mulHighS a b) s

/-- MULHU: bits [63:32] of the unsigned product. -/
def execUcMulhu (n : Nat) (rd ra rb : BitVec 5) (s : State) : Host.Outcome State Fault Refusal :=
  alu n 0x012 rd ra rb (fun a b => mulHighU a b) s

/-- DIV: signed quotient. -/
def execUcDiv (n : Nat) (rd ra rb : BitVec 5) (s : State) : Host.Outcome State Fault Refusal :=
  alu n 0x014 rd ra rb (fun a b => quotS a b) s

/-- DIVU: unsigned quotient. -/
def execUcDivu (n : Nat) (rd ra rb : BitVec 5) (s : State) : Host.Outcome State Fault Refusal :=
  alu n 0x015 rd ra rb (fun a b => quotU a b) s

/-- REM: signed remainder. -/
def execUcRem (n : Nat) (rd ra rb : BitVec 5) (s : State) : Host.Outcome State Fault Refusal :=
  alu n 0x016 rd ra rb (fun a b => remS a b) s

/-- REMU: unsigned remainder. -/
def execUcRemu (n : Nat) (rd ra rb : BitVec 5) (s : State) : Host.Outcome State Fault Refusal :=
  alu n 0x017 rd ra rb (fun a b => remU a b) s

/-! ### Immediates (R407) -/

/-- ADDI: RA + sext(IMM). -/
def execUcAddi (n : Nat) (rd ra : BitVec 5) (imm : BitVec 16) (s : State) : Host.Outcome State Fault Refusal :=
  aluImm n 0x01 rd ra imm (fun a => a + sext imm) s

/-- ANDI: RA and zext(IMM). -/
def execUcAndi (n : Nat) (rd ra : BitVec 5) (imm : BitVec 16) (s : State) : Host.Outcome State Fault Refusal :=
  aluImm n 0x02 rd ra imm (fun a => a &&& zext imm) s

/-- ORI: RA or zext(IMM). -/
def execUcOri (n : Nat) (rd ra : BitVec 5) (imm : BitVec 16) (s : State) : Host.Outcome State Fault Refusal :=
  aluImm n 0x03 rd ra imm (fun a => a ||| zext imm) s

/-- XORI: RA xor zext(IMM). -/
def execUcXori (n : Nat) (rd ra : BitVec 5) (imm : BitVec 16) (s : State) : Host.Outcome State Fault Refusal :=
  aluImm n 0x04 rd ra imm (fun a => a ^^^ zext imm) s

/-- SLTI: 1 if RA < sext(IMM) signed. -/
def execUcSlti (n : Nat) (rd ra : BitVec 5) (imm : BitVec 16) (s : State) : Host.Outcome State Fault Refusal :=
  aluImm n 0x05 rd ra imm (fun a => truth (lessS a (sext imm))) s

/-- SLTIU: 1 if RA < sext(IMM) unsigned. -/
def execUcSltiu (n : Nat) (rd ra : BitVec 5) (imm : BitVec 16) (s : State) : Host.Outcome State Fault Refusal :=
  aluImm n 0x06 rd ra imm (fun a => truth (lessU a (sext imm))) s

/-- SLLI: RA << IMM[4:0]; IMM[15:5] 0. -/
def execUcSlli (n : Nat) (rd ra : BitVec 5) (imm : BitVec 16) (s : State) : Host.Outcome State Fault Refusal :=
  aluImm n 0x07 rd ra imm (fun a => shiftLeft a imm.toNat) s

/-- SRLI: logical right shift; IMM[15:5] 0. -/
def execUcSrli (n : Nat) (rd ra : BitVec 5) (imm : BitVec 16) (s : State) : Host.Outcome State Fault Refusal :=
  aluImm n 0x08 rd ra imm (fun a => shiftRight a imm.toNat) s

/-- SRAI: arithmetic right shift; IMM[15:5] 0. -/
def execUcSrai (n : Nat) (rd ra : BitVec 5) (imm : BitVec 16) (s : State) : Host.Outcome State Fault Refusal :=
  aluImm n 0x09 rd ra imm (fun a => shiftArith a imm.toNat) s

/-- LUI: IMM << 16; RA 0. -/
def execUcLui (n : Nat) (rd z : BitVec 5) (imm : BitVec 16) (s : State) : Host.Outcome State Fault Refusal :=
  uc n (wordI 0x0A rd z imm) (fun u => result n rd (zext imm <<< 16) u) s

/-- AUIPC: pc + (IMM << 16); RA 0. -/
def execUcAuipc (n : Nat) (rd z : BitVec 5) (imm : BitVec 16) (s : State) : Host.Outcome State Fault Refusal :=
  uc n (wordI 0x0B rd z imm) (fun u => result n rd ((u.core n).pc + zext imm <<< 16) u) s

/-! ### Loads and stores (R407, R410) -/

/-- LB. -/
def execUcLb (n : Nat) (rd ra : BitVec 5) (imm : BitVec 16) (s : State) : Host.Outcome State Fault Refusal := load n 0x10 1 true rd ra imm s

/-- LBU. -/
def execUcLbu (n : Nat) (rd ra : BitVec 5) (imm : BitVec 16) (s : State) : Host.Outcome State Fault Refusal := load n 0x11 1 false rd ra imm s

/-- LH. -/
def execUcLh (n : Nat) (rd ra : BitVec 5) (imm : BitVec 16) (s : State) : Host.Outcome State Fault Refusal := load n 0x12 2 true rd ra imm s

/-- LHU. -/
def execUcLhu (n : Nat) (rd ra : BitVec 5) (imm : BitVec 16) (s : State) : Host.Outcome State Fault Refusal := load n 0x13 2 false rd ra imm s

/-- LW. -/
def execUcLw (n : Nat) (rd ra : BitVec 5) (imm : BitVec 16) (s : State) : Host.Outcome State Fault Refusal := load n 0x14 4 false rd ra imm s

/-- SB. -/
def execUcSb (n : Nat) (rd ra : BitVec 5) (imm : BitVec 16) (s : State) : Host.Outcome State Fault Refusal := store n 0x18 1 rd ra imm s

/-- SH. -/
def execUcSh (n : Nat) (rd ra : BitVec 5) (imm : BitVec 16) (s : State) : Host.Outcome State Fault Refusal := store n 0x19 2 rd ra imm s

/-- SW. -/
def execUcSw (n : Nat) (rd ra : BitVec 5) (imm : BitVec 16) (s : State) : Host.Outcome State Fault Refusal := store n 0x1A 4 rd ra imm s

/-- The read of LL at the memory, and the reservation of its granule (R413). -/
def linkedRead (n a : Nat) (s : State) : Reach :=
  match atomicAccess n a .load s with
  | .done x s =>
    match plainAccess n (if n = 16 then 22 else n) a x 4 .load 0 s with
    | .done v s => .done v (s.setCore n { s.core n with resv := some (x / 64) })
    | r => r
  | r => r

/-- LL; IMM 0. -/
def execUcLl (n : Nat) (rd ra : BitVec 5) (z : BitVec 16) (s : State) : Host.Outcome State Fault Refusal :=
  uc n (wordI 0x1C rd ra z) (fun u =>
    let a := (u.x n ra).toNat
    touch n a .load s u (linkedRead n a) fun v u => retire n (u.setX n rd (BitVec.ofNat 32 v))) s

/-- What the memory does with an SC at address `x`: the write when the reservation holds, else nothing; a core without write permission is
denied either way (R413, R500). -/
def serveCond (m x : Nat) (holds : Bool) (v : Word) (s : State) : Nat × List Byte × State :=
  if holds then serve m x 4 true (leBytes 4 v.toNat) [] s
  else if x < 0x4000000 && !s.permitted m (x % 0x1000000) true then (4, [], denied m (x % 0x1000000) true s)
  else (0, [], s)

/-- The request of SC to the memory, which writes only under a valid reservation of the granule; every SC clears the reservation (R413). 1
on failure. -/
def condWrite (n a : Nat) (v : Word) (s : State) : Reach :=
  match atomicAccess n a .store s with
  | .done x s =>
    let m := if n = 16 then 22 else n
    let holds := (s.core n).resv = some (x / 64)
    match coreVia m x 4 true (serveCond m x holds v) (pmcCount n 7 1 s) with
    | .wait f => .stall f
    | .ans 0 _ s => if holds then .done 0 (s.dropResv n) else .done 1 (pmcCount n 0xA 1 (s.dropResv n))
    | .ans k _ s => .fault (Touch.store.cause k) a s
  | r => r

/-- SC: 0 into RD on success, 1 on failure; FN 0. -/
def execUcSc (n : Nat) (rd ra rb : BitVec 5) (z : BitVec 11) (s : State) : Host.Outcome State Fault Refusal :=
  uc n (wordR 0x1D rd ra rb z.toNat) (fun u =>
    let a := (u.x n ra).toNat
    touch n a .store s u (condWrite n a (u.x n rb)) fun v u => retire n (u.setX n rd (BitVec.ofNat 32 v))) s

/-! ### Branches and jumps (R406, R407) -/

/-- BEQ: branch if RA = RB. -/
def execUcBeq (n : Nat) (ra rb : BitVec 5) (off : BitVec 16) (s : State) : Host.Outcome State Fault Refusal :=
  branch n 0x20 ra rb off (fun u => u.x n ra == u.x n rb) s

/-- BNE: branch if RA ≠ RB. -/
def execUcBne (n : Nat) (ra rb : BitVec 5) (off : BitVec 16) (s : State) : Host.Outcome State Fault Refusal :=
  branch n 0x21 ra rb off (fun u => u.x n ra != u.x n rb) s

/-- BLT: branch if RA < RB, signed. -/
def execUcBlt (n : Nat) (ra rb : BitVec 5) (off : BitVec 16) (s : State) : Host.Outcome State Fault Refusal :=
  branch n 0x22 ra rb off (fun u => lessS (u.x n ra) (u.x n rb)) s

/-- BGE: branch if RA ≥ RB, signed. -/
def execUcBge (n : Nat) (ra rb : BitVec 5) (off : BitVec 16) (s : State) : Host.Outcome State Fault Refusal :=
  branch n 0x23 ra rb off (fun u => !lessS (u.x n ra) (u.x n rb)) s

/-- BLTU: branch if RA < RB, unsigned. -/
def execUcBltu (n : Nat) (ra rb : BitVec 5) (off : BitVec 16) (s : State) : Host.Outcome State Fault Refusal :=
  branch n 0x24 ra rb off (fun u => lessU (u.x n ra) (u.x n rb)) s

/-- BGEU: branch if RA ≥ RB, unsigned. -/
def execUcBgeu (n : Nat) (ra rb : BitVec 5) (off : BitVec 16) (s : State) : Host.Outcome State Fault Refusal :=
  branch n 0x25 ra rb off (fun u => !lessU (u.x n ra) (u.x n rb)) s

/-- JAL: pc + 4 into x1, and a jump. -/
def execUcJal (n : Nat) (off : BitVec 26) (s : State) : Host.Outcome State Fault Refusal :=
  uc n (wordJ 0x28 off) (fun u => .next (takeJump n (u.jumpTarget n off) off.msb (u.setX n 1 ((u.core n).pc + 4)))) s

/-- JALR: the target is read before RD takes pc + 4. -/
def execUcJalr (n : Nat) (rd ra : BitVec 5) (imm : BitVec 16) (s : State) : Host.Outcome State Fault Refusal :=
  uc n (wordI 0x29 rd ra imm) (fun u => .next (takeJump n (u.ea n ra imm &&& 0xFFFFFFFC) false (u.setX n rd ((u.core n).pc + 4)))) s

/-! ### System (R411, R415, R418 to R423, R429) -/

/-- SYSCALL. -/
def execUcSyscall (n : Nat) (z : BitVec 15) (s : State) : Host.Outcome State Fault Refusal :=
  uc n (wordSys z 0) (raised n 0xC 0) s

/-- BREAK: monitor entry while BRKMON is 1, else the exception; the MC has no BRKMON. In monitor mode BRKMON 1 leaves it without
effect (assumption 40). -/
def execUcBreak (n : Nat) (z : BitVec 15) (s : State) : Host.Outcome State Fault Refusal :=
  uc n (wordSys z 1) (fun u =>
    if n < 16 && u.flag (F.TCC_CTL_BRKMON n) then .next (if u.status n 8 then retire n u else enterMonitor n 2 u)
    else raised n 0xD 0 u) s

/-- ERET. -/
def execUcEret (n : Nat) (z : BitVec 15) (s : State) : Host.Outcome State Fault Refusal :=
  uc n (wordSys z 2) (privileged n fun u => .next (pmcCount n 2 1 (returnException n u))) s

/-- MRET; the MC has no monitor mode, and the instruction is illegal there (assumption 40). -/
def execUcMret (n : Nat) (z : BitVec 15) (s : State) : Host.Outcome State Fault Refusal :=
  uc n (wordSys z 3) (fun u => if n = 16 then raised n 1 0 u else privileged n (fun u => .next (pmcCount n 2 1 (returnMonitor n u))) u) s

/-- WFE: it completes at once when what it waits for is present (R429). -/
def execUcWfe (n : Nat) (z : BitVec 15) (s : State) : Host.Outcome State Fault Refusal :=
  uc n (wordSys z 4) (privileged n fun u =>
    let v := retire n u
    .next (if u.wfeDone n then v else v.setCore n { v.core n with wfe := true })) s

/-- FENCE: every access of this model has its response when its instruction ends. -/
def execUcFence (n : Nat) (z : BitVec 15) (s : State) : Host.Outcome State Fault Refusal :=
  uc n (wordSys z 5) (fun u => .next (retire n u)) s

/-- MFS: RA 0, IMM[15:12] 0. -/
def execUcMfs (n : Nat) (rd z : BitVec 5) (imm : BitVec 16) (s : State) : Host.Outcome State Fault Refusal :=
  uc n (wordI 0x31 rd z imm) (privileged n fun u =>
    if sysListed n imm.toNat then (let x := readSys n imm.toNat u; result n rd x.1 x.2) else raised n 1 0 u) s

/-- MTS: RD 0, IMM[15:12] 0. -/
def execUcMts (n : Nat) (z ra : BitVec 5) (imm : BitVec 16) (s : State) : Host.Outcome State Fault Refusal :=
  uc n (wordI 0x32 z ra imm) (privileged n fun u =>
    if sysListed n imm.toNat && !sysReadOnly imm.toNat then .next (retire n (writeSys n imm.toNat (u.x n ra) u)) else raised n 1 0 u) s

/-! ### CACHE (R417) -/

/-- IINV. -/
def execUcIinv (n : Nat) (ra : BitVec 5) (imm : BitVec 16) (s : State) : Host.Outcome State Fault Refusal :=
  cacheLine n 0 true ra imm (fun _ x u => .done 0 (u.setCore n { u.core n with icache := dropLine (u.core n).icache x })) s

/-- DCLEAN. -/
def execUcDclean (n : Nat) (ra : BitVec 5) (imm : BitVec 16) (s : State) : Host.Outcome State Fault Refusal :=
  cacheLine n 1 true ra imm (fun a x u => cleanLine n a x false u) s

/-- DINV: not in user mode. -/
def execUcDinv (n : Nat) (ra : BitVec 5) (imm : BitVec 16) (s : State) : Host.Outcome State Fault Refusal :=
  cacheLine n 2 false ra imm (fun _ x u => .done 0 (u.setDcache n (dropLine (u.core n).dcache x))) s

/-- DFLUSH. -/
def execUcDflush (n : Nat) (ra : BitVec 5) (imm : BitVec 16) (s : State) : Host.Outcome State Fault Refusal :=
  cacheLine n 3 true ra imm (fun a x u => cleanLine n a x true u) s

/-- IINV all. -/
def execUcIinvAll (n : Nat) (ra : BitVec 5) (imm : BitVec 16) (s : State) : Host.Outcome State Fault Refusal :=
  cacheAll n 8 ra imm (fun u => .done 0 (u.setCore n { u.core n with icache := [] })) s

/-- DCLEAN all. -/
def execUcDcleanAll (n : Nat) (ra : BitVec 5) (imm : BitVec 16) (s : State) : Host.Outcome State Fault Refusal :=
  cacheAll n 9 ra imm (fun u => cleanAll n false (u.core n).dcache u) s

/-- DINV all. -/
def execUcDinvAll (n : Nat) (ra : BitVec 5) (imm : BitVec 16) (s : State) : Host.Outcome State Fault Refusal :=
  cacheAll n 10 ra imm (fun u => .done 0 (u.setDcache n [])) s

/-- DFLUSH all. -/
def execUcDflushAll (n : Nat) (ra : BitVec 5) (imm : BitVec 16) (s : State) : Host.Outcome State Fault Refusal :=
  cacheAll n 11 ra imm (fun u => cleanAll n true (u.core n).dcache u) s

end Sys2Proof.Machine
end

