-- ==== Sys2Proof/Machine/Dispatch.lean ====
section
/-! DEFINITION. The dispatch: one arm per command, each one direct call of its meaning. -/
namespace Sys2Proof.Machine

open Sys2Proof

/-- The effect of a command on everything but the queue. -/
def exec (i : Instr) (s : State) : Host.Outcome State Fault Refusal :=
  match i with
  | .registerWrite m addr size d => Sys2Proof.Machine.execRegisterWrite m addr size d s
  | .registerRcRead m addr size => Sys2Proof.Machine.execRegisterRcRead m addr size s
  | .inputPowerRise => Sys2Proof.Machine.execInputPowerRise s
  | .inputPowerLoss => Sys2Proof.Machine.execInputPowerLoss s
  | .coreDomainOff => Sys2Proof.Machine.execCoreDomainOff s
  | .holdupSpent => Sys2Proof.Machine.execHoldupSpent s
  | .railFault rail => Sys2Proof.Machine.execRailFault rail s
  | .clockLoss dom => Sys2Proof.Machine.execClockLoss dom s
  | .stepPllLock => Sys2Proof.Machine.execStepPllLock s
  | .mgtIdleFrameSend hubEnd => Sys2Proof.Machine.execMgtIdleFrameSend hubEnd s
  | .mgtCrossingDown => Sys2Proof.Machine.execMgtCrossingDown s
  | .mgtCrossingUp => Sys2Proof.Machine.execMgtCrossingUp s
  | .mcPowerCycle => Sys2Proof.Machine.execMcPowerCycle s
  | .streamData msg => Sys2Proof.Machine.execStreamData msg s
  | .streamAcknowledge msg => Sys2Proof.Machine.execStreamAcknowledge msg s
  | .streamResend => Sys2Proof.Machine.execStreamResend s
  | .claimTimeout => Sys2Proof.Machine.execClaimTimeout s
  | .grain ups => Sys2Proof.Machine.execGrain ups s
  | .hbmReadDataArrive mem port ecc => Sys2Proof.Machine.execHbmReadDataArrive mem port ecc s
  | .hbmEccRetry mem port ecc => Sys2Proof.Machine.execHbmEccRetry mem port ecc s
  | .hbmWriteDrain ctl count => Sys2Proof.Machine.execHbmWriteDrain ctl count s
  | .hbmRefresh ctl bank => Sys2Proof.Machine.execHbmRefresh ctl bank s
  | .hbmTempRead t0 t1 t2 t3 => Sys2Proof.Machine.execHbmTempRead t0 t1 t2 t3 s
  | .scrubRead stack offset ecc => Sys2Proof.Machine.execScrubRead stack offset ecc s
  | .scrubPassEnd stack => Sys2Proof.Machine.execScrubPassEnd stack s
  | .sfbClkWrite m d => Sys2Proof.Machine.execSfbClkWrite m d s
  | .holdReqHost m d => Sys2Proof.Machine.execHoldReqHost m d s
  | .holdReqDebug m d => Sys2Proof.Machine.execHoldReqDebug m d s
  | .holdClearDesign m d => Sys2Proof.Machine.execHoldClearDesign m d s
  | .holdClearTrigger m d => Sys2Proof.Machine.execHoldClearTrigger m d s
  | .holdLimitExceeded => Sys2Proof.Machine.execHoldLimitExceeded s
  | .throttleChange => Sys2Proof.Machine.execThrottleChange s
  | .thermalSample x => Sys2Proof.Machine.execThermalSample x s
  | .throttleCoolDown => Sys2Proof.Machine.execThrottleCoolDown s
  | .thermalShutdown => Sys2Proof.Machine.execThermalShutdown s
  | .loadBegin msg => Sys2Proof.Machine.execLoadBegin msg s
  | .loadStaged msg => Sys2Proof.Machine.execLoadStaged msg s
  | .loadAbort msg => Sys2Proof.Machine.execLoadAbort msg s
  | .unload msg => Sys2Proof.Machine.execUnload msg s
  | .stageBegin msg => Sys2Proof.Machine.execStageBegin msg s
  | .stageDelete msg => Sys2Proof.Machine.execStageDelete msg s
  | .loadQuery msg => Sys2Proof.Machine.execLoadQuery msg s
  | .loadComplete => Sys2Proof.Machine.execLoadComplete s
  | .loadRefuse => Sys2Proof.Machine.execLoadRefuse s
  | .loadStall => Sys2Proof.Machine.execLoadStall s
  | .stageComplete => Sys2Proof.Machine.execStageComplete s
  | .releaseStage => Sys2Proof.Machine.execReleaseStage s
  | .snap msg => Sys2Proof.Machine.execSnap msg s
  | .snapDiscard msg => Sys2Proof.Machine.execSnapDiscard msg s
  | .checkpoint msg => Sys2Proof.Machine.execCheckpoint msg s
  | .restoreBegin msg => Sys2Proof.Machine.execRestoreBegin msg s
  | .snapQuery msg => Sys2Proof.Machine.execSnapQuery msg s
  | .snpReq m d => Sys2Proof.Machine.execSnpReq m d s
  | .priorityCopy line bad => Sys2Proof.Machine.execPriorityCopy line bad s
  | .undoBufferGuardClear ctl => Sys2Proof.Machine.execUndoBufferGuardClear ctl s
  | .snapshotKept => Sys2Proof.Machine.execSnapshotKept s
  | .checkpointStall => Sys2Proof.Machine.execCheckpointStall s
  | .restoreComplete => Sys2Proof.Machine.execRestoreComplete s
  | .restoreRefuse => Sys2Proof.Machine.execRestoreRefuse s
  | .restoreStall => Sys2Proof.Machine.execRestoreStall s
  | .acqArm msg => Sys2Proof.Machine.execAcqArm msg s
  | .acqStop msg => Sys2Proof.Machine.execAcqStop msg s
  | .acqSetload msg => Sys2Proof.Machine.execAcqSetload msg s
  | .tunRead msg => Sys2Proof.Machine.execTunRead msg s
  | .acqQuery msg => Sys2Proof.Machine.execAcqQuery msg s
  | .acqCal msg => Sys2Proof.Machine.execAcqCal msg s
  | .tunFree msg => Sys2Proof.Machine.execTunFree msg s
  | .acqCtlArm m d => Sys2Proof.Machine.execAcqCtlArm m d s
  | .acqCtlStop m d => Sys2Proof.Machine.execAcqCtlStop m d s
  | .captureStart => Sys2Proof.Machine.execCaptureStart s
  | .seqGoComplete => Sys2Proof.Machine.execSeqGoComplete s
  | .trgAutoFire => Sys2Proof.Machine.execTrgAutoFire s
  | .leagueTriggerApply => Sys2Proof.Machine.execLeagueTriggerApply s
  | .acqStopCycle => Sys2Proof.Machine.execAcqStopCycle s
  | .calComplete rs upAlofs => Sys2Proof.Machine.execCalComplete rs upAlofs s
  | .alignWrite m k d => Sys2Proof.Machine.execAlignWrite m k d s
  | .laneDetectPoll port term => Sys2Proof.Machine.execLaneDetectPoll port term s
  | .trainComplete port x trips => Sys2Proof.Machine.execTrainComplete port x trips s
  | .lockComplete port => Sys2Proof.Machine.execLockComplete port s
  | .stageTimeout port => Sys2Proof.Machine.execStageTimeout port s
  | .laneLost port => Sys2Proof.Machine.execLaneLost port s
  | .linkWordIssue port group => Sys2Proof.Machine.execLinkWordIssue port group s
  | .alignMarkerSend port group => Sys2Proof.Machine.execAlignMarkerSend port group s
  | .linkWordReceive port group low high clock => Sys2Proof.Machine.execLinkWordReceive port group low high clock s
  | .lnkRetrain m port d => Sys2Proof.Machine.execLnkRetrain m port d s
  | .lnkEnable m port d => Sys2Proof.Machine.execLnkEnable m port d s
  | .eyeScanStart m port d => Sys2Proof.Machine.execEyeScanStart m port d s
  | .eyeScanEnd port errs => Sys2Proof.Machine.execEyeScanEnd port errs s
  | .laneErrInterval port => Sys2Proof.Machine.execLaneErrInterval port s
  | .lgeForm msg => Sys2Proof.Machine.execLgeForm msg s
  | .lgeCtlForm m d => Sys2Proof.Machine.execLgeCtlForm m d s
  | .formTokenSend => Sys2Proof.Machine.execFormTokenSend s
  | .tokenForm port ready gradebad wrong => Sys2Proof.Machine.execTokenForm port ready gradebad wrong s
  | .tokenFormed port h mhz => Sys2Proof.Machine.execTokenFormed port h mhz s
  | .tbsyncSend => Sys2Proof.Machine.execTbsyncSend s
  | .tokenTbsync port t => Sys2Proof.Machine.execTokenTbsync port t s
  | .formationTimeout => Sys2Proof.Machine.execFormationTimeout s
  | .reflock => Sys2Proof.Machine.execReflock s
  | .tokenVote port vseq slots => Sys2Proof.Machine.execTokenVote port vseq slots s
  | .tokenCycle port tok => Sys2Proof.Machine.execTokenCycle port tok s
  | .tokenStart port gs last => Sys2Proof.Machine.execTokenStart port gs last s
  | .runStart => Sys2Proof.Machine.execRunStart s
  | .tokenRate port mhz => Sys2Proof.Machine.execTokenRate port mhz s
  | .timeSyncSend => Sys2Proof.Machine.execTimeSyncSend s
  | .timeFollow port f => Sys2Proof.Machine.execTimeFollow port f s
  | .ptpMessage hport p => Sys2Proof.Machine.execPtpMessage hport p s
  | .ptpDelayReq hport => Sys2Proof.Machine.execPtpDelayReq hport s
  | .timHoldover => Sys2Proof.Machine.execTimHoldover s
  | .timSet msg => Sys2Proof.Machine.execTimSet msg s
  | .timCtlSet m d => Sys2Proof.Machine.execTimCtlSet m d s
  | .lgeQuery msg => Sys2Proof.Machine.execLgeQuery msg s
  | .timQuery msg => Sys2Proof.Machine.execTimQuery msg s
  | .ucAdd n rd ra rb => Sys2Proof.Machine.execUcAdd n rd ra rb s
  | .ucSub n rd ra rb => Sys2Proof.Machine.execUcSub n rd ra rb s
  | .ucAnd n rd ra rb => Sys2Proof.Machine.execUcAnd n rd ra rb s
  | .ucOr n rd ra rb => Sys2Proof.Machine.execUcOr n rd ra rb s
  | .ucXor n rd ra rb => Sys2Proof.Machine.execUcXor n rd ra rb s
  | .ucSll n rd ra rb => Sys2Proof.Machine.execUcSll n rd ra rb s
  | .ucSrl n rd ra rb => Sys2Proof.Machine.execUcSrl n rd ra rb s
  | .ucSra n rd ra rb => Sys2Proof.Machine.execUcSra n rd ra rb s
  | .ucSlt n rd ra rb => Sys2Proof.Machine.execUcSlt n rd ra rb s
  | .ucSltu n rd ra rb => Sys2Proof.Machine.execUcSltu n rd ra rb s
  | .ucMul n rd ra rb => Sys2Proof.Machine.execUcMul n rd ra rb s
  | .ucMulh n rd ra rb => Sys2Proof.Machine.execUcMulh n rd ra rb s
  | .ucMulhu n rd ra rb => Sys2Proof.Machine.execUcMulhu n rd ra rb s
  | .ucDiv n rd ra rb => Sys2Proof.Machine.execUcDiv n rd ra rb s
  | .ucDivu n rd ra rb => Sys2Proof.Machine.execUcDivu n rd ra rb s
  | .ucRem n rd ra rb => Sys2Proof.Machine.execUcRem n rd ra rb s
  | .ucRemu n rd ra rb => Sys2Proof.Machine.execUcRemu n rd ra rb s
  | .ucAddi n rd ra imm => Sys2Proof.Machine.execUcAddi n rd ra imm s
  | .ucAndi n rd ra imm => Sys2Proof.Machine.execUcAndi n rd ra imm s
  | .ucOri n rd ra imm => Sys2Proof.Machine.execUcOri n rd ra imm s
  | .ucXori n rd ra imm => Sys2Proof.Machine.execUcXori n rd ra imm s
  | .ucSlti n rd ra imm => Sys2Proof.Machine.execUcSlti n rd ra imm s
  | .ucSltiu n rd ra imm => Sys2Proof.Machine.execUcSltiu n rd ra imm s
  | .ucSlli n rd ra imm => Sys2Proof.Machine.execUcSlli n rd ra imm s
  | .ucSrli n rd ra imm => Sys2Proof.Machine.execUcSrli n rd ra imm s
  | .ucSrai n rd ra imm => Sys2Proof.Machine.execUcSrai n rd ra imm s
  | .ucLui n rd z imm => Sys2Proof.Machine.execUcLui n rd z imm s
  | .ucAuipc n rd z imm => Sys2Proof.Machine.execUcAuipc n rd z imm s
  | .ucLb n rd ra imm => Sys2Proof.Machine.execUcLb n rd ra imm s
  | .ucLbu n rd ra imm => Sys2Proof.Machine.execUcLbu n rd ra imm s
  | .ucLh n rd ra imm => Sys2Proof.Machine.execUcLh n rd ra imm s
  | .ucLhu n rd ra imm => Sys2Proof.Machine.execUcLhu n rd ra imm s
  | .ucLw n rd ra imm => Sys2Proof.Machine.execUcLw n rd ra imm s
  | .ucSb n rd ra imm => Sys2Proof.Machine.execUcSb n rd ra imm s
  | .ucSh n rd ra imm => Sys2Proof.Machine.execUcSh n rd ra imm s
  | .ucSw n rd ra imm => Sys2Proof.Machine.execUcSw n rd ra imm s
  | .ucLl n rd ra z => Sys2Proof.Machine.execUcLl n rd ra z s
  | .ucSc n rd ra rb z => Sys2Proof.Machine.execUcSc n rd ra rb z s
  | .ucBeq n ra rb off => Sys2Proof.Machine.execUcBeq n ra rb off s
  | .ucBne n ra rb off => Sys2Proof.Machine.execUcBne n ra rb off s
  | .ucBlt n ra rb off => Sys2Proof.Machine.execUcBlt n ra rb off s
  | .ucBge n ra rb off => Sys2Proof.Machine.execUcBge n ra rb off s
  | .ucBltu n ra rb off => Sys2Proof.Machine.execUcBltu n ra rb off s
  | .ucBgeu n ra rb off => Sys2Proof.Machine.execUcBgeu n ra rb off s
  | .ucJal n off => Sys2Proof.Machine.execUcJal n off s
  | .ucJalr n rd ra imm => Sys2Proof.Machine.execUcJalr n rd ra imm s
  | .ucSyscall n z => Sys2Proof.Machine.execUcSyscall n z s
  | .ucBreak n z => Sys2Proof.Machine.execUcBreak n z s
  | .ucEret n z => Sys2Proof.Machine.execUcEret n z s
  | .ucMret n z => Sys2Proof.Machine.execUcMret n z s
  | .ucWfe n z => Sys2Proof.Machine.execUcWfe n z s
  | .ucFence n z => Sys2Proof.Machine.execUcFence n z s
  | .ucMfs n rd z imm => Sys2Proof.Machine.execUcMfs n rd z imm s
  | .ucMts n z ra imm => Sys2Proof.Machine.execUcMts n z ra imm s
  | .ucIinv n ra imm => Sys2Proof.Machine.execUcIinv n ra imm s
  | .ucDclean n ra imm => Sys2Proof.Machine.execUcDclean n ra imm s
  | .ucDinv n ra imm => Sys2Proof.Machine.execUcDinv n ra imm s
  | .ucDflush n ra imm => Sys2Proof.Machine.execUcDflush n ra imm s
  | .ucIinvAll n ra imm => Sys2Proof.Machine.execUcIinvAll n ra imm s
  | .ucDcleanAll n ra imm => Sys2Proof.Machine.execUcDcleanAll n ra imm s
  | .ucDinvAll n ra imm => Sys2Proof.Machine.execUcDinvAll n ra imm s
  | .ucDflushAll n ra imm => Sys2Proof.Machine.execUcDflushAll n ra imm s
  | .interruptEntry n => Sys2Proof.Machine.execInterruptEntry n s
  | .monitorEntry n => Sys2Proof.Machine.execMonitorEntry n s
  | .evtClaim m n => Sys2Proof.Machine.execEvtClaim m n s
  | .evtTest m d => Sys2Proof.Machine.execEvtTest m d s
  | .eventHostMessage k => Sys2Proof.Machine.execEventHostMessage k s
  | .watchdogKick m n d => Sys2Proof.Machine.execWatchdogKick m n d s
  | .wdctlWrite m n d => Sys2Proof.Machine.execWdctlWrite m n d s
  | .watchdogExpiry n => Sys2Proof.Machine.execWatchdogExpiry n s
  | .tccRunWrite m n d => Sys2Proof.Machine.execTccRunWrite m n d s
  | .tskReady c n id => Sys2Proof.Machine.execTskReady c n id s
  | .tskBlock c n id flag cons => Sys2Proof.Machine.execTskBlock c n id flag cons s
  | .tskYield c n id => Sys2Proof.Machine.execTskYield c n id s
  | .tskCancel m n id more => Sys2Proof.Machine.execTskCancel m n id more s
  | .tskSetpri c n id pri => Sys2Proof.Machine.execTskSetpri c n id pri s
  | .tskDone c n id => Sys2Proof.Machine.execTskDone c n id s
  | .tskDispatch c n => Sys2Proof.Machine.execTskDispatch c n s
  | .tskModeWrite m d => Sys2Proof.Machine.execTskModeWrite m d s
  | .poolSubmit c n d => Sys2Proof.Machine.execPoolSubmit c n d s
  | .flagSet m n d => Sys2Proof.Machine.execFlagSet m n d s
  | .channelPublish n => Sys2Proof.Machine.execChannelPublish n s
  | .chnIndexWrite m n cons d => Sys2Proof.Machine.execChnIndexWrite m n cons d s
  | .spillRefill n ecc => Sys2Proof.Machine.execSpillRefill n ecc s
  | .localBankAccess r => Sys2Proof.Machine.execLocalBankAccess r s
  | .bitSetAlias m x d => Sys2Proof.Machine.execBitSetAlias m x d s
  | .bitClearAlias m x d => Sys2Proof.Machine.execBitClearAlias m x d s
  | .coreDieWindowAccess r => Sys2Proof.Machine.execCoreDieWindowAccess r s
  | .hbmNocAccess r first second => Sys2Proof.Machine.execHbmNocAccess r first second s
  | .pinImageRead r => Sys2Proof.Machine.execPinImageRead r s
  | .nocResponse k => Sys2Proof.Machine.execNocResponse k s
  | .nocTimeout k => Sys2Proof.Machine.execNocTimeout k s
  | .nocFenceWrite m t d => Sys2Proof.Machine.execNocFenceWrite m t d s
  | .fenceDrained t => Sys2Proof.Machine.execFenceDrained t s
  | .nocRcfgWrite m r d => Sys2Proof.Machine.execNocRcfgWrite m r d s
  | .routerReady r => Sys2Proof.Machine.execRouterReady r s
  | .nocRtWrite m k e d => Sys2Proof.Machine.execNocRtWrite m k e d s
  | .hbkBpwrWrite m b d => Sys2Proof.Machine.execHbkBpwrWrite m b d s
  | .bankPowerDone b => Sys2Proof.Machine.execBankPowerDone b s
  | .marchStart m b d => Sys2Proof.Machine.execMarchStart m b d s
  | .marchChunkBorrow b fails => Sys2Proof.Machine.execMarchChunkBorrow b fails s
  | .marchEnd b fails => Sys2Proof.Machine.execMarchEnd b fails s
  | .hbkRlockWrite m d => Sys2Proof.Machine.execHbkRlockWrite m d s
  | .hbkCamCreate m d => Sys2Proof.Machine.execHbkCamCreate m d s
  | .hbkCamFree m d => Sys2Proof.Machine.execHbkCamFree m d s
  | .camFreeDone => Sys2Proof.Machine.execCamFreeDone s
  | .sessionOpen msg => Sys2Proof.Machine.execSessionOpen msg s
  | .sessionClose msg => Sys2Proof.Machine.execSessionClose msg s
  | .sessionTimeout session => Sys2Proof.Machine.execSessionTimeout session s
  | .dbgChallenge msg => Sys2Proof.Machine.execDbgChallenge msg s
  | .challengeExpire session => Sys2Proof.Machine.execChallengeExpire session s
  | .dbgAuth msg => Sys2Proof.Machine.execDbgAuth msg s
  | .dbgHalt msg => Sys2Proof.Machine.execDbgHalt msg s
  | .dbgHaltreqWrite m d => Sys2Proof.Machine.execDbgHaltreqWrite m d s
  | .dbgMon msg => Sys2Proof.Machine.execDbgMon msg s
  | .dbgMemrd msg => Sys2Proof.Machine.execDbgMemrd msg s
  | .dbgMemwr msg => Sys2Proof.Machine.execDbgMemwr msg s
  | .dbgRunEnd => Sys2Proof.Machine.execDbgRunEnd s
  | .dbgTrcpriv msg => Sys2Proof.Machine.execDbgTrcpriv msg s
  | .dbgHold msg => Sys2Proof.Machine.execDbgHold msg s
  | .mboxSend m n d => Sys2Proof.Machine.execMboxSend m n d s
  | .mboxSent n => Sys2Proof.Machine.execMboxSent n s
  | .trcMsgWrite m d => Sys2Proof.Machine.execTrcMsgWrite m d s
  | .trcSrcWrite m n d => Sys2Proof.Machine.execTrcSrcWrite m n d s
  | .trcOutWrite m d => Sys2Proof.Machine.execTrcOutWrite m d s
  | .coreSleep n => Sys2Proof.Machine.execCoreSleep n s
  | .coreWake n => Sys2Proof.Machine.execCoreWake n s
  | .traceSyncEmit n => Sys2Proof.Machine.execTraceSyncEmit n s
  | .traceOvfEmit => Sys2Proof.Machine.execTraceOvfEmit s
  | .pmcWrap n k => Sys2Proof.Machine.execPmcWrap n k s
  | .pmcClear m d => Sys2Proof.Machine.execPmcClear m d s
  | .sampleRecord x => Sys2Proof.Machine.execSampleRecord x s
  | .pmcSbfreeWrite m d => Sys2Proof.Machine.execPmcSbfreeWrite m d s
  | .pmcSbenWrite m n d => Sys2Proof.Machine.execPmcSbenWrite m n d s
  | .dumpNow m d => Sys2Proof.Machine.execDumpNow m d s
  | .dumpDue => Sys2Proof.Machine.execDumpDue s
  | .dumpComplete => Sys2Proof.Machine.execDumpComplete s
  | .fioBankWrite m n d => Sys2Proof.Machine.execFioBankWrite m n d s
  | .fioCellWrite m n d => Sys2Proof.Machine.execFioCellWrite m n d s
  | .bankFault n => Sys2Proof.Machine.execBankFault n s
  | .configSend n => Sys2Proof.Machine.execConfigSend n s
  | .fieldIdleSend hubEnd => Sys2Proof.Machine.execFieldIdleSend hubEnd s
  | .fbOut crcBad pins => Sys2Proof.Machine.execFbOut crcBad pins s
  | .fbPrime crcBad pins => Sys2Proof.Machine.execFbPrime crcBad pins s
  | .fbConfig crcBad => Sys2Proof.Machine.execFbConfig crcBad s
  | .fbInert => Sys2Proof.Machine.execFbInert s
  | .fbResend => Sys2Proof.Machine.execFbResend s
  | .fbIdle => Sys2Proof.Machine.execFbIdle s
  | .fieldIn crcBad => Sys2Proof.Machine.execFieldIn crcBad s
  | .fieldIdleFromFb => Sys2Proof.Machine.execFieldIdleFromFb s
  | .fieldNak => Sys2Proof.Machine.execFieldNak s
  | .fieldBad => Sys2Proof.Machine.execFieldBad s
  | .fieldTimeout => Sys2Proof.Machine.execFieldTimeout s
  | .fieldCrossingDown => Sys2Proof.Machine.execFieldCrossingDown s
  | .fbWatchdog => Sys2Proof.Machine.execFbWatchdog s
  | .claim msg => Sys2Proof.Machine.execClaim msg s
  | .unclaim msg => Sys2Proof.Machine.execUnclaim msg s
  | .modeQuery msg => Sys2Proof.Machine.execModeQuery msg s
  | .run msg => Sys2Proof.Machine.execRun msg s
  | .step msg => Sys2Proof.Machine.execStep msg s
  | .stepBurstEnd => Sys2Proof.Machine.execStepBurstEnd s
  | .stop msg => Sys2Proof.Machine.execStop msg s
  | .safe msg => Sys2Proof.Machine.execSafe msg s
  | .mgtSafeReq m d => Sys2Proof.Machine.execMgtSafeReq m d s
  | .clear msg => Sys2Proof.Machine.execClear msg s
  | .discard msg => Sys2Proof.Machine.execDiscard msg s
  | .testEnter msg => Sys2Proof.Machine.execTestEnter msg s
  | .testExit msg => Sys2Proof.Machine.execTestExit msg s
  | .power msg => Sys2Proof.Machine.execPower msg s
  | .sensors msg => Sys2Proof.Machine.execSensors msg s
  | .setRead msg => Sys2Proof.Machine.execSetRead msg s
  | .setStage msg => Sys2Proof.Machine.execSetStage msg s
  | .setCommit msg => Sys2Proof.Machine.execSetCommit msg s
  | .settingsCommitDone => Sys2Proof.Machine.execSettingsCommitDone s
  | .settingsEraseDone => Sys2Proof.Machine.execSettingsEraseDone s
  | .setDrop msg => Sys2Proof.Machine.execSetDrop msg s
  | .logRead msg => Sys2Proof.Machine.execLogRead msg s
  | .updBegin msg => Sys2Proof.Machine.execUpdBegin msg s
  | .updWriteDone => Sys2Proof.Machine.execUpdWriteDone s
  | .updConfirm msg => Sys2Proof.Machine.execUpdConfirm msg s
  | .mcRestart msg => Sys2Proof.Machine.execMcRestart msg s
  | .mcStart => Sys2Proof.Machine.execMcStart s
  | .mcWatchdogExpiry => Sys2Proof.Machine.execMcWatchdogExpiry s
  | .bootStepDone => Sys2Proof.Machine.execBootStepDone s
  | .bootStepTimeout => Sys2Proof.Machine.execBootStepTimeout s
  | .mgtBootDone m d => Sys2Proof.Machine.execMgtBootDone m d s
  | .mbxDoorWrite m d => Sys2Proof.Machine.execMbxDoorWrite m d s
  | .mbxLog => Sys2Proof.Machine.execMbxLog s
  | .mbxSensors => Sys2Proof.Machine.execMbxSensors s
  | .mbxSetread => Sys2Proof.Machine.execMbxSetread s
  | .logFlush => Sys2Proof.Machine.execLogFlush s
  | .wallTimeToMc => Sys2Proof.Machine.execWallTimeToMc s
  | .bankSupplyGood n => Sys2Proof.Machine.execBankSupplyGood n s
  | .hostLinkChange hport optic => Sys2Proof.Machine.execHostLinkChange hport optic s
  | .shadowPlaneDrain die bad => Sys2Proof.Machine.execShadowPlaneDrain die bad s
  | .acqBufferWrite => Sys2Proof.Machine.execAcqBufferWrite s
  | .traceFifoDrain count => Sys2Proof.Machine.execTraceFifoDrain count s

end Sys2Proof.Machine
end

