-- ==== Sys2Proof/Machine/Tick.lean ====
section
/-! DEFINITION. One period of TBCK with no command: what goes on with time alone (R373, R411, R431, R481, R565, R574, R646, R658). -/
namespace Sys2Proof.Machine

/-- The CORECK cycles, at 1.25 GHz, of the TBCK period of 2 ns that ends with TB_LOCAL at `t` (R25). -/
def coreCycles (t : Nat) : Nat := if t % 2 = 0 then 3 else 2

/-- Occupancy of the requests of core `n` (R574): one that has timed out is answered. -/
def State.outstanding (s : State) (n : Nat) : Nat :=
  Nat.min 8 ((s.noc.flights.filter fun (f : Flight) => f.master == n && !f.timedOut).length)

/-- One TBCK period of core `n` (R411, R565, R574, R575): CYC and DELTA count, and the counters of cycles and occupancies; a core whose
request waits in the network is stalled on its fetch or its data, and a line read that waits is an outstanding data-cache miss. The MC counts at
the rate of CORECK too, in STANDBY as well (assumption 41). -/
def coreTick (n : Nat) (s : State) : State :=
  let k := coreCycles (if n = 16 then s.mgt.wallNs / 2 else s.local)
  let c := s.core n
  if !c.running then s
  else
    let s := s.setCore n { c with cyc := c.cyc + BitVec.ofNat 64 k }
    if 16 ≤ n then s
    else
      let s :=
        if c.asleep then s
        else
          let x := s.trcSrc n
          pmcCount n 1 k (s.setSrc n { x with delta := x.delta + k })
      let w := s.noc.flights.filter fun (f : Flight) => f.asks && f.master == n && !f.timedOut
      let s := match w.head? with
        | some f => pmcCount n (if f.fetch then 0xB else 0xC) k s
        | none => s
      let s := if w.any fun f => !f.fetch && !f.write && f.size == 64 then pmcOccupy n 0x11 1 k s else s
      let s := if c.wfe then pmcCount n 0xD k s else s
      let s := if s.outstanding n = 0 then s else pmcOccupy n 0x10 (s.outstanding n) k s
      let p := (s.pendingEvents.filter fun e => s.routed n e).length
      if p = 0 then s else pmcOccupy n 0x12 p k s

/-- One microsecond of TB_LOCAL (R431, R481): the load counters, and the counts of the watchdogs that run. -/
def usTick (s : State) : State :=
  (List.range 16).foldl (fun s n =>
    let s := if s.flag (F.TSK_RUN_VALID n) then s.count (F.TSK_BUSY_US n) else s
    if s.flag (F.TCC_WDCTL_EN n) && !s.frozen n then s.setFld (F.TCC_WDCNT_US n) (s.fld (F.TCC_WDCNT_US n) - 1) else s) s

/-- The time units, the cores and the microsecond counts of the core domain. -/
def coreDomainTick (s : State) : State :=
  let s := { s with tim := advance s.tim.rate s.tim }
  let s := (List.range 16).foldl (fun s n => coreTick n s) s
  let s := if s.local % 500 = 0 then usTick s else s
  if s.lge.held && s.fld F.SFB_HOLD_LIMIT_US ≠ 0 && !s.lge.longDone && s.fld F.SFB_HOLD_LIMIT_US * 500 < s.local - s.lge.heldSince then
    raise 71 { s with lge := { s.lge with longDone := true } }
  else s

/-- What comes on the MC's own side between two ticks: frames received, MAC receive and transmit, flash operations (sources 1, 3, 4, 5 of R646), at moments that are free values (assumption 50). -/
def mcSources (s : State) : State :=
  let x := s.freshNat 4
  let new := ([1, 3, 4, 5].zipIdx.filter fun k => bit x.1 k.2).map (·.1)
  { x.2 with mgt := { x.2.mgt with mcIrq := new.foldl NSet.ins x.2.mgt.mcIrq } }

/-- The MC's own time and its 1 ms tick (R646, R658). -/
def mcTick (s : State) : State :=
  if !s.mgt.mcUp then s
  else
    let t := s.mgt.wallNs + 2
    let m := s.mgt
    let irq := if t % 1000000 < 2 then NSet.ins m.mcIrq 7 else m.mcIrq
    if 1000000000 ≤ t then { s with mgt := { m with wallSec := m.wallSec + 1, wallNs := t - 1000000000, mcIrq := irq } }
    else { s with mgt := { m with wallNs := t, mcIrq := irq } }

/-- What a step does with no command waiting (assumption 41). -/
def tick (s : State) : State :=
  let s := { s with hmp := { s.hmp with now := s.hmp.now + 1 } }
  let s := coreTick 16 (mcTick (if s.mgt.mcUp then mcSources s else s))
  if s.ctl.corePower then coreDomainTick s else s

end Sys2Proof.Machine
end

