-- ==== Sys2Proof/Safety.lean ====
section
/-! DEFINITION. What counts as a sound state and a safe step, in the terms the claims use. -/
namespace Sys2Proof.Machine

/-- A core's maps in their canonical forms: only x1 to x31 are listed, none at 0 (x0 reads 0 and takes no write, R404), and no system
register at its reset word (R411). -/
def Core.sound (n : Nat) (c : Core) : Prop := SMap.wfFrom 0 1 c.x = true ∧ rwfFrom (sysReset n) 0 c.sys = true

/-- Sixteen transactor cores and the management controller (R403), each of them sound. -/
def CoresOk (c : List Core) : Prop := c.length = 17 ∧ ∀ n, Core.sound n (c.getD n Core.reset)

/-- The parts of a state that its canonical forms speak of: the register file lists no register at its reset word and its addresses
rise, the cores are as R403 and R404 have them, there are six lane ports (R299), and the memory is in its canonical form. -/
def Parts (r : SMap Word) (c : List Core) (l : List LanePort) (m : List Host.Cell) : Prop :=
  rwfFrom resetWord 0 r = true ∧ CoresOk c ∧ l.length = 6 ∧ Memory.wf m = true

/-- The invariant of the model: every step keeps it. -/
def State.Inv (s : State) : Prop := Parts s.regs s.cores s.lanes s.mem

/-! ### When a command is taken -/

/-- A request of master `m` for target `t` comes through the network: the core domain is powered, the route entry is VALID, no flit of it
or of its response fails parity, neither a stopped router nor a full channel on its way holds it up, and the target is not fenced (R494,
R495, R520, R525 to R527). -/
def State.reaches (s : State) (m t : Nat) : Prop :=
  s.ctl.corePower = true ∧ bit (s.reg (A.NOC_RT m t)).toNat 31 = true ∧ s.noc.flit = false ∧ s.noc.answer = false ∧
    s.blocked false s.noc.flights m (s.reg (A.NOC_RT m t)) = false ∧ s.fenced t = false

/-- The last request that waits for its response is one of master `m` at target `tg`, answered with kind `err` of R495 (0: no error)
and data `d`. -/
def State.answered (t : State) (m tg a : Nat) (wr : Bool) (err : Nat) (d : List Byte) : Prop :=
  ∃ n r u, t.noc.flights.getLast? = some ⟨m, tg, a, n, wr, r, u, err, d, false, none, false, false, false, false⟩

/-- From `s` to `t`, no register changes but those listed, those of the blocks listed, and those of block EVT; and beside registers, event windows, log records,
messages, kept responses and waiting answers, nothing of the module changes. -/
def State.told (s t : State) (l : List Nat) (blocks : List Nat := []) : Prop :=
  (∀ a, a / 0x10000 ∉ 21 :: blocks → a ∉ l → t.reg a = s.reg a) ∧
    t = { s with
      regs := t.regs
      evt := t.evt
      out := t.out
      mgt := { s.mgt with log := t.mgt.log, logBuf := t.mgt.logBuf, logSeq := t.mgt.logSeq }
      hmp := { s.hmp with sessions := t.hmp.sessions }
      noc := { s.noc with flights := t.noc.flights } }

/-- Event `k` is pending in `t` if it is enabled in `s` (R426). -/
def State.raises (s t : State) (k : Nat) : Prop :=
  s.flag (F.EVT_CFG_EN k) = true → t.flag ⟨A.EVT_PEND (k / 32), k % 32, 1⟩ = true

/-- From `s` to `t`, entries of the scheduler other than `x` change only by R452's wakes: from BLOCKED to READY. -/
def othersOnlyWake (s t : State) (x : Nat) : Prop := ∀ u, u < 512 → u ≠ x → t.thr u = s.thr u ∨ s.thr u = 3 ∧ t.thr u = 1

/-- A message is a request of opcode `op` that passes what R31, R33 and R556 ask of every request of the open session `x`: its
port's endpoint runs and reaches the side that carries it out, the message carries the opcode and is sound and of version 1, the MC is not in recovery on the management port, the tag fits, and
the sequence number is neither one whose response is kept nor too old. -/
def State.takes (s : State) (m : Msg) (op : Nat) (x : Session) : Prop :=
  s.portUp m.port = true ∧ s.carries m.port op = true ∧ m.opcode.toNat = op ∧ msgSound m 1 = true ∧ m.version = 1 ∧ (s.mgt.recovery = false ∨ m.port ≠ .mgmt) ∧
    s.session m.session.toNat = some x ∧ (∀ k, x.key = some k → msgTagOk m k = true) ∧
    (x.kept.find? fun k => k.seq == m.seq.toNat) = none ∧ tooOld x.high m.seq.toNat = false

/-- The last message sent is the response to a request, with a status and, on a session without tags, this payload (R30, R33). -/
def State.replied (t : State) (m : Msg) (op status : Nat) (p : List Byte) : Prop :=
  ∃ tag g, t.out.getLast? = some ⟨m.port, 2, op, m.seq.toNat, m.session.toNat, status, p ++ tag, g⟩ ∧ (g = false → tag = [])

/-- A session that an event message of the hub reaches: its port is up (R679), and to one of the management port the crossing leads (R21). -/
def State.hears (s : State) (x : Session) : Bool := s.portUp x.port && (x.port != .mgmt || s.mcReached)

/-- From `s`, in a mode that SAFE may follow, `t` is SAFE with the reason kept if there was one: the step clock stopped, cause FAULT set, and
INERT on its way to the FB (R619, R634). -/
def State.entersSafe (s t : State) (why : Nat) : Prop :=
  t.ctl.mode = .safe ∧ t.ctl.clock = false ∧ t.ctl.reason = (if s.ctl.reason = 0 then why else s.ctl.reason) ∧
    t.flag F.SFB_HOLD_STAT_FAULT = true ∧ t.fio.toFb = s.fio.toFb ++ ⟨HubFrame.inert.bytes, false⟩ :: s.fio.later

/-- From `s` to `t`, a frame of the field crossing was bad (R613): the first is recorded, EV305 is raised, and SAFE follows. -/
def State.badFrameFound (s t : State) (kind seq : Nat) : Prop :=
  t.flag F.FIO_BADSTAT_VALID = true ∧ s.raises t 305 ∧ (safeModes s = true → s.entersSafe t 6) ∧
    (s.flag F.FIO_BADSTAT_VALID = false → t.fld F.FIO_BADSTAT_KIND = kind ∧ t.fld F.FIO_BADSTAT_SEQ = seq % 256) ∧
    (s.flag F.FIO_BADSTAT_VALID = true → t.flag F.FIO_BADSTAT_MORE = true)

/-- Event `k` is pending in `s`, enabled and routed to core `n` (R426 to R428). -/
def pendsAt (s : State) (n k : Nat) : Prop :=
  k < 320 ∧ s.flag ⟨A.EVT_PEND (k / 32), k % 32, 1⟩ = true ∧ s.flag (F.EVT_CFG_EN k) = true ∧ s.fld (F.EVT_CFG_CORE k) = n

/-- The registers whose Reset the fuses or the settings in force at `s` give (R16, R653). -/
def State.bootWords (s : State) : List Nat :=
  (bootRegs s.fuses s.mgt.activeCopy (leAt (s.mgt.slot s.mgt.runSlot) 8 4 % 65536) s.mgt.runSlot).map (·.1)

/-- From `s` to `t`, the module has entered BOOT (R16, R17, R631, R653): the active settings in force, the first boot row due, no image and
no snapshot, the step clock still, and every register at its Reset word but those of the fuses and the settings, block EVT, and the
core-addressable HBM region. At TEST_EXIT (`test`) TB_LOCAL and TB_WALL go on, and the first lock stands (R373, R378). -/
def State.boots (s t : State) (test : Bool) : Prop :=
  t.ctl.mode = .boot ∧ t.ctl.corePower = true ∧ t.ctl.fieldPower = true ∧ t.ctl.clock = false ∧ t.ctl.reason = 0 ∧ t.ctl.burst = false ∧
    t.mgt.stage = (if test then 5 else 4) ∧ t.mgt.settings = s.mgt.activeCopy ∧ t.fuses = s.fuses ∧ t.ldr.img = none ∧ t.snp.snap = none ∧
    t.tim.league = 0 ∧ t.tim.loc = (if test then s.tim.loc else 0) ∧ t.tim.wall = (if test then s.tim.wall else 0) ∧
    t.flag F.TIM_STAT_LOCKED = (test && s.flag F.TIM_STAT_LOCKED) ∧ (∀ n < 16, (t.core n).running = false) ∧ t.core 16 = s.core 16 ∧
    ∀ a, a / 0x10000 ≠ 21 → a ≠ A.HBK_HRGN 8 → a ≠ A.TIM_STAT → a ∉ s.bootWords → t.reg a = resetWord a

/-- In `t`, every register of the blocks that the host island keeps holds its Reset word, or what the fuses, the slot and the settings of `s`
give it (R16). -/
def State.islandWords (s t : State) : Prop :=
  (∀ x ∈ s.islandSources, t.reg x.1 = x.2) ∧
    ∀ a, islandReg a = true → a ∉ s.islandSources.map (·.1) → t.reg a = resetWord a

/-- From `s` to `t`, the core domain and the field island have been switched off (R22, R638, R664): no image, no snapshot, no register of
the core domain off its Reset word but those of the fuses and the settings and block EVT, no byte of memory but the MC's, and no
session of an optical port; blocks MGT and PWR keep their words. -/
def State.goesDark (s t : State) : Prop :=
  t.ctl.corePower = false ∧ t.ctl.fieldPower = false ∧ t.ctl.clock = false ∧ t.ctl.switchingOff = false ∧ t.ldr.img = none ∧
    t.snp.snap = none ∧ (∀ n < 16, (t.core n).running = false) ∧ t.core 16 = s.core 16 ∧ (∀ c ∈ t.mem, mcMem 0 ≤ c.1) ∧
    (∀ x ∈ t.hmp.sessions, x.port = .mgmt) ∧ (∀ a, islandReg a = true → t.reg a = s.reg a) ∧
    ∀ a, islandReg a = false → a / 0x10000 ≠ 21 →
      a ∉ (bootRegs s.fuses s.mgt.settings (leAt (s.mgt.slot s.mgt.runSlot) 8 4 % 65536) s.mgt.runSlot).map (·.1) → t.reg a = resetWord a

/-- The step clock runs, the throttle leaves this edge, and nothing that an earlier grain, a START or a fault named is still to be taken:
the grain is held or executes a position, by the vote alone (R106, R113). -/
def State.plainGrain (s : State) : Prop :=
  s.ctl.corePower = true ∧ s.flag F.SFB_CLK_LOCK = true ∧ s.fld F.SFB_CLK_MHZ ≠ 0 ∧ s.lge.needSync = false ∧
    edgeRemoved (s.fld F.SFB_THR_CUR) s.lge.edge = false ∧ s.lge.relDue = 0 ∧ s.lge.thrDue = none ∧ s.lge.burstDue = false ∧
    s.lge.start = none ∧ s.lge.begun.map (·.1) ≠ some s.grainNo ∧ s.ctl.safeDue = none ∧ s.ctl.safeNext = false ∧ s.arr.fails = []

/-- An operand field of BP `bp` that names a constant or a bit of its own data store, with the bit it reads (R52). -/
def State.reads (s : State) (bp field : Nat) (b : Bool) : Prop :=
  opnd field = .const b ∨ ∃ a, opnd field = .ds a ∧ b = NSet.has s.arr.ds (bp * 2048 + a)

/-- `t` has begun to form the league of a plan word (R349, R353): the plan's place, size and distances stand in the registers, H is that of a
single module, no vote, token or run stands, and a league of one is formed at once. -/
def State.formingAs (t : State) (plan lid tmo : Nat) : Prop :=
  t.ctl.mode = .idle ∧ t.lge.plan = plan / 8192 * 8192 ∧ t.reg A.LGE_PLAN = BitVec.ofNat 32 (plan / 8192 * 8192) ∧
    t.reg A.LGE_LID = BitVec.ofNat 32 lid ∧ t.fld F.LGE_TMO_MS = tmo % 65536 ∧ t.leagueSize = planCount plan ∧
    t.fld F.LGE_STAT_STATE = (if planCount plan = 1 then 1 else 0) ∧ t.flag F.LGE_STAT_MASTER = (bits plan 13 6 == 0) ∧
    t.fld F.LGE_STAT_UPPORT = upstream plan (bits plan 13 6) ∧ t.fld F.LGE_STAT_DIAM = diameter plan ∧ t.H = 8 ∧ t.lge.events = [] ∧
    t.lge.tok = none ∧ t.lge.start = none ∧ t.flag F.SFB_HOLD_STAT_FAULT = false ∧
    (planCount plan = 1 → t.lge.cycle = 0 ∧ t.grainNo = 0) ∧ ∀ n < 5, t.flag (F.LNK_CTL_EN n) = t.topoPorts.contains n

/-- From `s` to `t`, a case of R365 has been met: LGE_LATE records the first, EV243 is raised, and SAFE follows. -/
def State.lateFound (s t : State) (kind port origin : Nat) : Prop :=
  t.flag F.LGE_LATE_VALID = true ∧ s.raises t 243 ∧ (safeModes s = true → s.entersSafe t 4) ∧
    (s.flag F.LGE_LATE_VALID = false → t.fld F.LGE_LATE_KIND = kind ∧ t.fld F.LGE_LATE_PORT = port ∧ t.fld F.LGE_LATE_ORIGIN = origin) ∧
    (s.flag F.LGE_LATE_VALID = true → t.flag F.LGE_LATE_MORE = true)

/-- From `s` to `t`, the port queues `copies` TOKEN words of a body on its group A, and no other word (R358). -/
def State.queues (s t : State) (n copies body : Nat) : Prop :=
  (t.lane n).a.queue = (s.lane n).a.queue ++ List.replicate copies (3, body)

/-- The instruction word `w` stands at the pc of core `n` and is executed next: the core exists and executes, no debug cause, watchdog
expiry or interrupt comes first, and the fetch brings the word, leaving `u` (R406, R416 to R419). -/
def State.fetches (s : State) (n w : Nat) (u : State) : Prop :=
  n ≤ 16 ∧ s.executes n = true ∧ boundary n (endWait n s) = none ∧ fetchAccess n (beginInsn n s) = .done w u

/-! ### What an instruction of UC32 leaves -/

/-- From `s` to `t`, core `n` puts `w` into `rd` (x0 takes no write, R404) and goes on at `pc`; no other general register, no system
register, no reservation, no other core and no byte of memory changes. -/
def programStep (s t : State) (n : Nat) (rd : BitVec 5) (w pc : Word) : Prop :=
  (∀ r, t.x n r = if r = rd ∧ rd ≠ 0 then w else s.x n r) ∧ (t.core n).pc = pc ∧ (∀ k, t.sysReg n k = s.sysReg n k) ∧
    (t.core n).resv = (s.core n).resv ∧ (∀ m, m ≠ n → t.core m = s.core m) ∧ t.mem = s.mem

/-- The access of `size` bytes at core address `a` of transactor core `n` is aligned, passes its aperture without caching, and reaches a
local bank the core may use, or the channel RAM, where no byte fails parity and no march has the chunk, no earlier request of the core
still waiting (R413 to R416, R498 to R500, R508, R523); `u` is the state after the fetch. -/
def plainRam (s u : State) (n a size : Nat) (t : Touch) : Prop :=
  n < 16 ∧ a % size = 0 ∧ s.apertureFault n a t = none ∧ s.cacheable n a = false ∧ u.badByte (s.nocAddr n a) size = none ∧
    u.borrowed (s.nocAddr n a) = false ∧ (∀ f ∈ u.noc.flights, f.asks = true → f.master ≠ n) ∧
    ((0x1000000 ≤ s.nocAddr n a ∧ s.nocAddr n a < 0x2000000 ∧ u.permitted n (s.nocAddr n a % 0x1000000) (t == .store) = true ∧
        u.reaches n (s.nocAddr n a % 0x1000000 / 0x100000)) ∨
      (0x4000000 ≤ s.nocAddr n a ∧ s.nocAddr n a < 0x4200000 ∧ u.reaches n 16))

/-- From `s` to `t`, the low `size` bytes of `w` go to memory at `x`, little-endian, and no other byte of memory changes. -/
def bytesWritten (s t : State) (x size : Nat) (w : Word) : Prop :=
  (∀ i < size, Mem.read1 t.mem (x + i) = BitVec.ofNat 8 (w.toNat / 256 ^ i)) ∧
    ∀ b, b < x ∨ x + size ≤ b → Mem.read1 t.mem b = Mem.read1 s.mem b

/-- From `s` to `t`, core `n` has entered the exception of a cause that is no debug cause (R420). -/
def exceptionEntered (s t : State) (n cause addr : Nat) : Prop :=
  t.sysReg n 1 = (s.core n).pc ∧ (t.sysReg n 2).toNat = cause + (if cause = 0x11 then 2 ^ 31 else 0) ∧ t.sysReg n 3 = BitVec.ofNat 32 addr ∧
    t.status n 1 = s.status n 0 ∧ t.status n 3 = s.status n 2 ∧ t.status n 0 = false ∧ t.status n 2 = true ∧ t.status n 4 = true ∧
    t.status n 8 = s.status n 8 ∧ t.status n 9 = s.status n 9 ∧ (t.core n).resv = none ∧
    (t.core n).pc = (if s.status n 8 && cause ≠ 0x10 && cause ≠ 0x11 then s.sysReg n 0x12 + 0x100 else s.sysReg n 4) ∧
    (∀ k, 3 < k → t.sysReg n k = s.sysReg n k) ∧ (∀ r, t.x n r = s.x n r) ∧ t.mem = s.mem

/-- From `s` to `t`, core `n` has entered monitor mode with a debug cause (R423). -/
def monitorEntered (s t : State) (n cause : Nat) : Prop :=
  t.sysReg n 0x10 = (s.core n).pc ∧ (t.sysReg n 0x11).toNat = cause + (if (s.core n).lockup then 2 ^ 31 else 0) ∧
    t.status n 8 = true ∧ t.status n 2 = true ∧ (∀ b ∈ [0, 1, 3, 4, 9], t.status n b = s.status n b) ∧
    (t.core n).monPrv = s.status n 2 ∧ (t.core n).resv = none ∧ (t.core n).pc = s.sysReg n 0x12 ∧
    (∀ k, k ≠ 0 → k ≠ 0x10 → k ≠ 0x11 → t.sysReg n k = s.sysReg n k) ∧ (∀ r, t.x n r = s.x n r) ∧ t.mem = s.mem

/-- A step that neither faults nor is refused. -/
def SafeStep (s : State) : Prop := ∃ t, step s = .next t

end Sys2Proof.Machine
end

