-- ==== Sys2Proof/Certificates/Slice0/Obligations.lean ====
section
/-! DEFINITION. The statements for the provers, in the order of spec/: the whole machine, its registers, and every family of
commands. -/
section
open Sys2Proof Sys2Proof.Machine

/-! ### The block as a whole -/

/-- The step of the model (assumption 41): with a command waiting, it is that command's meaning on the state with the rest of the queue. -/
def Obligations.StepRunsTheFrontCommand : Prop :=
  ∀ (c : Instr) (r : List Instr) (s : State), s.pending = c :: r → step s = exec c { s with pending := r }

/-- R373, R411 and assumption 41: with no command waiting a step is one period of TBCK: TB_LOCAL counts one while the core domain is
powered, CYC of a running core counts CORECK cycles, the MC's in STANDBY too, and no mode, no store, no byte of memory and no link
changes. -/
def Obligations.StepWithNothingWaitingLetsTimePass : Prop :=
  ∀ s : State, s.Inv → s.pending = [] →
    ∃ t, step s = .next t ∧ t.pending = [] ∧ t.ctl = s.ctl ∧ t.arr = s.arr ∧ t.dm = s.dm ∧ t.ldr = s.ldr ∧ t.snp = s.snp ∧
      t.mem = s.mem ∧ t.lanes = s.lanes ∧ t.hmp = { s.hmp with now := s.hmp.now + 1 } ∧ t.noc = s.noc ∧ t.fio = s.fio ∧ t.fb = s.fb ∧
      (s.ctl.corePower = true → t.tim.loc = s.tim.loc + 1 ∧ t.tim.league = s.tim.league ∧ t.tim.td = s.tim.td ∧
        ∀ n < 16, (t.core n).cyc = (s.core n).cyc + (if (s.core n).running then BitVec.ofNat 64 (coreCycles t.local) else 0)) ∧
      (t.core 16).cyc = (s.core 16).cyc + (if (s.core 16).running then BitVec.ofNat 64 (coreCycles (t.mgt.wallNs / 2)) else 0) ∧
      (s.ctl.corePower = false → t.tim = s.tim ∧ t.regs = s.regs ∧ ∀ n < 16, t.core n = s.core n)

/-- The state after reset is in its canonical forms.
R16, R17, R349, R373, R403, R631 and assumptions 2 and 4 to 7: reset is entry to BOOT: no burst, no reason, the step clock still; the time
bases at 0; every register the spec gives a Reset word at that word, but those whose Reset is a fuse or a setting; TC0 to TC15
held in reset; no image, no snapshot, no session, no message, nothing waiting. -/
def Obligations.ResetIsEntryToBoot : Prop :=
  (State.reset.Inv) ∧
  (State.reset.ctl.mode = .boot ∧ State.reset.ctl.burst = false ∧ State.reset.ctl.reason = 0 ∧ State.reset.ctl.clock = false ∧
    State.reset.local = 0 ∧ State.reset.grainNo = 0 ∧ State.reset.tim.td = List.replicate 16 0 ∧
    (∀ n < 16, (State.reset.core n).running = false ∧ (State.reset.core n).lockup = false ∧ (State.reset.core n).resv = none) ∧
    (∀ a, a ∉ (fuseRegs Fuses.reset 0 0 0 0 ++ settingsRegs factorySettings).map (·.1) → State.reset.reg a = resetWord a) ∧
    State.reset.ldr.img = none ∧ State.reset.snp.snap = none ∧ State.reset.hmp.sessions = [] ∧ State.reset.out = [] ∧
    State.reset.pending = [])

/-- The canonical forms of the register file, the cores, the lane ports and the memory hold after every step from a state in which they
hold. -/
def Obligations.StepKeepsTheInvariant : Prop := ∀ s t : State, s.Inv → step s = .next t → t.Inv

/-- What no command does (R1, R18, R30, R662, assumptions 8 and 41): it takes no other command from the queue, changes no fuse but the
anti-rollback counter, which never falls, unsends no message, and never
lets the counter that free values are drawn by fall. -/
def Obligations.NoCommandUndoesWhatIsFixed : Prop :=
  ∀ (c : Instr) (s t : State), s.Inv → exec c s = .next t →
    t.pending = s.pending ∧ t.fuses.grade = s.fuses.grade ∧ t.fuses.serial = s.fuses.serial ∧ t.fuses.mac = s.fuses.mac ∧
      t.fuses.spare = s.fuses.spare ∧ t.fuses.bankSpares = s.fuses.bankSpares ∧ s.fuses.rbcnt ≤ t.fuses.rbcnt ∧
      s.out <+: t.out ∧ s.freeCtr ≤ t.freeCtr

/-- R645 and assumption 11: no command faults, which is the model's choice for every row that has an effect, and a command is refused only when the management controller loads or stores at one of its peripherals,
0x3000_0000 to 0x3000_FFFF, whose effect the spec does not give. -/
def Obligations.OnlyMcPeripheralsStopACommand : Prop :=
  (∀ (c : Instr) (s : State) (f : Fault), exec c s ≠ .fault f) ∧
  (∀ (c : Instr) (s : State) (r : Refusal), exec c s = .refused r →
    r = .mcPeripheral ∧ (s.core 16).running = true ∧
      ∃ rd ra imm, 0x30000000 ≤ (s.ea 16 ra imm).toNat ∧ (s.ea 16 ra imm).toNat < 0x30010000 ∧
        c ∈ [.ucLb 16 rd ra imm, .ucLbu 16 rd ra imm, .ucLh 16 rd ra imm, .ucLhu 16 rd ra imm, .ucLw 16 rd ra imm, .ucSb 16 rd ra imm,
          .ucSh 16 rd ra imm, .ucSw 16 rd ra imm]) ∧
  (∀ (n : Nat) (rd ra : BitVec 5) (imm : BitVec 16) (s u : State), n = 16 → s.Inv → (s.ea n ra imm).toNat % 4 = 0 →
    0x30000000 ≤ (s.ea n ra imm).toNat → (s.ea n ra imm).toNat < 0x30010000 →
    (s.fetches n (wordI 0x14 rd ra imm) u → exec (.ucLw n rd ra imm) s = .refused .mcPeripheral) ∧
    (s.fetches n (wordI 0x1A rd ra imm) u → exec (.ucSw n rd ra imm) s = .refused .mcPeripheral))

/-! ### Registers (R11 to R14) -/

/-- R11, R12, R14: a 32-bit write of a register of the blocks whose registers have no action of their own (ARR, DMC, TRG, PWR, and EVT but
EVT_TEST) sets its RW bits, clears the W1C bits written 1, sets the W1S bits written 1, and leaves every other bit and register.
R11, R14, R116, R373: a read of a register gives its word, little-endian; its RC fields are cleared, and a low word of a pair latches
what goes with it (which registers latch is assumption 51); no other register changes. EVT_CLAIM and TSK_DISP have statements of their own. -/
def Obligations.RegisterAccessesFollowTheirCodes : Prop :=
  (∀ (m a : Nat) (d : Word) (r : RegRow) (s : State), s.Inv → s.reaches m 17 → a % 4 = 0 → findRow a = some r →
    (a / 0x10000 ∈ [0, 2, 4, 20] ∨ a / 0x10000 = 21 ∧ a ≠ A.EVT_TEST) →
    ∃ t, exec (.registerWrite m a 4 d) s = .next t ∧ t.answered m 17 a true 0 [] ∧ s.told t [a] ∧ (∀ b, b ≠ a → t.reg b = s.reg b) ∧
      ∀ i < 32, (t.reg a).getLsbD i =
        if r.rw.getLsbD i then d.getLsbD i
        else ((s.reg a).getLsbD i && !(d.getLsbD i && r.w1c.getLsbD i)) || (d.getLsbD i && r.w1s.getLsbD i)) ∧
  (∀ (m a : Nat) (r : RegRow) (s : State), s.Inv → s.reaches m 17 → a % 4 = 0 → findRow a = some r →
    (∀ n < 16, a ≠ A.EVT_CLAIM n ∧ a ≠ A.TSK_DISP n) → SMap.wf 0 s.latches = true →
    ∃ t, exec (.registerRcRead m a 4) s = .next t ∧ t.answered m 17 a false 0 (leBytes 4 (s.peek a)) ∧
      t.reg a = s.reg a &&& ~~~r.rc ∧ (∀ b, b ≠ a → t.reg b = s.reg b) ∧ ({ s with latches := t.latches } : State).told t [a] ∧
      ∀ h ∈ latchedBy a, SMap.get 0 t.latches h = BitVec.ofNat 32 (s.live h))

/-- R11: a naturally aligned 32-bit read of a register block is answered with a word of 32 bits, its low byte first; any other access of a
register block receives an error response (ALIGN of R495) and has no effect. -/
def Obligations.OtherRegisterAccessesHaveNoEffect : Prop :=
  ∀ (m a : Nat) (s : State), s.Inv → s.reaches m 17 → a < 0x160000 →
    (a % 4 = 0 → ∃ t, ∃ w : Word, exec (.registerRcRead m a 4) s = .next t ∧ t.answered m 17 a false 0 (leBytes 4 w.toNat)) ∧
    ∀ (size : Nat) (d : Word), size ≠ 4 ∨ a % 4 ≠ 0 →
      (∃ t, exec (.registerWrite m a size d) s = .next t ∧ t.answered m 17 a true 3 [] ∧ s.told t [] ∧ t.regs = s.regs) ∧
      (∃ t, exec (.registerRcRead m a size) s = .next t ∧ t.answered m 17 a false 3 [] ∧ s.told t [] ∧ t.regs = s.regs)

/-- R13: registers lie in the lower half of their block; the peek half reads as the register does and changes nothing; a write into it,
and a write where the lower half holds no register, change nothing; such an offset reads 0; none of these is answered with an error. -/
def Obligations.PeekAliasAndEmptyOffsets : Prop :=
  (∀ (a : Nat) (r : RegRow), findRow a = some r → a < 0x160000 ∧ a % 0x10000 < 0x8000) ∧
  (∀ (m a : Nat) (r : RegRow) (s : State), s.Inv → s.reaches m 17 → a % 4 = 0 → findRow a = some r →
    ∃ t u v, exec (.registerRcRead m (a + 0x8000) 4) s = .next t ∧ t.answered m 17 (a + 0x8000) false 0 (leBytes 4 v) ∧
      s.told t [] ∧ t.regs = s.regs ∧ exec (.registerRcRead m a 4) s = .next u ∧ u.answered m 17 a false 0 (leBytes 4 v)) ∧
  (∀ (m a : Nat) (d : Word) (s : State), s.Inv → s.reaches m 17 → a % 4 = 0 → a < 0x160000 → 0x8000 ≤ a % 0x10000 →
    ∃ t, exec (.registerWrite m a 4 d) s = .next t ∧ t.answered m 17 a true 0 [] ∧ s.told t [] ∧ t.regs = s.regs) ∧
  (∀ (m a : Nat) (d : Word) (s : State), s.Inv → s.reaches m 17 → a % 4 = 0 → a < 0x160000 → a % 0x10000 < 0x8000 → findRow a = none →
    (∃ t, exec (.registerWrite m a 4 d) s = .next t ∧ t.answered m 17 a true 0 [] ∧ s.told t [] ∧ t.regs = s.regs) ∧
    (∃ t, exec (.registerRcRead m a 4) s = .next t ∧ t.answered m 17 a false 0 [0, 0, 0, 0] ∧ s.told t [] ∧ t.regs = s.regs))

/-! ### The network, local banks, aliases, windows and HBM (R491 to R527, R620) -/

/-- R498, R500, R492, R499: a naturally aligned request to a local bank that a region register permits, or one to the channel RAM, reads or
writes its bytes; a denied one reads and writes nothing and is recorded with EV264; one that breaks R492 is answered ALIGN; a read
that fails parity is answered DATA. R508: one for a chunk that a march has borrowed stalls in the bank, its timeout suspended.
R500: masters 16 to 24 are not checked, and after reset each core may read and write its own bank, and no other.
R413, R502: an alias write sets or clears in the word it names the bits that are 1 in the data, in one access, and counts as a write
to its granule; a core without write permission is denied. -/
def Obligations.LocalBanksRegionsAndAliases : Prop :=
  (∀ (r : Req) (s : State) (g : Nat), s.Inv → targetOf r.addr = some g →
    (0x1000000 ≤ r.addr ∧ r.addr < 0x2000000 ∨ 0x4000000 ≤ r.addr ∧ r.addr < 0x4200000) → s.reaches r.master g →
    (s.borrowed r.addr = true →
      ∃ t, exec (.localBankAccess r) s = .next t ∧ s.told t [] ∧ t.regs = s.regs ∧
        t.noc.flights = s.noc.flights ++ [{ s.packet r.master g r.addr r.size r.write with waits := some r.data, stalled := true }]) ∧
    (s.borrowed r.addr = false → natural r.addr r.size = true → (r.addr < 0x2000000 → s.permitted r.master (r.addr % 0x1000000) r.write = true) →
      (r.write = true → r.data.length = r.size →
        ∃ t, exec (.localBankAccess r) s = .next t ∧ t.answered r.master g r.addr true 0 [] ∧
          (∀ i < r.size, Mem.read1 t.mem (r.addr + i) = r.data.getD i 0) ∧
          (∀ a, a < r.addr ∨ r.addr + r.size ≤ a → Mem.read1 t.mem a = Mem.read1 s.mem a) ∧
          (∀ n, (t.core n).resv = (if (s.core n).resv = some (r.addr / 64) then none else (s.core n).resv)) ∧
          (∀ i < r.size, NSet.has t.badMem (r.addr + i) = false) ∧
          ({ s with mem := t.mem, badMem := t.badMem, cores := t.cores } : State).told t []) ∧
      (r.write = false → s.badByte r.addr r.size = none →
        ∃ t, exec (.localBankAccess r) s = .next t ∧ t.answered r.master g r.addr false 0 (Mem.read s.mem r.addr r.size) ∧ s.told t []) ∧
      (r.write = false → s.badByte r.addr r.size ≠ none →
        ∃ t, exec (.localBankAccess r) s = .next t ∧ t.answered r.master g r.addr false 7 [] ∧ s.raises t 265 ∧
          t.flag F.HBK_LPERR_VALID = true ∧ s.told t [A.HBK_LPERRCNT, A.HBK_LPERR])) ∧
    (s.borrowed r.addr = false → natural r.addr r.size = true → r.addr < 0x2000000 →
      s.permitted r.master (r.addr % 0x1000000) r.write = false →
      ∃ t, exec (.localBankAccess r) s = .next t ∧ t.answered r.master g r.addr r.write 4 [] ∧ s.raises t 264 ∧
        t.fld F.HBK_DENYCNT_COUNT = Nat.min (s.fld F.HBK_DENYCNT_COUNT + 1) (2 ^ 32 - 1) ∧
        (s.flag F.HBK_DENY_VALID = false → t.flag F.HBK_DENY_VALID = true ∧ t.flag F.HBK_DENY_WR = r.write ∧
          t.fld F.HBK_DENYADDR_ADDR = r.addr % 0x1000000) ∧
        s.told t [A.HBK_DENYCNT, A.HBK_DENY, A.HBK_DENYADDR]) ∧
    (s.borrowed r.addr = false → natural r.addr r.size = false →
      ∃ t, exec (.localBankAccess r) s = .next t ∧ t.answered r.master g r.addr r.write 3 [] ∧ s.told t [] ∧ t.regs = s.regs)) ∧
  ((∀ (m off : Nat) (wr : Bool) (s : State), 16 ≤ m → s.permitted m off wr = true) ∧
  (∀ (m off : Nat) (wr : Bool) (s : State), m < 16 → (s.permitted m off wr = true ↔
    ∃ k < 8, s.flag (F.HBK_RGN_EN m k) = true ∧ (wr = true → s.flag (F.HBK_RGN_W m k) = true) ∧ s.fld (F.HBK_RGN_BASE m k) ≤ off / 4096 ∧
      off / 4096 ≤ s.fld (F.HBK_RGN_BASE m k) + s.fld (F.HBK_RGN_LENM1 m k))) ∧
  (∀ (m off : Nat) (wr : Bool), m < 16 → off < 0x1000000 → (State.reset.permitted m off wr = true ↔ off / 0x100000 = m))) ∧
  (∀ (m x : Nat) (d : Word) (s : State), s.Inv → x < 0x1000000 → x % 4 = 0 → s.reaches m (x / 0x100000) → s.borrowed (0x2000000 + x) = false →
    (s.permitted m x true = true → s.badByte (0x1000000 + x) 4 = none →
      (∃ t, exec (.bitSetAlias m x d) s = .next t ∧ t.answered m (x / 0x100000) (0x2000000 + x) true 0 [] ∧
        leNat (Mem.read t.mem (0x1000000 + x) 4) = leNat (Mem.read s.mem (0x1000000 + x) 4) ||| d.toNat ∧
        (∀ a, a < 0x1000000 + x ∨ 0x1000000 + x + 4 ≤ a → Mem.read1 t.mem a = Mem.read1 s.mem a) ∧
        (∀ n, (s.core n).resv = some ((0x1000000 + x) / 64) → (t.core n).resv = none) ∧
        ({ s with mem := t.mem, badMem := t.badMem, cores := t.cores } : State).told t []) ∧
      (∃ t, exec (.bitClearAlias m x d) s = .next t ∧ t.answered m (x / 0x100000) (0x3000000 + x) true 0 [] ∧
        BitVec.ofNat 32 (leNat (Mem.read t.mem (0x1000000 + x) 4)) = BitVec.ofNat 32 (leNat (Mem.read s.mem (0x1000000 + x) 4)) &&& ~~~d ∧
        (∀ a, a < 0x1000000 + x ∨ 0x1000000 + x + 4 ≤ a → Mem.read1 t.mem a = Mem.read1 s.mem a) ∧
        ({ s with mem := t.mem, badMem := t.badMem, cores := t.cores } : State).told t [])) ∧
    (s.permitted m x true = false →
      (∃ t, exec (.bitSetAlias m x d) s = .next t ∧ t.answered m (x / 0x100000) (0x2000000 + x) true 4 [] ∧ t.mem = s.mem ∧ s.raises t 264) ∧
      (∃ t, exec (.bitClearAlias m x d) s = .next t ∧ t.answered m (x / 0x100000) (0x3000000 + x) true 4 [] ∧ t.mem = s.mem)))

/-- R48, R135, R144, R496, R497: a read of a word of a core die window is served while the core domain is powered; a write of one is served in the
modes that permit its master, with fresh parity and no bit at or above a memory's WIDTH, and else answered STATE without effect; an unmapped offset is UNMAPPED, an absent die ABSENT.
R512, R514, R516: a read of HBM in a region gives its bytes; one that meets a codeword uncorrectable twice gives DATA with EV269, a
corrected one counts; a write of less than a codeword reads it first; a write is taken from the masters the region admits, and else refused with STATE or DENIED; outside every region it is
UNMAPPED, on a stack the grade lacks ABSENT. -/
def Obligations.CoreDiesAndHbmAnswerRequests : Prop :=
  (∀ (r : Req) (s : State) (g n o : Nat), s.Inv → targetOf r.addr = some g → n < 6 → o < 0x100000000 →
    r.addr = 0x1000000000 + n * 0x100000000 + o → r.size = 4 →
    (s.reaches r.master g → n < s.dies → o % 4 = 0 → ∀ c, s.cell n o = some c →
      (r.write = false → (s.cellRead n c).2 = false →
        ∃ t, exec (.coreDieWindowAccess r) s = .next t ∧ t.answered r.master g r.addr false 0 (leBytes 4 (s.cellRead n c).1) ∧ s.told t []) ∧
      (r.write = true → s.windowWrites r.master = true → r.data.length = 4 → SMap.wf 0 s.arr.instr = true → SMap.wf 0 s.arr.dict = true →
        ∃ t, exec (.coreDieWindowAccess r) s = .next t ∧ t.answered r.master g r.addr true 0 [] ∧
          ((∀ k, c = .bank k → s.dieWidth n k = 0) → (t.cellRead n c).1 = leNat r.data) ∧
          (∀ k, c = .bank k → s.dieWidth n k ≠ 0 → (t.cellRead n c).1 = leNat r.data % 2 ^ s.dieWidth n k) ∧ (t.cellRead n c).2 = false ∧
          (∀ p c', s.cell n p = some c' → c' ≠ c → (∀ k, c = .ds k → ∀ j, c' = .ds j → k + 4 ≤ j ∨ j + 4 ≤ k) →
            (∀ k, c = .dict k → ∀ j, c' = .dict j → k + 2 ≤ j ∨ j + 2 ≤ k) →
            t.cellRead n c' = s.cellRead n c') ∧
          ({ s with arr := t.arr, mem := t.mem, badMem := t.badMem, cores := t.cores, snp := t.snp } : State).told t []) ∧
      (r.write = true → s.windowWrites r.master = false →
        ∃ t, exec (.coreDieWindowAccess r) s = .next t ∧ t.answered r.master g r.addr true 5 [] ∧ s.told t [] ∧ t.regs = s.regs)) ∧
    (s.reaches r.master g → n < s.dies → s.cell n o = none →
      ∃ t, exec (.coreDieWindowAccess r) s = .next t ∧ t.answered r.master g r.addr r.write 1 [] ∧ s.told t [A.NOC_UNMAPCNT] ∧
        t.fld F.NOC_UNMAPCNT_COUNT = Nat.min (s.fld F.NOC_UNMAPCNT_COUNT + 1) (2 ^ 32 - 1)) ∧
    (s.ctl.corePower = true → s.dies ≤ n →
      ∃ t, exec (.coreDieWindowAccess r) s = .next t ∧ t.answered r.master g r.addr r.write 2 [] ∧ s.told t [])) ∧
  (∀ (r : Req) (s : State) (g : Nat), s.Inv → targetOf r.addr = some g → 0x10000000000 ≤ r.addr → r.addr < 0x11800000000 →
    s.reaches r.master g →
    (∀ k, (r.addr - 0x10000000000) / 0x600000000 < s.fuses.grade.stacks → s.regionOf r.addr = some k → natural r.addr r.size = true →
      (∀ f, r.write = false → 8 < r.size → s.noc.eccs = [(.uncorrectable, .uncorrectable)] →
        ∃ t, exec (.hbmNocAccess r .clean f) s = .next t ∧ t.answered r.master g r.addr false 7 [] ∧ s.raises t 269 ∧ t.noc.eccs = [] ∧
          t.mem = s.mem) ∧
      (∀ f, r.write = false → r.size ≤ 8 ∨ s.noc.eccs = [] →
        (∃ t, exec (.hbmNocAccess r .clean f) s = .next t ∧ t.answered r.master g r.addr false 0 (Mem.read s.mem r.addr r.size) ∧ s.told t []) ∧
        (∃ t, exec (.hbmNocAccess r .corrected f) s = .next t ∧ t.answered r.master g r.addr false 0 (Mem.read s.mem r.addr r.size) ∧
          t.fld F.HBK_HCE_COUNT = Nat.min (s.fld F.HBK_HCE_COUNT + 1) (2 ^ 32 - 1) ∧ (s.flag F.HBK_SCRUB_CEEV = true → s.raises t 268) ∧
          s.told t [A.HBK_HCE]) ∧
        (∃ t, exec (.hbmNocAccess r .uncorrectable .uncorrectable) s = .next t ∧ t.answered r.master g r.addr false 7 [] ∧
          t.flag F.HBK_HUE_VALID = true ∧ s.raises t 269 ∧ s.told t [A.HBK_HUE, A.HBK_HUEADDR])) ∧
      (r.write = true → s.hbmWriteErr r.master k = 0 → r.size < 8 →
        ∃ t, exec (.hbmNocAccess r .uncorrectable .uncorrectable) s = .next t ∧ t.answered r.master g r.addr true 7 [] ∧ t.mem = s.mem ∧
          t.flag F.HBK_HUE_VALID = true ∧ s.raises t 269 ∧ s.told t [A.HBK_HUE, A.HBK_HUEADDR]) ∧
      (∀ e f, r.write = true → s.hbmWriteErr r.master k = 0 → r.data.length = r.size → 8 ≤ r.size ∨ e = .clean →
        ∃ t, exec (.hbmNocAccess r e f) s = .next t ∧ t.answered r.master g r.addr true 0 [] ∧
          (k ≠ 1 → ∀ i < r.size, Mem.read1 t.mem (r.addr + i) = r.data.getD i 0) ∧
          (k = 1 → ∀ i < r.size, Mem.read1 t.mem (r.addr + i) = (s.hbmMask 1 r.addr r.data).getD i 0) ∧
          (∀ a, a < r.addr ∨ r.addr + r.size ≤ a → Mem.read1 t.mem a = Mem.read1 s.mem a) ∧ ({ s with mem := t.mem } : State).told t []) ∧
      (∀ e f, r.write = true → s.hbmWriteErr r.master k ≠ 0 →
        ∃ t, exec (.hbmNocAccess r e f) s = .next t ∧ t.answered r.master g r.addr true (s.hbmWriteErr r.master k) [] ∧ s.told t [])) ∧
    (∀ e f, (r.addr - 0x10000000000) / 0x600000000 < s.fuses.grade.stacks → s.regionOf r.addr = none →
      ∃ t, exec (.hbmNocAccess r e f) s = .next t ∧ t.answered r.master g r.addr r.write 1 [] ∧ s.told t [A.NOC_UNMAPCNT]) ∧
    (∀ e f, s.fuses.grade.stacks ≤ (r.addr - 0x10000000000) / 0x600000000 →
      ∃ t, exec (.hbmNocAccess r e f) s = .next t ∧ t.answered r.master g r.addr r.write 2 [] ∧ s.told t []))

/-- R620: the pin image shows the last bits of the pins and takes no write. R508, R519, R523, R524, R526, with assumption 46: a response
that nothing blocks on its way back reaches its initiator or, late, is only counted, and one that a stopped router or a full channel blocks
waits; a timeout is recorded with EV256, unless a stall notice has suspended it. -/
def Obligations.PinImageAndResponses : Prop :=
  (∀ (r : Req) (s : State) (i : Nat), s.Inv → i < 4 → r.addr = 0x20000000000 + 64 * i → r.size = 64 → s.reaches r.master 34 →
    (r.write = false →
      ∃ t, exec (.pinImageRead r) s = .next t ∧ s.told t [] ∧
        t.answered r.master 34 r.addr false 0 ((List.range 64).map fun j => BitVec.ofNat 8 (bitsNat ((List.range 8).map fun b =>
          NSet.has (if i = 0 then s.fio.lastIn else if i = 1 then s.fio.lastOutBits else if i = 2 then s.fio.lastOe else s.fio.lastCont)
            (8 * j + b))))) ∧
    (r.write = true → ∃ t, exec (.pinImageRead r) s = .next t ∧ t.answered r.master 34 r.addr true 0 [] ∧ s.told t [] ∧ t.regs = s.regs)) ∧
  (∀ (k : Nat) (f : Flight) (s : State), s.Inv → s.noc.flights[k]? = some f →
    (f.waits = none → f.lost = false → s.blocked true (s.noc.flights.take k) f.master f.route = true → exec (.nocResponse k) s = .next s) ∧
    (f.waits = none → f.lost = false → s.blocked true (s.noc.flights.take k) f.master f.route = false →
      ∃ t, exec (.nocResponse k) s = .next t ∧ t.noc.flights = s.noc.flights.eraseIdx k ∧
        t.fld F.NOC_LATE_COUNT = (if f.timedOut then Nat.min (s.fld F.NOC_LATE_COUNT + 1) (2 ^ 32 - 1) else s.fld F.NOC_LATE_COUNT) ∧
        s.told t [A.NOC_LATE]) ∧
    (f.stalled = true → exec (.nocTimeout k) s = .next s) ∧
    (f.timedOut = false → f.stalled = false → s.acq.arming = [] →
      ∃ t, exec (.nocTimeout k) s = .next t ∧ s.raises t 256 ∧ t.flag F.NOC_TMOSTAT_VALID = true ∧
        t.fld F.NOC_TMOCNT_COUNT = Nat.min (s.fld F.NOC_TMOCNT_COUNT + 1) (2 ^ 32 - 1) ∧
        (f.lost = false ∨ f.asks = true → t.noc.flights[k]? = some { f with timedOut := true }) ∧
        (f.lost = true → f.asks = false → t.noc.flights = s.noc.flights.eraseIdx k) ∧
        (s.flag F.NOC_TMOSTAT_VALID = false → t.fld F.NOC_TMOSTAT_TARGET = f.target % 64 ∧ t.fld F.NOC_TMOSTAT_MASTER = f.master % 32) ∧
        s.told t [A.NOC_TMOCNT, A.NOC_TMOSTAT, A.NOC_TMOADDRLO, A.NOC_TMOADDRHI]))

/-! ### Bank power, march tests, regions, fences, routers and routes (R501, R504 to R510, R515, R521, R525, R526) -/

/-- R504: a write of STATE starts a change, fencing a bank that leaves ON, or is ignored with ERR; the change completes with EV270, and
OFF loses the bank's contents.
R505 to R510 and assumption 62: GO starts a run or sets ERR; a chunk is borrowed and then given back as it was, when an access that
stalled for it is served, a failing word being recorded with EV267; a run ends with EV266, a destructive one leaving every word 0 and the bank unfenced. That a destructive run fences
its bank with AUTO and ends that fence is assumption 47.
R501, R515: LOCK once set makes every region register read-only; the core-addressable region is created where the allocator places it,
or ERR is set and nothing changes; it is freed once its requests are answered.
R521, R525, R526: a fence is set and ended by firmware while the hub does not hold it; a fenced target that has answered what it took
reads DRAINED, with EV260; a router under reconfiguration is not READY until it is ended and its links are trained; a route word is
taken with VALID 0, and else only if its route ends at the router of a target that exists, with EV258 and a record when not. -/
def Obligations.TheHubsMemoriesAndNetworkAreManaged : Prop :=
  (∀ (m b : Nat) (d : Word) (s : State), s.Inv → b < 16 →
    (s.reaches m 17 → s.flag (F.HBK_BPWR_BUSY b) = false → s.flag (F.HBK_MCTL_BUSY b) = false → s.flag (F.HBK_BPWR_FAIL b) = false →
      bits d.toNat 0 2 ≠ 3 → bits d.toNat 0 2 ≠ s.fld (F.HBK_BPWR_STATE b) →
      ∃ t, exec (.hbkBpwrWrite m b d) s = .next t ∧ t.flag (F.HBK_BPWR_BUSY b) = true ∧
        t.fld (F.HBK_BPWR_STATE b) = s.fld (F.HBK_BPWR_STATE b) ∧
        (s.fld (F.HBK_BPWR_STATE b) = 0 → t.flag (F.NOC_FENCE_AUTO b) = true ∧ t.flag (F.NOC_FENCE_DRAINED b) = s.flag (F.NOC_FENCE_DRAINED b)) ∧
        ({ s with hub := { s.hub with power := s.hub.power ++ [(b, bits d.toNat 0 2)] } } : State).told t [A.HBK_BPWR b, A.NOC_FENCE b]) ∧
    (s.reaches m 17 → (s.flag (F.HBK_BPWR_BUSY b) = true ∨ s.flag (F.HBK_MCTL_BUSY b) = true ∨ s.flag (F.HBK_BPWR_FAIL b) = true ∨
        bits d.toNat 0 2 = 3) →
      ∃ t, exec (.hbkBpwrWrite m b d) s = .next t ∧ t.flag (F.HBK_BPWR_ERR b) = true ∧
        t.fld (F.HBK_BPWR_STATE b) = s.fld (F.HBK_BPWR_STATE b) ∧ s.told t [A.HBK_BPWR b]) ∧
    (∀ want, (s.hub.power.find? fun x => x.1 == b) = some (b, want) → want < 3 →
      (s.fld (F.HBK_BPWR_STATE b) ≠ 0 ∨ s.flag (F.NOC_FENCE_DRAINED b) = true) →
      ∃ t, exec (.bankPowerDone b) s = .next t ∧ t.fld (F.HBK_BPWR_STATE b) = want ∧ t.flag (F.HBK_BPWR_BUSY b) = false ∧
        s.raises t 270 ∧ (want = 0 → t.flag (F.NOC_FENCE_AUTO b) = false) ∧
        (∀ a, (a < bankBase b ∨ bankBase b + 0x100000 ≤ a) → Mem.read1 t.mem a = Mem.read1 s.mem a) ∧
        (∀ a, bankBase b ≤ a → a < bankBase b + 0x100000 →
          Mem.read1 t.mem a = if want = 2 ∨ s.fld (F.HBK_BPWR_STATE b) = 2 then 0 else Mem.read1 s.mem a) ∧
        (s.fld (F.HBK_BPWR_STATE b) = 0 → ∀ n g, (t.core n).resv = some g → g * 64 < bankBase b ∨ bankBase b + 0x100000 ≤ g * 64) ∧
        ({ s with hub := t.hub, mem := t.mem, badMem := t.badMem, cores := t.cores } : State).told t [A.HBK_BPWR b, A.NOC_FENCE b])) ∧
  (∀ (m b : Nat) (d : Word) (fails : List Nat) (s : State), s.Inv → b < 16 →
    (s.reaches m 17 → bit d.toNat 31 = true → s.flag (F.HBK_MCTL_BUSY b) = false → s.fld (F.HBK_BPWR_STATE b) = 0 →
      s.flag (F.HBK_BPWR_BUSY b) = false →
      ∃ t, exec (.marchStart m b d) s = .next t ∧ t.flag (F.HBK_MCTL_BUSY b) = true ∧ t.flag (F.HBK_MCTL_PRESERVE b) = bit d.toNat 8 ∧
        t.mem = s.mem ∧
        (bit d.toNat 8 = true → t.cores = s.cores ∧ ∃ x, t.march b = some x ∧ x.preserve = true ∧ x.nb = s.noBorrow b) ∧
        (bit d.toNat 8 = false → t.flag (F.NOC_FENCE_AUTO b) = true ∧ t.hub.marches = s.hub.marches ++ [⟨b, false, 0, 0, false, []⟩]) ∧
        ({ s with hub := t.hub, cores := t.cores } : State).told t [A.HBK_MCTL b, A.HBK_MSTAT b, A.NOC_FENCE b]) ∧
    (s.reaches m 17 → bit d.toNat 31 = true → (s.flag (F.HBK_MCTL_BUSY b) = true ∨ s.fld (F.HBK_BPWR_STATE b) ≠ 0 ∨
        s.flag (F.HBK_BPWR_BUSY b) = true) →
      ∃ t, exec (.marchStart m b d) s = .next t ∧ t.flag (F.HBK_MCTL_ERR b) = true ∧ s.told t [A.HBK_MCTL b]) ∧
    (∀ x, s.march b = some x → x.preserve = true → x.ground < 4 →
      (∀ f ∈ s.noc.flights, f.stalled = true → f.target ≠ b) → s.acq.arming = [] →
      ∃ t, exec (.marchChunkBorrow b fails) s = .next t ∧ t.mem = s.mem ∧ t.noc = s.noc ∧
        (∃ y, t.march b = some y ∧ y.preserve = true ∧ y.borrowed = !x.borrowed) ∧
        (∀ w l, fails = w :: l → t.flag (F.HBK_MCTL_FAIL b) = true ∧ s.raises t 267 ∧
          (s.flag (F.HBK_MSTAT_VALID b) = false → t.fld (F.HBK_MSTAT_WORD b) = w % 65536)) ∧
        ({ s with hub := t.hub } : State).told t [A.HBK_MCTL b, A.HBK_MSTAT b]) ∧
    (∀ x f, s.march b = some x → x.preserve = true → x.ground < 4 → x.borrowed = true → s.noc.flights = [f] → s.acq.arming = [] →
      s.noc.answer = false → f.stalled = true → f.target = b → f.timedOut = false → f.asks = false → f.fetch = false → f.lost = false →
      f.write = false → f.waits = some [] → f.addr / 0x100000 = 16 + b → f.addr % 0x100000 / 4096 = x.chunk → natural f.addr f.size = true →
      s.permitted f.master (f.addr % 0x1000000) false = true → s.badByte f.addr f.size = none →
      ∃ t, exec (.marchChunkBorrow b fails) s = .next t ∧ t.mem = s.mem ∧
        t.answered f.master b f.addr false 0 (Mem.read s.mem f.addr f.size)) ∧
    (∀ x, s.march b = some x → (x.preserve = false ∨ 4 ≤ x.ground) →
      ∃ t, exec (.marchEnd b fails) s = .next t ∧ t.march b = none ∧ t.flag (F.HBK_MCTL_BUSY b) = false ∧ s.raises t 266 ∧
        (x.preserve = true → t.mem = s.mem) ∧
        (x.preserve = false → t.flag (F.NOC_FENCE_AUTO b) = false ∧ ∀ a, bankBase b ≤ a → a < bankBase b + 0x100000 → Mem.read1 t.mem a = 0) ∧
        (∀ a, (a < bankBase b ∨ bankBase b + 0x100000 ≤ a) → Mem.read1 t.mem a = Mem.read1 s.mem a) ∧
        ({ s with hub := t.hub, mem := t.mem, badMem := t.badMem } : State).told t [A.HBK_MCTL b, A.HBK_MSTAT b, A.NOC_FENCE b])) ∧
  (∀ (m : Nat) (d : Word) (s : State), s.Inv → s.reaches m 17 →
    (∃ t, exec (.hbkRlockWrite m d) s = .next t ∧ t.flag F.HBK_RLOCK_LOCK = (s.flag F.HBK_RLOCK_LOCK || bit d.toNat 0) ∧
      s.told t [A.HBK_RLOCK]) ∧
    (s.flag F.HBK_RLOCK_LOCK = true → ∀ n < 16, ∀ k < 8,
      ∃ t, exec (.registerWrite m (A.HBK_RGN n k) 4 d) s = .next t ∧ s.told t [] ∧ t.regs = s.regs) ∧
    (∀ b, bit d.toNat 30 = false → s.flag (F.HBK_HRGN_VALID 8) = false → bits d.toNat 0 14 ≠ 0 → s.place (bits d.toNat 0 14) = some b →
      ∃ t, exec (.hbkCamCreate m d) s = .next t ∧ t.region 9 = some (b * 0x200000, bits d.toNat 0 14 * 0x200000) ∧ t.hub = s.hub ∧
        s.told t [A.HBK_CAM, A.HBK_HRGN 8]) ∧
    (bit d.toNat 30 = false → (s.flag (F.HBK_HRGN_VALID 8) = true ∨ bits d.toNat 0 14 = 0 ∨ s.place (bits d.toNat 0 14) = none) →
      ∃ t, exec (.hbkCamCreate m d) s = .next t ∧ t.flag F.HBK_CAM_ERR = true ∧ t.region 9 = s.region 9 ∧ s.told t [A.HBK_CAM]) ∧
    (bit d.toNat 31 = false → s.flag (F.HBK_HRGN_VALID 8) = true →
      ∃ t, exec (.hbkCamFree m d) s = .next t ∧ ({ s with hub := { s.hub with camFreeing := true } } : State).told t [A.HBK_CAM]) ∧
    (s.hub.camFreeing = true →
      ∃ t, exec .camFreeDone s = .next t ∧ t.region 9 = none ∧
        ({ s with hub := { s.hub with camFreeing := false } } : State).told t [A.HBK_HRGN 8])) ∧
  (∀ (m : Nat) (d : Word) (s : State), s.Inv →
    (∀ t₀ < 64, s.reaches m 17 → s.flag (F.NOC_FENCE_AUTO t₀) = false →
      ∃ t, exec (.nocFenceWrite m t₀ d) s = .next t ∧ t.flag (F.NOC_FENCE_FENCE t₀) = bit d.toNat 31 ∧
        t.flag (F.NOC_FENCE_DRAINED t₀) = (bit d.toNat 31 && s.flag (F.NOC_FENCE_DRAINED t₀)) ∧ s.told t [A.NOC_FENCE t₀]) ∧
    (∀ t₀ < 64, s.reaches m 17 → s.flag (F.NOC_FENCE_AUTO t₀) = true →
      ∃ t, exec (.nocFenceWrite m t₀ d) s = .next t ∧ s.told t [] ∧ t.regs = s.regs) ∧
    (∀ t₀ < 64, s.fenced t₀ = true → s.flag (F.NOC_FENCE_DRAINED t₀) = false →
      (∀ f ∈ s.noc.flights, f.stalled = true → f.target ≠ t₀) →
      ∃ t, exec (.fenceDrained t₀) s = .next t ∧ t.flag (F.NOC_FENCE_DRAINED t₀) = true ∧ s.raises t 260 ∧ s.told t [A.NOC_FENCE t₀]) ∧
    (∀ r < 32, s.reaches m 17 →
      ∃ t, exec (.nocRcfgWrite m r d) s = .next t ∧ t.flag (F.NOC_RCFG_RECONF r) = bit d.toNat 31 ∧
        t.flag (F.NOC_RCFG_READY r) = (s.flag (F.NOC_RCFG_READY r) && !bit d.toNat 31) ∧ s.told t [A.NOC_RCFG r]) ∧
    (∀ r < 32, s.flag (F.NOC_RCFG_RECONF r) = false → s.flag (F.NOC_RCFG_READY r) = false → s.flag (F.NOC_RCFG_ABSENT r) = false →
      (∀ f ∈ s.noc.flights, f.waits = none) → s.acq.arming = [] →
      ∃ t, exec (.routerReady r) s = .next t ∧ t.flag (F.NOC_RCFG_READY r) = true ∧ t.noc.flights = s.noc.flights ∧
        s.told t [A.NOC_RCFG r]) ∧
    (∀ i < 25, ∀ e < 64, s.reaches m 17 → s.routeCode i e d = 0 →
      ∃ t, exec (.nocRtWrite m i e d) s = .next t ∧ bits (t.reg (A.NOC_RT i e)).toNat 23 9 = bits d.toNat 23 9 ∧ s.told t [A.NOC_RT i e]) ∧
    (∀ i < 25, ∀ e < 64, s.reaches m 17 → s.routeCode i e d ≠ 0 →
      ∃ t, exec (.nocRtWrite m i e d) s = .next t ∧ s.raises t 258 ∧ t.flag F.NOC_RTERR_VALID = true ∧ s.told t [A.NOC_RTERR] ∧
        (s.flag F.NOC_RTERR_VALID = false →
          t.fld F.NOC_RTERR_MASTER = i ∧ t.fld F.NOC_RTERR_ENTRY = e ∧ t.fld F.NOC_RTERR_CODE = s.routeCode i e d)) ∧
    (∀ i e, (bit d.toNat 31 = false → s.routeCode i e d = 0) ∧ (bit d.toNat 31 = true → 35 ≤ e → s.routeCode i e d ≠ 0) ∧
      (bit d.toNat 31 = true → bits d.toNat 0 23 = 0 → (routePath (masterRouter i) d).getLast? ≠ targetRouter e → s.routeCode i e d ≠ 0)))

/-! ### Image loading and release (R179 to R217) -/

/-- R189, R190, R201: LOAD_BEGIN and LOAD_STAGED in IDLE or ARMED put the module into LOAD with the load of that session begun, every store of
the array cleared and every TB_D counter at 0; LOAD_ABORT in LOAD and UNLOAD in ARMED lead to IDLE without a load or an image.
R189, R195, R210: STAGE_BEGIN opens a staging of a free slot when its region can be made, STAGE_DELETE empties a slot, and LOAD_QUERY
answers LDR_STAT, LDR_PROG and the last report and changes no register. -/
def Obligations.LoadAndStagingRequests : Prop :=
  (∀ (msg : Msg) (x : Session) (s : State), s.Inv → msg.port ≠ .mgmt → s.hmp.claim = some x.num →
    (s.takes msg 0x0500 x → (s.ctl.mode = .idle ∨ s.ctl.mode = .armed) → (msgBody msg x).length = 8 →
      ∃ t, exec (.loadBegin msg) s = .next t ∧ t.replied msg 0x0500 0 [] ∧ t.ctl.mode = .load ∧
        t.ldr.loading = some ⟨x.num, none, ⟨leAt (msgBody msg x) 0 8, [], 0, none, false⟩⟩ ∧ t.arr = Arr.reset ∧
        t.tim.td = List.replicate 16 0) ∧
    (s.takes msg 0x0501 x → (s.ctl.mode = .idle ∨ s.ctl.mode = .armed) → (msgBody msg x).length = 1 → leAt (msgBody msg x) 0 1 ≤ 3 →
      (∀ y ∈ s.ldr.stagings, y.slot ≠ leAt (msgBody msg x) 0 1) → s.flag (F.LDR_SLOT_VALID (leAt (msgBody msg x) 0 1)) = true →
      s.flag (F.LDR_SLOT_VERIFIED (leAt (msgBody msg x) 0 1)) = true →
      ∃ t k, exec (.loadStaged msg) s = .next t ∧ t.replied msg 0x0501 0 [] ∧ t.ctl.mode = .load ∧
        t.ldr.loading = some ⟨x.num, some (leAt (msgBody msg x) 0 1), k⟩ ∧ k.length = SMap.get 0 s.ldr.staged (leAt (msgBody msg x) 0 1)) ∧
    (s.takes msg 0x0502 x → s.ctl.mode = .load → s.ldr.loading ≠ none → msgBody msg x = [] →
      ∃ t, exec (.loadAbort msg) s = .next t ∧ t.replied msg 0x0502 0 [] ∧ t.ctl.mode = .idle ∧ t.ldr.loading = none ∧ t.ldr.img = none ∧
        t.arr.instr = [] ∧ t.arr.dict = [] ∧ t.arr.emit = []) ∧
    (s.takes msg 0x0503 x → s.ctl.mode = .armed → msgBody msg x = [] →
      ∃ t, exec (.unload msg) s = .next t ∧ t.replied msg 0x0503 0 [] ∧ t.ctl.mode = .idle ∧ t.ldr.img = none)) ∧
  (∀ (msg : Msg) (x : Session) (s : State), s.Inv → msg.port ≠ .mgmt →
    (s.takes msg 0x0504 x → s.hmp.claim = some x.num → stageModes s = true → (msgBody msg x).length = 16 →
      leAt (msgBody msg x) 0 1 ≤ 3 → leAt (msgBody msg x) 1 7 = 0 → s.slotBusy (leAt (msgBody msg x) 0 1) = false →
      (emptySlot (leAt (msgBody msg x) 0 1) s).create (2 + leAt (msgBody msg x) 0 1) (s.partFor (leAt (msgBody msg x) 8 8)) ≠ none →
      ∃ t, exec (.stageBegin msg) s = .next t ∧ t.replied msg 0x0504 0 [] ∧
        t.ldr.stagings = s.ldr.stagings ++ [⟨leAt (msgBody msg x) 0 1, x.num, ⟨leAt (msgBody msg x) 8 8, [], 0, none, false⟩⟩] ∧
        t.flag (F.LDR_SLOT_INUSE (leAt (msgBody msg x) 0 1)) = true ∧ t.flag (F.LDR_SLOT_VALID (leAt (msgBody msg x) 0 1)) = false) ∧
    (s.takes msg 0x0505 x → s.hmp.claim = some x.num → stageModes s = true → (msgBody msg x).length = 1 →
      leAt (msgBody msg x) 0 1 ≤ 3 → s.slotBusy (leAt (msgBody msg x) 0 1) = false →
      ∃ t, exec (.stageDelete msg) s = .next t ∧ t.replied msg 0x0505 0 [] ∧
        t.flag (F.LDR_SLOT_VALID (leAt (msgBody msg x) 0 1)) = false ∧ t.region (2 + leAt (msgBody msg x) 0 1) = none) ∧
    (s.takes msg 0x0506 x → s.ctl.corePower = true → msgBody msg x = [] →
      ∃ t, exec (.loadQuery msg) s = .next t ∧ t.regs = s.regs ∧ t.ldr = s.ldr ∧
        t.replied msg 0x0506 0 (leBytes 4 (s.reg A.LDR_STAT).toNat ++ leBytes 4 (s.reg A.LDR_PROG).toNat ++ s.reportBytes)))

/-- R190, R194, R195, R200, R204: a load whose checks have passed leads to ARMED, one with a fault or a stalled stream to IDLE with every
store cleared and the report in LDR_REF0; a staging that passes marks its slot VALID and VERIFIED, one that fails empties it; a
release stage that a boundary grain named takes effect. -/
def Obligations.LoadsAndStagingsEnd : Prop :=
  ∀ (s : State), s.Inv →
    (∀ x, s.ldr.loading = some x → x.take.ready = true →
      ∃ t, exec .loadComplete s = .next t ∧ t.ctl.mode = .armed ∧ t.ldr.loading = none ∧
        t.ldr.img = some (parse s.fuses.grade x.take.bytes).h ∧ t.ldr.relCount = 0 ∧ t.fld F.LDR_STAT_STATE = 2) ∧
    (∀ x r, s.ldr.loading = some x → x.take.fault = some r →
      ∃ t, exec .loadRefuse s = .next t ∧ t.ctl.mode = .idle ∧ t.ldr.loading = none ∧ t.arr.instr = [] ∧ t.arr.ds = [] ∧
        t.fld F.LDR_REF0_CODE = r.code % 65536) ∧
    (∀ x, s.ldr.loading = some x → x.take.fault = none → x.take.bytes.length < x.take.length ∨ x.take.length = 0 →
      ∃ t, exec .loadStall s = .next t ∧ t.ctl.mode = .idle ∧ t.ldr.loading = none ∧ t.fld F.LDR_REF0_CODE = 0x0510) ∧
    (∀ x, (s.ldr.stagings.find? fun y => y.take.ready || y.take.fault.isSome) = some x → x.slot ≤ 3 →
      ∃ t, exec .stageComplete s = .next t ∧ (∀ y ∈ t.ldr.stagings, y.slot ≠ x.slot) ∧
        (x.take.fault = none → t.flag (F.LDR_SLOT_VALID x.slot) = true ∧ t.flag (F.LDR_SLOT_VERIFIED x.slot) = true) ∧
        (∀ r, x.take.fault = some r → t.flag (F.LDR_SLOT_VALID x.slot) = false ∧ t.fld F.LDR_REF0_CODE = r.code % 65536)) ∧
    (s.lge.relDue ≠ 0 →
      ∃ t, exec .releaseStage s = .next t ∧ t.fld F.LDR_REL_STAGE = s.lge.relDue % 4 ∧ t.flag F.LDR_REL_WAIT = false ∧ t.lge.relDue = 0 ∧
        t.ldr = s.ldr ∧ t.arr = s.arr)

/-! ### Snapshot, checkpoint and restore (R218 to R237) -/

/-- R219 to R222: an accepted SNAP, by message or by SNP_CTL.REQ, takes the next SNAPID and waits for its boundary, or makes the flash copy at
once where the array stands at one; SNAP_DISCARD leaves no snapshot; SNAP_QUERY answers the registers and changes none.
R223 to R228: a priority copy that four slack grains of its bank have moved frees its line save buffer and counts (one not yet moved
stays), a drained unit of the shadow planes counts, a snapshot whose drains, sweep and field record are complete becomes KEPT, and a drained staging buffer ends cause SNAPSHOT when none is left below its guard. -/
def Obligations.SnapshotsAreTakenAndDrained : Prop :=
  (∀ (msg : Msg) (x : Session) (s : State), s.Inv →
    (s.takes msg 0x0600 x → s.hmp.claim = some x.num → snapModes s = true → s.isMaster = true → (msgBody msg x).length = 16 →
      leAt (msgBody msg x) 1 7 = 0 → s.snp.snap = none → s.snp.pend = none → s.region 6 ≠ none →
      (leAt (msgBody msg x) 0 1 = 0 →
        ∃ t, exec (.snap msg) s = .next t ∧ t.replied msg 0x0600 0 [] ∧ t.snp.lastId = (s.snp.lastId + 1) % 2 ^ 32 ∧
          t.fld F.SNP_UNDO_ENTRIES = 0 ∧
          (s.atBoundary = false → t.snp.pend = some none ∧ t.snp.snap = none ∧ t.fld F.SNP_STAT_STATE = 1) ∧
          (s.atBoundary = true → ∃ y, t.snp.snap = some y ∧ y.cycle = (s.lge.cycle + (2 ^ 64 - 1)) % 2 ^ 64 ∧ y.shadow = s.arr.ds ∧
            y.tbd = s.tim.td.map (·.toNat) ∧ t.snp.pend = none ∧ t.fld F.SNP_STAT_STATE = 2)) ∧
      (leAt (msgBody msg x) 0 1 = 1 → s.atBoundary = false → s.nextBoundary ≤ leAt (msgBody msg x) 8 8 →
        ∃ t, exec (.snap msg) s = .next t ∧ t.replied msg 0x0600 0 [] ∧ t.snp.pend = some (some (leAt (msgBody msg x) 8 8)))) ∧
    (s.takes msg 0x0601 x → s.hmp.claim = some x.num → s.ldr.img ≠ none → s.isMaster = true → msgBody msg x = [] →
      (s.snp.snap ≠ none ∨ s.snp.pend ≠ none) →
      ∃ t, exec (.snapDiscard msg) s = .next t ∧ t.replied msg 0x0601 0 [] ∧ t.snp.snap = none ∧ t.snp.pend = none ∧ t.snp.stream = none ∧
        t.fld F.SNP_STAT_STATE = 0 ∧ t.fld F.SNP_STAT_REASON = 5) ∧
    (s.takes msg 0x0604 x → s.ctl.corePower = true → msgBody msg x = [] →
      ∃ t, exec (.snapQuery msg) s = .next t ∧ t.regs = s.regs ∧ t.snp = s.snp ∧
        t.replied msg 0x0604 0 (leBytes 4 (s.reg A.SNP_STAT).toNat ++ leBytes 4 (s.reg A.SNP_ID).toNat ++
          leBytes 8 (s.pair A.SNP_CYCLO A.SNP_CYCHI) ++ leBytes 4 (s.reg A.SNP_UNDO).toNat)) ∧
    (∀ (m : Nat) (d : Word), s.reaches m 17 → bit d.toNat 0 = true → s.isMaster = true →
      s.ctl.clock = true → (s.ctl.mode = .run ∨ s.ctl.mode = .hold) → s.snp.snap = none → s.snp.pend = none → s.region 6 ≠ none →
      ∃ t, exec (.snpReq m d) s = .next t ∧ t.answered m 17 A.SNP_CTL true 0 [] ∧ t.snp.pend = some none ∧
        t.snp.lastId = (s.snp.lastId + 1) % 2 ^ 32 ∧ t.fld F.SNP_STAT_STATE = 1)) ∧
  (∀ (s : State), s.Inv →
    (∀ x l, s.snp.snap = some x → x.buffers.contains l = true → 4 ≤ SMap.get 0 x.moved l → s.badMem = [] →
      ∃ t y, exec (.priorityCopy l false) s = .next t ∧ t.snp.snap = some y ∧ NSet.has y.swept l = true ∧
        y.buffers = x.buffers.filter (· ≠ l) ∧ y.shadow = x.shadow ∧ t.mem = s.mem ∧
        t.fld F.SNP_PCOPY_COUNT = Nat.min (s.fld F.SNP_PCOPY_COUNT + 1) (2 ^ 32 - 1)) ∧
    (∀ x l, s.snp.snap = some x → SMap.get 0 x.moved l < 4 → exec (.priorityCopy l false) s = .next s) ∧
    (∀ x die, s.noc.eccs = [] → s.snp.snap = some x → x.badShadow = [] → (x.drained.getD die 128) < 128 →
      ∃ t y, exec (.shadowPlaneDrain die false) s = .next t ∧ t.snp.snap = some y ∧
        y.drained = setAt x.drained die (x.drained.getD die 128 + 1) ∧ y.shadow = x.shadow ∧ t.mem = s.mem) ∧
    (∀ x, s.noc.eccs = [] → s.snp.snap = some x → s.fld F.SNP_STAT_STATE = 2 → x.allSwept = false → x.inp ≠ none → x.buffers = [] →
      (∀ n ∈ x.drained, 128 ≤ n) → (∀ n ∈ x.sweep, 32768 ≤ n) →
      ∃ t y, exec .snapshotKept s = .next t ∧ t.snp.snap = some y ∧ y.allSwept = true ∧ y.shadow = x.shadow ∧
        t.fld F.SNP_STAT_STATE = 3 ∧ t.mem = s.mem) ∧
    (∀ c, (∀ n ∈ setAt s.snp.staged c 0, n + 4 * (s.H + 8) ≤ 16384) →
      ∃ t, exec (.undoBufferGuardClear c) s = .next t ∧ t.snp.staged = setAt s.snp.staged c 0 ∧
        t.flag F.SFB_HOLD_STAT_SNAPSHOT = false ∧ t.snp.snap = s.snp.snap))

/-- R221, R230, R233: CHECKPOINT of a snapshot opens the stream of the session that asked; RESTORE_BEGIN in ARMED puts the module into
RESTORE, with the restore of that session begun and no snapshot left.
R230, R233 to R237: a stalled checkpoint stream aborts the snapshot with reason STREAM; a restore whose checkpoint passes every check
leads to ARMED with the cycle number and the TB_D counters of the checkpoint; one with a fault or a stalled stream leads to IDLE
without an image. -/
def Obligations.CheckpointAndRestore : Prop :=
  (∀ (msg : Msg) (x : Session) (s : State), s.Inv → msg.port ≠ .mgmt → s.hmp.claim = some x.num →
    (s.takes msg 0x0602 x → ckModes s = true → msgBody msg x = [] → s.snp.snap ≠ none → s.snp.stream = none → s.noc.eccs = [] →
      ∃ t c p g, exec (.checkpoint msg) s = .next t ∧ t.snp.stream = some c ∧ c.session = x.num ∧ t.fld F.SNP_STAT_STATE = 4 ∧
        ⟨msg.port, 2, 0x0602, msg.seq.toNat, msg.session.toNat, 0, p, g⟩ ∈ t.out.drop s.out.length ∧ t.snp.snap = s.snp.snap ∧ t.mem = s.mem) ∧
    (s.takes msg 0x0603 x → s.ctl.mode = .armed → (msgBody msg x).length = 8 →
      ∃ t, exec (.restoreBegin msg) s = .next t ∧ t.replied msg 0x0603 0 [] ∧ t.ctl.mode = .restore ∧
        t.snp.restoring = some ⟨x.num, leAt (msgBody msg x) 0 8, [], false⟩ ∧ t.snp.snap = none ∧ t.fld F.LDR_STAT_STATE = 3)) ∧
  (∀ (s : State), s.Inv →
    (∀ c o, s.snp.stream = some c → s.snp.snap ≠ none → o ∈ s.hmp.outs → o.session = c.session → o.opcode = 0x0602 → o.data ≠ [] →
      ∃ t, exec .checkpointStall s = .next t ∧ t.snp.snap = none ∧ t.snp.stream = none ∧ t.fld F.SNP_STAT_REASON = 4) ∧
    (∀ r, s.snp.restoring = some r → r.length ≤ r.bytes.length → s.ckFault r = none →
      ∃ t, exec .restoreComplete s = .next t ∧ t.ctl.mode = .armed ∧ t.snp.restoring = none ∧
        t.lge.cycle = (leAt r.bytes 64 8 + 1) % 2 ^ 64 ∧ t.snp.restored = some (leAt r.bytes 56 4, leAt r.bytes 64 8) ∧
        (∀ i < 16, t.tim.td.getD i 0 = BitVec.ofNat 64 (leAt r.bytes (72 + 8 * i) 8))) ∧
    (∀ r f, s.snp.restoring = some r → s.ckFault r = some f →
      ∃ t, exec .restoreRefuse s = .next t ∧ t.ctl.mode = .idle ∧ t.snp.restoring = none ∧ t.ldr.img = none ∧ t.arr.instr = []) ∧
    (∀ r, s.snp.restoring = some r → s.ckFault r = none → r.bytes.length < r.length →
      ∃ t, exec .restoreStall s = .next t ∧ t.ctl.mode = .idle ∧ t.snp.restoring = none ∧ t.ldr.img = none ∧ t.arr.instr = []))

/-! ### Trigger and acquisition (R249 to R298) -/

/-- R254, R265, R270 to R272: an arm that no check of R270 refuses is accepted, by message or by ACQ_CTL.ARM: the capture set table comes
from the unit's own buffer or is read over the network, here from local banks, the first captured cycle is fixed, the trigger is
clear and four rings stand ready; a refused one leaves its status in ACQ_ERR. A stop waits for the boundary grain.
R258 to R266, R268, R269: capturing begins at its first cycle, a GO that completes moves the sequencer to NEXT, the auto timer and a
league trigger join their actions, the stop cycle ends capturing with END 1 or re-arms, a calibration writes the alignment of its
ports, from the sums that its markers gave at both ends (assumption 65), and answers, and a buffered record goes to its ring. -/
def Obligations.AcquisitionRunsFromArmToStop : Prop :=
  (∀ (s : State), s.Inv →
    (∀ (n a : Nat) (tab : List Byte), n = s.fld F.ACQ_SETN_NB + s.fld F.ACQ_SETN_NW →
      a = (s.fld F.ACQ_SETLO_ADDR + 2 ^ 32 * s.fld F.ACQ_SETHI_ADDR) / 4 * 4 →
      (s.acq.ownSet = true ∧ tab = s.acq.setBuf.take (4 * n) ∨
        s.acq.ownSet = false ∧ 0x1000000 ≤ a ∧ a + 4 * n ≤ 0x2000000 ∧ (∀ k < 16, s.reaches 20 k) ∧ s.badMem = [] ∧
          (∀ y ∈ s.hub.marches, y.borrowed = false) ∧ (∀ f ∈ s.noc.flights, f.asks = true → f.master ≠ 20) ∧
          tab = Mem.read s.mem a (4 * n)) →
      (∀ (msg : Msg) (x : Session) (st : Nat), s.takes msg 0x0700 x → s.hmp.claim = some x.num → armModes s = true →
        (msgBody msg x).length = 8 →
        st = (if armStatus (leAt (msgBody msg x) 0 8) s ≠ 0 then armStatus (leAt (msgBody msg x) 0 8) s
          else if s.capTable tab = none then 0x784 else 0) →
        ∃ t, exec (.acqArm msg) s = .next t ∧ t.replied msg 0x0700 st [] ∧ t.fld F.ACQ_ERR_STATUS = st ∧
          (st = 0 →
            t.acq.armed = true ∧ t.acq.t = none ∧ t.acq.stopCycle = none ∧ t.acq.streams.length = 4 ∧ t.flag F.ACQ_CTL_DONE = false ∧
            some t.acq.entries = s.capTable tab ∧
            t.acq.f = if leAt (msgBody msg x) 0 8 = 0 then s.firstCycle else leAt (msgBody msg x) 0 8) ∧
          (st ≠ 0 → t.acq = s.acq)) ∧
      (∀ (m : Nat) (d : Word), s.reaches m 17 → bit d.toNat 0 = true → armModes s = true → armStatus 0 s = 0 → s.capTable tab ≠ none →
        ∃ t, exec (.acqCtlArm m d) s = .next t ∧ t.answered m 17 A.ACQ_CTL true 0 [] ∧ t.acq.armed = true ∧ t.acq.f = s.firstCycle ∧
          t.acq.t = none)) ∧
    (∀ (msg : Msg) (x : Session), s.takes msg 0x0700 x → s.hmp.claim = some x.num → armModes s = false → (msgBody msg x).length = 8 →
      ∃ t, exec (.acqArm msg) s = .next t ∧ t.replied msg 0x0700 3 [] ∧ t.fld F.ACQ_ERR_STATUS = 3 ∧ t.acq = s.acq) ∧
    (∀ (msg : Msg) (x : Session), s.takes msg 0x0701 x → s.hmp.claim = some x.num → s.ldr.img ≠ none → msgBody msg x = [] →
      ∃ t, exec (.acqStop msg) s = .next t ∧ t.replied msg 0x0701 0 [] ∧
        t.acq = (if s.flag F.ACQ_CTL_CAPT ∨ s.acq.armed = true then { s.acq with stopEnd := some 2 } else s.acq)) ∧
    (∀ (m : Nat) (d : Word), s.reaches m 17 → bit d.toNat 1 = true → s.acq.armed = true →
      ∃ t, exec (.acqCtlStop m d) s = .next t ∧ t.answered m 17 A.ACQ_CTL true 0 [] ∧ t.acq = { s.acq with stopEnd := some 2 })) ∧
  (∀ (s : State), s.Inv →
    (s.acq.armed = true → s.lge.cycle = s.acq.f → s.arr.pos < s.L + 9 →
      ∃ t, exec .captureStart s = .next t ∧ t.flag F.ACQ_CTL_CAPT = true ∧ t.acq = { s.acq with armed := false, heldNow := 0, fresh := 0 }) ∧
    (s.acq.goDone = true →
      ∃ t, exec .seqGoComplete s = .next t ∧ t.fld F.TRG_SEQ_STATE = s.fld (F.TRG_ST_CTL_NEXT (s.fld F.TRG_SEQ_STATE)) ∧
        t.fld F.TRG_SEQ_COUNT = 0 ∧ t.acq.goDone = false ∧ t.acq.acts = s.acq.acts ||| s.fld (F.TRG_ST_CTL_ACT (s.fld F.TRG_SEQ_STATE))) ∧
    (s.acq.autoDue = true → s.acq.goDone = false → bit s.acq.acts 0 = false →
      ∃ t, exec .trgAutoFire s = .next t ∧ t.acq.acts = s.acq.acts ||| s.fld F.TRG_AUTO_ACT ∧ t.acq.autoDue = false ∧
        t.acq.autoDone = true ∧ t.acq.forced = bit (s.fld F.TRG_AUTO_ACT) 0) ∧
    (∀ x r, s.arr.pos = s.L + 9 → s.lgDue s.cycleNow = x :: r →
      ∃ t, exec .leagueTriggerApply s = .next t ∧ t.acq.acts = s.acq.acts ||| (s.fld F.TRG_LG_ACT % 16) ∧
        t.acq.lgs = s.acq.lgs.filter (fun y => y.1 ≠ x.1)) ∧
    (∀ c, s.acq.stopCycle = some c → s.flag F.ACQ_CTL_CAPT = true → c < s.lge.cycle →
      ∃ t, exec .acqStopCycle s = .next t ∧
        (s.flag F.ACQ_CTL_REPEAT = false → t.flag F.ACQ_CTL_CAPT = false ∧ t.flag F.ACQ_CTL_DONE = true ∧ t.fld F.ACQ_CTL_END = 1) ∧
        (s.flag F.ACQ_CTL_REPEAT = true → t.flag F.ACQ_CTL_CAPT = true ∧ t.acq.f = c + 1 ∧ t.acq.t = none ∧ t.acq.stopCycle = none ∧
          t.fld F.TRG_SEQ_STATE = 0)) ∧
    (∀ m rs up, s.acq.calibrating = some m → s.portUp m.port = true → (rs.map (·.1)).Nodup →
      ∃ t, exec (.calComplete rs up) s = .next t ∧ t.replied m 0x0705 0 [] ∧ t.acq = { s.acq with calibrating := none } ∧
        (s.isMaster = true → t.fld F.ACQ_ALOFS_OFS = 0) ∧
        (s.isMaster = false → t.fld F.ACQ_ALOFS_OFS = unsgn 32 (sgn 16 (t.fld (F.ACQ_ALIGN_OFS (s.fld F.LGE_STAT_UPPORT))) + up)) ∧
        ∀ x ∈ rs, x.1 < 6 → t.flag (F.ACQ_ALIGN_STALE x.1) = false ∧
          t.fld (F.ACQ_ALIGN_OFS x.1) =
            unsgn 16 (((x.2.1 - x.2.2) * 1000000 - 256 * s.delay x.1 * (s.fld F.SFB_CLK_MHZ : Int) + 16000000) / 32000000)) ∧
    (∀ i r rest, s.acq.buffer = (i, r) :: rest → (s.ctl.clock = false ∨ s.arr.pos < s.L + 9 ∨ s.acq.fresh ≤ rest.length) →
      ∃ t, exec .acqBufferWrite s = .next t ∧ t.acq.buffer = rest ∧ (∀ a < 0x10000000000, Mem.read1 t.mem a = Mem.read1 s.mem a) ∧
        t.regs = s.regs) ∧
    (∀ (m k : Nat) (d : Word), s.reaches m 17 →
      (k < 6 → ∃ t, exec (.alignWrite m k d) s = .next t ∧ t.answered m 17 (A.ACQ_ALIGN k) true 0 [] ∧
        t.fld (F.ACQ_ALIGN_OFS k) = d.toNat % 65536 ∧ t.flag (F.ACQ_ALIGN_STALE k) = false) ∧
      (k = 6 → ∃ t, exec (.alignWrite m k d) s = .next t ∧ t.answered m 17 A.ACQ_ALOFS true 0 [] ∧
        t.reg A.ACQ_ALOFS = if s.isMaster then s.reg A.ACQ_ALOFS else d)))

/-- R268 to R270: ACQ_SETLOAD opens the stream of a capture set table, TUN_READ streams the records of a ring to the session,
ACQ_QUERY answers and changes nothing, ACQ_CAL on the master starts a calibration and answers later, and TUN_FREE leaves no tun. -/
def Obligations.AcquisitionReadoutRequests : Prop :=
  ∀ (msg : Msg) (x : Session) (s : State), s.Inv → s.ctl.corePower = true →
    (s.takes msg 0x0702 x → msg.port ≠ .mgmt → s.hmp.claim = some x.num → (msgBody msg x).length = 4 →
      ∃ t, exec (.acqSetload msg) s = .next t ∧ t.replied msg 0x0702 0 [] ∧ t.acq = { s.acq with setBuf := [], ownSet := true } ∧
        ⟨x.num, .capset, 0x0702, 0, [], 0, leAt (msgBody msg x) 0 4⟩ ∈ t.hmp.ins) ∧
    (s.takes msg 0x0703 x → msg.port ≠ .mgmt → s.hmp.claim = some x.num → (msgBody msg x).length = 16 → leAt (msgBody msg x) 1 7 = 0 →
      s.flag F.ACQ_CTL_CAPT = false → (∀ o ∈ s.hmp.outs, o.opcode ≠ 0x0703) → s.noc.eccs = [] →
      ∃ t, exec (.tunRead msg) s = .next t ∧ t.replied msg 0x0703 0 [] ∧ t.regs = s.regs ∧ t.mem = s.mem ∧
        (s.ringBytes (leAt (msgBody msg x) 0 1) (leAt (msgBody msg x) 8 8) = [] → t.hmp.outs = s.hmp.outs) ∧
        (s.ringBytes (leAt (msgBody msg x) 0 1) (leAt (msgBody msg x) 8 8) ≠ [] → ∃ o ∈ t.hmp.outs, o.session = x.num ∧ o.opcode = 0x0703 ∧
          o.data.flatten = s.ringBytes (leAt (msgBody msg x) 0 1) (leAt (msgBody msg x) 8 8))) ∧
    (s.takes msg 0x0704 x → msgBody msg x = [] →
      ∃ t p, exec (.acqQuery msg) s = .next t ∧ t.replied msg 0x0704 0 p ∧ p.length = 64 ∧ t.regs = s.regs ∧ t.acq = s.acq ∧
        p.take 24 = leBytes 4 (s.reg A.ACQ_CTL).toNat ++ leBytes 4 (s.reg A.TRG_TSTAT).toNat ++
          leBytes 8 (s.acq.t.getD 0xFFFFFFFFFFFFFFFF) ++ leBytes 8 s.acq.f) ∧
    (s.takes msg 0x0705 x → s.hmp.claim = some x.num → (s.ctl.mode = .idle ∨ s.ctl.mode = .armed) → s.isMaster = true → 1 < s.leagueSize → s.formed = true →
      msgBody msg x = [] →
      ∃ t, exec (.acqCal msg) s = .next t ∧ t.acq = { s.acq with calibrating := some msg } ∧ t.out = s.out) ∧
    (s.takes msg 0x0706 x → s.hmp.claim = some x.num → s.flag F.ACQ_CTL_CAPT = false → msgBody msg x = [] →
      ∃ t, exec (.tunFree msg) s = .next t ∧ t.replied msg 0x0706 0 [] ∧ t.region 7 = none ∧ t.acq.buffer = [] ∧ t.acq.streams = [] ∧
        t.acq.armed = false)

/-! ### Ifemet lanes (R299 to R344) -/

/-- R320 to R328: an enabled port that the topology lists (assumption 59) and that senses its partner leaves DETECT for TRAIN, an end
that is READY by itself says so in its patterns, a training whose lanes are deskewed and whose ends are
READY leads to LOCK with the delay of 64 patterns, groups that have found their markers and accepted 32 words lead on to EXCHANGE,
and a stage that times out, a lane without termination, a delay that is too long, a lost lane and a retrain or a disable lead back to
DETECT with their reason.
R329, R330: an eye scan begins in ACTIVE while none runs and ends with its error count, at most the 2^DWELL bits it samples; each 1 s interval begins with no CRC failure
counted. -/
def Obligations.PortsComeUpAndAreScanned : Prop :=
  (∀ (n : Nat) (s : State), s.Inv → n < 6 →
    (s.ctl.corePower = true → s.stage n = 0 → (n ≠ 5 ∨ s.fld F.LNK_SHARE_OWNER ≠ 2) →
      (∃ t, exec (.laneDetectPoll n .sensed) s = .next t ∧ t.flag (F.LNK_STAT_PRESENT n) = true ∧
        t.stage n = (if s.flag (F.LNK_CTL_EN n) = true ∧ n ∈ s.topoPorts then 1 else 0)) ∧
      (s.flag (F.LNK_CTL_EN n) = true → n ∈ s.topoPorts →
        ∃ t, exec (.laneDetectPoll n .lost) s = .next t ∧ t.stage n = 0 ∧ t.fld (F.LNK_STAT_REASON n) = 6)) ∧
    (s.ctl.corePower = true → s.stage n = 0 →
      ∃ t, exec (.laneDetectPoll n .absent) s = .next t ∧ t.flag (F.LNK_STAT_PRESENT n) = false ∧ t.stage n = 0) ∧
    (∀ (x : Training) (a b : List (Nat × Nat)), s.stage n = 1 →
      (trained x (a, b) = true →
        ∃ t, exec (.trainComplete n x (a, b)) s = .next t ∧ t.fld (F.LNK_OWD_OWDA n) = Nat.min (oneWay a) 0xFFFF ∧
          t.fld (F.LNK_OWD_OWDB n) = Nat.min (oneWay b) 0xFFFF ∧
          (oneWay a ≤ 14000 → oneWay b ≤ 14000 → t.stage n = 2) ∧
          (14000 < oneWay a ∨ 14000 < oneWay b → t.stage n = 0 ∧ t.fld (F.LNK_STAT_REASON n) = 7)) ∧
      (trained x (a, b) = false →
        exec (.trainComplete n x (a, b)) s = .next (s.setLane n { s.lane n with ready := ownReady x (a, b) }))) ∧
    (s.stage n = 2 →
      ((s.lane n).a.locked = true → (s.lane n).b.locked = true →
        ∃ t, exec (.lockComplete n) s = .next t ∧ t.stage n = 3 ∧ t.lanes = s.lanes) ∧
      ((s.lane n).a.locked = false ∨ (s.lane n).b.locked = false → exec (.lockComplete n) s = .next s)) ∧
    (1 ≤ s.stage n → s.stage n ≤ 3 →
      ∃ t, exec (.stageTimeout n) s = .next t ∧ t.stage n = 0 ∧ t.fld (F.LNK_STAT_REASON n) = s.stage n + 1) ∧
    (s.stage n ≠ 0 → ∃ t, exec (.laneLost n) s = .next t ∧ t.stage n = 0 ∧ t.fld (F.LNK_STAT_REASON n) = 1) ∧
    (∀ (m : Nat) (d : Word), s.reaches m 17 → bit d.toNat 8 = true → s.stage n ≠ 0 →
      ∃ t, exec (.lnkRetrain m n d) s = .next t ∧ t.answered m 17 (A.LNK_CTL n) true 0 [] ∧ t.stage n = 0 ∧
        t.fld (F.LNK_STAT_REASON n) = 10) ∧
    (∀ (m : Nat) (d : Word), s.reaches m 17 → bit d.toNat 31 = true → bit d.toNat 8 = false → (n ≠ 5 ∨ s.fld F.LNK_SHARE_OWNER ≠ 2) →
      s.flag F.LGE_CTL_AUTO = false →
      ∃ t, exec (.lnkEnable m n d) s = .next t ∧ t.answered m 17 (A.LNK_CTL n) true 0 [] ∧ t.flag (F.LNK_CTL_EN n) = true ∧
        t.stage n = s.stage n)) ∧
  (∀ (n : Nat) (s : State), s.Inv → n < 6 →
    (∀ (m : Nat) (d : Word), s.reaches m 17 → bit d.toNat 31 = true → s.stage n = 4 → s.flag (F.LNK_ESCTL_BUSY n) = false →
      ∃ t, exec (.eyeScanStart m n d) s = .next t ∧ t.answered m 17 (A.LNK_ESCTL n) true 0 [] ∧ t.flag (F.LNK_ESCTL_BUSY n) = true ∧
        t.flag (F.LNK_ESCTL_ABORT n) = false ∧ t.fld (F.LNK_ESERR_COUNT n) = 0) ∧
    (∀ errs, s.flag (F.LNK_ESCTL_BUSY n) = true →
      ∃ t, exec (.eyeScanEnd n errs) s = .next t ∧ t.flag (F.LNK_ESCTL_BUSY n) = false ∧
        t.fld (F.LNK_ESERR_COUNT n) = Nat.min (Nat.min errs (s.scanBits n)) 0xFFFFFFFF ∧ t.lanes = s.lanes) ∧
    (∃ t, exec (.laneErrInterval n) s = .next t ∧ (t.lane n).errs = 0 ∧ ∀ k, k ≠ n → t.lane k = s.lane k))

/-- R302 to R304, R308 to R310, R322: in TRAIN a group sends PRBS31 and, after every 4,096 UI, the calibration pattern with this end's READY bit
(assumption 60); a word that a group issues takes the next sequence number and is held for replay, a word held for resending
goes first, and after 16,384 words none goes out until a marker has; of what the lanes bring, a marker in its place restarts the
descramblers, a sound word in sequence is accepted, and a word with a stuff error or a CRC that fails is counted and asks for a replay. -/
def Obligations.LinkWordsAreSequencedAndReplayed : Prop :=
  ∀ (n k : Nat) (s : State), s.Inv → n < 6 → k < 2 →
    (s.ctl.corePower = true → 2 ≤ s.stage n → s.stage n ≤ 4 → ((s.lane n).grp k).resend = [] → ((s.lane n).grp k).sinceMark < 16384 →
      ∃ t, exec (.linkWordIssue n k) s = .next t ∧ ((t.lane n).grp k).txSeq = (((s.lane n).grp k).txSeq + 1) % 256 ∧
        ((t.lane n).grp k).sinceMark = ((s.lane n).grp k).sinceMark + 1 ∧
        ((t.lane n).grp k).held.length = Nat.min (((s.lane n).grp k).held.length + 1) 64) ∧
    (s.ctl.corePower = true → s.stage n = 1 → ((s.lane n).grp k).resend = [] → ((s.lane n).grp k).sinceMark < 16384 →
      ∃ t, exec (.linkWordIssue n k) s = .next t ∧ ((t.lane n).grp k).txSeq = ((s.lane n).grp k).txSeq ∧
        ((t.lane n).grp k).held = ((s.lane n).grp k).held ∧ t.regs = s.regs ∧
        (((s.lane n).grp k).sinceMark < 128 → ((t.lane n).grp k).gap = false ∧ ((t.lane n).grp k).line.map (·.length) = List.replicate 8 32) ∧
        (128 ≤ ((s.lane n).grp k).sinceMark → ((t.lane n).grp k).gap = true ∧
          (k = 0 → ((t.lane n).grp k).line.head? = some (List.replicate 64 (s.lane n).ready)))) ∧
    (16384 ≤ ((s.lane n).grp k).sinceMark → exec (.linkWordIssue n k) s = .next s) ∧
    (∀ w r, s.ctl.corePower = true → ((s.lane n).grp k).resend = w :: r → ((s.lane n).grp k).sinceMark < 16384 →
      ∃ t, exec (.linkWordIssue n k) s = .next t ∧ ((t.lane n).grp k).txSeq = ((s.lane n).grp k).txSeq ∧
        ((t.lane n).grp k).resend = r ∧ ((t.lane n).grp k).held = ((s.lane n).grp k).held) ∧
    (2 ≤ s.stage n → 16384 ≤ ((s.lane n).grp k).sinceMark →
      ∃ t, exec (.alignMarkerSend n k) s = .next t ∧ ((t.lane n).grp k).marks = ((s.lane n).grp k).marks + 1 ∧
        ((t.lane n).grp k).sinceMark = 0 ∧ t.regs = s.regs) ∧
    (∀ lanes, s.stage n = 4 → isMarker k lanes = true → ((s.lane n).grp k).rxSince = 16384 →
      ∃ t, exec (.linkWordReceive n k (lanes.take 4) (lanes.drop 4) true) s = .next t ∧ ((t.lane n).grp k).rxSince = 0 ∧ ((t.lane n).grp k).missed = 0 ∧
        ((t.lane n).grp k).rxScr = ((List.range 8).map fun i => laneSeed (8 * k + i)) ∧ t.stage n = 4) ∧
    (∀ (lanes : List (List Bool)) (w : Nat) (bad : Bool) (g : Grp), isMarker k lanes = false →
      ((s.lane n).grp k).receive k lanes = (w, bad, g) → s.stage n = 4 → s.fld F.LGE_STAT_STATE ≠ 2 → ((s.lane n).grp k).rxSince < 16384 →
      (bad = false → wordCrc w = w % 65536 → w / 2 ^ 252 = 0 → bit w 235 = false → s.portCode n ≠ 2 →
        (∀ q, ((s.lane n).grp k).rxSeq = some q → bits w 244 8 = (q + 1) % 256) →
        ∃ t, exec (.linkWordReceive n k (lanes.take 4) (lanes.drop 4) true) s = .next t ∧ ((t.lane n).grp k).rxSeq = some (bits w 244 8) ∧
          ((t.lane n).grp k).await = false ∧ t.stage n = 4) ∧
      (bad = true ∨ wordCrc w ≠ w % 65536 → ((s.lane n).grp k).await = false →
        ∃ t, exec (.linkWordReceive n k (lanes.take 4) (lanes.drop 4) true) s = .next t ∧ ((t.lane n).grp k).await = true ∧
          ((t.lane n).grp k).rxSeq = ((s.lane n).grp k).rxSeq ∧ t.flag (if k = 0 then F.LNK_STAT_RPLA n else F.LNK_STAT_RPLB n) = true ∧
          t.fld (F.LNK_CRCCNT_COUNT n) = Nat.min (s.fld (F.LNK_CRCCNT_COUNT n) + 1) (2 ^ (F.LNK_CRCCNT_COUNT n).w - 1)))

/-! ### The task scheduler, flags and channels (R444 to R473) -/

/-- R447: READY, BLOCK, YIELD, CANCEL, SETPRI and DONE of an entry in a state that permits them, each the one command of its cycle; R449, R452: the wakes of the same cycle
come after, and before a CANCEL.
R448: a command that the entry's state, the mode or the mask does not permit, a CANCEL of an IDLE entry and in pool mode of one neither READY
nor RUNNING (and of none that a flag wakes in the same cycle, R449) among them, counts in TSK_BADCMD, raises EV16, and changes no entry
beside R452's wakes. -/
def Obligations.SchedulerCommandsChangeTheirEntry : Prop :=
  (∀ (m n x : Nat) (s : State), s.Inv → s.reaches m 17 → s.tsk.batch = [] → x < 512 →
    (s.poolMode = false → (s.thr x = 0 ∨ s.thr x = 3) → s.fld (F.TSK_AFF_AFF x) ≠ 0 →
      ∃ t, exec (.tskReady ⟨m, false⟩ n x) s = .next t ∧ t.thr x = 1 ∧ x ∈ t.tsk.ready ∧ othersOnlyWake s t x ∧
        t.fld (F.TSK_THR_PRI x) = s.fld (F.TSK_THR_PRI x) ∧ ({ s with tsk := t.tsk } : State).told t [] [11]) ∧
    (∀ f < 4096, ∀ cons : Bool, s.poolMode = false → (s.thr x = 1 ∨ s.thr x = 2) →
      ∃ t, exec (.tskBlock ⟨m, false⟩ n x f cons) s = .next t ∧ othersOnlyWake s t x ∧ ({ s with tsk := t.tsk } : State).told t [] [11] ∧
        (s.thr x = 2 → s.fld (F.TSK_THR_CORE x) < 16 → t.flag (F.TSK_RUN_VALID (s.fld (F.TSK_THR_CORE x))) = false) ∧
        ((chservSet s).syncFlag f = false →
          t.thr x = 3 ∧ t.fld (F.TSK_THR_FLAG x) = f ∧ t.flag (F.TSK_THR_CONS x) = cons ∧ x ∉ t.tsk.ready) ∧
        ((chservSet s).syncFlag f = true → cons = false → t.thr x = 1)) ∧
    (s.poolMode = false → s.thr x = 2 →
      ∃ t, exec (.tskYield ⟨m, false⟩ n x) s = .next t ∧ t.thr x = 1 ∧ x ∈ t.tsk.ready ∧ othersOnlyWake s t x ∧
        t.flag (F.TSK_RUN_VALID (s.fld (F.TSK_THR_CORE x))) = false ∧ ({ s with tsk := t.tsk } : State).told t [] [11]) ∧
    ((if s.poolMode then s.thr x = 1 ∨ s.thr x = 2 else s.thr x ≠ 0) →
      ∃ t, exec (.tskCancel m n x false) s = .next t ∧ t.thr x = 0 ∧ x ∉ t.tsk.ready ∧ othersOnlyWake s t x ∧
        ({ s with tsk := t.tsk } : State).told t [] [11]) ∧
    (∀ p < 32, (s.poolMode = false ∨ s.thr x = 1 ∨ s.thr x = 2) →
      ∃ t, exec (.tskSetpri ⟨m, false⟩ n x p) s = .next t ∧ t.fld (F.TSK_THR_PRI x) = p ∧ (s.thr x ≠ 3 → t.thr x = s.thr x) ∧
        othersOnlyWake s t x ∧ ({ s with tsk := t.tsk } : State).told t [] [11]) ∧
    (s.poolMode = true → s.thr x = 2 →
      ∃ t, exec (.tskDone ⟨m, false⟩ n x) s = .next t ∧ t.thr x = 0 ∧ x ∉ t.tsk.ready ∧ othersOnlyWake s t x ∧
        t.flag (F.TSK_RUN_VALID (s.fld (F.TSK_THR_CORE x))) = false ∧ ({ s with tsk := t.tsk } : State).told t [] [11])) ∧
  (∀ (m n x p : Nat) (s : State), s.Inv → s.reaches m 17 → s.tsk.batch = [] → x < 512 →
    ∀ c ∈ (if s.poolMode = false ∧ (s.thr x = 0 ∨ s.thr x = 3) ∧ s.fld (F.TSK_AFF_AFF x) ≠ 0 then [] else [Instr.tskReady ⟨m, false⟩ n x]) ++
      (if s.poolMode = false ∧ (s.thr x = 1 ∨ s.thr x = 2) then [] else [Instr.tskBlock ⟨m, false⟩ n x p false]) ++
      (if s.poolMode = false ∧ s.thr x = 2 then [] else [Instr.tskYield ⟨m, false⟩ n x]) ++
      (if s.poolMode = false ∨ s.thr x = 1 ∨ s.thr x = 2 then [] else [Instr.tskSetpri ⟨m, false⟩ n x p]) ++
      (if s.poolMode = true ∧ s.thr x = 2 then [] else [Instr.tskDone ⟨m, false⟩ n x]) ++
      (if s.thr x ≠ 0 ∧ (s.poolMode = false ∨ s.thr x = 1 ∨ s.thr x = 2 ∨ (chservSet s).wakeable = true) then [] else
        [Instr.tskCancel m n x false]),
    ∃ t, exec c s = .next t ∧ t.fld F.TSK_BADCMD_VAL = Nat.min (s.fld F.TSK_BADCMD_VAL + 1) (2 ^ 32 - 1) ∧ s.raises t 16 ∧
      othersOnlyWake s t 512 ∧ ({ s with tsk := t.tsk } : State).told t [] [11])

/-- R450, R454, R455, R457: whatever the state of the scheduler, the one command of a cycle completes: a dispatch read is answered with the
word that TSK_DISPn shows, a mode write puts POOL in force when every entry is idle and sets ERR otherwise, a submission with an
affinity ends in OK or in FULL, and a flag write sets the flags it names that no thread waits for. A command that more of its cycle
follow (assumption 26) waits for them: its write is answered, a dispatch read not yet. -/
def Obligations.DispatchModePoolAndFlagCommandsComplete : Prop :=
  ∀ (m n : Nat) (d : Word) (s : State), s.Inv → s.reaches m 17 → s.tsk.batch = [] →
    (n < 16 → (∀ x ∈ s.tsk.ready, x < 512) →
      ∃ t, exec (.tskDispatch ⟨m, false⟩ n) s = .next t ∧ t.answered m 17 (A.TSK_DISP n) false 0 (leBytes 4 (s.dispWord n)) ∧
        othersOnlyWake s t ((s.candidate n).getD 512) ∧ ({ s with tsk := t.tsk } : State).told t [] [11]) ∧
    (∃ t, exec (.tskModeWrite m d) s = .next t ∧ t.answered m 17 A.TSK_MODE true 0 [] ∧
      ((∀ x < 512, s.thr x = 0) → t.poolMode = bit d.toNat 31) ∧
      ((∃ x < 512, s.thr x ≠ 0) → t.poolMode = s.poolMode ∧ t.flag F.TSK_MODE_ERR = true) ∧
      s.told t [] [11]) ∧
    (n < 16 → bit d.toNat 31 = true →
      ∃ t, exec (.poolSubmit ⟨m, false⟩ n d) s = .next t ∧ t.answered m 17 (A.TSK_PSUB n) true 0 [] ∧
        (s.fld (F.TSK_PAFF_AFF n) = 0 → t.flag (F.TSK_PSUB_OK n) = false ∧ t.flag (F.TSK_PSUB_FULL n) = false) ∧
        (s.fld (F.TSK_PAFF_AFF n) ≠ 0 → t.flag (F.TSK_PSUB_FULL n) = !t.flag (F.TSK_PSUB_OK n)) ∧
        ({ s with tsk := t.tsk } : State).told t [] [11]) ∧
    (n < 128 →
      ∃ t, exec (.flagSet m n d) s = .next t ∧ t.answered m 17 (A.TSK_FSET n) true 0 [] ∧
        (∀ f < 32, d.getLsbD f = true → (∀ x ∈ s.blockedThreads, s.fld (F.TSK_THR_FLAG x) ≠ 32 * n + f) →
          t.syncFlag (32 * n + f) = true) ∧
        othersOnlyWake s t 512 ∧ ({ s with tsk := t.tsk } : State).told t [] [11]) ∧
    (n < 16 → ∀ x f p : Nat, ∀ cons : Bool, x < 512 → f < 4096 → p < 32 →
      (∀ c ∈ [(Instr.tskReady ⟨m, true⟩ n x, cmdWord 1 false x 0), (Instr.tskBlock ⟨m, true⟩ n x f cons, cmdWord 2 cons x f),
          (Instr.tskYield ⟨m, true⟩ n x, cmdWord 3 false x 0), (Instr.tskCancel m n x true, cmdWord 4 false x 0),
          (Instr.tskSetpri ⟨m, true⟩ n x p, cmdWord 5 false x p), (Instr.tskDone ⟨m, true⟩ n x, cmdWord 6 false x 0)],
        ∃ t, exec c.1 s = .next t ∧ t.answered m 17 (A.TSK_CMD n) true 0 [] ∧
          ({ s with tsk := { s.tsk with batch := [.word n c.2] } } : State).told t []) ∧
      exec (.tskDispatch ⟨m, true⟩ n) s = .next { s with tsk := { s.tsk with batch := [.dispatch m n] } } ∧
      (bit d.toNat 31 = true →
        ∃ t, exec (.poolSubmit ⟨m, true⟩ n d) s = .next t ∧ t.answered m 17 (A.TSK_PSUB n) true 0 [] ∧
          ({ s with tsk := { s.tsk with batch := [.submit n] } } : State).told t []))

/-- R450, R454, R455, R457: a dispatch answers the candidate and makes it RUNNING, or answers BUSY, or 0; a mode write is taken when every
entry is idle, and clears PRI and AFF when it leaves pool mode, and else sets ERR; a submission takes the lowest FREE entry, or
reports FULL, in thread mode always; a flag write sets its flags. -/
def Obligations.DispatchPoolAndFlags : Prop :=
  ∀ (m n : Nat) (d : Word) (s : State), s.Inv → s.reaches m 17 → s.tsk.batch = [] →
    (∀ x, n < 16 → x < 512 → s.running n = none → s.candidate n = some x →
      ∃ t, exec (.tskDispatch ⟨m, false⟩ n) s = .next t ∧
        t.answered m 17 (A.TSK_DISP n) false 0 (leBytes 4 (2 ^ 31 + s.fld (F.TSK_THR_PRI x) * 2 ^ 24 + x)) ∧ t.thr x = 2 ∧
        t.fld (F.TSK_THR_CORE x) = n ∧ t.running n = some x ∧ x ∉ t.tsk.ready ∧ othersOnlyWake s t x ∧
        ({ s with tsk := t.tsk } : State).told t [] [11]) ∧
    (∀ x, n < 16 → s.running n = some x →
      ∃ t, exec (.tskDispatch ⟨m, false⟩ n) s = .next t ∧ t.answered m 17 (A.TSK_DISP n) false 0 (leBytes 4 (2 ^ 30)) ∧
        t.running n = some x ∧ othersOnlyWake s t 512) ∧
    (n < 16 → s.running n = none → s.candidate n = none →
      ∃ t, exec (.tskDispatch ⟨m, false⟩ n) s = .next t ∧ t.answered m 17 (A.TSK_DISP n) false 0 [0, 0, 0, 0] ∧ t.running n = none) ∧
    ((∀ x < 512, s.thr x = 0) →
      ∃ t, exec (.tskModeWrite m d) s = .next t ∧ t.poolMode = bit d.toNat 31 ∧
        (∀ x < 512, t.thr x = 0 ∧ t.fld (F.TSK_THR_CORE x) = s.fld (F.TSK_THR_CORE x) ∧
          (s.poolMode = true → bit d.toNat 31 = false → t.fld (F.TSK_THR_PRI x) = 0 ∧ t.fld (F.TSK_AFF_AFF x) = 0) ∧
          (s.poolMode = false ∨ bit d.toNat 31 = true → t.reg (A.TSK_THR x) = s.reg (A.TSK_THR x) ∧
            t.reg (A.TSK_AFF x) = s.reg (A.TSK_AFF x))) ∧
        s.told t [] [11]) ∧
    ((∃ x < 512, s.thr x ≠ 0) →
      ∃ t, exec (.tskModeWrite m d) s = .next t ∧ t.flag F.TSK_MODE_ERR = true ∧ t.poolMode = s.poolMode ∧ s.told t [A.TSK_MODE]) ∧
    (∀ x < 512, n < 16 → bit d.toNat 31 = true → s.poolMode = true → s.fld (F.TSK_PAFF_AFF n) ≠ 0 → s.thr x = 0 →
      (∀ u < x, s.thr u ≠ 0) →
      ∃ t, exec (.poolSubmit ⟨m, false⟩ n d) s = .next t ∧ t.thr x = 1 ∧ x ∈ t.tsk.ready ∧ t.reg (A.TSK_IFUNC x) = s.reg (A.TSK_PFUNC n) ∧
        t.reg (A.TSK_IARG x) = s.reg (A.TSK_PARG n) ∧ t.fld (F.TSK_AFF_AFF x) = s.fld (F.TSK_PAFF_AFF n) ∧
        t.fld (F.TSK_THR_PRI x) = s.fld (F.TSK_PAFF_PRI n) ∧ t.flag (F.TSK_PSUB_OK n) = true ∧ t.fld (F.TSK_PSUB_SLOT n) = x ∧
        othersOnlyWake s t x) ∧
    (n < 16 → bit d.toNat 31 = true → s.fld (F.TSK_PAFF_AFF n) ≠ 0 → (s.poolMode = false ∨ ∀ u < 512, s.thr u ≠ 0) →
      ∃ t, exec (.poolSubmit ⟨m, false⟩ n d) s = .next t ∧ t.flag (F.TSK_PSUB_FULL n) = true ∧ t.flag (F.TSK_PSUB_OK n) = false ∧
        s.raises t 18 ∧ othersOnlyWake s t 512) ∧
    (n < 128 → (∀ x < 512, s.thr x ≠ 3) →
      ∃ t, exec (.flagSet m n d) s = .next t ∧ (∀ f < 32, d.getLsbD f = true → t.syncFlag (32 * n + f) = true) ∧
        (∀ x < 512, t.thr x = s.thr x) ∧ ({ s with tsk := t.tsk } : State).told t [] [11])

/-- R460, R461, R465, R468: an index write that passes R461's checks sets the index firmware owns, one that fails them sets PTRERR and
changes no index; a publication writes the oldest reserved entries, in commit order, into their rings; a refill moves the oldest
spill entry into the ring when nothing is reserved ahead of it. -/
def Obligations.ChannelRingsMoveInOrder : Prop :=
  ∀ (m n : Nat) (d : Word) (s : State), s.Inv → n < 1024 → s.blockedThreads = [] → SMap.wf [] s.chn.spill = true →
    (∀ cons : Bool, s.reaches m 17 → s.flag (F.CHN_CFG_VALID n) = true → s.flag (F.CHN_CFG_DIR n) = !cons → bits d.toNat 0 18 < s.depth n →
      (bits d.toNat 31 1 * s.depth n + bits d.toNat 0 18 + 2 * s.depth n -
          (if cons then s.fld (F.CHN_CONS_WRAP n) * s.depth n + s.fld (F.CHN_CONS_IDX n)
           else s.fld (F.CHN_PROD_WRAP n) * s.depth n + s.fld (F.CHN_PROD_IDX n))) % (2 * s.depth n) ≤
        (if cons then s.occ n else s.depth n - s.occ n) →
      ∃ t, exec (.chnIndexWrite m n cons d) s = .next t ∧
        t.reg (if cons then A.CHN_CONS n else A.CHN_PROD n) = BitVec.ofNat 32 (bits d.toNat 31 1 * 2 ^ 31 +
          bits (s.reg (if cons then A.CHN_CONS n else A.CHN_PROD n)).toNat 18 13 * 2 ^ 18 + bits d.toNat 0 18) ∧
        t.reg (if cons then A.CHN_PROD n else A.CHN_CONS n) = s.reg (if cons then A.CHN_PROD n else A.CHN_CONS n) ∧ t.mem = s.mem) ∧
    (∀ cons : Bool, s.reaches m 17 → s.flag (F.CHN_CFG_VALID n) = true →
      (s.flag (F.CHN_CFG_DIR n) = cons ∨ s.depth n ≤ bits d.toNat 0 18) →
      ∃ t, exec (.chnIndexWrite m n cons d) s = .next t ∧ t.flag (F.CHN_STAT_PTRERR n) = true ∧ s.raises t 34 ∧
        t.reg (A.CHN_CONS n) = s.reg (A.CHN_CONS n) ∧ t.reg (A.CHN_PROD n) = s.reg (A.CHN_PROD n) ∧ t.mem = s.mem) ∧
    (∀ r l, s.chn.reserved = r :: l → r.chan = n →
      ∃ t, exec (.channelPublish n) s = .next t ∧ t.chn.reserved = l ∧ t.fld (F.CHN_CONS_IDX n) = s.fld (F.CHN_CONS_IDX n) ∧
        t.fld (F.CHN_PROD_IDX n) = (s.advance n false).fld (F.CHN_PROD_IDX n) ∧
        (∀ i < r.data.length, Mem.read1 t.mem (s.ringAddr n (s.fld (F.CHN_PROD_IDX n)) + i) = r.data.getD i 0) ∧
        (∀ b, b < s.ringAddr n (s.fld (F.CHN_PROD_IDX n)) ∨ s.ringAddr n (s.fld (F.CHN_PROD_IDX n)) + r.data.length ≤ b →
          Mem.read1 t.mem b = Mem.read1 s.mem b)) ∧
    (∀ e r, SMap.get [] s.chn.spill n = e :: r → s.occAll n < s.depth n → s.held n = 0 →
      ∃ t, exec (.spillRefill n .clean) s = .next t ∧ SMap.get [] t.chn.spill n = r ∧ t.flag (F.CHN_STAT_SPILL n) = !r.isEmpty ∧
        t.fld (F.CHN_PROD_IDX n) = (s.advance n false).fld (F.CHN_PROD_IDX n) ∧
        (∀ i < e.1.length, Mem.read1 t.mem (s.ringAddr n (s.fld (F.CHN_PROD_IDX n)) + i) = e.1.getD i 0) ∧
        (∀ b, b < s.ringAddr n (s.fld (F.CHN_PROD_IDX n)) ∨ s.ringAddr n (s.fld (F.CHN_PROD_IDX n)) + e.1.length ≤ b →
          Mem.read1 t.mem b = Mem.read1 s.mem b))

/-! ### UC32 (R403 to R429) -/

/-- R404, R406, R408, R409: the seventeen register instructions, each with its word at the pc, put their function of RA and RB, both read before the write, into RD; x0
takes no write; the pc moves on by 4; nothing else of the program's state changes.
R406 to R409: the immediate instructions, LUI and AUIPC; a shift by IMM[4:0] asks IMM[15:5] to be 0, LUI and AUIPC ask RA to be 0. -/
def Obligations.UcComputationsWriteTheirResult : Prop :=
  (∀ p ∈ ([(Instr.ucAdd, 0, fun a b => a + b), (Instr.ucSub, 1, fun a b => a - b), (Instr.ucAnd, 2, fun a b => a &&& b),
      (Instr.ucOr, 3, fun a b => a ||| b), (Instr.ucXor, 4, fun a b => a ^^^ b),
      (Instr.ucSll, 5, fun a b => a <<< (b.toNat % 32)), (Instr.ucSrl, 6, fun a b => a >>> (b.toNat % 32)),
      (Instr.ucSra, 7, fun a b => a.sshiftRight (b.toNat % 32)),
      (Instr.ucSlt, 8, fun a b => if a.toInt < b.toInt then 1 else 0), (Instr.ucSltu, 9, fun a b => if a.toNat < b.toNat then 1 else 0),
      (Instr.ucMul, 0x10, fun a b => a * b), (Instr.ucMulh, 0x11, fun a b => BitVec.ofInt 32 (a.toInt * b.toInt / 2 ^ 32)),
      (Instr.ucMulhu, 0x12, fun a b => BitVec.ofNat 32 (a.toNat * b.toNat / 2 ^ 32)),
      (Instr.ucDiv, 0x14, fun a b => if b = 0 then 0xFFFFFFFF else a.sdiv b), (Instr.ucDivu, 0x15, fun a b => if b = 0 then 0xFFFFFFFF else a / b),
      (Instr.ucRem, 0x16, fun a b => if b = 0 then a else a.srem b), (Instr.ucRemu, 0x17, fun a b => if b = 0 then a else a % b)] :
      List ((Nat → BitVec 5 → BitVec 5 → BitVec 5 → Instr) × Nat × (Word → Word → Word))),
    ∀ (n : Nat) (rd ra rb : BitVec 5) (s u : State), s.Inv → s.fetches n (wordR 0 rd ra rb p.2.1) u →
      ∃ t, exec (p.1 n rd ra rb) s = .next t ∧ programStep s t n rd (p.2.2 (s.x n ra) (s.x n rb)) ((s.core n).pc + 4)) ∧
  ((∀ p ∈ ([(Instr.ucAddi, 1, fun a i => a + i.signExtend 32), (Instr.ucAndi, 2, fun a i => a &&& i.zeroExtend 32),
      (Instr.ucOri, 3, fun a i => a ||| i.zeroExtend 32), (Instr.ucXori, 4, fun a i => a ^^^ i.zeroExtend 32),
      (Instr.ucSlti, 5, fun a i => if a.toInt < i.toInt then 1 else 0),
      (Instr.ucSltiu, 6, fun a i => if a.toNat < (i.signExtend 32).toNat then 1 else 0)] :
      List ((Nat → BitVec 5 → BitVec 5 → BitVec 16 → Instr) × Nat × (Word → BitVec 16 → Word))),
    ∀ (n : Nat) (rd ra : BitVec 5) (imm : BitVec 16) (s u : State), s.Inv → s.fetches n (wordI p.2.1 rd ra imm) u →
      ∃ t, exec (p.1 n rd ra imm) s = .next t ∧ programStep s t n rd (p.2.2 (s.x n ra) imm) ((s.core n).pc + 4)) ∧
  (∀ p ∈ ([(Instr.ucSlli, 7, fun a k => a <<< k), (Instr.ucSrli, 8, fun a k => a >>> k), (Instr.ucSrai, 9, fun a k => a.sshiftRight k)] :
      List ((Nat → BitVec 5 → BitVec 5 → BitVec 16 → Instr) × Nat × (Word → Nat → Word))),
    ∀ (n : Nat) (rd ra : BitVec 5) (imm : BitVec 16) (s u : State), s.Inv → s.fetches n (wordI p.2.1 rd ra imm) u →
      (imm.toNat < 32 →
        ∃ t, exec (p.1 n rd ra imm) s = .next t ∧ programStep s t n rd (p.2.2 (s.x n ra) imm.toNat) ((s.core n).pc + 4)) ∧
      (32 ≤ imm.toNat → exec (p.1 n rd ra imm) s = .next (except n 1 0 (u.settle n)))) ∧
  (∀ (n : Nat) (rd z : BitVec 5) (imm : BitVec 16) (s u : State), s.Inv →
    (z = 0 →
      (s.fetches n (wordI 0x0A rd z imm) u →
        ∃ t, exec (.ucLui n rd z imm) s = .next t ∧ programStep s t n rd (imm.zeroExtend 32 <<< 16) ((s.core n).pc + 4)) ∧
      (s.fetches n (wordI 0x0B rd z imm) u →
        ∃ t, exec (.ucAuipc n rd z imm) s = .next t ∧
        programStep s t n rd ((s.core n).pc + imm.zeroExtend 32 <<< 16) ((s.core n).pc + 4))) ∧
    (z ≠ 0 →
      (s.fetches n (wordI 0x0A rd z imm) u → exec (.ucLui n rd z imm) s = .next (except n 1 0 (u.settle n))) ∧
      (s.fetches n (wordI 0x0B rd z imm) u → exec (.ucAuipc n rd z imm) s = .next (except n 1 0 (u.settle n))))))

/-- R407, R410, R416, R418: a load reads its bytes, little-endian, where the address leads and extends them into RD: from a local
bank or the channel RAM through an aperture without caching, and from the MC's SRAM where no byte fails parity. A misaligned load raises LALIGN and writes no
register.
R407, R410, R413, R418: a store writes the low bytes of RD, little-endian, where the address leads and nothing else of the memory,
and ends the reservations on their granule. A misaligned store raises SALIGN and writes nothing.
R410, R413, R500: LL reads the word at RA and sets the reservation on its 64-byte granule; SC writes RB and answers 0 only under the
reservation of that granule, writes nothing and answers 1 without it, and clears the reservation either way; one that a region register
denies raises SPROT with or without it; elsewhere than in a local bank or the channel RAM both raise ATOMIC, and misaligned LALIGN
or SALIGN. -/
def Obligations.UcMemoryInstructions : Prop :=
  (∀ p ∈ ([(Instr.ucLb, 0x10, 1, fun v => (BitVec.ofNat 8 v).signExtend 32), (Instr.ucLbu, 0x11, 1, fun v => BitVec.ofNat 32 v),
      (Instr.ucLh, 0x12, 2, fun v => (BitVec.ofNat 16 v).signExtend 32), (Instr.ucLhu, 0x13, 2, fun v => BitVec.ofNat 32 v),
      (Instr.ucLw, 0x14, 4, fun v => BitVec.ofNat 32 v)] :
      List ((Nat → BitVec 5 → BitVec 5 → BitVec 16 → Instr) × Nat × Nat × (Nat → Word))),
    ∀ (n : Nat) (rd ra : BitVec 5) (imm : BitVec 16) (s u : State), s.Inv → s.fetches n (wordI p.2.1 rd ra imm) u →
      s.dataWatch n (s.ea n ra imm).toNat .load = none →
      (plainRam s u n (s.ea n ra imm).toNat p.2.2.1 .load →
        ∃ t, exec (p.1 n rd ra imm) s = .next t ∧
          programStep s t n rd (p.2.2.2 (leNat (Mem.read s.mem (s.nocAddr n (s.ea n ra imm).toNat) p.2.2.1))) ((s.core n).pc + 4)) ∧
      (n = 16 → (s.ea n ra imm).toNat % p.2.2.1 = 0 → 0x10000000 ≤ (s.ea n ra imm).toNat → (s.ea n ra imm).toNat < 0x10080000 →
        (∀ y ∈ s.badMem, y < mcMem (s.ea n ra imm).toNat ∨ mcMem (s.ea n ra imm).toNat + p.2.2.1 ≤ y) →
        ∃ t, exec (p.1 n rd ra imm) s = .next t ∧
          programStep s t n rd (p.2.2.2 (leNat (Mem.read s.mem (mcMem (s.ea n ra imm).toNat) p.2.2.1))) ((s.core n).pc + 4)) ∧
      ((s.ea n ra imm).toNat % p.2.2.1 ≠ 0 → exec (p.1 n rd ra imm) s = .next (except n 4 (s.ea n ra imm).toNat (u.settle n)))) ∧
  (∀ p ∈ ([(Instr.ucSb, 0x18, 1), (Instr.ucSh, 0x19, 2), (Instr.ucSw, 0x1A, 4)] :
      List ((Nat → BitVec 5 → BitVec 5 → BitVec 16 → Instr) × Nat × Nat)),
    ∀ (n : Nat) (rd ra : BitVec 5) (imm : BitVec 16) (s u : State), s.Inv → s.fetches n (wordI p.2.1 rd ra imm) u →
      s.dataWatch n (s.ea n ra imm).toNat .store = none →
      (plainRam s u n (s.ea n ra imm).toNat p.2.2 .store →
        ∃ t, exec (p.1 n rd ra imm) s = .next t ∧ (t.core n).pc = (s.core n).pc + 4 ∧
          (∀ r, t.x n r = s.x n r) ∧ (∀ k, t.sysReg n k = s.sysReg n k) ∧
          bytesWritten s t (s.nocAddr n (s.ea n ra imm).toNat) p.2.2 (s.x n rd) ∧
          ∀ m < 17, (t.core m).resv =
            if (s.core m).resv = some (s.nocAddr n (s.ea n ra imm).toNat / 64) then none else (s.core m).resv) ∧
      (n = 16 → (s.ea n ra imm).toNat % p.2.2 = 0 → 0x10000000 ≤ (s.ea n ra imm).toNat → (s.ea n ra imm).toNat < 0x10080000 →
        ∃ t, exec (p.1 n rd ra imm) s = .next t ∧ (t.core n).pc = (s.core n).pc + 4 ∧ (∀ r, t.x n r = s.x n r) ∧
          bytesWritten s t (mcMem (s.ea n ra imm).toNat) p.2.2 (s.x n rd)) ∧
      ((s.ea n ra imm).toNat % p.2.2 ≠ 0 → exec (p.1 n rd ra imm) s = .next (except n 5 (s.ea n ra imm).toNat (u.settle n)))) ∧
  (∀ (n : Nat) (rd ra rb : BitVec 5) (s u : State), s.Inv → n < 16 →
    (s.fetches n (wordI 0x1C rd ra 0) u → s.dataWatch n (s.x n ra).toNat .load = none →
      (plainRam s u n (s.x n ra).toNat 4 .load → findLine (s.core n).dcache (s.nocAddr n (s.x n ra).toNat) = none →
        ∃ t, exec (.ucLl n rd ra 0) s = .next t ∧ (t.core n).pc = (s.core n).pc + 4 ∧
          (∀ r, t.x n r = if r = rd ∧ rd ≠ 0 then BitVec.ofNat 32 (leNat (Mem.read s.mem (s.nocAddr n (s.x n ra).toNat) 4)) else s.x n r) ∧
          (t.core n).resv = some (s.nocAddr n (s.x n ra).toNat / 64) ∧ t.mem = s.mem) ∧
      ((s.x n ra).toNat % 4 ≠ 0 → exec (.ucLl n rd ra 0) s = .next (except n 4 (s.x n ra).toNat (u.settle n))) ∧
      ((s.x n ra).toNat % 4 = 0 → s.atomicAddr n (s.x n ra).toNat = none →
        exec (.ucLl n rd ra 0) s = .next (except n 0xF (s.x n ra).toNat (u.settle n)))) ∧
    (s.fetches n (wordR 0x1D rd ra rb 0) u → s.dataWatch n (s.x n ra).toNat .store = none →
      (plainRam s u n (s.x n ra).toNat 4 .store → findLine (s.core n).dcache (s.nocAddr n (s.x n ra).toNat) = none →
        ∃ t, exec (.ucSc n rd ra rb 0) s = .next t ∧ (t.core n).pc = (s.core n).pc + 4 ∧ (t.core n).resv = none ∧
          ((s.core n).resv = some (s.nocAddr n (s.x n ra).toNat / 64) →
            bytesWritten s t (s.nocAddr n (s.x n ra).toNat) 4 (s.x n rb) ∧ ∀ r, t.x n r = if r = rd ∧ rd ≠ 0 then 0 else s.x n r) ∧
          ((s.core n).resv ≠ some (s.nocAddr n (s.x n ra).toNat / 64) →
            t.mem = s.mem ∧ ∀ r, t.x n r = if r = rd ∧ rd ≠ 0 then 1 else s.x n r)) ∧
      ((s.x n ra).toNat % 4 = 0 → s.apertureFault n (s.x n ra).toNat .store = none →
        findLine (s.core n).dcache (s.nocAddr n (s.x n ra).toNat) = none → s.status n 4 = false →
        0x1000000 ≤ s.nocAddr n (s.x n ra).toNat → s.nocAddr n (s.x n ra).toNat < 0x2000000 →
        u.reaches n (s.nocAddr n (s.x n ra).toNat % 0x1000000 / 0x100000) → u.borrowed (s.nocAddr n (s.x n ra).toNat) = false →
        u.noc.flights = [] → u.permitted n (s.nocAddr n (s.x n ra).toNat % 0x1000000) true = false →
        ∃ t, exec (.ucSc n rd ra rb 0) s = .next t ∧ exceptionEntered s t n 0xB (s.x n ra).toNat ∧ u.raises t 264) ∧
      ((s.x n ra).toNat % 4 ≠ 0 → exec (.ucSc n rd ra rb 0) s = .next (except n 5 (s.x n ra).toNat (u.settle n))) ∧
      ((s.x n ra).toNat % 4 = 0 → s.atomicAddr n (s.x n ra).toNat = none →
        exec (.ucSc n rd ra rb 0) s = .next (except n 0xF (s.x n ra).toNat (u.settle n)))))

/-- R406, R407: a branch goes to pc + 4 × OFF when its comparison holds and to the next instruction when it does not; JAL and JALR put
pc + 4 into x1 or RD and go to their targets, JALR with bits [1:0] cleared and RA read before RD is written. -/
def Obligations.UcBranchesAndJumpsSetThePc : Prop :=
  (∀ p ∈ ([(Instr.ucBeq, 0x20, fun a b => a = b), (Instr.ucBne, 0x21, fun a b => a ≠ b), (Instr.ucBlt, 0x22, fun a b => a.toInt < b.toInt),
      (Instr.ucBge, 0x23, fun a b => b.toInt ≤ a.toInt), (Instr.ucBltu, 0x24, fun a b => a.toNat < b.toNat),
      (Instr.ucBgeu, 0x25, fun a b => b.toNat ≤ a.toNat)] :
      List ((Nat → BitVec 5 → BitVec 5 → BitVec 16 → Instr) × Nat × (Word → Word → Prop))),
    ∀ (n : Nat) (ra rb : BitVec 5) (off : BitVec 16) (s u : State), s.Inv → s.fetches n (wordB p.2.1 ra rb off) u →
      ∃ t, exec (p.1 n ra rb off) s = .next t ∧
        (p.2.2 (s.x n ra) (s.x n rb) → programStep s t n 0 0 ((s.core n).pc + 4 * off.signExtend 32)) ∧
        (¬p.2.2 (s.x n ra) (s.x n rb) → programStep s t n 0 0 ((s.core n).pc + 4))) ∧
  (∀ (n : Nat) (off : BitVec 26) (s u : State), s.Inv → s.fetches n (wordJ 0x28 off) u →
    ∃ t, exec (.ucJal n off) s = .next t ∧ programStep s t n 1 ((s.core n).pc + 4) ((s.core n).pc + 4 * off.signExtend 32)) ∧
  (∀ (n : Nat) (rd ra : BitVec 5) (imm : BitVec 16) (s u : State), s.Inv → s.fetches n (wordI 0x29 rd ra imm) u →
    ∃ t, exec (.ucJalr n rd ra imm) s = .next t ∧
      programStep s t n rd ((s.core n).pc + 4) ((s.x n ra + imm.signExtend 32) &&& 0xFFFFFFFC))

/-- R418, R420, R422: SYSCALL and BREAK enter their exception: EPC takes their own pc, ECAUSE the cause, EADDR 0, PIE and PPRV take IE and
PRV, IE becomes 0, PRV and EXL 1, the reservation ends, and the pc takes EVEC, or MVEC + 0x100 in monitor mode; with BRKMON set BREAK
enters monitor mode. R407: a word whose fields R407 does not permit raises ILLEGAL.
R420, R423, R431: ERET restores IE from PIE and PRV from PPRV, clears EXL and the reservation, and resumes at EPC without bits [1:0];
MRET clears MON and the reservation, restores PRV as it stood at entry, and resumes at MEPC. -/
def Obligations.UcTrapsAndReturns : Prop :=
  (∀ (n : Nat) (s u : State), s.Inv →
    (s.fetches n (wordSys 0 0) u → s.status n 4 = false →
      ∃ t, exec (.ucSyscall n 0) s = .next t ∧ exceptionEntered s t n 0xC 0) ∧
    (s.fetches n (wordSys 0 1) u → s.status n 4 = false → (n = 16 ∨ u.flag (F.TCC_CTL_BRKMON n) = false) →
      ∃ t, exec (.ucBreak n 0) s = .next t ∧ exceptionEntered s t n 0xD 0) ∧
    (s.fetches n (wordSys 0 1) u → n < 16 → u.flag (F.TCC_CTL_BRKMON n) = true → s.status n 8 = false →
      ∃ t, exec (.ucBreak n 0) s = .next t ∧ monitorEntered s t n 2) ∧
    (∀ z : BitVec 15, z ≠ 0 → ∀ p ∈ [(Instr.ucSyscall n z, 0), (.ucBreak n z, 1), (.ucEret n z, 2), (.ucMret n z, 3), (.ucWfe n z, 4),
        (.ucFence n z, 5)],
      s.fetches n (wordSys z p.2) u → exec p.1 s = .next (except n 1 0 (u.settle n))) ∧
    (∀ (v : Nat) (rd ra rb : BitVec 5), s.fetches n v u → ucPermitted v = false →
      exec (.ucAdd n rd ra rb) s = .next (except n 1 0 (u.settle n)))) ∧
  (∀ (n : Nat) (s u : State), s.Inv → s.status n 2 = true →
    (s.fetches n (wordSys 0 2) u → ∃ t, exec (.ucEret n 0) s = .next t ∧ (t.core n).pc = s.sysReg n 1 &&& 0xFFFFFFFC ∧ (t.core n).resv = none ∧
      t.status n 0 = s.status n 1 ∧ t.status n 2 = s.status n 3 ∧ t.status n 4 = false ∧ t.status n 1 = s.status n 1 ∧
      t.status n 3 = s.status n 3 ∧ t.status n 8 = s.status n 8 ∧ t.status n 9 = s.status n 9 ∧
      (∀ k, k ≠ 0 → t.sysReg n k = s.sysReg n k) ∧ (∀ r, t.x n r = s.x n r) ∧ t.mem = s.mem) ∧
    (s.fetches n (wordSys 0 3) u → n < 16 → s.status n 8 = true →
      ∃ t, exec (.ucMret n 0) s = .next t ∧ (t.core n).pc = s.sysReg n 0x10 &&& 0xFFFFFFFC ∧ (t.core n).resv = none ∧
        t.status n 8 = false ∧ t.status n 2 = (s.core n).monPrv ∧ (∀ b ∈ [0, 1, 3, 4, 9], t.status n b = s.status n b) ∧
        (∀ k, k ≠ 0 → t.sysReg n k = s.sysReg n k) ∧ (∀ r, t.x n r = s.x n r) ∧ t.mem = s.mem) ∧
    (s.fetches n (wordSys 0 3) u → n = 16 → exec (.ucMret n 0) s = .next (except n 1 0 (u.settle n))))

/-- R411, R412, R429: WFE waits until what it waits for is present and completes at once when it is; FENCE moves on; MFS reads a system
register into RD; MTS writes the bits of a system register that MTS writes and no other; a register that is not listed, or is
read-only under MTS, raises ILLEGAL.
R417: the line operations of CACHE act on the line of a cacheable address and on no other line; the operations on all lines leave
no instruction line, no data line, or no dirty data line (a line stands at a multiple of 64). Shown where nothing is dirty that would
have to be written back. -/
def Obligations.UcSystemAndCacheInstructions : Prop :=
  (∀ (n : Nat) (r : BitVec 5) (imm : BitVec 16) (s u : State), s.Inv → s.status n 2 = true →
    (s.fetches n (wordSys 0 5) u → ∃ t, exec (.ucFence n 0) s = .next t ∧ programStep s t n 0 0 ((s.core n).pc + 4)) ∧
    (s.fetches n (wordSys 0 4) u → ∃ t, exec (.ucWfe n 0) s = .next t ∧ programStep s t n 0 0 ((s.core n).pc + 4) ∧ (t.core n).wfe = !u.wfeDone n) ∧
    (s.fetches n (wordI 0x31 r 0 imm) u → imm.toNat < 0x1000 → sysListed n imm.toNat = true → imm.toNat ≠ 9 → imm.toNat ≠ 0xA →
      ∃ t, exec (.ucMfs n r 0 imm) s = .next t ∧ programStep s t n r (s.sysReg n imm.toNat) ((s.core n).pc + 4)) ∧
    (s.fetches n (wordI 0x31 r 0 9) u → ∃ t, exec (.ucMfs n r 0 9) s = .next t ∧ programStep s t n r ((s.core n).cyc.truncate 32) ((s.core n).pc + 4) ∧
      (t.core n).cycLatch = ((s.core n).cyc >>> 32).truncate 32) ∧
    (s.fetches n (wordI 0x31 r 0 0xA) u → ∃ t, exec (.ucMfs n r 0 0xA) s = .next t ∧ programStep s t n r (s.core n).cycLatch ((s.core n).pc + 4)) ∧
    (s.fetches n (wordI 0x32 0 r imm) u → imm.toNat < 0x1000 → sysListed n imm.toNat = true → sysReadOnly imm.toNat = false →
      ∃ t, exec (.ucMts n 0 r imm) s = .next t ∧ (t.core n).pc = (s.core n).pc + 4 ∧
        (∀ i < 32, (t.sysReg n imm.toNat).getLsbD i =
          if (sysMask imm.toNat).getLsbD i then (s.x n r).getLsbD i else (s.sysReg n imm.toNat).getLsbD i) ∧
        (∀ k, k ≠ imm.toNat → t.sysReg n k = s.sysReg n k) ∧ (∀ q, t.x n q = s.x n q) ∧ t.mem = s.mem) ∧
    (s.fetches n (wordI 0x31 r 0 imm) u → sysListed n imm.toNat = false → exec (.ucMfs n r 0 imm) s = .next (except n 1 0 (u.settle n))) ∧
    (s.fetches n (wordI 0x32 0 r imm) u → sysListed n imm.toNat = false → exec (.ucMts n 0 r imm) s = .next (except n 1 0 (u.settle n))) ∧
    (s.fetches n (wordI 0x32 0 r imm) u → sysReadOnly imm.toNat = true → exec (.ucMts n 0 r imm) s = .next (except n 1 0 (u.settle n)))) ∧
  (∀ (n : Nat) (ra : BitVec 5) (imm : BitVec 16) (s u : State), s.Inv → n < 16 → s.status n 2 = true →
    (s.apertureFault n (s.ea n ra imm).toNat .load = none → s.cacheable n (s.ea n ra imm).toNat = true →
      (s.fetches n (wordI 0x33 0 ra imm) u → ∃ t, exec (.ucIinv n ra imm) s = .next t ∧ (t.core n).pc = (s.core n).pc + 4 ∧
        (t.core n).icache = dropLine (u.core n).icache (s.nocAddr n (s.ea n ra imm).toNat) ∧ (t.core n).dcache = (s.core n).dcache ∧
        t.mem = s.mem) ∧
      (s.fetches n (wordI 0x33 2 ra imm) u → ∃ t, exec (.ucDinv n ra imm) s = .next t ∧ (t.core n).pc = (s.core n).pc + 4 ∧
        (t.core n).dcache = dropLine (s.core n).dcache (s.nocAddr n (s.ea n ra imm).toNat) ∧ (t.core n).icache = (u.core n).icache ∧
        t.mem = s.mem) ∧
      ((∀ c ∈ (s.core n).dcache, c.dirty = false) →
        (s.fetches n (wordI 0x33 1 ra imm) u → ∃ t, exec (.ucDclean n ra imm) s = .next t ∧ (t.core n).pc = (s.core n).pc + 4 ∧ (t.core n).dcache = (s.core n).dcache ∧
          t.mem = s.mem) ∧
        (s.fetches n (wordI 0x33 3 ra imm) u → ∃ t, exec (.ucDflush n ra imm) s = .next t ∧ (t.core n).pc = (s.core n).pc + 4 ∧
          (t.core n).dcache = dropLine (s.core n).dcache (s.nocAddr n (s.ea n ra imm).toNat) ∧ t.mem = s.mem))) ∧
    (s.fetches n (wordI 0x33 8 ra imm) u → ∃ t, exec (.ucIinvAll n ra imm) s = .next t ∧ (t.core n).pc = (s.core n).pc + 4 ∧ (t.core n).icache = [] ∧
      (t.core n).dcache = (s.core n).dcache ∧ t.mem = s.mem) ∧
    (s.fetches n (wordI 0x33 10 ra imm) u → ∃ t, exec (.ucDinvAll n ra imm) s = .next t ∧ (t.core n).pc = (s.core n).pc + 4 ∧ (t.core n).dcache = [] ∧
      (t.core n).icache = (u.core n).icache ∧ t.mem = s.mem) ∧
    ((∀ c ∈ (s.core n).dcache, c.dirty = false) →
      (s.fetches n (wordI 0x33 9 ra imm) u → ∃ t, exec (.ucDcleanAll n ra imm) s = .next t ∧ (t.core n).pc = (s.core n).pc + 4 ∧ (t.core n).dcache = (s.core n).dcache ∧
        t.mem = s.mem) ∧
      (s.fetches n (wordI 0x33 11 ra imm) u → ∃ t, exec (.ucDflushAll n ra imm) s = .next t ∧ (t.core n).pc = (s.core n).pc + 4 ∧ 
          (t.core n).dcache = (s.core n).dcache.filter (fun c => c.addr % 64 ≠ 0) ∧ t.mem = s.mem)))

/-- R411, R417: in user mode the instructions that only privileged code may execute raise PRIV and do nothing else; DINV among the line
operations of CACHE does too. -/
def Obligations.UcUserModeIsKeptOut : Prop :=
  ∀ (n : Nat) (r q : BitVec 5) (imm : BitVec 16) (s u : State), s.Inv → s.status n 2 = false →
    ∀ p ∈ ([(.ucEret n 0, wordSys 0 2), (.ucWfe n 0, wordSys 0 4), (.ucIinvAll n r imm, wordI 0x33 8 r imm),
        (.ucDcleanAll n r imm, wordI 0x33 9 r imm), (.ucDinvAll n r imm, wordI 0x33 10 r imm), (.ucDflushAll n r imm, wordI 0x33 11 r imm),
        (.ucDinv n r imm, wordI 0x33 2 r imm)] ++ (if n < 16 then [(.ucMret n 0, wordSys 0 3)] else []) ++
        (if imm.toNat < 0x1000 then [(.ucMfs n q 0 imm, wordI 0x31 q 0 imm), (.ucMts n 0 r imm, wordI 0x32 0 r imm)] else []) :
        List (Instr × Nat)),
      s.fetches n p.2 u → exec p.1 s = .next (except n 2 0 (u.settle n))

/-- R404, R417: fetching an instruction changes no general or system register of any core, no pc, no reservation, no data cache and no byte of
memory.
R420, R421, R422, R423: a synchronous cause enters the exception while EXL is 0 and locks the core up while it is 1, with the pc in
TCC_FAULTPC, LOCKUP and DFAULT showing; INTERRUPT_ENTRY and MONITOR_ENTRY enter what the boundary takes. -/
def Obligations.FetchExceptionsAndMonitorEntry : Prop :=
  (∀ (n w : Nat) (s u : State), s.Inv → s.fetches n w u →
    u.Inv ∧ (∀ m r, u.x m r = s.x m r) ∧ (∀ m k, u.sysReg m k = s.sysReg m k) ∧ u.mem = s.mem ∧ u.badMem = s.badMem ∧
      ∀ m, (u.core m).pc = (s.core m).pc ∧ (u.core m).resv = (s.core m).resv ∧ (u.core m).dcache = (s.core m).dcache ∧
        (m ≠ n → u.core m = s.core m)) ∧
  (∀ (n : Nat) (s : State), s.Inv → n ≤ 16 →
    (∀ cause addr, cause < 16 → s.status n 4 = false → exceptionEntered s (except n cause addr s) n cause addr) ∧
    (∀ cause addr, s.status n 4 = true → n < 16 →
      ((except n cause addr s).core n).lockup = true ∧ (except n cause addr s).reg (A.TCC_FAULTPC n) = (s.core n).pc ∧
        (except n cause addr s).flag (F.TCC_STAT_DFAULT n) = true ∧ ∀ r, (except n cause addr s).x n r = s.x n r) ∧
    (∀ k, s.executes n = true → s.debugCause n = none → (s.core n).wdog = false → s.irqNow n = some k →
      ∃ t, exec (.interruptEntry n) s = .next t ∧ exceptionEntered s t n 0x11 k) ∧
    (∀ c, n < 16 → s.executes n = true → s.debugCause n = some c →
      ∃ t, exec (.monitorEntry n) s = .next t ∧ monitorEntered s t n c))

/-! ### Core control, watchdogs and events (R405, R421, R426 to R437, R569) -/

/-- R405, R437: RUN going 1 releases a core at its reset vector with every other register at its reset value; RUN going 0 puts it back in
reset and frees its scheduler entry (R453); RUN written as it stands leaves the core.
R431, R440 to R442: a kick with the key, or a write that sets EN, reloads the count with the period; any other kick changes nothing;
a first expiry makes WDOG pending and reloads; a second without a reload resets the core, records its pc and raises EV48 + n.
R565, R569: the clock of a core in WFE stops after SLEEP, and restarts with WAKE when what WFE waits for is present. -/
def Obligations.CoresAreReleasedWatchedAndPutToSleep : Prop :=
  (∀ (m n : Nat) (d : Word) (s : State), s.Inv → s.reaches m 17 → n < 16 →
    (bit d.toNat 31 = true → (s.core n).running = false →
      ∃ t, exec (.tccRunWrite m n d) s = .next t ∧
        t.core n = { Core.reset with running := true, pc := s.reg (A.TCC_RSTVEC n) &&& 0xFFFFFFFC, rstHalt := bit d.toNat 8 } ∧
        t.flag (F.TCC_STAT_INRST n) = false ∧ (∀ k, k ≠ n → t.core k = s.core k) ∧
        ({ s with cores := t.cores } : State).told t [A.TCC_CTL n, A.TCC_STAT n]) ∧
    (bit d.toNat 31 = false → (s.core n).running = true →
      ∃ t, exec (.tccRunWrite m n d) s = .next t ∧ t.core n = Core.reset ∧ t.flag (F.TCC_STAT_INRST n) = true ∧
        (∀ k, k ≠ n → t.core k = s.core k) ∧
        ((∀ x, s.running n = some x → s.thr x = 2 ∧ s.fld (F.TSK_THR_CORE x) = n) → t.flag (F.TSK_RUN_VALID n) = false) ∧
        ({ s with cores := t.cores, tsk := t.tsk, trc := t.trc } : State).told t [A.TCC_CTL n, A.TCC_STAT n] [11, 16]) ∧
    (bit d.toNat 31 = (s.core n).running →
      ∃ t, exec (.tccRunWrite m n d) s = .next t ∧ s.told t [A.TCC_CTL n] ∧ t.flag (F.TCC_CTL_BRKMON n) = bit d.toNat 9)) ∧
  (∀ (m n : Nat) (d : Word) (s : State), s.Inv → n < 16 →
    (s.reaches m 17 → d = 0xC0DE →
      ∃ t, exec (.watchdogKick m n d) s = .next t ∧ t.fld (F.TCC_WDCNT_US n) = Nat.max 1 (s.fld (F.TCC_WDCTL_US n)) ∧
        t.core n = { s.core n with wdogOnce := false } ∧ (∀ k, k ≠ n → t.core k = s.core k) ∧
        ({ s with cores := t.cores } : State).told t [A.TCC_WDCNT n]) ∧
    (s.reaches m 17 → d ≠ 0xC0DE → ∃ t, exec (.watchdogKick m n d) s = .next t ∧ s.told t [] ∧ t.regs = s.regs) ∧
    (s.reaches m 17 → bit d.toNat 31 = true →
      ∃ t, exec (.wdctlWrite m n d) s = .next t ∧ t.flag (F.TCC_WDCTL_EN n) = true ∧ t.flag (F.TCC_WDCTL_FREEZE n) = bit d.toNat 30 ∧
        t.fld (F.TCC_WDCNT_US n) = Nat.max 1 (bits d.toNat 0 24) ∧ t.core n = { s.core n with wdogOnce := false } ∧
        (∀ k, k ≠ n → t.core k = s.core k) ∧ ({ s with cores := t.cores } : State).told t [A.TCC_WDCTL n, A.TCC_WDCNT n]) ∧
    (s.reaches m 17 → bit d.toNat 31 = false →
      ∃ t, exec (.wdctlWrite m n d) s = .next t ∧ t.flag (F.TCC_WDCTL_EN n) = false ∧ s.told t [A.TCC_WDCTL n]) ∧
    (s.flag (F.TCC_WDCTL_EN n) = true → s.frozen n = false → (s.core n).running = true →
      ∃ t, exec (.watchdogExpiry n) s = .next t ∧ t.fld (F.TCC_WDCNT_US n) = Nat.max 1 (s.fld (F.TCC_WDCTL_US n)) ∧
        t.flag (F.TCC_WDCTL_EN n) = true ∧ (∀ k, k ≠ n → t.core k = s.core k) ∧
        ((s.core n).wdogOnce = false → t.core n = { s.core n with wdog := true, wdogOnce := true } ∧
          ({ s with cores := t.cores } : State).told t [A.TCC_WDCNT n]) ∧
        ((s.core n).wdogOnce = true →
          t.core n = { Core.reset with
            running := true, pc := s.reg (A.TCC_RSTVEC n) &&& 0xFFFFFFFC, rstHalt := s.flag (F.TCC_CTL_RSTHALT n) } ∧
          t.flag (F.TCC_STAT_WDRST n) = true ∧ t.reg (A.TCC_FAULTPC n) = (s.core n).pc ∧ s.raises t (48 + n) ∧
          ({ s with cores := t.cores, tsk := t.tsk, trc := t.trc } : State).told t
            [A.TCC_STAT n, A.TCC_WDCNT n, A.TCC_FAULTPC n] [11, 16]))) ∧
  (∀ (n : Nat) (s : State), s.Inv → n < 16 → s.trc.srcs.length = 16 →
    ((s.core n).running = true → (s.core n).wfe = true → (s.core n).asleep = false → (s.core n).lockup = false →
      ∃ t, exec (.coreSleep n) s = .next t ∧ t.core n = { s.core n with asleep := true, sleptAt := s.local } ∧
        (∀ k, k ≠ n → t.core k = s.core k) ∧ ({ s with cores := t.cores, trc := t.trc } : State).told t [] [16] ∧
        (s.flag (F.TRC_SRC_EN n) = false → t.trc = s.trc) ∧
        (s.flag (F.TRC_SRC_EN n) = true → (s.trcSrc n).due = false → s.trc.fifo.length + 11 ≤ 65536 →
          t.trc.fifo = s.trc.fifo ++ BitVec.ofNat 8 (0x30 + n) :: varint 10 (s.trcSrc n).delta ∧ (t.trcSrc n).delta = 0)) ∧
    ((s.core n).asleep = true → (s.core n).wfe = true → s.wfeDone n = true →
      ∃ t, exec (.coreWake n) s = .next t ∧ t.core n = { s.core n with asleep := false, wfe := false } ∧
        (∀ k, k ≠ n → t.core k = s.core k) ∧ ({ s with cores := t.cores, trc := t.trc } : State).told t [] [16] ∧
        (s.flag (F.TRC_SRC_EN n) = true → (s.trcSrc n).due = false → s.trc.fifo.length + 11 ≤ 65536 →
          t.trc.fifo = s.trc.fifo ++ BitVec.ofNat 8 (0x40 + n) :: varint 10 (s.local - (s.core n).sleptAt))))

/-- R428: a read of EVT_CLAIM returns the pending event of the greatest PRI above 0 that is enabled and routed to the core, the lowest number
among equals, whatever IPL, and clears it; with none it returns VALID 0; a read through the peek alias returns the same and clears
nothing. -/
def Obligations.ClaimTakesTheHighestEvent : Prop :=
  ∀ (m n : Nat) (s : State), s.Inv → s.reaches m 17 → n < 16 →
    (∀ k, pendsAt s n k → 0 < s.fld (F.EVT_CFG_PRI k) →
      (∀ j, pendsAt s n j → s.fld (F.EVT_CFG_PRI j) < s.fld (F.EVT_CFG_PRI k) ∨ s.fld (F.EVT_CFG_PRI j) = s.fld (F.EVT_CFG_PRI k) ∧ k ≤ j) →
      (∃ t, exec (.evtClaim m n) s = .next t ∧ t.answered m 17 (A.EVT_CLAIM n) false 0 (leBytes 4 (2 ^ 31 + k)) ∧
        t.flag ⟨A.EVT_PEND (k / 32), k % 32, 1⟩ = false ∧ s.told t [] ∧ (∀ a, a ≠ A.EVT_PEND (k / 32) → t.reg a = s.reg a) ∧
        ∀ j, j / 32 = k / 32 → j ≠ k → t.flag ⟨A.EVT_PEND (j / 32), j % 32, 1⟩ = s.flag ⟨A.EVT_PEND (j / 32), j % 32, 1⟩) ∧
      ∃ u, exec (.registerRcRead m (A.EVT_CLAIM n + 0x8000) 4) s = .next u ∧
        u.answered m 17 (A.EVT_CLAIM n + 0x8000) false 0 (leBytes 4 (2 ^ 31 + k)) ∧ s.told u [] ∧ u.regs = s.regs) ∧
    ((∀ k, pendsAt s n k → s.fld (F.EVT_CFG_PRI k) = 0) →
      ∃ t u v, v < 2 ^ 31 ∧ exec (.evtClaim m n) s = .next t ∧ t.answered m 17 (A.EVT_CLAIM n) false 0 (leBytes 4 v) ∧ s.told t [] ∧
        t.regs = s.regs ∧ exec (.registerRcRead m (A.EVT_CLAIM n + 0x8000) 4) s = .next u ∧
        u.answered m 17 (A.EVT_CLAIM n + 0x8000) false 0 (leBytes 4 v) ∧ s.told u [] ∧ u.regs = s.regs)

/-- R426, R430, R434: a write of EVT_TEST raises its event as its source would: enabled, it becomes pending, or counts in EVT_DUP when it
is; HOST sends one message to each session at most once in 1 ms, later raises merging; LOG enters it in the log; not enabled, or
above 319, nothing happens. The end of the 1 ms sends what merged. R21: a session of the management port and the log are reached only
through the management-frame crossing; R679: nothing is
sent on a port that is down. -/
def Obligations.EventsArePendedReportedAndMerged : Prop :=
  (∀ (m : Nat) (d : Word) (s : State), s.Inv → s.reaches m 17 → SMap.wf 0 s.evt.windows = true →
    (bits d.toNat 0 9 < 320 → s.flag (F.EVT_CFG_EN (bits d.toNat 0 9)) = true →
      ∃ t, exec (.evtTest m d) s = .next t ∧ t.flag ⟨A.EVT_PEND (bits d.toNat 0 9 / 32), bits d.toNat 0 9 % 32, 1⟩ = true ∧ s.told t [] ∧
        t.fld F.EVT_DUP_COUNT = (if s.flag ⟨A.EVT_PEND (bits d.toNat 0 9 / 32), bits d.toNat 0 9 % 32, 1⟩
          then Nat.min (s.fld F.EVT_DUP_COUNT + 1) (2 ^ 32 - 1) else s.fld F.EVT_DUP_COUNT) ∧
        (s.flag (F.EVT_CFG_HOST (bits d.toNat 0 9)) = true →
          SMap.get 0 t.evt.windows (bits d.toNat 0 9) = SMap.get 0 s.evt.windows (bits d.toNat 0 9) + 1 ∧
          t.out.length = s.out.length +
            (if SMap.get 0 s.evt.windows (bits d.toNat 0 9) = 0
              then (s.hmp.sessions.filter s.hears).length else 0)) ∧
        (s.flag (F.EVT_CFG_HOST (bits d.toNat 0 9)) = false → t.out = s.out) ∧
        t.mgt.logSeq = s.mgt.logSeq + (if s.flag (F.EVT_CFG_LOG (bits d.toNat 0 9)) && s.mgt.mcUp && s.mcReached then 1 else 0)) ∧
    ((320 ≤ bits d.toNat 0 9 ∨ s.flag (F.EVT_CFG_EN (bits d.toNat 0 9)) = false) →
      ∃ t, exec (.evtTest m d) s = .next t ∧ s.told t [] ∧ t.regs = s.regs ∧ t.out = s.out ∧ t.mgt = s.mgt)) ∧
  (∀ (k : Nat) (s : State), SMap.wf 0 s.evt.windows = true →
    ∃ t, exec (.eventHostMessage k) s = .next t ∧ t = { s with out := t.out, evt := t.evt } ∧
      (1 < SMap.get 0 s.evt.windows k → t.out.length = s.out.length + (s.hmp.sessions.filter s.hears).length ∧
        SMap.get 0 t.evt.windows k = 1) ∧
      (SMap.get 0 s.evt.windows k ≤ 1 → t.out = s.out ∧ SMap.get 0 t.evt.windows k = 0))

/-! ### Trace and counters (R564 to R582) -/

/-- R565, R566, R568, R570, R571, R573: MSG packets, SYNC on enabling, OVF after a loss, and the output selection, where the trace unit
takes lanes 12 to 15 unless port P5 owns them (EV293), and P5 then shows no partner (EV234 when PRESEV asks for it) and is BLOCKED (R328, R330,
R351). R572: the parallel output takes one stream byte an edge of TRCCLK, by its number at TRCD[7:0] or [15:8], with TRCVAL; the serial
lanes take whole blocks of 8. When bytes leave the FIFO is the drain command's (assumption 67). -/
def Obligations.TraceSourcesEmitPackets : Prop :=
  ∀ (m n : Nat) (d : Word) (s : State), s.Inv → s.trc.srcs.length = 16 →
    (s.reaches m 17 → m < 16 → s.flag (F.TRC_SRC_EN m) = true → (s.status m 8 = false ∨ s.flag F.TRC_AUTH_PRIV = true) →
      (s.trcSrc m).due = false → s.trc.fifo.length + 15 ≤ 65536 →
      ∃ t, exec (.trcMsgWrite m d) s = .next t ∧
        t.trc.fifo = s.trc.fifo ++ BitVec.ofNat 8 (0x10 + m) :: (varint 10 (s.trcSrc m).delta ++ leBytes 4 d.toNat) ∧
        (t.trcSrc m).delta = 0 ∧ ({ s with trc := t.trc } : State).told t [] ∧ t.regs = s.regs) ∧
    (s.reaches m 17 → (16 ≤ m ∨ s.flag (F.TRC_SRC_EN m) = false ∨ s.status m 8 = true ∧ s.flag F.TRC_AUTH_PRIV = false) →
      ∃ t, exec (.trcMsgWrite m d) s = .next t ∧ s.told t [] ∧ t.regs = s.regs) ∧
    (s.reaches m 17 → n < 16 → s.flag (F.TRC_SRC_EN n) = false → bit d.toNat 31 = true → s.trc.fifo.length + 9 ≤ 65536 →
      ∃ t, exec (.trcSrcWrite m n d) s = .next t ∧ t.flag (F.TRC_SRC_EN n) = true ∧ t.flag (F.TRC_SRC_LOOP n) = bit d.toNat 30 ∧
        t.fld (F.TRC_SRC_MINRUN n) = bits d.toNat 0 16 ∧
        t.trc.fifo = s.trc.fifo ++ BitVec.ofNat 8 (0x50 + n) :: leBytes 8 s.local ∧
        ({ s with trc := t.trc } : State).told t [A.TRC_SRC n]) ∧
    (s.reaches m 17 → n < 16 → s.flag (F.TRC_SRC_EN n) = true → bit d.toNat 31 = false →
      ∃ t, exec (.trcSrcWrite m n d) s = .next t ∧ t.flag (F.TRC_SRC_EN n) = false ∧ (t.core n).run = none ∧
        ({ s with trc := t.trc, cores := t.cores } : State).told t [A.TRC_SRC n, A.TRC_LOST]) ∧
    (s.reaches m 17 → bits d.toNat 0 2 = 2 → s.fld F.LNK_SHARE_OWNER = 1 →
      ∃ t, exec (.trcOutWrite m d) s = .next t ∧ t.fld F.TRC_CTL_OUT = 0 ∧ t.fld F.LNK_SHARE_OWNER = 1 ∧ s.raises t 293 ∧
        s.told t [A.TRC_CTL]) ∧
    (s.reaches m 17 → (bits d.toNat 0 2 ≠ 2 ∨ s.fld F.LNK_SHARE_OWNER ≠ 1) →
      ∃ t, exec (.trcOutWrite m d) s = .next t ∧ t.fld F.TRC_CTL_OUT = bits d.toNat 0 2 ∧
        t.fld F.LNK_SHARE_OWNER =
          (if bits d.toNat 0 2 = 2 then 2 else if s.fld F.LNK_SHARE_OWNER = 2 then 0 else s.fld F.LNK_SHARE_OWNER) ∧
        (bits d.toNat 0 2 = 2 → t.flag (F.LNK_STAT_PRESENT 5) = false ∧
          (s.flag (F.LNK_STAT_PRESENT 5) = true → s.flag (F.LNK_CTL_PRESEV 5) = true → s.raises t 234) ∧ (5 ∈ s.topoPorts → t.portCode 5 = 6)) ∧
        (s.portCode 5 ≠ 2 → s.told t [A.TRC_CTL, A.LNK_SHARE, A.LNK_STAT 5, A.LGE_PSTAT, A.LGE_STAT])) ∧
    (n < 16 → s.flag (F.TRC_SRC_EN n) = true → (s.trcSrc n).due = true → s.trc.fifo.length + 9 ≤ 65536 →
      ∃ t, exec (.traceSyncEmit n) s = .next t ∧ t.trc.fifo = s.trc.fifo ++ BitVec.ofNat 8 (0x50 + n) :: leBytes 8 s.local ∧
        (t.trcSrc n).due = false ∧ (t.trcSrc n).since = 0 ∧ t = { s with trc := t.trc }) ∧
    (n < 16 → 0 < (s.trcSrc n).lost → (∀ k < 16, k ≠ n → (s.trcSrc k).lost = 0) → s.trc.fifo.length + 1024 ≤ 65536 →
      ∃ t, exec .traceOvfEmit s = .next t ∧ (t.trcSrc n).lost = 0 ∧ t = { s with trc := t.trc } ∧
        t.trc.fifo = s.trc.fifo ++ BitVec.ofNat 8 (0x60 + n) :: varint 10 (s.trcSrc n).lost ++
          BitVec.ofNat 8 (0x50 + n) :: leBytes 8 s.local) ∧
    (∀ k ≤ s.trc.fifo.length, s.fld F.TRC_CTL_OUT ≠ 2 →
      ∃ t, exec (.traceFifoDrain k) s = .next t ∧ t.trc.fifo = s.trc.fifo.drop k ∧ t = { s with trc := t.trc } ∧ t.trc.srcs = s.trc.srcs ∧
        t.trc.sent = s.trc.sent + (if s.fld F.TRC_CTL_OUT = 1 then k else 0) ∧
        (s.fld F.TRC_CTL_OUT = 1 → t.trc.put = s.trc.fifo.take k ∧ t.trc.trcval = (k != 0) ∧
          (k = 1 → bits t.trc.trcd (8 * (s.trc.sent % 2)) 8 = (s.trc.fifo.headD 0).toNat))) ∧
    (∀ k, s.fld F.TRC_CTL_OUT = 2 →
      ∃ t, exec (.traceFifoDrain k) s = .next t ∧ t.trc.fifo = s.trc.fifo.drop (8 * ((k + 7) / 8)) ∧ t = { s with trc := t.trc } ∧
        t.trc.srcs = s.trc.srcs ∧ t.trc.put = s.trc.fifo.take (8 * ((k + 7) / 8)) ∧ t.trc.sent = s.trc.sent + t.trc.put.length ∧
        ((t.trc.blocks.filter fun b => !b.control).flatMap (·.bytes)).take t.trc.put.length = t.trc.put)

/-- R575, R576, R592: a counter that passes 0xFFFF_FFFF, an occupancy in threshold mode only where it can exceed N, wraps to 0, sets its bit of PMC_OVF, and raises EV294 with OVFEV; CLEAR sets every core
counter to 0.
R578, R579, R594: the first enable takes the sampling buffer, another core's is refused with EV296, writing 0 releases it with its
records; an instruction that KIND selects is recorded every PERIOD + 1 such, unless LAT, the privilege it began in or a full buffer discards it;
freeing moves HEAD on.
R580, R581, R582: a dump takes all its values at once; while one is still writing it is skipped, with PMC_DMISS and EV298; a completed
one stands in its slot of the ring, with EV297. -/
def Obligations.CountersSamplesAndDumps : Prop :=
  (∀ (m n k : Nat) (d : Word) (s : State), s.Inv → n < 16 → k < 8 →
    (s.pmcOn n k (s.fld (F.PMC_SEL_EVENT n k)) = true → (s.fld (F.PMC_SEL_EVENT n k) ∈ [1, 2, 3, 4, 5, 6, 7, 8, 9, 10, 11, 12, 13, 16, 17, 18]) →
      (s.fld (F.PMC_SEL_EVENT n k) < 0x10 ∨ s.flag (F.PMC_SEL_THR n k) = false ∨
        s.fld (F.PMC_SEL_N n k) < occMax (s.fld (F.PMC_SEL_EVENT n k))) →
      s.fld (F.PMC_CNT_COUNT n k) = 0xFFFFFFFF →
      ∃ t, exec (.pmcWrap n k) s = .next t ∧ t.fld (F.PMC_CNT_COUNT n k) = 0 ∧
        t.flag ⟨A.PMC_OVF ((8 * n + k) / 32), (8 * n + k) % 32, 1⟩ = true ∧
        (s.flag (F.PMC_SEL_OVFEV n k) = true → s.raises t 294) ∧ s.told t [A.PMC_CNT n k, A.PMC_OVF ((8 * n + k) / 32)]) ∧
    (s.reaches m 17 → bit d.toNat 1 = true →
      ∃ t, exec (.pmcClear m d) s = .next t ∧ (∀ i < 16, ∀ j < 8, t.reg (A.PMC_CNT i j) = 0) ∧ t.flag F.PMC_GCTL_FREEZE = bit d.toNat 0 ∧
        (∀ a, a % 4 = 0 → a ≠ A.PMC_GCTL → (∀ i < 16, ∀ j < 8, a ≠ A.PMC_CNT i j) → t.reg a = s.reg a))) ∧
  (∀ (m n : Nat) (d : Word) (x : Sampled) (s : State), s.Inv →
    (s.reaches m 17 → n < 16 → bit d.toNat 0 = true → (s.flag F.PMC_SBOWN_VALID = false ∨ s.fld F.PMC_SBOWN_CORE = n) →
      ∃ t, exec (.pmcSbenWrite m n d) s = .next t ∧ t.flag F.PMC_SBOWN_VALID = true ∧ t.fld F.PMC_SBOWN_CORE = n ∧
        t.flag (F.PMC_SBEN_EN n) = true ∧ ({ s with pmc := t.pmc } : State).told t [A.PMC_SBOWN, A.PMC_SBEN n]) ∧
    (s.reaches m 17 → n < 16 → bit d.toNat 0 = true → s.flag F.PMC_SBOWN_VALID = true → s.fld F.PMC_SBOWN_CORE ≠ n →
      ∃ t, exec (.pmcSbenWrite m n d) s = .next t ∧ s.raises t 296 ∧ s.told t []) ∧
    (s.reaches m 17 → n < 16 → bit d.toNat 0 = false → s.flag F.PMC_SBOWN_VALID = true → s.fld F.PMC_SBOWN_CORE = n →
      ∃ t, exec (.pmcSbenWrite m n d) s = .next t ∧ t.flag F.PMC_SBOWN_VALID = false ∧ t.flag (F.PMC_SBEN_EN n) = false ∧
        t.fld F.PMC_SBSTAT_COUNT = 0 ∧ s.told t [A.PMC_SBOWN, A.PMC_SBEN n, A.PMC_SBSTAT]) ∧
    (s.reaches m 17 →
      ∃ t, exec (.pmcSbfreeWrite m d) s = .next t ∧ s.told t [A.PMC_SBSTAT] ∧
        t.fld F.PMC_SBSTAT_HEAD = (s.fld F.PMC_SBSTAT_HEAD + Nat.min (bits d.toNat 0 10) (s.fld F.PMC_SBSTAT_COUNT)) % 512 ∧
        t.fld F.PMC_SBSTAT_COUNT = s.fld F.PMC_SBSTAT_COUNT - Nat.min (bits d.toNat 0 10) (s.fld F.PMC_SBSTAT_COUNT)) ∧
    (s.flag F.PMC_SBOWN_VALID = true → eligible (s.fld F.PMC_SBCTL_KIND) x = true → s.pmc.eligible < s.fld F.PMC_SBCTL_PERIOD →
      exec (.sampleRecord x) s = .next { s with pmc := { s.pmc with eligible := s.pmc.eligible + 1 } }) ∧
    (s.flag F.PMC_SBOWN_VALID = true → eligible (s.fld F.PMC_SBCTL_KIND) x = true → s.fld F.PMC_SBCTL_PERIOD ≤ s.pmc.eligible →
      ∃ t, exec (.sampleRecord x) s = .next t ∧ t.pmc = { s.pmc with eligible := 0 } ∧
        (if s.fld F.PMC_SBCTL_MINLAT ≤ x.lat ∧ s.fld F.PMC_SBSTAT_COUNT < 512 ∧
            (s.flag F.TRC_AUTH_PRIV = true ∨ (s.core (s.fld F.PMC_SBOWN_CORE)).ran = 0) then
          t.fld F.PMC_SBSTAT_COUNT = s.fld F.PMC_SBSTAT_COUNT + 1 ∧
            t.reg (A.PMC_SBREC ((s.fld F.PMC_SBSTAT_HEAD + s.fld F.PMC_SBSTAT_COUNT) % 512) 0) = x.pc ∧
            t.reg (A.PMC_SBREC ((s.fld F.PMC_SBSTAT_HEAD + s.fld F.PMC_SBSTAT_COUNT) % 512) 1) = x.insn ∧
            t.reg (A.PMC_SBREC ((s.fld F.PMC_SBSTAT_HEAD + s.fld F.PMC_SBSTAT_COUNT) % 512) 2) = (if x.load || x.store then x.addr else 0) ∧
            (s.fld F.PMC_SBSTAT_COUNT + 1 = s.fld F.PMC_SBWM_WM → s.raises t 295)
        else t.fld F.PMC_SBLOST_COUNT = Nat.min (s.fld F.PMC_SBLOST_COUNT + 1) (2 ^ 32 - 1) ∧
          ({ s with pmc := t.pmc } : State).told t [A.PMC_SBLOST]))) ∧
  (∀ (m : Nat) (d : Word) (s : State), s.Inv →
    (s.pmc.dump = none →
      (s.ctl.corePower = true → s.fld F.PMC_DCTL_MODE = 1 →
        exec .dumpDue s = .next { s with pmc := { s.pmc with dump := some (s.pmc.seq, s.dumpBytes s.pmc.seq) } }) ∧
      (s.dumpBytes s.pmc.seq).length = (if s.flag F.PMC_DCTL_CHAN then 9472 else 1280) ∧
      leAt (s.dumpBytes s.pmc.seq) 0 4 = 0x504D4455 ∧ leAt (s.dumpBytes s.pmc.seq) 6 2 = (s.dumpBytes s.pmc.seq).length ∧
      leAt (s.dumpBytes s.pmc.seq) 8 4 = s.pmc.seq % 2 ^ 32 ∧ leAt (s.dumpBytes s.pmc.seq) 16 8 = s.local ∧
      ∀ n < 16, ∀ k < 8, leAt (s.dumpBytes s.pmc.seq) (752 + 4 * (8 * n + k)) 4 = (s.reg (A.PMC_CNT n k)).toNat) ∧
    (s.reaches m 17 → bit d.toNat 28 = true → s.pmc.dump = none →
      ∃ t b, exec (.dumpNow m d) s = .next t ∧ t.pmc = { s.pmc with dump := some (s.pmc.seq, b) } ∧
        b.length = (if bit d.toNat 29 then 9472 else 1280) ∧ t.fld F.PMC_DCTL_MODE = bits d.toNat 30 2 ∧
        ({ s with pmc := t.pmc } : State).told t [A.PMC_DCTL]) ∧
    (s.pmc.dump ≠ none → s.ctl.corePower = true → s.fld F.PMC_DCTL_MODE = 1 →
      ∃ t, exec .dumpDue s = .next t ∧ t.pmc = { s.pmc with skipped := s.pmc.skipped + 1 } ∧ s.raises t 298 ∧
        t.fld F.PMC_DMISS_COUNT = Nat.min (s.fld F.PMC_DMISS_COUNT + 1) (2 ^ 32 - 1) ∧
        ({ s with pmc := t.pmc } : State).told t [A.PMC_DMISS]) ∧
    (∀ q b a, s.pmc.dump = some (q, b) → 64 ≤ b.length → b.length % 64 = 0 → s.reaches 24 16 →
      a = s.fld F.PMC_DBASELO_ADDR * 64 + 2 ^ 32 * s.fld F.PMC_DBASEHI_ADDR + q % Nat.max 1 (s.fld F.PMC_DNUM_N) * b.length →
      0x4000000 ≤ a → a + b.length ≤ 0x4200000 →
      ∃ t, exec .dumpComplete s = .next t ∧ (∀ i < b.length, Mem.read1 t.mem (a + i) = b.getD i 0) ∧
        (∀ x, x < a ∨ a + b.length ≤ x → Mem.read1 t.mem x = Mem.read1 s.mem x) ∧ t.pmc.dump = none ∧ t.pmc.seq = q + 1 ∧
        t.reg A.PMC_DSEQ = BitVec.ofNat 32 q ∧ s.raises t 297))

/-! ### Sessions, authorisation, the debug island, and streams from the host (R31 to R34, R549 to R563, R568) -/

/-- R32, R35, R550, R551, R681, R687: SESSION_OPEN opens a session with no rights under a number that is neither 0 nor open; a repeat
within 10 s gets the same answer and opens nothing; with 32 sessions open it is SESS_FULL. SESSION_CLOSE answers and closes;
600 s of silence close. CLAIM, UNCLAIM and the claim's end of 30 s move the claim and nothing else of the protocol; a request with an opcode of no command
is UNKNOWN_OPCODE. The port of an optical module that asks for more than 3.5 W stays down, its module in low-power mode. -/
def Obligations.SessionsOpenAndClose : Prop :=
  ∀ (s : State), s.Inv →
    (∀ (m : Msg), s.portUp m.port = true → msgSound m 1 = true → m.opcode = 0x0D00 → m.version = 1 → m.session = 0 → m.length = 0 →
      ((∀ o ∈ s.hmp.opened, o.1 = m.src → o.2.1 = m.seq.toNat → 5000000000 ≤ s.hmp.now - o.2.2.2) →
        (s.hmp.sessions.length < 32 →
          ∃ t n, exec (.sessionOpen m) s = .next t ∧ n ≠ 0 ∧ s.session n = none ∧
            t.session n = some ⟨n, m.port, m.src, m.seq.toNat, none, [], false, false, none, none, false, 0⟩ ∧
            t.out = s.out ++ [⟨m.port, 2, 0x0D00, m.seq.toNat, n, 0, [], false⟩] ∧ (∀ k, k ≠ n → t.session k = s.session k) ∧
            t = { s with hmp := t.hmp, out := t.out }) ∧
        (32 ≤ s.hmp.sessions.length →
          ∃ t, exec (.sessionOpen m) s = .next t ∧ t.out = s.out ++ [⟨m.port, 2, 0x0D00, m.seq.toNat, 0, 0xD85, [], false⟩] ∧
            t.hmp.sessions = s.hmp.sessions)) ∧
      (∀ o ∈ s.hmp.opened, o.1 = m.src → o.2.1 = m.seq.toNat → s.hmp.now - o.2.2.2 < 5000000000 →
        (∀ p ∈ s.hmp.opened, p.1 = m.src → p.2.1 = m.seq.toNat → p.2.2.1 = o.2.2.1) →
        exec (.sessionOpen m) s = .next { s with
          out := s.out ++ [⟨m.port, 2, 0x0D00, m.seq.toNat, o.2.2.1, if o.2.2.1 = 0 then 0xD85 else 0, [], false⟩] })) ∧
    (∀ (m : Msg) (x : Session), s.takes m 0x0D01 x → msgBody m x = [] →
      ∃ t p g, exec (.sessionClose m) s = .next t ∧ t.session x.num = none ∧ (∀ k, k ≠ x.num → t.session k = s.session k) ∧
        t.out[s.out.length]? = some ⟨m.port, 2, 0x0D01, m.seq.toNat, m.session.toNat, 0, p, g⟩ ∧
        t.hmp.claim = (if s.hmp.claim = some x.num then none else s.hmp.claim)) ∧
    (∀ (n : Nat) (x : Session), s.session n = some x →
      ∃ t, exec (.sessionTimeout n) s = .next t ∧ t.session n = none ∧ (∀ k, k ≠ n → t.session k = s.session k) ∧
        t.hmp.claim = (if s.hmp.claim = some n then none else s.hmp.claim) ∧ ∀ r ∈ t.dbg.runs, r.session ≠ n) ∧
    (∀ (m : Msg) (x : Session), s.takes m 0x0F00 x → msgBody m x = [] →
      ∃ t, exec (.claim m) s = .next t ∧ t.hmp.claim = some (s.hmp.claim.getD x.num) ∧
        ({ s with hmp := { s.hmp with claim := t.hmp.claim } } : State).told t [] ∧
        t.replied m 0x0F00 (if s.hmp.claim = none ∨ s.hmp.claim = some x.num then 0 else 5) []) ∧
    (∀ (m : Msg) (x : Session) (op : Nat), s.takes m op x → knownOpcode op = false →
      ∃ t, exec (.claim m) s = .next t ∧ t.replied m op 1 [] ∧ s.told t []) ∧
    (∀ (m : Msg) (x : Session), s.takes m 0x0F01 x → msgBody m x = [] → s.hmp.claim = some x.num →
      ∃ t, exec (.unclaim m) s = .next t ∧ t.hmp.claim = none ∧ t.replied m 0x0F01 0 [] ∧ (t.session x.num).isSome = true ∧
        ∀ k, k ≠ x.num → t.session k = s.session k) ∧
    (∀ n, s.hmp.claim = some n → ∃ t, exec .claimTimeout s = .next t ∧ t.hmp.claim = none ∧ ∀ k, t.session k = s.session k) ∧
    (∀ o : Optic,
      (∃ t, exec (.hostLinkChange 0 o) s = .next t ∧ (3500 < o.milliwatts → t.portUp .opt0 = false) ∧
        t = { s with hmp := { s.hmp with link0 := o.link && decide (o.milliwatts ≤ 3500), lowPower0 := decide (3500 < o.milliwatts) } }) ∧
      (∃ t, exec (.hostLinkChange 1 o) s = .next t ∧ (3500 < o.milliwatts → t.portUp .opt1 = false) ∧
        t = { s with hmp := { s.hmp with link1 := o.link && decide (o.milliwatts ≤ 3500), lowPower1 := decide (3500 < o.milliwatts) } }))

/-- R552 to R557: DBG_CHALLENGE answers 32 fresh bytes and a public key; DBG_AUTH with a certificate that passes every check of R555 gives the
session its rights and key, answers with the first message that has a tag, and raises EV288; one that fails a check is answered with that check's status, counted, raises EV289,
and leaves the session's rights; a challenge expires. -/
def Obligations.AuthorisationGivesRights : Prop :=
  ∀ (msg : Msg) (x : Session) (s : State), s.Inv → msg.port ≠ .mgmt →
    (s.takes msg 0x0D02 x → msgBody msg x = [] →
      ∃ t y, exec (.dbgChallenge msg) s = .next t ∧ t.session x.num = some y ∧
        y.chal = some ⟨draw s.dbg.draws, draw (s.dbg.draws + 1)⟩ ∧ y.debug = x.debug ∧ y.priv = x.priv ∧ y.key = x.key ∧
        t.dbg.draws = s.dbg.draws + 2 ∧ t.replied msg 0x0D02 0 (draw s.dbg.draws ++ x25519Pub (draw (s.dbg.draws + 1))) ∧
        ({ s with dbg := t.dbg } : State).told t []) ∧
    (s.takes msg 0x0D03 x → (msgBody msg x).length = 3472 →
      ∃ t y, exec (.dbgAuth msg) s = .next t ∧ t.session x.num = some y ∧ y.chal = none ∧
        (certFault x (msgBody msg x) s = 0 →
          (∃ tag, t.out[s.out.length]? = some ⟨msg.port, 2, 0x0D03, msg.seq.toNat, msg.session.toNat, 0, tag, true⟩) ∧ y.debug = bit (leAt (msgBody msg x) 8 4) 0 ∧ y.priv = bit (leAt (msgBody msg x) 8 4) 1 ∧
          (∃ q, x.chal = some q ∧
            y.key = some (hkdf (sharedSecret q (msgBody msg x)) q.nonce (leBytes 8 s.fuses.serial.toNat))) ∧
          s.raises t 288 ∧ s.told t []) ∧
        (certFault x (msgBody msg x) s ≠ 0 → t.replied msg 0x0D03 (certFault x (msgBody msg x) s) [] ∧ y.debug = x.debug ∧ y.priv = x.priv ∧ y.key = x.key ∧
          t.fld F.DBG_AUTHFAIL_COUNT = Nat.min (s.fld F.DBG_AUTHFAIL_COUNT + 1) (2 ^ 32 - 1) ∧ s.raises t 289 ∧
          s.told t [A.DBG_AUTHFAIL])) ∧
    (∀ n y, s.session n = some y →
      ∃ t, exec (.challengeExpire n) s = .next t ∧ t.session n = some { y with chal := none } ∧
        (∀ k, k ≠ n → t.session k = s.session k) ∧ t = { s with hmp := { s.hmp with sessions := t.hmp.sessions } })

/-- R558 to R561, R568: halts, holds, the privileged-trace grant and mailbox messages of a session with the right they ask; the mailbox a
core sends leaves for the session that last wrote to that core, or for every session with DEBUG. -/
def Obligations.HaltsHoldsAndMailboxes : Prop :=
  ∀ (s : State), s.Inv →
    (∀ (msg : Msg) (x : Session), msg.port ≠ .mgmt →
      (s.takes msg 0x0D04 x → x.debug = true → (msgBody msg x).length = 2 →
        ∃ t, exec (.dbgHalt msg) s = .next t ∧ t.reg A.DBG_HALTREQ = s.reg A.DBG_HALTREQ ||| BitVec.ofNat 32 (leAt (msgBody msg x) 0 2) ∧
          t.replied msg 0x0D04 0 [] ∧ s.told t [A.DBG_HALTREQ]) ∧
      (s.takes msg 0x0D08 x → x.priv = true → (msgBody msg x).length = 1 → leAt (msgBody msg x) 0 1 ≤ 1 →
        ∃ t y, exec (.dbgTrcpriv msg) s = .next t ∧ t.fld F.TRC_AUTH_PRIV = leAt (msgBody msg x) 0 1 ∧ t.session x.num = some y ∧
          (leAt (msgBody msg x) 0 1 = 1 → 0 < y.granted ∧ ∀ z ∈ t.hmp.sessions, z.granted ≤ y.granted) ∧
          (leAt (msgBody msg x) 0 1 = 0 → ∀ z ∈ t.hmp.sessions, z.granted = 0) ∧
          t.replied msg 0x0D08 0 [] ∧ s.told t [A.TRC_AUTH]) ∧
      (s.takes msg 0x0D09 x → x.debug = true → s.hmp.claim = some x.num → (msgBody msg x).length = 1 → leAt (msgBody msg x) 0 1 ≤ 1 →
        ∃ t y, exec (.dbgHold msg) s = .next t ∧ t.fld F.SFB_HOLD_REQ_DEBUG = leAt (msgBody msg x) 0 1 ∧
          t.fld F.SFB_HOLD_STAT_DEBUG = leAt (msgBody msg x) 0 1 ∧ t.fld F.SFB_HOLD_REQ_HOST = s.fld F.SFB_HOLD_REQ_HOST ∧
          t.session x.num = some y ∧ y.holdOne = (leAt (msgBody msg x) 0 1 == 1) ∧ t.replied msg 0x0D09 0 [] ∧
          s.told t [A.SFB_HOLD_REQ, A.SFB_HOLD_STAT]) ∧
      (s.takes msg 0x0D05 x → x.debug = true → 5 ≤ (msgBody msg x).length → (msgBody msg x).length ≤ 260 →
        leAt (msgBody msg x) 1 1 + 5 = (msgBody msg x).length → leAt (msgBody msg x) 2 2 = 0 → ∀ n, leAt (msgBody msg x) 0 1 = n → n < 16 →
        (s.flag (F.DBG_MBSTAT_INFULL n) = false →
          ∃ t, exec (.dbgMon msg) s = .next t ∧ t.flag (F.DBG_MBSTAT_INFULL n) = true ∧
            t.fld (F.DBG_MBSTAT_INLEN n) = (msgBody msg x).length - 4 ∧
            (((List.range 64).flatMap fun j => leBytes 4 (t.reg (A.DBG_MBIN n j)).toNat).take ((msgBody msg x).length - 4)) =
              (msgBody msg x).drop 4 ∧
            s.raises t 291 ∧ t.replied msg 0x0D05 0 [] ∧
            ({ s with dbg := t.dbg } : State).told t (A.DBG_MBSTAT n :: (List.range 64).map (A.DBG_MBIN n))) ∧
        (s.flag (F.DBG_MBSTAT_INFULL n) = true →
          ∃ t, exec (.dbgMon msg) s = .next t ∧ t.replied msg 0x0D05 0xD86 [] ∧ s.told t []))) ∧
    (∀ (m : Nat) (d : Word), s.reaches m 17 →
      (∃ t, exec (.dbgHaltreqWrite m d) s = .next t ∧ t.reg A.DBG_HALTREQ = s.reg A.DBG_HALTREQ ||| (d &&& 0xFFFF) ∧
        t.answered m 17 A.DBG_HALTREQ true 0 [] ∧ s.told t [A.DBG_HALTREQ]) ∧
      (∀ n < 16, bit d.toNat 31 = true → bits d.toNat 0 9 ≠ 0 → bits d.toNat 0 9 ≤ 256 → s.flag (F.DBG_MBSTAT_OUTBUSY n) = false →
        ∃ t, exec (.mboxSend m n d) s = .next t ∧ t.flag (F.DBG_MBSTAT_OUTBUSY n) = true ∧ SMap.get 0 t.dbg.sends n = bits d.toNat 0 9 ∧
          t.answered m 17 (A.DBG_MBSEND n) true 0 [] ∧ ({ s with dbg := t.dbg } : State).told t [A.DBG_MBSTAT n])) ∧
    (∀ n < 16, s.flag (F.DBG_MBSTAT_OUTBUSY n) = true → (∀ x ∈ s.hmp.sessions, x.key = none ∧ s.session x.num = some x ∧ s.portUp x.port = true) →
      s.mcReached = true →
      ∃ t, exec (.mboxSent n) s = .next t ∧ t.flag (F.DBG_MBSTAT_OUTBUSY n) = false ∧
        ({ s with dbg := t.dbg } : State).told t [A.DBG_MBSTAT n] ∧
        t.out = s.out ++ (((s.dbg.lastMon.find? fun y => y.1 == n).bind fun y => s.session y.2).elim
          (s.hmp.sessions.filter (·.debug)) (fun x => [x])).map fun x => (⟨x.port, 3, 0x0D05, 0, x.num, 0,
            ((List.range 64).flatMap fun j => leBytes 4 (s.reg (A.DBG_MBOUT n j)).toNat).take (SMap.get 0 s.dbg.sends n), false⟩ : Out))

/-- R562: a DBG_MEMRD of the channel RAM streams its bytes to the session and is over; a DBG_MEMWR opens the stream of its bytes; a session
has one run at a time; a run whose request waited in the network goes on when nothing blocks it (assumption 36), and one that is over ends
with its event message.
R34: stream data that comes next is taken once, up to the transfer's total, and acknowledged; a message ahead of it is held and
acknowledged with the last one taken; an acknowledge takes its messages from the stream, and 10 ms without one send the stream again
from its first unacknowledged message, spread over the optical ports that are up; a message of an update package that the crossing cannot
carry to the MC is lost (R21, assumption 55). -/
def Obligations.DebugRunsAndStreams : Prop :=
  (∀ (s : State), s.Inv →
    (∀ (msg : Msg) (x : Session) (a len : Nat), msg.port ≠ .mgmt → x.debug = true → leAt (msgBody msg x) 0 8 = a →
      leAt (msgBody msg x) 8 4 = len → a % 4 = 0 → len % 4 = 0 → 4 ≤ len → len ≤ 16777216 →
      (s.takes msg 0x0D06 x → (msgBody msg x).length = 16 → leAt (msgBody msg x) 12 1 ≤ 1 → leAt (msgBody msg x) 13 3 = 0 →
        ((∀ r ∈ s.dbg.runs, r.session ≠ x.num) → (∀ o ∈ s.hmp.outs, o.session = x.num → o.opcode ≠ 0x0D06) → s.reaches 16 16 →
          (∀ f ∈ s.noc.flights, f.asks = true → f.master ≠ 16) →
          s.badMem = [] → 0x4000000 ≤ a → a + len ≤ 0x4200000 →
          ∃ t, exec (.dbgMemrd msg) s = .next t ∧ t.replied msg 0x0D06 0 [] ∧ t.mem = s.mem ∧ t.regs = s.regs ∧
            t.dbg.runs = s.dbg.runs ++ [⟨x.num, 0x0D06, a, len, [], 0, len, leAt (msgBody msg x) 12 1 == 1⟩] ∧
            ∃ o ∈ t.hmp.outs, o.session = x.num ∧ o.opcode = 0x0D06 ∧ o.data.flatten = Mem.read s.mem a len) ∧
        ((∃ r ∈ s.dbg.runs, r.session = x.num) →
          ∃ t, exec (.dbgMemrd msg) s = .next t ∧ t.replied msg 0x0D06 8 [] ∧ s.told t [])) ∧
      (s.takes msg 0x0D07 x → (msgBody msg x).length = 12 → (∀ r ∈ s.dbg.runs, r.session ≠ x.num) →
        ∃ t, exec (.dbgMemwr msg) s = .next t ∧ t.replied msg 0x0D07 0 [] ∧ t.mem = s.mem ∧ t.regs = s.regs ∧
          t.dbg.runs = s.dbg.runs ++ [⟨x.num, 0x0D07, a, len, [], 0, 0, false⟩] ∧
          ⟨x.num, .memwr a len, 0x0D07, 0, [], 0, len⟩ ∈ t.hmp.ins)) ∧
    (∀ r x p, s.dbg.runs = [r] → r.opcode = 0x0D06 → r.err = 0 → r.offset + 4 = r.len → s.noc.flights = [p] → p.asks = true →
      p.master = 16 → p.target = 16 → p.addr = r.addr + r.offset → p.addr % 4 = 0 → 0x4000000 ≤ p.addr → p.addr + 4 ≤ 0x4200000 →
      p.timedOut = false → p.lost = false → p.stalled = false → s.local ≤ p.due → bit p.route.toNat 31 = true →
      s.blocked false [] 16 p.route = false → s.noc.flit = false → s.noc.answer = false → s.fenced 16 = false →
      s.badByte p.addr 4 = none → s.session r.session = some x → x.key = none → x.port ≠ .mgmt → s.portUp x.port = true →
      (∀ o ∈ s.hmp.outs, o.session = r.session → o.opcode ≠ 0x0D06) →
      ∃ t, exec .dbgRunEnd s = .next t ∧ t.dbg.runs = [] ∧ t.noc.flights = [] ∧ t.mem = s.mem ∧
        (∃ o ∈ t.hmp.outs, o.session = r.session ∧ o.opcode = 0x0D06 ∧ o.data.flatten = r.buf ++ Mem.read s.mem p.addr 4) ∧
        t.out.getLast? = some ⟨x.port, 3, 0x0D06, 0, x.num, 0, leBytes 1 0 ++ leBytes 8 r.len, false⟩) ∧
    (∀ r x, (∀ y ∈ s.dbg.runs, y.over = true) → s.dbg.runs.head? = some r → s.session r.session = some x → x.key = none →
      (x.port ≠ .mgmt ∨ s.mcReached = true) → s.portUp x.port = true →
      exec .dbgRunEnd s = .next { s with
        dbg := { s.dbg with runs := s.dbg.runs.filter fun y => y.session != r.session }
        out := s.out ++ [⟨x.port, 3, r.opcode, 0, x.num, 0, leBytes 1 r.err ++ leBytes 8 r.offset, false⟩] })) ∧
  (∀ (s : State), s.Inv →
    (∀ (m : Msg) (i : InStream) (y : Session), s.portUp m.port = true → m.port ≠ .mgmt → m.version = 1 → i ∈ s.hmp.ins →
      i.session = m.session.toNat → i.opcode = m.opcode.toNat → msgSound m 4 = true →
      (∀ j ∈ s.hmp.ins, j.session = i.session → j.opcode = i.opcode ∨ j.kind = i.kind → j = i) →
      s.session m.session.toNat = some y → y.key = none →
      (i.kind = .update → (s.mcReached && s.mgt.mcUp) = false → exec (.streamData m) s = .next s) ∧
      (m.seq.toNat = i.next → i.early = [] → i.kind = .capset →
        ∃ t, exec (.streamData m) s = .next t ∧
          t.acq = { s.acq with setBuf := s.acq.setBuf ++ m.payload.take (i.total - i.got) } ∧
          (∃ j ∈ t.hmp.ins, j = { i with next := i.next + 1, got := i.got + (m.payload.take (i.total - i.got)).length }) ∧
          t.out = s.out ++ [⟨m.port, 5, i.opcode, i.next, y.num, 0, [], false⟩] ∧
          t = { s with acq := t.acq, hmp := { s.hmp with ins := t.hmp.ins }, out := t.out }) ∧
      (i.next < m.seq.toNat → (i.kind = .update → (s.mcReached && s.mgt.mcUp) = true) → m.seq.toNat < i.next + 4096 → (∀ e ∈ i.early, e.1 ≠ m.seq.toNat ∧ e.1 ≠ i.next) → i.next ≠ 0 →
        ∃ t, exec (.streamData m) s = .next t ∧
          (∃ j ∈ t.hmp.ins, j = { i with early := i.early ++ [(m.seq.toNat, m.payload)] }) ∧
          t.out = s.out ++ [⟨m.port, 5, i.opcode, i.next - 1, y.num, 0, [], false⟩] ∧
          t = { s with hmp := { s.hmp with ins := t.hmp.ins }, out := t.out })) ∧
    (∀ (m : Msg) (o : OutStream) (y : Session), s.portUp m.port = true → m.port ≠ .mgmt → m.version = 1 → o ∈ s.hmp.outs →
      o.session = m.session.toNat → o.opcode = m.opcode.toNat → msgSound m 5 = true →
      (∀ p ∈ s.hmp.outs, p.session = o.session → p.opcode = o.opcode → p = o) →
      s.session m.session.toNat = some y → y.key = none → s.snp.stream = none → o.sent = o.data.length →
      ∃ t, exec (.streamAcknowledge m) s = .next t ∧ t = { s with hmp := { s.hmp with outs := t.hmp.outs } } ∧
        (∀ p, p.session ≠ o.session ∨ p.opcode ≠ o.opcode → (p ∈ t.hmp.outs ↔ p ∈ s.hmp.outs)) ∧
        (o.base + o.sent ≤ m.seq.toNat + 1 → ∀ p ∈ t.hmp.outs, p.session = o.session → p.opcode ≠ o.opcode) ∧
        (∀ k, o.base + k = m.seq.toNat + 1 → k < o.sent →
          { o with data := o.data.drop k, base := o.base + k, sent := o.sent - k } ∈ t.hmp.outs)) ∧
    (∀ (o : OutStream) (y : Session), s.hmp.outs = [o] → s.session o.session = some y → y.key = none →
      ((s.portUp .opt0 = true ∨ s.portUp .opt1 = true) → exec .streamResend s = .next { s with
        hmp := { s.hmp with outs := [{ o with sent := Nat.min 4096 o.data.length }] }
        out := s.out ++ (List.range (Nat.min 4096 o.data.length)).map fun i =>
          (⟨s.streamPort (o.base + i), 4, o.opcode, o.base + i, y.num, 0, o.data.getD i [], false⟩ : Out) }) ∧
      (s.portUp .opt0 = false → s.portUp .opt1 = false →
        exec .streamResend s = .next { s with hmp := { s.hmp with outs := [{ o with sent := Nat.min 4096 o.data.length }] } })))

/-! ### Field I/O (R596 to R630) -/

/-- R596, R597, R601, R606, R630: a write of a bank's supply or of a cell's settings is taken, or refused with ERR, and makes the bank's
CONFIG frame due; that frame carries both, and it and an IDLE start only where they cannot delay an OUT frame; a bank whose PG falls is
faulted with EV307; a supply that settles is good. That the accepted write stands until a CONFIG has brought it to the FB is assumption 18. -/
def Obligations.BanksAndCellsAreConfigured : Prop :=
  ∀ (m n : Nat) (d : Word) (s : State), s.Inv →
    (s.reaches m 17 → n < 16 → bits d.toNat 0 3 < 6 →
      (s.flag (F.FIO_BANK_PG n) = false ∨ s.flag F.FIO_STAT_DRIVE = false ∨ bits d.toNat 0 3 = s.fld (F.FIO_BANK_VSEL n)) →
      ∃ t, exec (.fioBankWrite m n d) s = .next t ∧ t.fld (F.FIO_BANK_VSEL n) = bits d.toNat 0 3 ∧
        t.flag (F.FIO_BANK_PG n) = (s.flag (F.FIO_BANK_PG n) && bits d.toNat 0 3 != 0) ∧
        ({ s with fio := { s.fio with
          cfgDue := NSet.ins s.fio.cfgDue n
          start := if bits d.toNat 0 3 ≠ s.fld (F.FIO_BANK_VSEL n) ∨ bits d.toNat 0 3 ≠ 0 ∧ s.flag (F.FIO_BANK_PG n) = false
            then NSet.ins s.fio.start n else s.fio.start } } : State).told t [A.FIO_BANK n, A.FIO_STAT]) ∧
    (s.reaches m 17 → n < 16 →
      (6 ≤ bits d.toNat 0 3 ∨
        s.flag (F.FIO_BANK_PG n) = true ∧ s.flag F.FIO_STAT_DRIVE = true ∧ bits d.toNat 0 3 ≠ s.fld (F.FIO_BANK_VSEL n)) →
      ∃ t, exec (.fioBankWrite m n d) s = .next t ∧ t.flag (F.FIO_BANK_ERR n) = true ∧
        t.fld (F.FIO_BANK_VSEL n) = s.fld (F.FIO_BANK_VSEL n) ∧
        ({ s with fio := { s.fio with cfgDue := NSet.ins s.fio.cfgDue n } } : State).told t [A.FIO_BANK n]) ∧
    (s.reaches m 17 → n < 512 →
      ∃ t, exec (.fioCellWrite m n d) s = .next t ∧ t.fld (F.FIO_CELL_PULL n) = bits d.toNat 14 2 ∧
        t.flag (F.FIO_CELL_KEEP n) = bit d.toNat 13 ∧ t.fld (F.FIO_CELL_SLEW n) = bits d.toNat 10 2 ∧
        t.fld (F.FIO_CELL_DRIVE n) = bits d.toNat 8 2 ∧ t.fld (F.FIO_CELL_FILT n) = bits d.toNat 4 3 ∧
        t.flag (F.FIO_CELL_CDEN n) = bit d.toNat 1 ∧
        ({ s with fio := { s.fio with cfgDue := NSet.ins s.fio.cfgDue (n / 32) } } : State).told t [A.FIO_CELL n]) ∧
    (n < 16 → s.ctl.fieldPower = true → s.beforeOut 240 = true →
      exec (.configSend n) s = .next { s with fio := { s.fio with
        toFb := s.fio.toFb ++ ⟨(HubFrame.config n (s.fld (F.FIO_BANK_VSEL n))
          ((List.range 32).map fun i => s.reg (A.FIO_CELL (32 * n + i)))).bytes, false⟩ :: s.fio.later
        later := []
        cfgDue := NSet.del s.fio.cfgDue n } }) ∧
    (n < 16 → s.ctl.fieldPower = true → s.beforeOut 240 = false → exec (.configSend n) s = .next s) ∧
    (s.ctl.fieldPower = true →
      exec (.fieldIdleSend true) s = .next { s with fio := { s.fio with
        toFb := if s.beforeOut 13 then s.fio.toFb ++ ⟨HubFrame.idle.bytes, false⟩ :: s.fio.later else s.fio.toFb
        later := if s.beforeOut 13 then [] else s.fio.later ++ [⟨HubFrame.idle.bytes, false⟩] } } ∧
      exec (.fieldIdleSend false) s = .next { s with fio := { s.fio with
        toHub := s.fio.toHub ++ [⟨(FbFrame.idle s.fb.pgBits).bytes, false⟩] } }) ∧
    (n < 16 → NSet.has s.fb.pg n = true →
      ∃ t, exec (.bankFault n) s = .next t ∧ NSet.has t.fb.pg n = false ∧ NSet.has t.fb.faulted n = true ∧
        t.flag (F.FIO_BANK_FAULT n) = true ∧ s.raises t 307 ∧ ({ s with fb := t.fb } : State).told t [A.FIO_BANK n]) ∧
    (NSet.has s.fb.settling n = true →
      ∃ t, exec (.bankSupplyGood n) s = .next t ∧ NSet.has t.fb.pg n = true ∧ NSet.has t.fb.settling n = false ∧ t = { s with fb := t.fb })

/-- R602 to R605: a frame passes its CRC and is read at the other end as it was written, every field at every value that the layout
admits; its length is the one that its TYPE has.
R598, R599, R605, R607, R610, R611, R613, R619: what the field bridge does with the first frame on its way to it: an output frame that
continues the last is answered with the inputs of its sample point and applied; the first CRC failure brings NAK, a second, a frame out of
range or of no listed form BAD with every cell inert; after a NAK output frames wait for the good copy (assumption 52); CONFIG sets the bank
(assumption 18); INERT and the watchdog make every cell inert; RESEND repeats the last answer.
R605, R608 to R613: what the hub does with the first frame on its way to it: an IN frame that answers the oldest output frame is kept
for the cycle two after it, and ends the cause FIELD if it was late; a first CRC failure brings RESEND, behind an OUT frame that must start;
a frame out of range or of no listed form, one that fails twice, BAD and a timeout are bad frames; NAK brings the frame again, unless an
INERT has followed it (assumption 52); a crossing that goes down is a bad frame while an image with field slots runs. -/
def Obligations.FieldFramesAreServedAtBothEnds : Prop :=
  ((∀ (f : HubFrame) (b : List Byte), b = f.bytes →
    (match f with
      | .out _ q _ c h ns out oe => q < 256 ∧ c < 2 ^ 32 ∧ h < 2 ^ 16 ∧ ns < 2 ^ 32 ∧ out.Pairwise (· < ·) ∧ oe.Pairwise (· < ·) ∧
          ∀ k ∈ out ++ oe, k < 512
      | .config n v cells => n < 256 ∧ v < 256 ∧ cells.length = 32
      | .resend q => q < 256
      | _ => True) →
    crcOk b = true ∧ readHub b = some f ∧ b.length = hubLength (frameType b)) ∧
  (∀ (f : FbFrame) (b : List Byte), b = f.bytes →
    (match f with
      | .inp q c g i x => q < 256 ∧ c < 2 ^ 32 ∧ g < 2 ^ 16 ∧ i.Pairwise (· < ·) ∧ x.Pairwise (· < ·) ∧ ∀ k ∈ i ++ x, k < 512
      | .idle g => g < 2 ^ 16
      | .nak q g => q < 256 ∧ g < 2 ^ 16
      | .bad q k => q < 256 ∧ k < 256) →
    crcOk b = true ∧ readFb b = some f ∧ b.length = fbLength (frameType b))) ∧
  (∀ (s : State) (pins : Pins) (w : Wire) (rest : List Wire), s.Inv →
    (s.fio.toFb = w :: rest → (s.fb.naked = true → w.again = true) → crcOk w.bytes = true →
      (∀ p q drive c h ns out oe, readHub w.bytes = some (.out p q drive c h ns out oe) →
        ((s.fb.prev = none ∨ ∃ k, s.fb.prev = some ((q + 255) % 256, k) ∧ (p = true ∨ c % 2 ^ 32 = (k + 1) % 2 ^ 32)) →
          (p = true → drive = false) →
          ∃ t, exec (if p then .fbPrime false pins else .fbOut false pins) s = .next t ∧ t.fio.toFb = rest ∧
            t.fb.active = drive ∧ t.fb.prev = some (q, c) ∧ t.fb.naked = false ∧ (drive = true → t.fb.out = out ∧ t.fb.oe = oe) ∧
            (drive = false → ∀ k, t.fb.pin k = .highZ) ∧
            (∀ k, drive = true → NSet.has s.fb.pg (k / 32) = true → NSet.has s.fb.faulted (k / 32) = false → NSet.has oe k = true →
              t.fb.pin k = .driven (NSet.has out k) (s.fb.setting k 8 2) (s.fb.setting k 10 2)) ∧
            (∃ i, t.fio.toHub = s.fio.toHub ++ [⟨(FbFrame.inp q c s.fb.pgBits i (s.fb.fires pins.raw)).bytes, false⟩] ∧
              ∀ k, (NSet.has i k = true ↔ k < 512 ∧ NSet.has s.fb.pg (k / 32) = true ∧ s.fb.filtered pins k = true) ∧
                (s.fb.setting k 4 3 = 0 → NSet.has i k = true → k ∈ pins.raw)) ∧
            t = { s with fb := t.fb, fio := { s.fio with toFb := rest, toHub := t.fio.toHub } }) ∧
        (∀ j k, s.fb.prev = some (j, k) → q ≠ (j + 1) % 256 ∨ p = false ∧ c % 2 ^ 32 ≠ (k + 1) % 2 ^ 32 →
          ∃ t, exec (if p then .fbPrime false pins else .fbOut false pins) s = .next t ∧ t.fb.active = false ∧
            t = { s with fb := t.fb, fio := { s.fio with toFb := rest, toHub := s.fio.toHub ++ [⟨(FbFrame.bad q 2).bytes, false⟩] } })) ∧
      (readHub w.bytes = none → frameType w.bytes = 1 ∨ hubLength (frameType w.bytes) = 0 →
        ∃ t, exec (.fbOut false pins) s = .next t ∧ t.fb.active = false ∧ t = { s with
          fb := t.fb, fio := { s.fio with toFb := rest, toHub := s.fio.toHub ++ [⟨(FbFrame.bad (frameSeq w.bytes) 2).bytes, false⟩] } })) ∧
    (∀ p e : Bool, s.fio.toFb = w :: rest → (s.fb.naked = true → w.again = true) → frameType w.bytes = (if p then 2 else 1) →
      e = true ∨ crcOk w.bytes = false →
      ∃ t, exec (if p then .fbPrime e pins else .fbOut e pins) s = .next t ∧
        t.fld F.FIO_CRCCNT_COUNT = Nat.min (s.fld F.FIO_CRCCNT_COUNT + 1) (2 ^ 32 - 1) ∧
        (w.again = false → t.fio.toHub = s.fio.toHub ++ [⟨(FbFrame.nak (frameSeq w.bytes) s.fb.pgBits).bytes, false⟩] ∧
          t.fb.active = s.fb.active ∧ t.fb.naked = true) ∧
        (w.again = true → t.fio.toHub = s.fio.toHub ++ [⟨(FbFrame.bad (frameSeq w.bytes) 1).bytes, false⟩] ∧ t.fb.active = false) ∧
        t.fb.prev = s.fb.prev ∧
        ({ s with fb := t.fb, fio := { s.fio with toFb := rest, toHub := t.fio.toHub } } : State).told t [A.FIO_CRCCNT]) ∧
    (s.fb.naked = true → (∀ f ∈ s.fio.toFb, f.held = true) →
      exec (.fbPrime false pins) s = .next s ∧ exec (.fbOut false pins) s = .next s) ∧
    (s.fio.toFb = w :: rest → crcOk w.bytes = true →
      (∀ n v cells, readHub w.bytes = some (.config n v cells) → SMap.wf 0 s.fb.vsel = true → SMap.wf 0 s.fb.cells = true →
        ∃ t, exec (.fbConfig false) s = .next t ∧ SMap.get 0 t.fb.vsel n = v ∧
          (∀ i < cells.length, SMap.get 0 t.fb.cells (32 * n + i) = cells.getD i 0) ∧
          (v = 0 ∨ NSet.has s.fio.start n = true ∧ s.fld (F.FIO_BANK_VSEL n) = v →
            NSet.has t.fb.pg n = false ∧ NSet.has t.fb.faulted n = false ∧ NSet.has t.fb.settling n = (v != 0)) ∧
          (v ≠ 0 → NSet.has s.fio.start n = false ∨ s.fld (F.FIO_BANK_VSEL n) ≠ v → t.fb.pg = s.fb.pg ∧ t.fb.faulted = s.fb.faulted) ∧
          t = { s with fb := t.fb, fio := { s.fio with toFb := rest, start := t.fio.start } }) ∧
      (readHub w.bytes = some .inert →
        exec .fbInert s = .next { s with
          fio := { s.fio with toFb := rest }, fb := { s.fb with active := false, prev := none, naked := false } }) ∧
      (readHub w.bytes = some .idle → exec .fbIdle s = .next { s with fio := { s.fio with toFb := rest } }) ∧
      (∀ q a, readHub w.bytes = some (.resend q) → s.fb.kept.find? (FbFrame.answers q) = some a →
        ∃ t, exec .fbResend s = .next t ∧ (s.flag F.FIO_CTL_RSEV = true → s.raises t 309) ∧
          ({ s with fio := { s.fio with toFb := rest, toHub := s.fio.toHub ++ [⟨a.bytes, true⟩] } } : State).told t [])) ∧
    (∀ e, s.fio.toFb = w :: rest → frameType w.bytes = 3 → e = true ∨ crcOk w.bytes = false →
      ∃ t, exec (.fbConfig e) s = .next t ∧ t.fld F.FIO_CRCCNT_COUNT = Nat.min (s.fld F.FIO_CRCCNT_COUNT + 1) (2 ^ 32 - 1) ∧
        ({ s with fio := { s.fio with toFb := rest } } : State).told t [A.FIO_CRCCNT]) ∧
    exec .fbWatchdog s = .next { s with fb := { s.fb with active := false, prev := none, naked := false } }) ∧
  (∀ (s : State) (w : Wire) (rest : List Wire), s.Inv →
    (s.fio.toHub = w :: rest → crcOk w.bytes = true →
      (∀ q c g i x, readFb w.bytes = some (.inp q c g i x) →
        (∀ u r, s.oldest q c = u :: r → u.seq = q → u.cyc % 2 ^ 32 = c → u.stale = false →
          ∃ t, exec (.fieldIn false) s = .next t ∧ t.fio.toHub = rest ∧ t.fio.waiting = r ∧ t.fio.lastIn = i ∧ t.fio.lastCont = x ∧
            t.inFrame ((u.cyc + 2) % 2 ^ 64) = some i ∧ t.flag F.FIO_STAT_UP = true ∧
            (∀ k < 16, t.flag (F.FIO_BANK_PG k) = (bit g k && s.fld (F.FIO_BANK_VSEL k) != 0)) ∧
            (∀ k ∈ x, t.flag ⟨A.FIO_CONT (k / 32), k % 32, 1⟩ = true) ∧
            (s.fio.late = some ((u.cyc + 2) % 2 ^ 64) → t.fio.late = none ∧ t.flag F.SFB_HOLD_STAT_FIELD = false)) ∧
        ((∀ u r, s.oldest q c = u :: r → u.seq ≠ q ∨ u.cyc % 2 ^ 32 ≠ c) →
          ∃ t, exec (.fieldIn false) s = .next t ∧ s.badFrameFound t 3 q)) ∧
      (readFb w.bytes = none → frameType w.bytes = 0x11 →
        ∃ t, exec (.fieldIn false) s = .next t ∧ s.badFrameFound t 3 (frameSeq w.bytes)) ∧
      (readFb w.bytes = none → fbLength (frameType w.bytes) = 0 →
        ∃ t, exec .fieldBad s = .next t ∧ s.badFrameFound t 3 (frameSeq w.bytes)) ∧
      (∀ q g, readFb w.bytes = some (.nak q g) →
        ∃ t, exec .fieldNak s = .next t ∧ t.fio.toHub = rest ∧ (s.unanswered q = none → t.fio.toFb = s.fio.toFb) ∧
          ∀ f, s.unanswered q = some f → t.fio.toFb = s.fio.toFb ++ ⟨f.bytes, true⟩ :: s.fio.later ∧
            (s.flag F.FIO_CTL_RSEV = true → s.raises t 309)) ∧
      (∀ g, readFb w.bytes = some (.idle g) →
        ∃ t, exec .fieldIdleFromFb s = .next t ∧ t.flag F.FIO_STAT_UP = true ∧
          (∀ k < 16, t.flag (F.FIO_BANK_PG k) = (bit g k && s.fld (F.FIO_BANK_VSEL k) != 0) ∧
            t.flag ⟨A.FIO_STAT, k, 1⟩ = (bit g k && s.fld (F.FIO_BANK_VSEL k) != 0)) ∧
          t.fio = { s.fio with toHub := rest } ∧ t.ctl = s.ctl ∧ t.mem = s.mem) ∧
      (∀ q k, readFb w.bytes = some (.bad q k) → ∃ t, exec .fieldBad s = .next t ∧ s.badFrameFound t 2 q)) ∧
    (∀ e, s.fio.toHub = w :: rest → frameType w.bytes = 0x11 → e = true ∨ crcOk w.bytes = false →
      ∃ t, exec (.fieldIn e) s = .next t ∧ t.fio.toHub = rest ∧
        t.fld F.FIO_CRCCNT_COUNT = Nat.min (s.fld F.FIO_CRCCNT_COUNT + 1) (2 ^ 32 - 1) ∧
        (w.again = false → t.ctl = s.ctl ∧ t.fio.waiting = s.fio.waiting ∧
          (s.beforeOut 13 = true → t.fio.toFb = s.fio.toFb ++ ⟨(HubFrame.resend (frameSeq w.bytes)).bytes, false⟩ :: s.fio.later) ∧
          (s.beforeOut 13 = false → t.fio.toFb = s.fio.toFb ∧
            t.fio.later = s.fio.later ++ [⟨(HubFrame.resend (frameSeq w.bytes)).bytes, false⟩])) ∧
        (w.again = true → s.badFrameFound t 1 (frameSeq w.bytes))) ∧
    (∀ n, s.fio.late = some n → s.flag F.FIO_STAT_LATE = true → ∃ t, exec .fieldTimeout s = .next t ∧ s.badFrameFound t 4 (s.seqFor n)) ∧
    (s.flag F.FIO_STAT_UP = true →
      ∃ t, exec .fieldCrossingDown s = .next t ∧ t.flag F.FIO_STAT_UP = false ∧ s.raises t 308 ∧
        (s.fieldImage = true → (s.ctl.mode = .run ∨ s.ctl.mode = .step ∨ s.ctl.mode = .hold) → s.entersSafe t 6) ∧
        (s.fieldImage = false → t.ctl = s.ctl ∧ t.fio = s.fio)))

/-! ### Power, boot and modes (R16, R17, R22, R23, R27, R631 to R651, R655, R664) -/

/-- R16, R638, R639, R664: the input's rise leads from OFF to STANDBY, with the host island's registers at their Reset words, and after a loss to STANDBY, or on to BOOT under AUTOON; its loss enters SAFE
with reason POWER, raises EV313, ends an update and completes a commit; the domain that is to be switched off goes off; with the hold-up
energy spent the module is OFF and keeps the island's flash. A rail's fault enters SAFE and switches the core domain off. -/
def Obligations.PowerComesAndGoes : Prop :=
  ∀ (s : State), s.Inv →
    (s.ctl.mode = .off →
      ∃ t, exec .inputPowerRise s = .next t ∧ t.ctl = { s.ctl with mode := .standby, inputGood := true } ∧ s.islandWords t) ∧
    (s.mgt.lost = true → s.ctl.corePower = false → s.ctl.mode ≠ .off →
      ∃ t, exec .inputPowerRise s = .next t ∧ t.mgt.lost = false ∧ t.ctl.inputGood = true ∧ t.ctl.reason = 0 ∧
        if s.mgt.mcUp = true ∧ s.mgt.recovery = false ∧ bit (setAtByte s.mgt.activeCopy 8 1) 0 = true
        then s.boots t false else t.ctl.mode = .standby ∧ t.ctl.corePower = false) ∧
    (s.ctl.mode ≠ .off → s.ctl.inputGood = true →
      ∃ t, exec .inputPowerLoss s = .next t ∧ t.ctl.inputGood = false ∧ t.ctl.switchingOff = s.ctl.corePower ∧ t.mgt.lost = true ∧
        (s.ctl.corePower = true → s.raises t 313 ∧ (safeModes s = true → s.entersSafe t 9)) ∧
        (s.ctl.corePower = false → t.ctl.mode = s.ctl.mode) ∧
        (s.mgt.mcUp = true → t.mgt.upd = none ∧ t.mgt.commit = none ∧ t.mgt.logBuf = [])) ∧
    (s.ctl.switchingOff = true → s.ctl.corePower = true → s.ctl.clock = false →
      ∃ t, exec .coreDomainOff s = .next t ∧
        (s.mgt.lost = false → s.goesDark t ∧ t.ctl.mode = .standby) ∧
        (s.mgt.lost = true → s.ctl.inputGood = false → s.goesDark t ∧ t.ctl.mode = s.ctl.mode)) ∧
    (s.ctl.inputGood = false → s.ctl.mode ≠ .off →
      ∃ t, exec .holdupSpent s = .next t ∧ t.ctl.mode = .off ∧ t.ctl.corePower = false ∧ t.ctl.fieldPower = false ∧ t.hmp.sessions = [] ∧
        t.hmp.claim = none ∧ t.mgt.mcUp = false ∧ t.core 16 = Core.reset ∧ s.islandWords t ∧
        t.mgt.copy0 = s.mgt.copy0 ∧ t.mgt.copy1 = s.mgt.copy1 ∧ t.mgt.active = s.mgt.active ∧ t.mgt.slotA = s.mgt.slotA ∧
        t.mgt.slotB = s.mgt.slotB ∧ t.mgt.log = s.mgt.log ∧ ∀ c ∈ t.mem, mcMem 0 ≤ c.1 ∧ c.1 < mcMem 0x10000000) ∧
    (∀ r, r ≤ 11 ∨ r = 14 → s.ctl.corePower = true → safeModes s = true →
      ∃ t, exec (.railFault r) s = .next t ∧ s.goesDark t ∧ t.ctl.mode = .safe ∧
        t.ctl.reason = (if s.ctl.reason = 0 then 9 else s.ctl.reason))

/-- R27, R668: the loss of a step domain whose PLL had locked enters SAFE with reason CLOCK at once and raises EV311; the loss of another
domain is recorded and raises EV311, and whether SAFE follows is a free value (assumption 31). When the step PLL loses the lock it had, LOCK
falls, EV72 is raised and SAFE follows at once; that every step domain is recorded as lost with it is assumption 31. Its lock is noted.
R23, R631, R646 to R648: an end that has been silent sends an idle frame; with the crossing down EV310 is raised, the MC's source 2 is
pending and it keeps the mode and the readings it knew; a valid frame each way brings the crossing up; a module that the MC gave up is power-cycled
to BOOT. -/
def Obligations.ClocksAndTheCrossingAreWatched : Prop :=
  (∀ (s : State), s.Inv → s.ctl.corePower = true →
    (∀ d, s.clockKnown d = true → (d < 6 → s.lge.wasLocked = true) →
      ∃ t, exec (.clockLoss (.domain d)) s = .next t ∧ t.flag ⟨A.MGT_CLKSTAT, d, 1⟩ = true ∧ t.flag F.MGT_CLKSTAT_VALID = true ∧ s.raises t 311 ∧
        (s.flag F.MGT_CLKSTAT_VALID = false → t.fld F.MGT_CLKSTAT_FIRST = d) ∧
        (s.flag F.MGT_CLKSTAT_VALID = true → t.fld F.MGT_CLKSTAT_FIRST = s.fld F.MGT_CLKSTAT_FIRST) ∧
        (d < 6 → safeModes s = true → s.entersSafe t 7) ∧
        (6 ≤ d → Config.freeBit s.freeCtr = false → t.ctl = s.ctl) ∧
        (6 ≤ d → Config.freeBit s.freeCtr = true → s.ctl.clock = true → t.ctl = { s.ctl with safeNext := true }) ∧
        (6 ≤ d → Config.freeBit s.freeCtr = true → s.ctl.clock = false → safeModes s = true → s.entersSafe t 7)) ∧
    (s.lge.wasLocked = true →
      ∃ t, exec (.clockLoss .stepPll) s = .next t ∧ t.flag F.SFB_CLK_LOCK = false ∧ s.raises t 72 ∧ s.raises t 311 ∧
        (∀ d < s.dies, t.flag ⟨A.MGT_CLKSTAT, d, 1⟩ = true) ∧ (safeModes s = true → s.entersSafe t 7)) ∧
    (s.fld F.SFB_CLK_MHZ ≠ 0 →
      ∃ t, exec .stepPllLock s = .next t ∧ t.flag F.SFB_CLK_LOCK = true ∧ t.lge = { s.lge with wasLocked := true } ∧
        t = { s with regs := t.regs, lge := t.lge } ∧ ∀ a, a ≠ A.SFB_CLK → t.reg a = s.reg a)) ∧
  (∀ (s : State), s.Inv → s.ctl.corePower = true → s.mgt.mcUp = true →
    (exec (.mgtIdleFrameSend true) s = .next { s with mgt := { s.mgt with idles := (s.mgt.idles.1 + 1, s.mgt.idles.2) } } ∧
      exec (.mgtIdleFrameSend false) s = .next { s with mgt := { s.mgt with idles := (s.mgt.idles.1, s.mgt.idles.2 + 1) } }) ∧
    (s.mgt.xingUp = true →
      ∃ t, exec .mgtCrossingDown s = .next t ∧ t.mgt.xingUp = false ∧ t.mgt.modeKnown = s.ctl.mode ∧
        t.mgt.mcIrq = NSet.ins s.mgt.mcIrq 2 ∧ s.raises t 310 ∧
        ({ s with mgt := { s.mgt with
          xingUp := false, modeKnown := s.ctl.mode, mcIrq := NSet.ins s.mgt.mcIrq 2
          modeWords := s.modeBytes, pwrWords := s.sensorBytes } } : State).told t []) ∧
    (s.mgt.xingUp = false →
      (∃ t, exec .mgtCrossingUp s = .next t ∧ t.mgt.xingUp = true ∧ s.raises t 310 ∧
        ({ s with mgt := { s.mgt with xingUp := true } } : State).told t []) ∧
      ∃ t, exec .mcPowerCycle s = .next t ∧ s.boots t false))

/-- R504, R505, R606, R631, R650, R651: a boot row that completes makes the next one due; a bank whose march in row 6
ends with failing words is OFF, fenced and marked, and one that passes is left with every word 0; row 7 is done with a CONFIG frame for every bank, row 8 with the
firmware copied and TC0 released; the write of MGT_BOOT.DONE ends the boot in IDLE, MS the ms since its entry (that TB_LOCAL counts them is assumption 5). A row that is
late enters SAFE with reason BOOT, or STANDBY where the core domain cannot be powered.
R631, R635, R636: CLEAR leaves SAFE for IDLE, or for BOOT where the core domain is off (whatever TJMAX shows then, assumption 48), and is refused
while the cause lasts; TEST_ENTER
leads from IDLE to TEST with no image, no region but the core-addressable one and every router stopped until it is ready
again (assumption 46), TEST_EXIT to BOOT; POWER leads from STANDBY to BOOT
and to STANDBY, after SAFE where the step clock runs. -/
def Obligations.BootAndModeRequestsChangeTheMode : Prop :=
  (∀ (s : State), s.Inv → s.ctl.mode = .boot →
    (∀ (b w : Nat) (l : List Nat), s.mgt.stage = 6 → b < 16 → s.march b = none →
      (∃ t, exec (.marchEnd b (w :: l)) s = .next t ∧ t.fld (F.HBK_BPWR_STATE b) = 2 ∧ t.flag (F.HBK_BPWR_FAIL b) = true ∧
        t.flag (F.NOC_FENCE_AUTO b) = true ∧ t.flag (F.HBK_MCTL_FAIL b) = true ∧ s.raises t 267 ∧ s.raises t 266 ∧
        s.told t [A.HBK_BPWR b, A.NOC_FENCE b, A.HBK_MCTL b, A.HBK_MSTAT b]) ∧
      ∃ t, exec (.marchEnd b []) s = .next t ∧ s.raises t 266 ∧ (∀ a, bankBase b ≤ a → a < bankBase b + 0x100000 → Mem.read1 t.mem a = 0) ∧
        (∀ a, a < bankBase b ∨ bankBase b + 0x100000 ≤ a → Mem.read1 t.mem a = Mem.read1 s.mem a) ∧
        ({ s with mem := t.mem, badMem := t.badMem } : State).told t []) ∧
    (s.mgt.stage < 9 →
      ∃ t, exec .bootStepDone s = .next t ∧ t.mgt.stage = s.mgt.stage + 1 ∧ t.fld F.MGT_BOOT_STAGE = s.mgt.stage + 1 ∧ t.ctl = s.ctl ∧
        (s.mgt.stage = 6 → t.regs = (s.setFld F.MGT_BOOT_STAGE 7).regs) ∧
        (s.mgt.stage = 7 → t.fio = { s.fio with cfgDue := List.range 16 }) ∧
        (s.mgt.stage = 8 → (t.core 0).running = true ∧
          ∀ i, s.fld (F.HBK_BPWR_STATE 0) = 0 → i < Nat.min (leAt (s.mgt.slot s.mgt.runSlot) 60 4) 0x100000 →
            i + 4096 + leAt (s.mgt.slot s.mgt.runSlot) 56 4 < (s.mgt.slot s.mgt.runSlot).length →
            Mem.read1 t.mem (0x1000000 + i) =
              (s.mgt.slot s.mgt.runSlot).getD (4096 + leAt (s.mgt.slot s.mgt.runSlot) 56 4 + i) 0) ∧
        (s.mgt.stage < 7 → t.mem = s.mem ∧ t.cores = s.cores ∧ t.fio = s.fio)) ∧
    (s.mgt.stage ≤ 4 → ∃ t, exec .bootStepTimeout s = .next t ∧ s.goesDark t ∧ t.ctl.mode = .standby) ∧
    (4 < s.mgt.stage → s.mgt.stage < 16 →
      ∃ t, exec .bootStepTimeout s = .next t ∧ s.entersSafe t 10 ∧ t.fld F.MGT_BOOT_STAGE = s.mgt.stage) ∧
    (∀ (m : Nat) (d : Word), s.reaches m 17 → bit d.toNat 31 = true → s.mgt.stage = 9 →
      ∃ t, exec (.mgtBootDone m d) s = .next t ∧ t.answered m 17 A.MGT_BOOT true 0 [] ∧ t.ctl.mode = .idle ∧ t.fld F.MGT_BOOT_STAGE = 0 ∧
        t.fld F.MGT_BOOT_MS = Nat.min 0xFFFF ((s.local - s.mgt.bootAt) / 500000))) ∧
  (∀ (msg : Msg) (x : Session) (s : State), s.Inv → s.hmp.claim = some x.num →
    (s.takes msg 0x0F07 x → msgBody msg x = [] → s.ctl.mode = .safe →
      (s.ctl.inputGood = true → (s.fld F.PWR_IN_VIN = 0 ∨ 3600 ≤ s.fld F.PWR_IN_VIN) → s.ctl.switchingOff = false →
        (s.ctl.corePower = true → sgn 16 (s.fld F.PWR_THM_TJMAX) < (s.fld F.PWR_LIM_THROT : Int) * 16 - 80 →
          ∃ t, exec (.clear msg) s = .next t ∧ t.replied msg 0x0F07 0 [] ∧ t.ctl.mode = .idle ∧ t.ctl.reason = 0 ∧
            t.flag F.SFB_HOLD_STAT_FAULT = false ∧ t.ldr.img = none) ∧
        (s.ctl.corePower = false → ∃ t, exec (.clear msg) s = .next t ∧ t.replied msg 0x0F07 0 [] ∧ s.boots t false)) ∧
      (s.ctl.inputGood = false ∨ (0 < s.fld F.PWR_IN_VIN ∧ s.fld F.PWR_IN_VIN < 3600) ∨ s.ctl.switchingOff = true ∨
        s.ctl.corePower = true ∧ (s.fld F.PWR_LIM_THROT : Int) * 16 - 80 ≤ sgn 16 (s.fld F.PWR_THM_TJMAX) →
        ∃ t, exec (.clear msg) s = .next t ∧ t.replied msg 0x0F07 0xF80 [] ∧ s.told t [])) ∧
    (s.takes msg 0x0F09 x → msgBody msg x = [] → s.ctl.mode = .idle →
      ∃ t, exec (.testEnter msg) s = .next t ∧ t.replied msg 0x0F09 0 [] ∧ t.ctl.mode = .test ∧ t.ldr.img = none ∧ t.snp.snap = none ∧
        t.acq.buffer = [] ∧ (∀ k ∈ [1, 6, 7, 8], t.region k = none) ∧ t.region 9 = s.region 9 ∧
        ∀ r < 32, t.flag (F.NOC_RCFG_READY r) = false) ∧
    (s.takes msg 0x0F0A x → msgBody msg x = [] → s.ctl.mode = .test →
      ∃ t p g, exec (.testExit msg) s = .next t ∧
        t.out[s.out.length]? = some ⟨msg.port, 2, 0x0F0A, msg.seq.toNat, msg.session.toNat, 0, p, g⟩ ∧ s.boots t true) ∧
    (s.takes msg 0x0F0B x → (msgBody msg x).length = 4 → leAt (msgBody msg x) 1 3 = 0 →
      (leAt (msgBody msg x) 0 1 = 1 → s.ctl.mode = .standby → s.ctl.inputGood = true → s.mgt.recovery = false →
        (sgn 16 (s.fld F.PWR_THM_INLET) ≤ 720 → ∃ t, exec (.power msg) s = .next t ∧ t.replied msg 0x0F0B 0 [] ∧ s.boots t false) ∧
        (720 < sgn 16 (s.fld F.PWR_THM_INLET) → ∃ t, exec (.power msg) s = .next t ∧ t.replied msg 0x0F0B 0xF88 [] ∧ s.told t [])) ∧
      (leAt (msgBody msg x) 0 1 = 0 → s.ctl.mode ≠ .off → s.ctl.mode ≠ .standby →
        (s.ctl.clock = false → ∃ t, exec (.power msg) s = .next t ∧ t.replied msg 0x0F0B 0 [] ∧ s.goesDark t ∧ t.ctl.mode = .standby) ∧
        (s.ctl.clock = true → ∃ t, exec (.power msg) s = .next t ∧ t.replied msg 0x0F0B 0 [] ∧ t.ctl.switchingOff = true ∧
          t.ctl.safeDue.isSome = true ∧ t.flag F.SFB_HOLD_STAT_FAULT = true))))

/-- R641 to R644: a sample's readings stand in the PWR registers, TJMAX is the largest valid reading of a core-domain sensor (0 with none valid,
assumption 48); HOT and EV315 follow a hot sample, HWREQ rises by one up to 8; 100 cool samples let HWREQ fall by one; a second sample at or
above 110 °C trips to SAFE with reason THERMAL; at 115 °C, or after a thermal entry to SAFE at 105 °C, the core domain goes off. -/
def Obligations.ThermalLimitsAct : Prop :=
  ∀ (s : State), s.Inv →
    (∀ x : Sensors,
      ∃ t, exec (.thermalSample x) s = .next t ∧
        (∀ k < 44, s.ctl.corePower = true → (36 ≤ k ∨ k / 6 < s.dies) → ∀ v, x.temps.getD k none = some v →
          t.flag (F.PWR_TEMP_VALID k) = true ∧ t.fld (F.PWR_TEMP_T k) = unsgn 16 v) ∧
        (∀ k < 44, (s.ctl.corePower = false ∨ k < 36 ∧ s.dies ≤ k / 6 ∨ x.temps.getD k none = none) → t.flag (F.PWR_TEMP_VALID k) = false) ∧
        (∀ k < 44, t.flag (F.PWR_TEMP_VALID k) = true → sgn 16 (t.fld (F.PWR_TEMP_T k)) ≤ sgn 16 (t.fld F.PWR_THM_TJMAX)) ∧
        ((∃ k < 44, t.flag (F.PWR_TEMP_VALID k) = true ∧ t.fld (F.PWR_TEMP_T k) = t.fld F.PWR_THM_TJMAX ∧ t.fld F.PWR_TSTAT_SRC = k) ∨
          (∀ k < 44, t.flag (F.PWR_TEMP_VALID k) = false) ∧ t.fld F.PWR_THM_TJMAX = 0) ∧
        (s.mgt.mcUp = true → s.mcReached = true → t.fld F.PWR_THM_INLET = unsgn 16 x.inlet ∧
          t.fld F.PWR_IN_VIN = x.vin10mV % 65536 ∧ t.fld F.PWR_IN_IIN = x.iinmA % 65536) ∧ t.fld F.PWR_PIN_P = x.pinDeciW % 65536 ∧
        (s.mgt.mcUp = true → NSet.has t.mgt.mcIrq 6 = true) ∧
        ((s.fld F.PWR_LIM_INLETW : Int) * 16 < sgn 16 (t.fld F.PWR_THM_INLET) →
          t.flag F.PWR_TSTAT_INLETW = true ∧ (s.thm.overInlet = false → s.raises t 317)) ∧
        (s.ctl.corePower = false → t.ctl = s.ctl) ∧
        (s.ctl.corePower = true → ∀ w, w = (if 100 ≤ s.thm.cool then s.fld F.SFB_THR_HWREQ - 1 else s.fld F.SFB_THR_HWREQ) →
          (((s.fld F.PWR_LIM_THROT : Int) * 16 ≤ sgn 16 (t.fld F.PWR_THM_TJMAX) ∨ s.fld F.PWR_LIM_PLIM * 10 < x.pinDeciW % 65536 ∨
              (∃ n < s.fuses.grade.stacks, 95 < sgn 8 (bits (s.reg A.HBK_HTEMP).toNat (8 * n) 8))) →
            t.flag F.PWR_TSTAT_HOT = true ∧ t.fld F.SFB_THR_HWREQ = (if w < 8 then w + 1 else w) ∧
              (s.thm.lastHot = false → s.raises t 315)) ∧
          (t.flag F.PWR_TSTAT_HOT = false → t.fld F.SFB_THR_HWREQ = w) ∧
          (s.fld F.PWR_LIM_PLIM * 10 < x.pinDeciW % 65536 →
            t.flag F.PWR_TSTAT_PLIM = true ∧ (s.thm.overPlim = false → s.raises t 314)) ∧
          (1760 ≤ sgn 16 (t.fld F.PWR_THM_TJMAX) → s.thm.over110 = 1 →
            t.flag F.PWR_TSTAT_TRIP = true ∧ s.raises t 316 ∧ t.mgt.logBuf = [] ∧
            (s.ctl.clock = false → safeModes s = true →
              t.ctl.mode = .safe ∧ t.ctl.reason = (if s.ctl.reason = 0 then 8 else s.ctl.reason)) ∧
            (s.ctl.clock = true → t.ctl.safeDue.isSome = true)))) ∧
    (100 ≤ s.thm.cool →
      ∃ t, exec .throttleCoolDown s = .next t ∧ t.fld F.SFB_THR_HWREQ = s.fld F.SFB_THR_HWREQ - 1 ∧ t.thrWanted ≤ t.fld F.SFB_THR_LEAGUE ∧
        (s.leagueSize ≤ 1 → t.fld F.SFB_THR_LEAGUE = t.thrWanted) ∧
        ({ s with thm := { s.thm with cool := 0 }, freeCtr := t.freeCtr } : State).told t [A.SFB_THR]) ∧
    (s.thm.cool < 100 → exec .throttleCoolDown s = .next s) ∧
    (s.ctl.corePower = true → safeModes s = true → 1840 ≤ sgn 16 (s.fld F.PWR_THM_TJMAX) →
      ∃ t, exec .thermalShutdown s = .next t ∧ s.goesDark t ∧ t.ctl.mode = .safe ∧
        t.ctl.reason = (if s.ctl.reason = 0 then 8 else s.ctl.reason)) ∧
    (s.ctl.corePower = true → s.ctl.mode = .safe → s.ctl.reason = 8 → 1680 ≤ sgn 16 (s.fld F.PWR_THM_TJMAX) →
      ∃ t, exec .thermalShutdown s = .next t ∧ s.goesDark t ∧ t.ctl.mode = .safe ∧ t.ctl.reason = 8)

/-! ### Hold causes, the throttle, run control, HBM service (R104 to R114, R146 to R158, R511, R516, R517, R636, R637) -/

/-- R109, R112, R114: SFB_HOLD_REQ sets and clears causes HOST and DEBUG, each alone; a 1 written to DESIGN or TRIGGER clears it; EV71 is raised
once for a hold longer than SFB_HOLD_LIMIT; a throttle level that a boundary named takes effect with EV70.
R104, R118: a write of SFB_CLK with a frequency in range, on the master, with the step clock stopped, sets MHZ and clears LOCK, and goes out as RATE
unless FORMED is still to carry it, in a broken league too; any other is ignored with its reason in ERR. -/
def Obligations.HoldCausesAndTheStepClockFollowTheirWrites : Prop :=
  (∀ (s : State), s.Inv →
    (∀ (m : Nat) (d : Word), s.reaches m 17 →
      (∃ t, exec (.holdReqHost m d) s = .next t ∧ t.answered m 17 A.SFB_HOLD_REQ true 0 [] ∧ t.fld F.SFB_HOLD_REQ_HOST = bits d.toNat 0 1 ∧
        t.fld F.SFB_HOLD_REQ_DEBUG = s.fld F.SFB_HOLD_REQ_DEBUG ∧ t.fld F.SFB_HOLD_STAT_HOST = bits d.toNat 0 1 ∧
        s.told t [A.SFB_HOLD_REQ, A.SFB_HOLD_STAT]) ∧
      (∃ t, exec (.holdReqDebug m d) s = .next t ∧ t.answered m 17 A.SFB_HOLD_REQ true 0 [] ∧ t.fld F.SFB_HOLD_REQ_DEBUG = bits d.toNat 1 1 ∧
        t.fld F.SFB_HOLD_REQ_HOST = s.fld F.SFB_HOLD_REQ_HOST ∧ t.fld F.SFB_HOLD_STAT_DEBUG = bits d.toNat 1 1 ∧
        s.told t [A.SFB_HOLD_REQ, A.SFB_HOLD_STAT]) ∧
      (∃ t, exec (.holdClearDesign m d) s = .next t ∧ t.answered m 17 A.SFB_HOLD_STAT true 0 [] ∧
        t.reg A.SFB_HOLD_STAT = s.reg A.SFB_HOLD_STAT &&& ~~~(d &&& 1) ∧ s.told t [A.SFB_HOLD_STAT]) ∧
      (∃ t, exec (.holdClearTrigger m d) s = .next t ∧ t.answered m 17 A.SFB_HOLD_STAT true 0 [] ∧
        t.reg A.SFB_HOLD_STAT = s.reg A.SFB_HOLD_STAT &&& ~~~(d &&& 0x20) ∧ s.told t [A.SFB_HOLD_STAT])) ∧
    (s.lge.held = true → s.fld F.SFB_HOLD_LIMIT_US ≠ 0 → s.lge.longDone = false →
      ∃ t, exec .holdLimitExceeded s = .next t ∧ s.raises t 71 ∧
        ({ s with lge := { s.lge with longDone := true } } : State).told t []) ∧
    (∀ k < 16, s.lge.thrDue = some k →
      ∃ t, exec .throttleChange s = .next t ∧ t.fld F.SFB_THR_CUR = k ∧ t.lge.thrDue = none ∧ ({ s with lge := t.lge } : State).told t [A.SFB_THR] ∧
        (s.fld F.SFB_THR_CUR ≠ k → s.raises t 70 ∧ t.lge.thrAt = s.local) ∧ (s.fld F.SFB_THR_CUR = k → t.regs = s.regs))) ∧
  (∀ (m : Nat) (d : Word) (s : State), s.Inv → s.reaches m 17 →
    ∃ t, exec (.sfbClkWrite m d) s = .next t ∧ t.answered m 17 A.SFB_CLK true 0 [] ∧
      (∀ a, a ≠ A.SFB_CLK → t.reg a = s.reg a) ∧
      (250 ≤ bits d.toNat 0 12 ∧ bits d.toNat 0 12 ≤ s.fuses.grade.maxMhz ∧ s.ctl.clock = false ∧ s.isMaster = true →
        t.fld F.SFB_CLK_MHZ = bits d.toNat 0 12 ∧ t.flag F.SFB_CLK_LOCK = false ∧ t.fld F.SFB_CLK_ERR = 0 ∧ t.lge.wasLocked = false ∧
        (t.lge.tbsyncDue = (s.lge.tbsyncDue || !s.forming)) ∧
        (s.forming = false ∨ s.lge.tbsyncDue = true → ∀ n ∈ s.leaguePorts, s.queues t n 1 (rateBody (bits d.toNat 0 12)))) ∧
      (¬(250 ≤ bits d.toNat 0 12 ∧ bits d.toNat 0 12 ≤ s.fuses.grade.maxMhz ∧ s.ctl.clock = false ∧ s.isMaster = true) →
        t.fld F.SFB_CLK_MHZ = s.fld F.SFB_CLK_MHZ ∧ t.fld F.SFB_CLK_LOCK = s.fld F.SFB_CLK_LOCK ∧ t.lge = s.lge ∧
        t.fld F.SFB_CLK_ERR = (if bits d.toNat 0 12 < 250 ∨ s.fuses.grade.maxMhz < bits d.toNat 0 12 then 1 else if s.ctl.clock then 2 else 3)))

/-- R105, R370, R636, R637: RUN and STEP that no check refuses enter their mode and fix the grain of their START, H grains ahead, and the
last cycle (a burst that would end at cycle number 2^64 - 1, which the token spells as RUN, aside); a field image
whose rate is above 2,000,000 frames a second is refused with FIELD_RATE, a module without a locked frequency, or whose league waits for its TBSYNC (R354), with NO_CLOCK, and a
member without the master's image (R202) by its position. STOP
asks for the boundary, and at it the step clock stops in STEP. In a league what the other members hold is a free value (assumption 29).
R35, R634, R666: a SAFE request, by message or by MGT_SAFE, enters SAFE at once with the step clock stopped, and with it running sets cause
FAULT and waits for the boundary; on the management port it needs no claim. -/
def Obligations.RunControlRequests : Prop :=
  (∀ (s : State), s.Inv →
    (∀ (msg : Msg) (x : Session), s.hmp.claim = some x.num →
      (runModes s = true → (s.leagueSize ≤ 1 ∨ (∀ k, Config.freeBit k = false) ∧ s.snp.restored = none) →
        s.H + 2 ≤ s.L + s.S →
        ((s.fieldImage = false ∨ s.fld F.SFB_CLK_MHZ * 1000000 ≤ 2000000 * (s.L + s.S)) → s.fld F.SFB_CLK_MHZ ≠ 0 →
          s.flag F.SFB_CLK_LOCK = true → s.lge.tbsyncDue = false → s.lge.needSync = false →
          (s.takes msg 0x0F03 x → msgBody msg x = [] →
            ∃ t, exec (.run msg) s = .next t ∧ t.replied msg 0x0F03 0 [] ∧ t.lge = { s.lge with start := some (s.grainNo + s.H, 2 ^ 64 - 1) } ∧
              ({ s with
                lge := t.lge, lanes := t.lanes, freeCtr := t.freeCtr
                ctl := { s.ctl with mode := .run, burst := false, left := 0, stopReq := false } } : State).told t []) ∧
          (∀ n, s.takes msg 0x0F04 x → (msgBody msg x).length = 4 → leAt (msgBody msg x) 0 4 = n → n ≠ 0 → s.lge.cycle + n < 2 ^ 64 →
            ∃ t, exec (.step msg) s = .next t ∧ t.replied msg 0x0F04 0 [] ∧
              t.lge = { s.lge with start := some (s.grainNo + s.H, s.lge.cycle + n - 1) } ∧
              ({ s with
                lge := t.lge, lanes := t.lanes, freeCtr := t.freeCtr
                ctl := { s.ctl with mode := .step, burst := true, left := n, stopReq := false } } : State).told t [])) ∧
        (s.takes msg 0x0F03 x → msgBody msg x = [] →
          (s.fieldImage = true → 2000000 * (s.L + s.S) < s.fld F.SFB_CLK_MHZ * 1000000 →
            ∃ t, exec (.run msg) s = .next t ∧ t.replied msg 0x0F03 0x300 [] ∧ t.lge = s.lge) ∧
          (s.fieldImage = false →
            s.fld F.SFB_CLK_MHZ = 0 ∨ s.flag F.SFB_CLK_LOCK = false ∨ s.lge.tbsyncDue = true ∨ s.lge.needSync = true →
            ∃ t, exec (.run msg) s = .next t ∧ t.replied msg 0x0F03 0x301 [] ∧ t.lge = s.lge))) ∧
      (s.takes msg 0x0F03 x → runModes s = true → msgBody msg x = [] → 2 ≤ s.leagueSize →
        ∃ t, exec (.run msg) s = .next t ∧ (Config.freeBit s.freeCtr = true → t.replied msg 0x0F03 0x583 [1] ∧ t.lge = s.lge)) ∧
      (s.takes msg 0x0F04 x → runModes s = true → msgBody msg x = [0, 0, 0, 0] →
        ∃ t, exec (.step msg) s = .next t ∧ t.replied msg 0x0F04 0xF89 [] ∧ s.told t []) ∧
      (s.takes msg 0x0F05 x → msgBody msg x = [] → s.ctl.mode = .run ∨ s.ctl.mode = .hold → s.isMaster = true →
        ∃ t, exec (.stop msg) s = .next t ∧ t.replied msg 0x0F05 0 [] ∧
          ({ s with ctl := { s.ctl with stopReq := true } } : State).told t []) ∧
      (s.takes msg 0x0F08 x → msgBody msg x = [] → s.stepStopped = true →
        ∃ t, exec (.discard msg) s = .next t ∧ t.replied msg 0x0F08 0 [] ∧ t.ctl.mode = .idle ∧ t.ldr.img = none ∧
          (s.ldr.img ≠ none → t.snp.snap = none) ∧ (s.flag F.FIO_STAT_DRIVE = true → t.fio.toFb = s.fio.toFb ++ ⟨HubFrame.inert.bytes, false⟩ :: s.fio.later))) ∧
    (s.lge.burstDue = true → s.ctl.safeDue = none →
      ∃ t, exec .stepBurstEnd s = .next t ∧ t.ctl.mode = .step ∧ t.ctl.clock = false ∧ t.ctl.burst = false ∧ t.ctl.left = 0 ∧
        t.lge.burstDue = false ∧ t.lge.last = none ∧ t.lge.cycle = s.lge.cycle)) ∧
  (∀ (s : State), s.Inv → safeModes s = true →
    (∀ (msg : Msg) (x : Session), s.takes msg 0x0F06 x → (msg.port = .mgmt ∨ s.hmp.claim = some x.num) → msgBody msg x = [] →
      ∃ t, exec (.safe msg) s = .next t ∧ t.replied msg 0x0F06 0 [] ∧ (s.ctl.clock = false → s.entersSafe t 1) ∧
        (s.ctl.clock = true → t.flag F.SFB_HOLD_STAT_FAULT = true ∧ t.ctl.mode = s.ctl.mode ∧
          t.ctl.reason = (if s.ctl.reason = 0 then 1 else s.ctl.reason) ∧
          t.ctl.safeDue = some ((s.ctl.safeDue.map (·.1)).getD 1, s.ctl.safeDue.bind (·.2)))) ∧
    (∀ (m : Nat) (d : Word), s.reaches m 17 → bit d.toNat 0 = true →
      ∃ t, exec (.mgtSafeReq m d) s = .next t ∧ t.answered m 17 A.MGT_SAFE true 0 [] ∧ (s.ctl.clock = false → s.entersSafe t 1) ∧
        (s.ctl.clock = true → t.flag F.SFB_HOLD_STAT_FAULT = true ∧ t.ctl.mode = s.ctl.mode ∧
          t.ctl.reason = (if s.ctl.reason = 0 then 1 else s.ctl.reason) ∧
          t.ctl.safeDue = some ((s.ctl.safeDue.map (·.1)).getD 1, s.ctl.safeDue.bind (·.2)))))

/-- R146 to R149, R158: data that arrives clean or corrected reaches its access and ends its overrun; an uncorrectable read is retried once,
and a retry that fails raises EV129 and enters SAFE; a drained write queue ends its guard; a
refresh marks the reads at its bank (the bank of an address is a free value, assumption 16).
R147, R511, R516, R517: the stacks' temperatures stand in HBK_HTEMP, double refresh above 85 °C; a scrub read counts what it corrects and
records what it cannot; a pass that ends raises EV271. -/
def Obligations.HbmServiceTemperatureAndScrub : Prop :=
  (∀ (s : State), s.Inv →
    (∀ (m k : Nat) (r : HbmRead) (e : Ecc), e ≠ .uncorrectable →
      (s.inService m k false = some r →
        ∃ t, exec (.hbmReadDataArrive m k e) s = .next t ∧ t.dm.reads = s.dm.reads.erase r ∧ t.mem = s.mem ∧
          (r.merge = false → s.access r.mem r.port ≠ none → (t.access r.mem r.port).map (·.read) = some (some r.value)) ∧
          (r.merge = true → t.dm.acc = s.dm.acc) ∧
          t.fld F.DMC_CE_COUNT_COUNT = (if e = .corrected then Nat.min (s.fld F.DMC_CE_COUNT_COUNT + 1) (2 ^ 32 - 1) else s.fld F.DMC_CE_COUNT_COUNT)) ∧
      (s.inService m k true = some r →
        ∃ t, exec (.hbmEccRetry m k e) s = .next t ∧ t.dm.reads = s.dm.reads.erase r ∧ t.mem = s.mem ∧
          (r.merge = false → s.access r.mem r.port ≠ none → (t.access r.mem r.port).map (·.read) = some (some r.value)) ∧
          (r.merge = true → t.dm.acc = s.dm.acc))) ∧
    (∀ (m k : Nat) (r : HbmRead),
      (s.inService m k false = some r →
        ∃ t, exec (.hbmReadDataArrive m k .uncorrectable) s = .next t ∧ { r with retry := true } ∈ t.dm.reads ∧
          t.fld F.DMC_RETRY_COUNT_COUNT = Nat.min (s.fld F.DMC_RETRY_COUNT_COUNT + 1) (2 ^ 32 - 1) ∧
          ({ s with dm := { s.dm with reads := t.dm.reads } } : State).told t [A.DMC_RETRY_COUNT]) ∧
      (s.inService m k true = some r → safeModes s = true →
        ∃ t, exec (.hbmEccRetry m k .uncorrectable) s = .next t ∧ t.dm.reads = s.dm.reads.erase r ∧ t.flag F.DMC_UE_STAT_VALID = true ∧ s.raises t 129 ∧
          s.entersSafe t 3)) ∧
    (∀ c n, c < 4 → s.dm.guard.length = 4 → s.dm.wq.length = 4 →
      ∃ t, exec (.hbmWriteDrain c n) s = .next t ∧ t.dm.wq = setAt s.dm.wq c (s.dm.wq.getD c 0 - n) ∧ t.mem = s.mem ∧
        (s.dm.guard.getD c false = true → s.dm.wq.getD c 0 - n + 4 * (s.H + 8) ≤ 8192 →
          t.dm.guard = setAt s.dm.guard c false ∧ t.flag ⟨A.DMC_STAT, c, 1⟩ = false ∧
          ((∀ j < 4, j ≠ c → s.dm.guard.getD j false = false) → (∀ r ∈ s.dm.reads, r.overrun = none) →
            t.flag F.SFB_HOLD_STAT_HBM = false)) ∧
        (s.dm.guard.getD c false = false → t = { s with dm := { s.dm with wq := t.dm.wq } })) ∧
    (∀ c b, ∃ t, exec (.hbmRefresh c b) s = .next t ∧ t = { s with dm := { s.dm with reads := t.dm.reads } } ∧
      t.dm.reads.length = s.dm.reads.length ∧
      ∀ r ∈ s.dm.reads, (if s.atBank r c b then { r with refreshed := true } else r) ∈ t.dm.reads)) ∧
  (∀ (s : State), s.Inv →
    (∀ (t0 t1 t2 t3 : BitVec 8), s.ctl.corePower = true →
      ∃ t, exec (.hbmTempRead t0 t1 t2 t3) s = .next t ∧
        ∀ n < 4, bits (t.reg A.HBK_HTEMP).toNat (8 * n) 8 =
            (if n < s.fuses.grade.stacks then ([t0, t1, t2, t3].getD n 0).toNat else 0) ∧
          (n < s.fuses.grade.stacks → decide (85 < ([t0, t1, t2, t3].getD n 0).toInt) ≠ s.hub.hot.getD n false →
            t.flag ⟨A.DMC_STAT, 8 + n, 1⟩ = decide (85 < ([t0, t1, t2, t3].getD n 0).toInt) ∧ s.raises t 135)) ∧
    (∀ (stack offset k : Nat), s.flag F.HBK_SCRUB_EN = true → stack < s.fuses.grade.stacks → offset < 0x600000000 →
      s.regionOf (0x10000000000 + stack * 0x600000000 + offset) = some k →
      exec (.scrubRead stack offset .clean) s = .next s ∧
      (∃ t, exec (.scrubRead stack offset .corrected) s = .next t ∧ s.told t [A.HBK_HCE] ∧
        t.fld F.HBK_HCE_COUNT = Nat.min (s.fld F.HBK_HCE_COUNT + 1) (2 ^ 32 - 1) ∧ (s.flag F.HBK_SCRUB_CEEV = true → s.raises t 268)) ∧
      (k ≠ 1 → ∃ t, exec (.scrubRead stack offset .uncorrectable) s = .next t ∧ t.flag F.HBK_HUE_VALID = true ∧ s.raises t 269 ∧
        (s.flag F.HBK_HUE_VALID = false → t.flag F.HBK_HUE_SCRUB = true ∧ t.fld F.HBK_HUE_STACK = stack ∧
          t.fld F.HBK_HUEADDR_LINE = offset / 64) ∧ s.told t [A.HBK_HUE, A.HBK_HUEADDR]) ∧
      (k = 1 → ∃ t, exec (.scrubRead stack offset .uncorrectable) s = .next t ∧ t.flag F.DMC_UE_STAT_VALID = true ∧ s.raises t 129 ∧
        (s.flag F.DMC_UE_STAT_VALID = false → t.flag F.DMC_UE_STAT_SCRUB = true ∧ t.fld F.DMC_UE_STAT_STACK = stack) ∧
        s.told t [A.DMC_UE_STAT, A.DMC_UE_ADDR])) ∧
    (∀ stack, s.flag F.HBK_SCRUB_EN = true → stack < s.fuses.grade.stacks →
      ∃ t, exec (.scrubPassEnd stack) s = .next t ∧ s.raises t 271 ∧ s.told t []))

/-! ### The grain (R8, R42 to R72, R101 to R114, R373, R374) -/

/-- R106, R108, R113, R114, R354, R373: an edge that the throttle removes, at the level that a boundary grain before it named, moves nothing, nor
does one before the first TBSYNC of a league formed with no step clock; in a grain that the vote holds the array, the cycle position, the
cycle number and TB_D0 to TB_D15 stand while TB_LEAGUE counts; a grain that is not held executes the next position, and its boundary
grain, scruple grain 8, ends the cycle and ticks the domains of the cycle. -/
def Obligations.GrainsAreThrottledHeldOrExecuted : Prop :=
  ∀ (s : State), s.Inv →
    (s.ctl.corePower = true → s.flag F.SFB_CLK_LOCK = true → s.fld F.SFB_CLK_MHZ ≠ 0 → s.lge.needSync = false → s.lge.thrDue = none →
      edgeRemoved (s.fld F.SFB_THR_CUR) s.lge.edge = true →
      ∃ t, exec (.grain []) s = .next t ∧ t.tim = s.tim ∧ t.arr = s.arr ∧ t.regs = s.regs ∧ t.mem = s.mem ∧ t.ctl = s.ctl ∧
        t.lge = { s.lge with edge := (s.lge.edge + 1) % 16 }) ∧
    (∀ k < 16, s.ctl.corePower = true → s.flag F.SFB_CLK_LOCK = true → s.fld F.SFB_CLK_MHZ ≠ 0 → s.lge.needSync = false →
      s.lge.thrDue = some k → edgeRemoved k s.lge.edge = true →
      ∃ t, exec (.grain []) s = .next t ∧ t.tim = s.tim ∧ t.arr = s.arr ∧ t.fld F.SFB_THR_CUR = k ∧ t.lge.thrDue = none ∧
        t.lge.edge = (s.lge.edge + 1) % 16) ∧
    (s.lge.needSync = true → exec (.grain []) s = .next { s with dm := { s.dm with oldEcc := [] } }) ∧
    (s.plainGrain → s.ctl.clock = false →
      ∃ t, exec (.grain []) s = .next t ∧ t.arr = s.arr ∧ t.ctl = s.ctl ∧ t.lge.cycle = s.lge.cycle ∧ t.mem = s.mem ∧
        t.tim = { s.tim with league := s.tim.league + 1 }) ∧
    (s.plainGrain → s.ctl.clock = true → s.vote (s.grainNo - s.H) = true →
      ∃ t, exec (.grain []) s = .next t ∧ t.arr = s.arr ∧ t.lge.cycle = s.lge.cycle ∧ t.mem = s.mem ∧
        t.tim = { s.tim with league := s.tim.league + 1 } ∧ t.lge.held = true ∧ t.flag F.SFB_HOLD_STAT_INEFF = true ∧
        t.pair A.SFB_HOLD_TOTLO A.SFB_HOLD_TOTHI = (s.pair A.SFB_HOLD_TOTLO A.SFB_HOLD_TOTHI + 1) % 2 ^ 64 ∧
        (s.lge.held = false → t.ctl = { s.ctl with mode := .hold, holdFrom := s.ctl.mode } ∧ s.raises t 67) ∧
        (s.lge.held = true → t.ctl = s.ctl)) ∧
    (s.plainGrain → s.ctl.clock = true → s.vote (s.grainNo - s.H) = false → (s.arr.pos = s.L + 8 → s.tokMissing = false) →
      ∃ t, exec (.grain []) s = .next t ∧ t.arr.pos = (s.arr.pos + 1) % Nat.max 1 (s.L + s.S) ∧ t.tim.league = s.tim.league + 1 ∧
        t.tim.loc = s.tim.loc ∧ t.flag F.SFB_HOLD_STAT_INEFF = false ∧
        (s.arr.pos ≠ s.L + 8 → t.lge.cycle = s.lge.cycle ∧ t.tim.td = s.tim.td) ∧
        (s.arr.pos = s.L + 8 → t.lge.cycle = (s.lge.cycle + 1) % 2 ^ 64 ∧ t.tim.td.length = s.tim.td.length ∧
          ∀ n < s.tim.td.length, t.tim.td.getD n 0 = s.tim.td.getD n 0 + (if s.ticks n s.lge.cycle then 1 else 0)) ∧
        (t.ctl.mode = .safe ∨ t.ctl.mode = (if s.lge.held then s.ctl.holdFrom else s.ctl.mode)))

/-- R42, R52, R58: in a step that only one BP has an instruction of class 1 in, whose operands are constants and bits of its own data store, the
BP puts the table entry that its operands select into its data store at the step's address, and no other bit of any data store
changes. -/
def Obligations.ABooleanProcessorEvaluatesItsTable : Prop :=
  ∀ (s : State) (bp w : Nat) (a b c d : Bool), s.Inv → s.plainGrain → s.ctl.clock = true → s.vote (s.grainNo - s.H) = false → s.lge.held = false →
    s.ctl.mode = .run → s.arr.pos < s.L → s.words s.arr.pos = [(bp, w)] → bpErrors s bp s.arr.pos w none = [] → insClass w = 1 →
    s.reads bp (bits w 40 12) a → s.reads bp (bits w 28 12) b → s.reads bp (bits w 16 12) c → s.reads bp (bits w 4 12) d →
    ∃ t, exec (.grain []) s = .next t ∧
      NSet.has t.arr.ds (bp * 2048 + s.arr.pos) = table (SMap.get 0 s.arr.dict (bp / 64 * 256 + insFn w)) a b c d ∧
      (∀ k, k ≠ bp * 2048 + s.arr.pos → NSet.has t.arr.ds k = NSet.has s.arr.ds k) ∧
      t.pair A.PMC_ASTEPLO A.PMC_ASTEPHI = (s.pair A.PMC_ASTEPLO A.PMC_ASTEPHI + 1) % 2 ^ 64

/-- R8, R72, R155: an upset leaves the stored data as it names them, with a parity that fails: of a byte of an instruction word (R48), of eight
bits of a data store, of a byte of a bank. The step clock, off with the domain or not locked, makes no grain then. -/
def Obligations.UpsetsBreakParity : Prop :=
  ∀ (s : State), s.Inv → s.ctl.corePower = false ∨ s.flag F.SFB_CLK_LOCK = false →
    exec (.grain []) s = .next { s with dm := { s.dm with oldEcc := [] } } ∧
    (∀ k v, SMap.wf 0 s.arr.instr = true → ∃ t, exec (.grain [.instr k v]) s = .next t ∧
      SMap.get 0 t.arr.instr (k / 8) = putBits (SMap.get 0 s.arr.instr (k / 8)) (8 * (k % 8)) 8 v ∧
      (∀ j, j ≠ k / 8 → SMap.get 0 t.arr.instr j = SMap.get 0 s.arr.instr j) ∧ NSet.has t.arr.badInstr k = true ∧
      (∀ j, j ≠ k → NSet.has t.arr.badInstr j = NSet.has s.arr.badInstr j) ∧ t.regs = s.regs ∧ t.mem = s.mem) ∧
    (∀ k v, ∃ t, exec (.grain [.ds k v]) s = .next t ∧ NSet.has t.arr.badDs k = true ∧
      (∀ i < 8, NSet.has t.arr.ds (k * 8 + i) = bit v i) ∧
      ∀ j, j < k * 8 ∨ k * 8 + 8 ≤ j → NSet.has t.arr.ds j = NSet.has s.arr.ds j) ∧
    (∀ a v, ∃ t, exec (.grain [.bank a v]) s = .next t ∧ Mem.read1 t.mem a = BitVec.ofNat 8 v ∧ NSet.has t.badMem a = true ∧
      ∀ b, b ≠ a → Mem.read1 t.mem b = Mem.read1 s.mem b)

/-! ### Leagues and time (R345 to R384) -/

/-- R349: a valid plan, by LGE_FORM or by LGE_CTL.FORM, begins the formation of its league; a plan that is not valid is refused with BAD_PLAN,
and its register write begins nothing.
R347, R352 to R355: a FORM token carries the masks of every member it has met, on every league port; the master with all of them READY
fixes H and, without a frequency, is FORMED at grain 0 with EV240, no vote of a neighbour standing early (assumption 61); a member takes H and the frequency from its upstream port; a
formation that is late reports its masks once for each change with EV241. -/
def Obligations.FormationBeginsAndProceeds : Prop :=
  (∀ (s : State), s.Inv → (s.ctl.mode = .idle ∨ s.ctl.mode = .armed) →
    (∀ (msg : Msg) (x : Session), s.takes msg 0x0900 x → s.hmp.claim = some x.num → (msgBody msg x).length = 10 →
      (planOk (leAt (msgBody msg x) 0 4) = true →
        ∃ t, exec (.lgeForm msg) s = .next t ∧ t.replied msg 0x0900 0 [] ∧
          t.formingAs (leAt (msgBody msg x) 0 4) (leAt (msgBody msg x) 4 4) (leAt (msgBody msg x) 8 2)) ∧
      (planOk (leAt (msgBody msg x) 0 4) = false →
        ∃ t, exec (.lgeForm msg) s = .next t ∧ t.replied msg 0x0900 0x981 [] ∧ s.told t [])) ∧
    (∀ (m : Nat) (d : Word), s.reaches m 17 →
      (bit d.toNat 0 = true → planOk (s.reg A.LGE_PLAN).toNat = true →
        ∃ t, exec (.lgeCtlForm m d) s = .next t ∧ t.answered m 17 A.LGE_CTL true 0 [] ∧
          t.formingAs (s.reg A.LGE_PLAN).toNat (s.reg A.LGE_LID).toNat (s.fld F.LGE_TMO_MS)) ∧
      (bit d.toNat 0 = false ∨ planOk (s.reg A.LGE_PLAN).toNat = false →
        ∃ t, exec (.lgeCtlForm m d) s = .next t ∧ t.answered m 17 A.LGE_CTL true 0 [] ∧ s.told t [A.LGE_CTL]))) ∧
  (∀ (s : State), s.Inv → s.forming = true →
    (s.pos ≠ 0 →
      (∃ t, exec .formTokenSend s = .next t ∧ t.regs = s.regs ∧ t = { s with lge := t.lge, lanes := t.lanes } ∧
        t.lge.ready = s.lge.ready ||| (if (∀ n ∈ s.topoPorts, s.portCode n = 2) ∧ s.flag F.LGE_STAT_REFLOCK = true then 2 ^ s.pos else 0) ∧
        ∀ n ∈ s.leaguePorts, s.queues t n 1 (formBody t.lge.ready t.lge.gradebad t.lge.wrong)) ∧
      (∀ port (r g w : BitVec 64), s.portCode port = 2 →
        ∃ t, exec (.tokenForm port r g w) s = .next t ∧ t = { s with lge := t.lge } ∧
          t.lge.ready = s.lge.ready ||| r.toNat |||
            (if (∀ n ∈ s.topoPorts, s.portCode n = 2) ∧ s.flag F.LGE_STAT_REFLOCK = true then 2 ^ s.pos else 0) ∧
          g.toNat ||| t.lge.gradebad = t.lge.gradebad ∧ w.toNat ||| t.lge.wrong = t.lge.wrong)) ∧
    (∀ port (r g w : BitVec 64), s.pos = 0 → s.lge.early = [] → s.portCode port = 2 → s.lge.ready ||| r.toNat = 2 ^ s.leagueSize - 1 → s.lge.tbsyncDue = false →
      s.flag F.SFB_CLK_LOCK = false → s.fld F.LGE_STAT_DIAM * s.fld F.LNK_NHOP_GRAINS + 8 < 65536 →
      ∃ t, exec (.tokenForm port r g w) s = .next t ∧ t.H = s.fld F.LGE_STAT_DIAM * s.fld F.LNK_NHOP_GRAINS + 8 ∧ t.formed = true ∧
        t.grainNo = 0 ∧ t.lge.cycle = 0 ∧ s.raises t 240) ∧
    (∀ port h mhz, s.fromTree port = true → s.lge.tbsyncDue = false → h < 65536 → mhz < 4096 →
      ∃ t, exec (.tokenFormed port h mhz) s = .next t ∧ t.H = h ∧ (∀ n ∈ s.leaguePorts, n ≠ port → s.queues t n 1 (formedBody h mhz)) ∧
        (mhz = 0 → s.lge.early = [] → t.formed = true ∧ t.grainNo = 0 ∧ t.lge.cycle = 0 ∧ s.raises t 240 ∧ t.fld F.SFB_CLK_MHZ = 0 ∧
          t.flag F.SFB_CLK_LOCK = false ∧ t.lge.needSync = true) ∧
        (mhz ≠ 0 → t.fld F.SFB_CLK_MHZ = mhz ∧ t.lge.tbsyncDue = true ∧ t.forming = true ∧
          (mhz ≠ s.fld F.SFB_CLK_MHZ → t.flag F.SFB_CLK_LOCK = false))) ∧
    (s.fromTree (s.fld F.LGE_STAT_UPPORT) = true → ∃ t, exec .reflock s = .next t ∧ t.flag F.LGE_STAT_REFLOCK = true ∧ s.told t [A.LGE_STAT]) ∧
    (s.pos ≠ 0 → s.lge.reported ≠ some (ownMasks s).masks →
      ∃ t, exec .formationTimeout s = .next t ∧ t.lge.reported = some (ownMasks s).masks ∧ s.raises t 241 ∧
        t.pair A.LGE_MISSLO A.LGE_MISSHI = (ownMasks s).masks.1 % 2 ^ 64 ∧ t.pair A.LGE_GRADELO A.LGE_GRADEHI = (ownMasks s).masks.2.1 % 2 ^ 64 ∧
        t.pair A.LGE_WRONGLO A.LGE_WRONGHI = (ownMasks s).masks.2.2 % 2 ^ 64))

/-- R353, R354, R371, R372: the TBSYNC that is due forms the league, or ends a change of the frequency with EV244, both where a RATE came between FORMED and it; a member that receives it
sets TB_LEAGUE to the time it carries plus the whole grains of the delay (a half rounds upward, assumption 20), and is in SAFE when its
step PLL has not locked. A RATE token sets the member's frequency, in a broken league too, and before FORMED is only relayed; so does one with another frequency while a TBSYNC is due. -/
def Obligations.FrequencyChangesAreSynchronised : Prop :=
  ∀ (s : State), s.Inv →
    (s.lge.tbsyncDue = true → s.isMaster = true → (s.forming = true → s.lge.early = []) →
      ∃ t, exec .tbsyncSend s = .next t ∧ t.lge.tbsyncDue = false ∧ (∀ n ∈ s.leaguePorts, s.queues t n 1 tbsyncBody) ∧
        (s.forming = true → t.formed = true ∧ t.grainNo = 0 ∧ t.lge.cycle = 0 ∧ s.raises t 240 ∧ (s.lge.rated = true → s.raises t 244)) ∧
        (s.forming = false → s.raises t 244 ∧ t.tim = s.tim)) ∧
    (∀ port k, s.fromTree port = true → s.lge.tbsyncDue = true → (s.forming = true → s.lge.early = []) →
      ∃ t, exec (.tokenTbsync port k) s = .next t ∧ t.grainNo = unsgn 64 ((k : Int) + s.grainsOf (s.delay port)) ∧ t.lge.tbsyncDue = false ∧
        (s.forming = true → t.formed = true ∧ t.lge.cycle = 0 ∧ s.raises t 240 ∧ (s.lge.rated = true → s.raises t 244)) ∧
        (s.forming = false → t.lge.cycle = s.lge.cycle ∧ s.raises t 244) ∧
        (s.flag F.SFB_CLK_LOCK = false → safeModes s = true → s.entersSafe t 7) ∧ (s.flag F.SFB_CLK_LOCK = true → t.ctl = s.ctl)) ∧
    (∀ port mhz, s.fromTree port = true → s.forming = false → s.lge.tbsyncDue = false → mhz < 4096 →
      ∃ t, exec (.tokenRate port mhz) s = .next t ∧ t.fld F.SFB_CLK_MHZ = mhz ∧ t.flag F.SFB_CLK_LOCK = false ∧ t.lge.tbsyncDue = true ∧
        t.lge.rated = true ∧ (∀ n ∈ s.leaguePorts, n ≠ port → s.queues t n 1 (rateBody mhz)) ∧ ∀ a, a ≠ A.SFB_CLK → t.reg a = s.reg a) ∧
    (∀ port mhz, s.fromTree port = true → s.forming = true → s.lge.tbsyncDue = false →
      ∃ t, exec (.tokenRate port mhz) s = .next t ∧ t = { s with lanes := t.lanes } ∧
        ∀ n ∈ s.leaguePorts, n ≠ port → s.queues t n 1 (rateBody mhz)) ∧
    (∀ port mhz, s.fromTree port = true → s.lge.tbsyncDue = true → mhz ≠ s.fld F.SFB_CLK_MHZ → mhz < 4096 →
      ∃ t, exec (.tokenRate port mhz) s = .next t ∧ t.fld F.SFB_CLK_MHZ = mhz ∧ t.flag F.SFB_CLK_LOCK = false ∧ t.lge.tbsyncDue = true ∧
        ∀ n ∈ s.leaguePorts, n ≠ port → s.queues t n 1 (rateBody mhz))

/-- R361 to R365, R356: a rise or a fall of another member's vote that is new and not late joins the vote here and changes no mode; a FAULT sets
cause FAULT, breaks the league with EV242 and, while an image runs, asks for SAFE; a vote that comes too late enters SAFE with the
record of R394. A vote that comes while this member is FORMING is held until it is FORMED (the model's reading, assumption 61).
R365, R367, R370, R28: a CYCLE token of the cycle that comes is kept and relayed, and makes pending the snapshot it names where none is held
(R222, R240; that one held is kept is assumption 56), one of another cycle is a lockstep error; a START that
comes in time is kept and relayed and brings RUN, or STEP with a burst of the cycles named; one whose grain has passed enters SAFE with the
record of R394; a league that is broken or FORMING relays both, and does not start; in grain GS the step clock runs. -/
def Obligations.VotesAndTokensSteerTheLeague : Prop :=
  ((∀ (s : State) (port vseq : Nat) (w : BitVec 32), s.Inv → 1 < s.leagueSize → s.portCode port = 2 → s.forming = true →
    (s.lane port).vrx.contains (vseq % 256) = false → bits w.toNat 29 3 < 6 →
    ∃ t, exec (.tokenVote port vseq [w]) s = .next t ∧ t.lge = { s.lge with early := s.lge.early ++ [(port, [w.toNat])] } ∧
      t = { s with lge := t.lge, lanes := t.lanes }) ∧
  (∀ (s : State) (port vseq origin : Nat) (w : BitVec 32) (e : VoteEv), s.Inv → port < 6 → 1 < s.leagueSize → s.formed = true → s.portCode port = 2 →
    (s.lane port).vrx.contains (vseq % 256) = false → bits w.toNat 23 6 = origin → origin < s.leagueSize →
    distance s.lge.plan origin s.pos = distance s.lge.plan origin (behind s.lge.plan s.pos port) + 1 →
    e = ⟨bits w.toNat 29 3, origin, nearest s.grainNo (bits w.toNat 0 23)⟩ → e ∉ s.lge.events →
    (e.ek = 1 ∨ e.ek = 2 ∨ e.ek = 4 →
      ∃ t, exec (.tokenVote port vseq [w]) s = .next t ∧
        (e.ek ≠ 4 → e ∈ t.lge.events ∧ (s.grainNo ≤ e.g + s.H → t.lge.events = s.lge.events ++ [e] ∧ t.ctl = s.ctl ∧ t.regs = s.regs)) ∧
        (e.g + s.H < s.grainNo → s.lateFound t 1 port origin ∨ e.ek = 4) ∧
        (e.ek = 4 → s.grainNo ≤ e.g + s.H → s.ctl.mode ≠ .idle →
          t.flag F.SFB_HOLD_STAT_FAULT = true ∧ t.fld F.LGE_STAT_STATE = 2 ∧ s.raises t 242 ∧
          (s.ctl.clock = true → s.ctl.mode = .run → t.ctl.safeDue = some ((s.ctl.safeDue.map (·.1)).getD 5, s.ctl.safeDue.bind (·.2))))))) ∧
  (∀ (s : State), s.Inv →
    (∀ port (k : CycleTok), port < 6 → s.fromTree port = true → s.forming = false → s.lge.tok ≠ some k →
      ∃ t, exec (.tokenCycle port k) s = .next t ∧
        (k.cycle = s.lge.cycle → t.lge = { s.lge with tok := some k } ∧ (∀ n ∈ s.leaguePorts, n ≠ port → s.queues t n 2 (CycleTok.body k)) ∧
          (k.snap = false ∨ s.snp.snap ≠ none → t = { s with lge := t.lge, lanes := t.lanes }) ∧
          (k.snap = true → s.snp.snap = none → s.region 6 ≠ none →
            t.snp = { s.snp with lastId := k.snapid, pend := some (some k.cycle) } ∧ t.fld F.SNP_STAT_STATE = 1 ∧
              t.fld F.SNP_ID_SNAPID = k.snapid % 2 ^ 32)) ∧
        (k.cycle ≠ s.lge.cycle → t.flag F.LNK_LSTAT_VALID = true ∧ s.raises t (199 + 8 * port) ∧ (safeModes s = true → s.entersSafe t 4) ∧
          (s.flag F.LNK_LSTAT_VALID = false → t.fld F.LNK_LSTAT_KIND = 1 ∧ t.fld F.LNK_LSTAT_PORT = port))) ∧
    (∀ port (k : CycleTok), s.fromTree port = true → s.forming = true → s.lge.tok ≠ some k →
      ∃ t, exec (.tokenCycle port k) s = .next t ∧ t = { s with lanes := t.lanes } ∧
        ∀ n ∈ s.leaguePorts, n ≠ port → s.queues t n 2 (CycleTok.body k)) ∧
    (∀ port gs last, port < 6 → s.fromTree port = true → s.formed = true → s.lge.start ≠ some (gs, last) → s.lge.begun ≠ some (gs, last) →
      ∃ t, exec (.tokenStart port gs last) s = .next t ∧
        (s.grainNo < gs → t.lge = { s.lge with start := some (gs, last) } ∧
          (s.ctl.mode = .armed ∨ s.stepStopped = true →
            t.ctl.mode = (if last = 2 ^ 64 - 1 then .run else .step) ∧ t.ctl.burst = decide (last ≠ 2 ^ 64 - 1) ∧ t.ctl.clock = s.ctl.clock ∧
            t.ctl.left = (if last = 2 ^ 64 - 1 then 0 else last + 1 - s.lge.cycle)) ∧
          (s.ctl.mode ≠ .armed → s.stepStopped = false → t = { s with lge := t.lge, lanes := t.lanes })) ∧
        (gs ≤ s.grainNo → s.lateFound t 4 port 0)) ∧
    (∀ port gs last, s.fromTree port = true → s.formed = false → s.lge.start ≠ some (gs, last) → s.lge.begun ≠ some (gs, last) →
      ∃ t, exec (.tokenStart port gs last) s = .next t ∧ t = { s with lanes := t.lanes } ∧
        ∀ n ∈ s.leaguePorts, n ≠ port → s.queues t n 2 (startBody gs last)) ∧
    (∀ gs last, s.lge.start = some (gs, last) → s.flag F.SFB_CLK_LOCK = true → s.grainNo = gs → s.ctl.clock = false →
      (s.ctl.mode = .run ∨ s.ctl.mode = .step ∧ s.ctl.burst = true) →
      exec .runStart s = .next { s with
        ctl := { s.ctl with clock := true }
        lge := { s.lge with start := none, begun := some (gs, last), last := if last = 2 ^ 64 - 1 then none else some last } }))

/-- R373 to R382: a TIME pair leaves on every port that has this member upstream; a FOLLOW of a locked source brings an offset, which stands in
TIM_OFS; an Announce joins the masters, a Sync of the best master brings an offset and a Delay_Resp the path delay (its filter is a
free value); a source that falls silent leaves the servo in holdover. A master not heard for the announce timeout, which the spec does not
give (a constant of Config, assumption 24), is dropped from the selection. Nothing comes or goes through a host port that is down (R679).
R377, R384, R395, R397: TIM_SET before lock sets TB_WALL, and is the first lock where no source is named; after it, it is refused with
SETERR set. The queries of the league and of time answer the registers and counters and change none. -/
def Obligations.TimeIsServoedSetAndQueried : Prop :=
  (∀ (s : State), s.Inv →
    (s.formed = true → 1 < s.leagueSize →
      ∃ t, exec .timeSyncSend s = .next t ∧ t = { s with lanes := t.lanes } ∧
        ∀ n ∈ s.leaguePorts, upstream s.lge.plan (behind s.lge.plan s.pos n) = n ^^^ 1 →
          (t.lane n).tseq = ((s.lane n).tseq + 1) % 256 ∧ (t.lane n).a.queue = (s.lane n).a.queue ++
            [(4, 2 ^ 192 + (t.lane n).tseq * 2 ^ 184), (4, 2 * 2 ^ 192 + (t.lane n).tseq * 2 ^ 184)]) ∧
    (∀ port (f : FollowWord) (o : Int), s.fromTree port = true → s.timeMember = true → -2147483648 ≤ o → o ≤ 2147483647 →
      o = nearDiv (((((f.rxSec * 1000000000 + f.rxNs : Nat) : Int) * 65536 + f.rxFrac - (((f.sec * 1000000000 + f.ns : Nat) : Int) * 65536 + f.frac)) * 1000 -
        s.delay port * 65536)) 65536000 →
      ∃ t, exec (.timeFollow port f) s = .next t ∧ t.tim.srcUnc = f.unc ∧ t.tim.srcLocked = f.locked ∧
        (f.locked = false → t.tim = { s.tim with srcUnc := f.unc, srcLocked := false } ∧ t.fld F.TIM_OFS_VAL = s.fld F.TIM_OFS_VAL) ∧
        (f.locked = true → t.fld F.TIM_OFS_VAL = unsgn 32 o ∧ t.fld F.TIM_STAT_FROM = 4 ∧ t.flag F.TIM_STAT_HOLDOVER = false ∧
          (s.flag F.TIM_STAT_LOCKED = true →
            t.tim.fi = clampRate (s.tim.fi - nearDiv (o * 65536) (16 * s.tau)) ∧
            t.tim.rate = clampRate (t.tim.fi - nearDiv (o * 65536) s.tau) ∧ t.tim.wall = s.tim.wall ∧
            (1000000 < o ∨ o < -1000000 → t.flag F.TIM_STAT_DISC = true ∧ s.raises t 246)) ∧
          (s.flag F.TIM_STAT_LOCKED = false → s.tim.offs.length < 7 → t.tim.offs = s.tim.offs ++ [o] ∧ t.tim.wall = s.tim.wall) ∧
          (s.flag F.TIM_STAT_LOCKED = false → 7 ≤ s.tim.offs.length → t.flag F.TIM_STAT_LOCKED = true ∧ t.tim.offs = [] ∧ s.raises t 245))) ∧
    (∀ h clock q, s.hostLink h = true → s.srcPort h = true →
      ∃ t, exec (.ptpMessage h (.announce clock q (s.fld F.TIM_CTL_DOMAIN))) s = .next t ∧
        t.tim.masters = (s.tim.masters.filter fun m => !(m.hport == h && m.clock == clock)).filter s.heard ++
          [⟨h, clock, q, s.fld F.TIM_CTL_DOMAIN, s.local⟩] ∧ t.tim.best = t.bestMaster ∧
        (t.tim.best.map (fun m => (m.hport, m.clock)) ≠ s.tim.best.map (fun m => (m.hport, m.clock)) →
          s.raises t 249 ∧ t.tim.mpd = none ∧ t.tim.sync = none) ∧
        (t.tim.best.map (fun m => (m.hport, m.clock)) = s.tim.best.map (fun m => (m.hport, m.clock)) →
          t.tim.mpd = s.tim.mpd ∧ t.tim.sync = s.tim.sync)) ∧
    (∀ h clock (t1 t2 : Int), s.hostLink h = true → s.isBest h clock (s.fld F.TIM_CTL_DOMAIN) = true →
      ∃ t, exec (.ptpMessage h (.sync clock (s.fld F.TIM_CTL_DOMAIN) t1 t2)) s = .next t ∧ t.tim.sync = some (t1, t2) ∧
        (s.tim.mpd = none → t.regs = s.regs) ∧ (s.tim.mpd ≠ none → h < 2 → t.fld F.TIM_STAT_FROM = h + 1 ∧ t.flag F.TIM_STAT_HOLDOVER = false)) ∧
    (∀ h p, s.hostLink h = false → exec (.ptpMessage h p) s = .next s ∧ exec (.ptpDelayReq h) s = .next s) ∧
    (∀ h clock (t1 t2 t3 t4 k : Int), s.hostLink h = true → s.isBest h clock (s.fld F.TIM_CTL_DOMAIN) = true → s.tim.sync = some (t1, t2) →
      ∃ t, exec (.ptpMessage h (.delayResp clock (s.fld F.TIM_CTL_DOMAIN) t3 t4 k)) s = .next t ∧
        t.tim.mpd = some (Config.filterDelay s.tim.mpd (nearDiv ((t2 - t1) + (t4 - t3)) 2)) ∧ t.tim.sync = s.tim.sync) ∧
    (∀ b, s.tim.best = some b → b.hport < 2 → s.hostLink b.hport = true →
      exec (.ptpDelayReq b.hport) s = .next { s with tim := { s.tim with
        reqs := if b.hport = 0 then (s.tim.reqs.1 + 1, s.tim.reqs.2) else (s.tim.reqs.1, s.tim.reqs.2 + 1) } }) ∧
    ((s.timeMember = true ∨ s.ptpSource = true) → s.flag F.TIM_STAT_HOLDOVER = false →
      ∃ t, exec .timHoldover s = .next t ∧ t.flag F.TIM_STAT_HOLDOVER = true ∧ s.raises t 250 ∧
        t.tim = { s.tim with masters := s.tim.masters.filter s.heard, best := s.bestMaster, mpd := t.tim.mpd, sync := t.tim.sync, rate := s.tim.fi } ∧
        t.fld F.TIM_RATE_VAL = unsgn 32 (nearDiv s.tim.fi 65536))) ∧
  (∀ (s : State), s.Inv → s.ctl.corePower = true →
    (∀ (msg : Msg) (x : Session),
      (s.takes msg 0x0903 x → s.hmp.claim = some x.num → (msgBody msg x).length = 10 →
        (s.flag F.TIM_STAT_LOCKED = false →
          ∃ t, exec (.timSet msg) s = .next t ∧ t.replied msg 0x0903 0 [] ∧ t.tim.rem = 0 ∧
            t.tim.wall = (leAt (msgBody msg x) 0 6 * 1000000000 + leAt (msgBody msg x) 6 4) * 65536 % (2 ^ 48 * 1000000000 * 65536) ∧
            t.tim.loc = s.tim.loc ∧ t.tim.league = s.tim.league ∧
            (s.src = 0 → s.timeMember = false → t.flag F.TIM_STAT_LOCKED = true ∧ s.raises t 245)) ∧
        (s.flag F.TIM_STAT_LOCKED = true →
          ∃ t, exec (.timSet msg) s = .next t ∧ t.replied msg 0x0903 0x982 [] ∧ t.flag F.TIM_STAT_SETERR = true ∧ s.told t [A.TIM_STAT])) ∧
      (s.takes msg 0x0901 x → msgBody msg x = [] →
        ∃ t, exec (.lgeQuery msg) s = .next t ∧ s.told t [] ∧ t.regs = s.regs ∧
          t.replied msg 0x0901 0 (leBytes 4 (s.reg A.LGE_STAT).toNat ++ leBytes 4 (s.reg A.LGE_PSTAT).toNat ++
            leBytes 8 (s.pair A.LGE_MISSLO A.LGE_MISSHI) ++ leBytes 8 (s.pair A.LGE_GRADELO A.LGE_GRADEHI) ++
            leBytes 8 (s.pair A.LGE_WRONGLO A.LGE_WRONGHI) ++ leBytes 8 s.lge.cycle ++ leBytes 4 (s.reg A.SFB_HORIZON).toNat)) ∧
      (s.takes msg 0x0902 x → msgBody msg x = [] →
        ∃ t, exec (.timQuery msg) s = .next t ∧ s.told t [] ∧ t.regs = s.regs ∧
          t.replied msg 0x0902 0 (leBytes 4 (s.reg A.TIM_STAT).toNat ++ leBytes 6 s.wallSec ++ leBytes 4 s.wallNs ++
            leBytes 2 (s.tim.wall % 65536) ++ leBytes 4 (s.reg A.TIM_OFS).toNat ++ leBytes 4 (s.reg A.TIM_RATE).toNat ++
            leBytes 8 s.grainNo ++ leBytes 8 s.local))) ∧
    (∀ (m : Nat) (d : Word), s.reaches m 17 → bit d.toNat 31 = true → s.flag F.TIM_STAT_LOCKED = false →
      ∃ t, exec (.timCtlSet m d) s = .next t ∧ t.answered m 17 A.TIM_CTL true 0 [] ∧ t.tim.rem = 0 ∧
        t.tim.wall = ((s.tim.setSecLo + 2 ^ 32 * s.tim.setSecHi) * 1000000000 + s.tim.setNs) * 65536 % (2 ^ 48 * 1000000000 * 65536)))

/-! ### The management controller (R35, R636, R646 to R664) -/

/-- R636, R653 to R658: MODE_QUERY, SENSORS, SET_READ and LOG_READ answer what stands and change nothing (the MC, with
the crossing down, what it last knew: assumption 55); SET_STAGE puts its bytes into the staging
copy, SET_DROP makes it the active copy again, and a SET_COMMIT that no check refuses begins the commit, whose end makes the staged
bytes, with the next SEQ, the active copy, and answers; the erase that follows empties the other.
R658, R373: the log buffer goes to flash as it stands, the newest sectors kept; the hub's wall time reaches a MC that runs. -/
def Obligations.SettingsLogAndWallTime : Prop :=
  (∀ (s : State), s.Inv →
    (∀ (msg : Msg) (x : Session),
      (s.takes msg 0x0F02 x → msgBody msg x = [] →
        ∃ t, exec (.modeQuery msg) s = .next t ∧ s.told t [] ∧ t.regs = s.regs ∧
          (msg.port ≠ .mgmt ∨ s.mcReached = true →
            t.replied msg 0x0F02 0 (leBytes 4 s.mgtMode.toNat ++ leBytes 4 (s.reg A.MGT_BOOT).toNat ++ leBytes 4 (s.reg A.MGT_UPD).toNat ++
              leBytes 8 s.lge.cycle)) ∧
          (msg.port = .mgmt → s.mcReached = false → t.replied msg 0x0F02 0 s.mgt.modeWords)) ∧
      (s.takes msg 0x0F0C x → msgBody msg x = [] →
        ∃ t, exec (.sensors msg) s = .next t ∧ s.told t [] ∧ t.regs = s.regs ∧
          t.replied msg 0x0F0C 0 (if msg.port = .mgmt ∧ s.mcReached = false then s.mgt.pwrWords else s.sensorBytes)) ∧
      (∀ o n, s.takes msg 0x0F0D x → (msgBody msg x).length = 5 → leAt (msgBody msg x) 0 2 = o → leAt (msgBody msg x) 2 2 = n →
        ∃ t, exec (.setRead msg) s = .next t ∧ s.told t [] ∧ t.regs = s.regs ∧
          (1 ≤ n → n ≤ 1024 → o + n ≤ 16904 → leAt (msgBody msg x) 4 1 = 0 → t.replied msg 0x0F0D 0 (Mem.read s.mgt.activeCopy o n)) ∧
          (1 ≤ n → n ≤ 1024 → o + n ≤ 16904 → leAt (msgBody msg x) 4 1 = 1 → t.replied msg 0x0F0D 0 (Mem.read s.mgt.staging o n)) ∧
          (n = 0 ∨ 1024 < n ∨ 16904 < o + n ∨ 1 < leAt (msgBody msg x) 4 1 → t.replied msg 0x0F0D 0xF81 [])) ∧
      (∀ o n, s.takes msg 0x0F0E x → s.hmp.claim = some x.num → leAt (msgBody msg x) 0 2 = o → leAt (msgBody msg x) 2 2 = n →
        (msgBody msg x).length = n + 4 → 1 ≤ n → n ≤ 1024 → o + n ≤ 16896 → Memory.wf s.mgt.staging = true →
        ∃ t, exec (.setStage msg) s = .next t ∧ t.replied msg 0x0F0E 0 [] ∧ Mem.read t.mgt.staging o n = (msgBody msg x).drop 4 ∧
          (∀ b, b < o ∨ o + n ≤ b → Mem.read1 t.mgt.staging b = Mem.read1 s.mgt.staging b) ∧
          ({ s with mgt := { s.mgt with staging := t.mgt.staging } } : State).told t []) ∧
      (s.takes msg 0x0F10 x → s.hmp.claim = some x.num → msgBody msg x = [] →
        ∃ t, exec (.setDrop msg) s = .next t ∧ t.replied msg 0x0F10 0 [] ∧
          ({ s with mgt := { s.mgt with staging := s.mgt.activeCopy } } : State).told t []) ∧
      (s.takes msg 0x0F0F x → s.hmp.claim = some x.num → msgBody msg x = [] →
        (settingsForm s.mgt.staging = true → (keysChange s.mgt.activeCopy s.mgt.staging = false ∨ x.debug = true) → s.mgt.commit = none →
          s.mgt.erasing = false → s.mgt.lost = false →
          ∃ t, exec (.setCommit msg) s = .next t ∧ t.out = s.out ∧ ({ s with mgt := { s.mgt with
            commit := some ⟨if s.mgt.active = some 0 then 1 else 0, s.mgt.staging, msg⟩ } } : State).told t []) ∧
        (settingsForm s.mgt.staging = false → ∃ t, exec (.setCommit msg) s = .next t ∧ t.replied msg 0x0F0F 0xF81 [] ∧ s.told t [])) ∧
      (∀ n from_, s.takes msg 0x0F11 x → (msgBody msg x).length = 6 → leAt (msgBody msg x) 0 4 = from_ → leAt (msgBody msg x) 4 2 = n →
        n ≤ 40 → from_ < 2 ^ 32 - 1 →
        ∃ t, exec (.logRead msg) s = .next t ∧ s.told t [] ∧ t.regs = s.regs ∧ t.replied msg 0x0F11 0
          ((((s.mgt.log ++ s.mgt.logBuf).filter fun r => from_ ≤ r.seq).take n).flatMap LogRec.bytes))) ∧
    (∀ c, s.mgt.commit = some c → Memory.wf c.bytes = true → s.portUp c.answer.port = true →
      ∃ t, exec .settingsCommitDone s = .next t ∧ t.mgt.commit = none ∧ t.mgt.erasing = true ∧ s.raises t 319 ∧
        t.replied c.answer 0x0F0F 0 [] ∧ t.mgt.active = some (if s.mgt.active = some 0 then 1 else 0) ∧
        setAtByte t.mgt.activeCopy 16896 4 = (setAtByte s.mgt.activeCopy 16896 4 + 1) % 2 ^ 32 ∧
        (∀ a < 16896, Mem.read1 t.mgt.activeCopy a = Mem.read1 c.bytes a) ∧
        setAtByte t.mgt.activeCopy 16900 4 = crc32 (Mem.read t.mgt.activeCopy 0 16900)) ∧
    (s.mgt.erasing = true → s.mgt.lost = false → s.mgt.mcUp = true → s.mgt.active ≠ none →
      ∃ t, exec .settingsEraseDone s = .next t ∧ t.mgt.erasing = false ∧ t.mgt.activeCopy = s.mgt.activeCopy ∧
        (if s.mgt.active = some 0 then t.mgt.copy1 = [] else t.mgt.copy0 = []) ∧ t = { s with mgt := t.mgt })) ∧
  (∀ (s : State), s.mgt.mcUp = true →
    (∃ t, exec .logFlush s = .next t ∧ t.mgt.logBuf = [] ∧ t = { s with mgt := { s.mgt with log := t.mgt.log, logBuf := [] } } ∧
      ((∀ r ∈ s.mgt.log ++ s.mgt.logBuf, r.seq < 253 * 2048) → t.mgt.log = s.mgt.log ++ s.mgt.logBuf)) ∧
    (s.ctl.corePower = true → s.mgt.xingUp = true →
      exec .wallTimeToMc s = .next { s with mgt := { s.mgt with wallSec := s.wallSec, wallNs := s.wallNs, wallKnown := true } }))

/-- R660 to R663: UPD_BEGIN erases the slot that does not run and takes the package; a written package that passes stands in its slot, to be tried
by three starts, once no commit or erase runs (assumption 32); one that fails leaves an empty slot and raises EV319; UPD_CONFIRM makes the trial slot the one to boot and raises the
anti-rollback counter to its package's.
R646, R647, R650, R654, R662, R663: the MC starts with the copy that R654 selects and the slot to boot, or in recovery when no slot passes,
and boots a module in STANDBY under AUTOON, but not at a mere restart; a start of the slot on trial takes one of its tries, and with none left, or
with a package that does not pass, TRIAL ends and the slot to boot is the other choice's; MC_RESTART and a second watchdog expiry put it down, a first one raises WDOG. -/
def Obligations.UpdatesAndTheMcsStart : Prop :=
  (∀ (s : State), s.Inv → s.mgt.runSlot ≤ 1 → Memory.wf s.mgt.activeCopy = true →
    (∀ (msg : Msg) (x : Session) (n : Nat), s.takes msg 0x0F12 x → s.hmp.claim = some x.num → (msgBody msg x).length = 4 →
      leAt (msgBody msg x) 0 4 = n → s.mgt.lost = false → s.mgt.upd = none → s.mgt.onTrial = false →
      (4096 ≤ n → n ≤ 0x1800000 →
        ∃ t, exec (.updBegin msg) s = .next t ∧ t.mgt.upd = some (1 - s.mgt.runSlot, [], msg) ∧ t.mgt.slot (1 - s.mgt.runSlot) = [] ∧
          t.mgt.slot s.mgt.runSlot = s.mgt.slot s.mgt.runSlot ∧ ⟨x.num, .update, 0x0F12, 0, [], 0, n⟩ ∈ t.hmp.ins ∧ t.mem = s.mem) ∧
      (n < 4096 ∨ 0x1800000 < n → ∃ t, exec (.updBegin msg) s = .next t ∧ t.replied msg 0x0F12 0xF84 [] ∧ s.told t [])) ∧
    (∀ k b m, k ≤ 1 → s.mgt.upd = some (k, b, m) → leAt m.payload 0 4 ≤ b.length →
      (s.mgt.commit ≠ none ∨ s.mgt.erasing = true → exec .updWriteDone s = .next s) ∧
      (s.mgt.commit = none → s.mgt.erasing = false → s.portUp m.port = true →
      ∃ t, exec .updWriteDone s = .next t ∧ t.mgt.upd = none ∧ t.replied m 0x0F12 (packageFault s.fuses.rbcnt b) [] ∧ s.raises t 319 ∧
        t.mgt.slot (1 - k) = s.mgt.slot (1 - k) ∧
        (packageFault s.fuses.rbcnt b = 0 → t.mgt.slot k = b ∧ setAtByte t.mgt.activeCopy 45 1 = k + 1 ∧ setAtByte t.mgt.activeCopy 46 1 = 3) ∧
        (packageFault s.fuses.rbcnt b ≠ 0 → t.mgt.slot k = [] ∧ t.mgt.activeCopy = s.mgt.activeCopy))) ∧
    (∀ (msg : Msg) (x : Session), s.takes msg 0x0F13 x → s.hmp.claim = some x.num → msgBody msg x = [] → s.mgt.lost = false →
      (s.mgt.onTrial = true → s.mgt.commit ≠ none ∨ s.mgt.erasing = true →
        ∃ t, exec (.updConfirm msg) s = .next t ∧ t.replied msg 0x0F13 0xF83 [] ∧ s.told t []) ∧
      (s.mgt.onTrial = true → s.mgt.commit = none → s.mgt.erasing = false →
        ∃ t, exec (.updConfirm msg) s = .next t ∧ t.replied msg 0x0F13 0 [] ∧ t.mgt.onTrial = false ∧
          t.fuses.rbcnt = Nat.max s.fuses.rbcnt (leAt (s.mgt.slot s.mgt.runSlot) 12 4) ∧
          setAtByte t.mgt.activeCopy 44 1 = s.mgt.runSlot ∧ setAtByte t.mgt.activeCopy 45 1 = 0) ∧
      (s.mgt.onTrial = false → ∃ t, exec (.updConfirm msg) s = .next t ∧ t.replied msg 0x0F13 0xF87 [] ∧ s.told t []))) ∧
  (∀ (s : State), s.Inv →
    (∀ a c, s.mgt.mcUp = false → s.ctl.mode ≠ .off →
      c = ({ s.mgt with active := chooseCopy s.mgt.copy0 s.mgt.copy1 } : Mgt).activeCopy → a = setAtByte c 44 1 → setAtByte c 45 1 = 0 →
      ∃ t, exec .mcStart s = .next t ∧ t.mgt.mcUp = true ∧ t.mgt.active = chooseCopy s.mgt.copy0 s.mgt.copy1 ∧ t.mgt.staging = c ∧
        t.mgt.onTrial = false ∧ t.core 16 = Core.mc ∧
        (s.slotPasses a = true → t.mgt.runSlot = a ∧ t.mgt.recovery = false) ∧
        (s.slotPasses a = false → s.slotPasses (1 - a) = true → t.mgt.runSlot = 1 - a ∧ t.mgt.recovery = false) ∧
        (s.slotPasses a = false → s.slotPasses (1 - a) = false → t.mgt.recovery = true ∧ t.ctl = s.ctl) ∧
        (t.mgt.recovery = false → s.ctl.mode = .standby → s.ctl.inputGood = true → bit (setAtByte c 8 1) 0 = true →
          s.mgt.restarting = false ∨ s.mgt.lost = true → t.ctl.mode = .boot) ∧
        (s.mgt.restarting = true → s.mgt.lost = false → t.ctl = s.ctl)) ∧
    (∀ a c, s.mgt.mcUp = false → s.ctl.mode ≠ .off →
      c = ({ s.mgt with active := chooseCopy s.mgt.copy0 s.mgt.copy1 } : Mgt).activeCopy → Memory.wf c = true → a = setAtByte c 44 1 →
      ∃ t, exec .mcStart s = .next t ∧ t.mgt.mcUp = true ∧ setAtByte t.mgt.activeCopy 44 1 = a ∧ ∀ k ≤ 1, setAtByte c 45 1 = k + 1 →
        (0 < setAtByte c 46 1 → s.slotPasses k = true →
          t.mgt.runSlot = k ∧ t.mgt.onTrial = true ∧ t.mgt.recovery = false ∧
            setAtByte t.mgt.activeCopy 46 1 = setAtByte c 46 1 - 1 ∧ setAtByte t.mgt.activeCopy 45 1 = k + 1) ∧
        (setAtByte c 46 1 = 0 ∨ s.slotPasses k = false →
          t.mgt.onTrial = false ∧ setAtByte t.mgt.activeCopy 45 1 = 0 ∧
            (s.slotPasses a = true → t.mgt.runSlot = a ∧ t.mgt.recovery = false))) ∧
    (∀ (msg : Msg) (x : Session), s.takes msg 0x0F14 x → s.hmp.claim = some x.num → msgBody msg x = [] →
      ∃ t, exec (.mcRestart msg) s = .next t ∧ t.replied msg 0x0F14 0 [] ∧ t.mgt.mcUp = false ∧ t.core 16 = Core.reset ∧ t.mgt.upd = none ∧
        t.mgt.commit = none ∧ t.mgt.logBuf = [] ∧ t.hmp.claim = s.hmp.claim ∧ t.ctl = s.ctl ∧ ∀ n, n ≠ 16 → t.core n = s.core n) ∧
    (s.mgt.mcUp = true →
      ∃ t, exec .mcWatchdogExpiry s = .next t ∧ (∀ n, n ≠ 16 → t.core n = s.core n) ∧
        ((s.core 16).wdogOnce = false → t = { s with cores := t.cores } ∧ t.core 16 = { s.core 16 with wdog := true, wdogOnce := true }) ∧
        ((s.core 16).wdogOnce = true → t.mgt.mcUp = false ∧ t.core 16 = Core.reset)))

/-- R649: a write of MBX_DOOR while the mailbox is free takes the message of LEN bytes to the MC; it enters the log, or its answer stands in FROMMC
with EV318. What the MC does with each command is the model's choice where R649 leaves it open (assumption 33). -/
def Obligations.TheMailboxReachesTheMc : Prop :=
  ∀ (s : State), s.Inv →
    (∀ (m n : Nat) (d : Word), s.reaches m 34 → bits d.toNat 0 13 = n → s.mgt.mcUp = true → s.mgt.xingUp = true →
      (s.mgt.mbox = none → 4 ≤ n → n ≤ 4096 → 1 ≤ leAt (Mem.read s.mem tomcBase n) 0 4 → leAt (Mem.read s.mem tomcBase n) 0 4 ≤ 3 →
        ∃ t, exec (.mbxDoorWrite m d) s = .next t ∧ t.answered m 34 0x20000802000 true 0 [] ∧
          ({ s with mgt := { s.mgt with mbox := some (m, Mem.read s.mem tomcBase n) } } : State).told t [] ∧ t.regs = s.regs) ∧
      (s.mgt.mbox ≠ none ∨ n = 0 ∨ 4096 < n →
        ∃ t, exec (.mbxDoorWrite m d) s = .next t ∧ t.answered m 34 0x20000802000 true 0 [] ∧ s.told t [] ∧ t.regs = s.regs)) ∧
    (∀ m b, s.mgt.mbox = some (m, b) →
      (leAt b 0 4 = 1 → s.mgt.mcUp = true → s.mgt.logBuf.length < 256 →
        exec .mbxLog s = .next { s with mgt := { s.mgt with
          mbox := none, logSeq := s.mgt.logSeq + 1
          logBuf := s.mgt.logBuf ++ [⟨s.mgt.logSeq, s.mgt.wallSec, s.mgt.wallNs, 0x9000 + m, !s.mgt.wallKnown,
            (slice b 4 11 ++ List.replicate 11 0).take 11⟩] } }) ∧
      (leAt b 0 4 = 2 →
        ∃ t, exec .mbxSensors s = .next t ∧ t.mgt.mbox = none ∧ t.mgt.reply = (true, s.sensorBytes.length) ∧ s.raises t 318 ∧
          Mem.read t.mem frommcBase s.sensorBytes.length = s.sensorBytes ∧
          ∀ a, a < frommcBase ∨ frommcBase + s.sensorBytes.length ≤ a → Mem.read1 t.mem a = Mem.read1 s.mem a) ∧
      (∀ o n, leAt b 0 4 = 3 → leAt b 4 2 = o → leAt b 6 2 = n → n ≤ 1024 → o + n ≤ 16904 →
        ∃ t, exec .mbxSetread s = .next t ∧ t.mgt.mbox = none ∧ t.mgt.reply = (true, n) ∧ s.raises t 318 ∧
          Mem.read t.mem frommcBase n = Mem.read s.mgt.activeCopy o n))

end
end

