-- ==== Sys2Proof/Laws/Maps.lean ====
section
/-! SUPPORT. What the sparse maps, the register file and the byte memory do: a read after a write, and the canonical forms kept. -/
namespace Sys2Proof.Machine

/-! ### Register files -/

theorem rwfFrom_mono (d : Nat → Word) {a b : Nat} {m : SMap Word} (h : rwfFrom d b m = true) (hab : a ≤ b) :
    rwfFrom d a m = true := by
  cases m with
  | nil => rfl
  | cons x r => simp only [rwfFrom, Bool.and_eq_true, decide_eq_true_eq] at h ⊢; exact ⟨⟨by omega, h.1.2⟩, h.2⟩

theorem rwfFrom_rset (d : Nat → Word) (m : SMap Word) (lo a : Nat) (w : Word) (h : rwfFrom d lo m = true) (ha : lo ≤ a) :
    rwfFrom d lo (rset d m a w) = true := by
  induction m generalizing lo with
  | nil => by_cases hw : w = d a <;> simp [rset, rwfFrom, hw, ha]
  | cons x r ih =>
    obtain ⟨k, v⟩ := x
    simp only [rwfFrom, Bool.and_eq_true, decide_eq_true_eq] at h
    unfold rset
    split
    · subst a
      split
      · exact rwfFrom_mono d h.2 (by omega)
      · simp only [rwfFrom, Bool.and_eq_true, decide_eq_true_eq]; exact ⟨⟨ha, ‹_›⟩, h.2⟩
    · split
      · split
        · simp only [rwfFrom, Bool.and_eq_true, decide_eq_true_eq]; exact h
        · simp only [rwfFrom, Bool.and_eq_true, decide_eq_true_eq]; exact ⟨⟨ha, ‹_›⟩, ⟨by omega, h.1.2⟩, h.2⟩
      · simp only [rwfFrom, Bool.and_eq_true, decide_eq_true_eq]; exact ⟨h.1, ih _ h.2 (by omega)⟩

/-- Writing registers one by one keeps the canonical form. -/
theorem rwfFrom_foldl (d : Nat → Word) (l : SMap Word) (m : SMap Word) (h : rwfFrom d 0 m = true) :
    rwfFrom d 0 (l.foldl (fun m x => rset d m x.1 x.2) m) = true := by
  induction l generalizing m with
  | nil => exact h
  | cons x r ih => exact ih _ (rwfFrom_rset d m 0 x.1 x.2 h (Nat.zero_le _))

/-- A filtered register file is in canonical form. -/
theorem rwfFrom_filter (d : Nat → Word) (p : Nat × Word → Bool) (m : SMap Word) (lo : Nat) (h : rwfFrom d lo m = true) :
    rwfFrom d lo (m.filter p) = true := by
  induction m generalizing lo with
  | nil => rfl
  | cons x r ih =>
    simp only [rwfFrom, Bool.and_eq_true, decide_eq_true_eq] at h
    rw [List.filter_cons]
    split
    · simp only [rwfFrom, Bool.and_eq_true, decide_eq_true_eq]; exact ⟨h.1, ih _ h.2⟩
    · exact rwfFrom_mono d (ih _ h.2) (by omega)

theorem rget_low (d : Nat → Word) (m : SMap Word) (lo a : Nat) (h : rwfFrom d lo m = true) (ha : a < lo) : rget d m a = d a := by
  cases m with
  | nil => rfl
  | cons x r =>
    simp only [rwfFrom, Bool.and_eq_true, decide_eq_true_eq] at h
    simp only [rget]; split
    · omega
    · split
      · rfl
      · omega

/-- A register reads back what was written. -/
theorem rget_rset_same (d : Nat → Word) (m : SMap Word) (lo a : Nat) (w : Word) (h : rwfFrom d lo m = true) :
    rget d (rset d m a w) a = w := by
  induction m generalizing lo with
  | nil => by_cases hw : w = d a <;> simp [rset, rget, hw]
  | cons x r ih =>
    obtain ⟨k, v⟩ := x
    simp only [rwfFrom, Bool.and_eq_true, decide_eq_true_eq] at h
    unfold rset
    split
    · subst a
      split
      · rw [rget_low d r (k + 1) k h.2 (by omega)]; exact (‹w = d k›).symm
      · simp [rget]
    · split
      · split
        · simp only [rget]; split
          · omega
          · exact (‹w = d a›).symm
        · simp [rget]
      · simp only [rget]; rw [if_neg ‹_›, if_neg ‹_›]; exact ih _ h.2

/-- A write leaves every other register alone. -/
theorem rget_rset_other (d : Nat → Word) (m : SMap Word) (lo a b : Nat) (w : Word) (h : rwfFrom d lo m = true) (hab : b ≠ a) :
    rget d (rset d m a w) b = rget d m b := by
  induction m generalizing lo with
  | nil => by_cases hw : w = d a <;> simp [rset, rget, hw, hab]
  | cons x r ih =>
    obtain ⟨k, v⟩ := x
    simp only [rwfFrom, Bool.and_eq_true, decide_eq_true_eq] at h
    unfold rset
    split
    · subst a
      split
      · simp only [rget]; rw [if_neg hab]; split
        · rw [rget_low d r (k + 1) b h.2 (by omega)]
        · rfl
      · simp only [rget]; rw [if_neg hab, if_neg hab]
    · split
      · split
        · rfl
        · simp only [rget]; rw [if_neg hab]
          by_cases h1 : b < a
          · rw [if_pos h1, if_neg (by omega), if_pos (by omega)]
          · rw [if_neg h1]
      · simp only [rget]; rw [ih _ h.2]

/-! ### Sparse maps -/

theorem SMap.wfFrom_mono {α : Type} [DecidableEq α] (d : α) {a b : Nat} {m : SMap α} (h : SMap.wfFrom d b m = true)
    (hab : a ≤ b) : SMap.wfFrom d a m = true := by
  cases m with
  | nil => rfl
  | cons x r => simp only [SMap.wfFrom, Bool.and_eq_true, decide_eq_true_eq] at h ⊢; exact ⟨⟨by omega, h.1.2⟩, h.2⟩

theorem SMap.wfFrom_set {α : Type} [DecidableEq α] (d : α) (m : SMap α) (lo a : Nat) (w : α) (h : SMap.wfFrom d lo m = true)
    (ha : lo ≤ a) : SMap.wfFrom d lo (SMap.set d m a w) = true := by
  induction m generalizing lo with
  | nil => by_cases hw : w = d <;> simp [SMap.set, SMap.wfFrom, hw, ha]
  | cons x r ih =>
    obtain ⟨k, v⟩ := x
    simp only [SMap.wfFrom, Bool.and_eq_true, decide_eq_true_eq] at h
    unfold SMap.set
    split
    · subst a
      split
      · exact SMap.wfFrom_mono d h.2 (by omega)
      · simp only [SMap.wfFrom, Bool.and_eq_true, decide_eq_true_eq]; exact ⟨⟨ha, ‹_›⟩, h.2⟩
    · split
      · split
        · simp only [SMap.wfFrom, Bool.and_eq_true, decide_eq_true_eq]; exact h
        · simp only [SMap.wfFrom, Bool.and_eq_true, decide_eq_true_eq]; exact ⟨⟨ha, ‹_›⟩, ⟨by omega, h.1.2⟩, h.2⟩
      · simp only [SMap.wfFrom, Bool.and_eq_true, decide_eq_true_eq]; exact ⟨h.1, ih _ h.2 (by omega)⟩

theorem SMap.get_low {α : Type} [DecidableEq α] (d : α) (m : SMap α) (lo a : Nat) (h : SMap.wfFrom d lo m = true) (ha : a < lo) :
    SMap.get d m a = d := by
  cases m with
  | nil => rfl
  | cons x r =>
    simp only [SMap.wfFrom, Bool.and_eq_true, decide_eq_true_eq] at h
    simp only [SMap.get]; split
    · omega
    · split
      · rfl
      · omega

/-- A map holds at a key what was put there. -/
theorem SMap.get_set_same {α : Type} [DecidableEq α] (d : α) (m : SMap α) (lo a : Nat) (w : α) (h : SMap.wfFrom d lo m = true) :
    SMap.get d (SMap.set d m a w) a = w := by
  induction m generalizing lo with
  | nil => by_cases hw : w = d <;> simp [SMap.set, SMap.get, hw]
  | cons x r ih =>
    obtain ⟨k, v⟩ := x
    simp only [SMap.wfFrom, Bool.and_eq_true, decide_eq_true_eq] at h
    unfold SMap.set
    split
    · subst a
      split
      · rw [SMap.get_low d r (k + 1) k h.2 (by omega)]; exact (‹w = d›).symm
      · simp [SMap.get]
    · split
      · split
        · simp only [SMap.get]; split
          · omega
          · exact (‹w = d›).symm
        · simp [SMap.get]
      · simp only [SMap.get]; rw [if_neg ‹_›, if_neg ‹_›]; exact ih _ h.2

/-- Putting a value at a key leaves every other key alone. -/
theorem SMap.get_set_other {α : Type} [DecidableEq α] (d : α) (m : SMap α) (lo a b : Nat) (w : α) (h : SMap.wfFrom d lo m = true)
    (hab : b ≠ a) : SMap.get d (SMap.set d m a w) b = SMap.get d m b := by
  induction m generalizing lo with
  | nil => by_cases hw : w = d <;> simp [SMap.set, SMap.get, hw, hab]
  | cons x r ih =>
    obtain ⟨k, v⟩ := x
    simp only [SMap.wfFrom, Bool.and_eq_true, decide_eq_true_eq] at h
    unfold SMap.set
    split
    · subst a
      split
      · simp only [SMap.get]; rw [if_neg hab]; split
        · rw [SMap.get_low d r (k + 1) b h.2 (by omega)]
        · rfl
      · simp only [SMap.get]; rw [if_neg hab, if_neg hab]
    · split
      · split
        · rfl
        · simp only [SMap.get]; rw [if_neg hab]
          by_cases h1 : b < a
          · rw [if_pos h1, if_neg (by omega), if_pos (by omega)]
          · rw [if_neg h1]
      · simp only [SMap.get]; rw [ih _ h.2]

/-! ### The byte memory -/

theorem Mem.wfFrom_mono {a b : Nat} {m : List Host.Cell} (h : Mem.wfFrom b m = true) (hab : a ≤ b) : Mem.wfFrom a m = true := by
  cases m with
  | nil => rfl
  | cons x r => simp only [Mem.wfFrom, Bool.and_eq_true, decide_eq_true_eq] at h ⊢; exact ⟨⟨by omega, h.1.2⟩, h.2⟩

theorem Mem.wfFrom_write1 (m : List Host.Cell) (lo a : Nat) (w : Byte) (h : Mem.wfFrom lo m = true) (ha : lo ≤ a) :
    Mem.wfFrom lo (Mem.write1 m a w) = true := by
  induction m generalizing lo with
  | nil => unfold Mem.write1; split <;> simp_all [Mem.wfFrom]
  | cons x r ih =>
    obtain ⟨k, v⟩ := x
    simp only [Mem.wfFrom, Bool.and_eq_true, decide_eq_true_eq] at h
    unfold Mem.write1
    split
    · subst a
      split
      · exact Mem.wfFrom_mono h.2 (by omega)
      · simp only [Mem.wfFrom, Bool.and_eq_true, decide_eq_true_eq]; exact ⟨⟨ha, ‹_›⟩, h.2⟩
    · split
      · split
        · simp only [Mem.wfFrom, Bool.and_eq_true, decide_eq_true_eq]; exact h
        · simp only [Mem.wfFrom, Bool.and_eq_true, decide_eq_true_eq]; exact ⟨⟨ha, ‹_›⟩, ⟨by omega, h.1.2⟩, h.2⟩
      · simp only [Mem.wfFrom, Bool.and_eq_true, decide_eq_true_eq]; exact ⟨h.1, ih _ h.2 (by omega)⟩

/-- Writing a byte keeps the canonical form. -/
theorem Memory.wf_write1 (m : List Host.Cell) (a : Nat) (w : Byte) (h : Memory.wf m = true) : Memory.wf (Mem.write1 m a w) = true :=
  Mem.wfFrom_write1 m 0 a w h (Nat.zero_le _)

/-- Writing bytes keeps the canonical form. -/
theorem Memory.wf_write (m : List Host.Cell) (a : Nat) (d : List Byte) (h : Memory.wf m = true) : Memory.wf (Mem.write m a d) = true := by
  induction d generalizing m a with
  | nil => exact h
  | cons b r ih => exact ih _ _ (Memory.wf_write1 m a b h)

/-- Writing cells one by one keeps the canonical form. -/
theorem Memory.wf_cells (l : List Host.Cell) (m : List Host.Cell) (h : Memory.wf m = true) :
    Memory.wf (l.foldl (fun m c => Mem.write1 m c.1 c.2) m) = true := by
  induction l generalizing m with
  | nil => exact h
  | cons c r ih => exact ih _ (Memory.wf_write1 m c.1 c.2 h)

theorem Mem.wfFrom_filter (p : Host.Cell → Bool) (m : List Host.Cell) (lo : Nat) (h : Mem.wfFrom lo m = true) :
    Mem.wfFrom lo (m.filter p) = true := by
  induction m generalizing lo with
  | nil => rfl
  | cons x r ih =>
    simp only [Mem.wfFrom, Bool.and_eq_true, decide_eq_true_eq] at h
    rw [List.filter_cons]
    split
    · simp only [Mem.wfFrom, Bool.and_eq_true, decide_eq_true_eq]; exact ⟨h.1, ih _ h.2⟩
    · exact Mem.wfFrom_mono (ih _ h.2) (by omega)

/-- Forgetting bytes keeps the canonical form. -/
theorem Memory.wf_filter (p : Host.Cell → Bool) (m : List Host.Cell) (h : Memory.wf m = true) : Memory.wf (m.filter p) = true :=
  Mem.wfFrom_filter p m 0 h

/-- Clearing a range keeps the canonical form. -/
theorem Memory.wf_clear (m : List Host.Cell) (a n : Nat) (h : Memory.wf m = true) : Memory.wf (Mem.clear m a n) = true :=
  Memory.wf_filter _ m h

theorem Mem.read1_low (m : List Host.Cell) (lo a : Nat) (h : Mem.wfFrom lo m = true) (ha : a < lo) : Mem.read1 m a = 0 := by
  cases m with
  | nil => rfl
  | cons x r =>
    simp only [Mem.wfFrom, Bool.and_eq_true, decide_eq_true_eq] at h
    simp only [Mem.read1]; split
    · omega
    · split
      · rfl
      · omega

theorem Mem.read1_write1_from (m : List Host.Cell) (lo a b : Nat) (w : Byte) (h : Mem.wfFrom lo m = true) :
    Mem.read1 (Mem.write1 m a w) b = if b = a then w else Mem.read1 m b := by
  induction m generalizing lo with
  | nil => unfold Mem.write1; split <;> simp_all [Mem.read1]
  | cons x r ih =>
    obtain ⟨k, v⟩ := x
    simp only [Mem.wfFrom, Bool.and_eq_true, decide_eq_true_eq] at h
    have hl : ∀ c, c ≤ k → Mem.read1 r c = 0 := fun c hc => Mem.read1_low r (k + 1) c h.2 (by omega)
    unfold Mem.write1
    split
    · subst a
      split <;> simp only [Mem.read1] <;> grind
    · split
      · split <;> simp only [Mem.read1] <;> grind
      · simp only [Mem.read1, ih _ h.2]; grind

/-- A byte reads back what was written, and a write leaves every other byte alone. -/
theorem Mem.read1_write1 (m : List Host.Cell) (a b : Nat) (w : Byte) (h : Memory.wf m = true) :
    Mem.read1 (Mem.write1 m a w) b = if b = a then w else Mem.read1 m b := Mem.read1_write1_from m 0 a b w h

/-- A write of bytes leaves every byte outside them alone. -/
theorem Mem.read1_write_other (m : List Host.Cell) (a b : Nat) (d : List Byte) (h : Memory.wf m = true)
    (hb : b < a ∨ a + d.length ≤ b) : Mem.read1 (Mem.write m a d) b = Mem.read1 m b := by
  induction d generalizing m a with
  | nil => rfl
  | cons x r ih =>
    simp only [List.length_cons] at hb
    rw [Mem.write, ih _ _ (Memory.wf_write1 m a x h) (by omega), Mem.read1_write1 m a b x h, if_neg (by omega)]

/-- A byte written reads back. -/
theorem Mem.read1_write_in (m : List Host.Cell) (a i : Nat) (d : List Byte) (h : Memory.wf m = true) (hi : i < d.length) :
    Mem.read1 (Mem.write m a d) (a + i) = d.getD i 0 := by
  induction d generalizing m a i with
  | nil => simp at hi
  | cons x r ih =>
    rw [Mem.write]
    cases i with
    | zero =>
      rw [Mem.read1_write_other _ _ _ _ (Memory.wf_write1 m a x h) (by omega), Mem.read1_write1 m a _ x h]; simp
    | succ i =>
      have := ih (Mem.write1 m a x) (a + 1) i (Memory.wf_write1 m a x h) (by simpa using hi)
      rw [show a + (i + 1) = a + 1 + i by omega, this]; simp

/-! ### Lists with one element replaced -/

@[simp] theorem length_setAt {α : Type} (l : List α) (i : Nat) (v : α) : (setAt l i v).length = l.length := by
  induction l generalizing i with
  | nil => rfl
  | cons a r ih => cases i <;> simp [setAt, ih]

/-- Past the end nothing is replaced. -/
theorem setAt_ge {α : Type} (l : List α) (i : Nat) (v : α) (h : l.length ≤ i) : setAt l i v = l := by
  induction l generalizing i with
  | nil => rfl
  | cons a r ih =>
    cases i with
    | zero => simp at h
    | succ i => simp only [setAt]; rw [ih i (by simpa using h)]

/-- The element replaced. -/
theorem getD_setAt_same {α : Type} (l : List α) (i : Nat) (v d : α) (h : i < l.length) : (setAt l i v).getD i d = v := by
  induction l generalizing i with
  | nil => simp at h
  | cons a r ih =>
    cases i with
    | zero => simp [setAt]
    | succ i => simpa [setAt] using ih i (by simpa using h)

/-- Every other element. -/
theorem getD_setAt_other {α : Type} (l : List α) (i j : Nat) (v d : α) (h : j ≠ i) : (setAt l i v).getD j d = l.getD j d := by
  induction l generalizing i j with
  | nil => rfl
  | cons a r ih =>
    cases i with
    | zero => cases j with
      | zero => exact absurd rfl h
      | succ j => simp [setAt]
    | succ i => cases j with
      | zero => simp [setAt]
      | succ j => simpa [setAt] using ih i j (by omega)

end Sys2Proof.Machine
end

