-- ==== Sys2Proof/Laws/State.lean ====
section
/-! SUPPORT. What each update of the state leaves alone, field by field, and what it puts into its own field. -/
namespace Sys2Proof.Machine

/-! ### State.setReg -/

@[simp] theorem State.setReg_latches (s : State) (a : Nat) (w : Word) : (s.setReg a w).latches = s.latches := rfl
@[simp] theorem State.setReg_ctl (s : State) (a : Nat) (w : Word) : (s.setReg a w).ctl = s.ctl := rfl
@[simp] theorem State.setReg_fuses (s : State) (a : Nat) (w : Word) : (s.setReg a w).fuses = s.fuses := rfl
@[simp] theorem State.setReg_arr (s : State) (a : Nat) (w : Word) : (s.setReg a w).arr = s.arr := rfl
@[simp] theorem State.setReg_dm (s : State) (a : Nat) (w : Word) : (s.setReg a w).dm = s.dm := rfl
@[simp] theorem State.setReg_ldr (s : State) (a : Nat) (w : Word) : (s.setReg a w).ldr = s.ldr := rfl
@[simp] theorem State.setReg_snp (s : State) (a : Nat) (w : Word) : (s.setReg a w).snp = s.snp := rfl
@[simp] theorem State.setReg_acq (s : State) (a : Nat) (w : Word) : (s.setReg a w).acq = s.acq := rfl
@[simp] theorem State.setReg_lanes (s : State) (a : Nat) (w : Word) : (s.setReg a w).lanes = s.lanes := rfl
@[simp] theorem State.setReg_lge (s : State) (a : Nat) (w : Word) : (s.setReg a w).lge = s.lge := rfl
@[simp] theorem State.setReg_tim (s : State) (a : Nat) (w : Word) : (s.setReg a w).tim = s.tim := rfl
@[simp] theorem State.setReg_cores (s : State) (a : Nat) (w : Word) : (s.setReg a w).cores = s.cores := rfl
@[simp] theorem State.setReg_evt (s : State) (a : Nat) (w : Word) : (s.setReg a w).evt = s.evt := rfl
@[simp] theorem State.setReg_tsk (s : State) (a : Nat) (w : Word) : (s.setReg a w).tsk = s.tsk := rfl
@[simp] theorem State.setReg_chn (s : State) (a : Nat) (w : Word) : (s.setReg a w).chn = s.chn := rfl
@[simp] theorem State.setReg_hub (s : State) (a : Nat) (w : Word) : (s.setReg a w).hub = s.hub := rfl
@[simp] theorem State.setReg_noc (s : State) (a : Nat) (w : Word) : (s.setReg a w).noc = s.noc := rfl
@[simp] theorem State.setReg_hmp (s : State) (a : Nat) (w : Word) : (s.setReg a w).hmp = s.hmp := rfl
@[simp] theorem State.setReg_dbg (s : State) (a : Nat) (w : Word) : (s.setReg a w).dbg = s.dbg := rfl
@[simp] theorem State.setReg_trc (s : State) (a : Nat) (w : Word) : (s.setReg a w).trc = s.trc := rfl
@[simp] theorem State.setReg_pmc (s : State) (a : Nat) (w : Word) : (s.setReg a w).pmc = s.pmc := rfl
@[simp] theorem State.setReg_fio (s : State) (a : Nat) (w : Word) : (s.setReg a w).fio = s.fio := rfl
@[simp] theorem State.setReg_fb (s : State) (a : Nat) (w : Word) : (s.setReg a w).fb = s.fb := rfl
@[simp] theorem State.setReg_mgt (s : State) (a : Nat) (w : Word) : (s.setReg a w).mgt = s.mgt := rfl
@[simp] theorem State.setReg_thm (s : State) (a : Nat) (w : Word) : (s.setReg a w).thm = s.thm := rfl
@[simp] theorem State.setReg_mem (s : State) (a : Nat) (w : Word) : (s.setReg a w).mem = s.mem := rfl
@[simp] theorem State.setReg_badMem (s : State) (a : Nat) (w : Word) : (s.setReg a w).badMem = s.badMem := rfl
@[simp] theorem State.setReg_out (s : State) (a : Nat) (w : Word) : (s.setReg a w).out = s.out := rfl
@[simp] theorem State.setReg_freeCtr (s : State) (a : Nat) (w : Word) : (s.setReg a w).freeCtr = s.freeCtr := rfl
@[simp] theorem State.setReg_pending (s : State) (a : Nat) (w : Word) : (s.setReg a w).pending = s.pending := rfl

/-! ### State.setFld -/

@[simp] theorem State.setFld_latches (s : State) (f : Fld) (v : Nat) : (s.setFld f v).latches = s.latches := rfl
@[simp] theorem State.setFld_ctl (s : State) (f : Fld) (v : Nat) : (s.setFld f v).ctl = s.ctl := rfl
@[simp] theorem State.setFld_fuses (s : State) (f : Fld) (v : Nat) : (s.setFld f v).fuses = s.fuses := rfl
@[simp] theorem State.setFld_arr (s : State) (f : Fld) (v : Nat) : (s.setFld f v).arr = s.arr := rfl
@[simp] theorem State.setFld_dm (s : State) (f : Fld) (v : Nat) : (s.setFld f v).dm = s.dm := rfl
@[simp] theorem State.setFld_ldr (s : State) (f : Fld) (v : Nat) : (s.setFld f v).ldr = s.ldr := rfl
@[simp] theorem State.setFld_snp (s : State) (f : Fld) (v : Nat) : (s.setFld f v).snp = s.snp := rfl
@[simp] theorem State.setFld_acq (s : State) (f : Fld) (v : Nat) : (s.setFld f v).acq = s.acq := rfl
@[simp] theorem State.setFld_lanes (s : State) (f : Fld) (v : Nat) : (s.setFld f v).lanes = s.lanes := rfl
@[simp] theorem State.setFld_lge (s : State) (f : Fld) (v : Nat) : (s.setFld f v).lge = s.lge := rfl
@[simp] theorem State.setFld_tim (s : State) (f : Fld) (v : Nat) : (s.setFld f v).tim = s.tim := rfl
@[simp] theorem State.setFld_cores (s : State) (f : Fld) (v : Nat) : (s.setFld f v).cores = s.cores := rfl
@[simp] theorem State.setFld_evt (s : State) (f : Fld) (v : Nat) : (s.setFld f v).evt = s.evt := rfl
@[simp] theorem State.setFld_tsk (s : State) (f : Fld) (v : Nat) : (s.setFld f v).tsk = s.tsk := rfl
@[simp] theorem State.setFld_chn (s : State) (f : Fld) (v : Nat) : (s.setFld f v).chn = s.chn := rfl
@[simp] theorem State.setFld_hub (s : State) (f : Fld) (v : Nat) : (s.setFld f v).hub = s.hub := rfl
@[simp] theorem State.setFld_noc (s : State) (f : Fld) (v : Nat) : (s.setFld f v).noc = s.noc := rfl
@[simp] theorem State.setFld_hmp (s : State) (f : Fld) (v : Nat) : (s.setFld f v).hmp = s.hmp := rfl
@[simp] theorem State.setFld_dbg (s : State) (f : Fld) (v : Nat) : (s.setFld f v).dbg = s.dbg := rfl
@[simp] theorem State.setFld_trc (s : State) (f : Fld) (v : Nat) : (s.setFld f v).trc = s.trc := rfl
@[simp] theorem State.setFld_pmc (s : State) (f : Fld) (v : Nat) : (s.setFld f v).pmc = s.pmc := rfl
@[simp] theorem State.setFld_fio (s : State) (f : Fld) (v : Nat) : (s.setFld f v).fio = s.fio := rfl
@[simp] theorem State.setFld_fb (s : State) (f : Fld) (v : Nat) : (s.setFld f v).fb = s.fb := rfl
@[simp] theorem State.setFld_mgt (s : State) (f : Fld) (v : Nat) : (s.setFld f v).mgt = s.mgt := rfl
@[simp] theorem State.setFld_thm (s : State) (f : Fld) (v : Nat) : (s.setFld f v).thm = s.thm := rfl
@[simp] theorem State.setFld_mem (s : State) (f : Fld) (v : Nat) : (s.setFld f v).mem = s.mem := rfl
@[simp] theorem State.setFld_badMem (s : State) (f : Fld) (v : Nat) : (s.setFld f v).badMem = s.badMem := rfl
@[simp] theorem State.setFld_out (s : State) (f : Fld) (v : Nat) : (s.setFld f v).out = s.out := rfl
@[simp] theorem State.setFld_freeCtr (s : State) (f : Fld) (v : Nat) : (s.setFld f v).freeCtr = s.freeCtr := rfl
@[simp] theorem State.setFld_pending (s : State) (f : Fld) (v : Nat) : (s.setFld f v).pending = s.pending := rfl

/-! ### State.setPair -/

@[simp] theorem State.setPair_latches (s : State) (a b v : Nat) : (s.setPair a b v).latches = s.latches := rfl
@[simp] theorem State.setPair_ctl (s : State) (a b v : Nat) : (s.setPair a b v).ctl = s.ctl := rfl
@[simp] theorem State.setPair_fuses (s : State) (a b v : Nat) : (s.setPair a b v).fuses = s.fuses := rfl
@[simp] theorem State.setPair_arr (s : State) (a b v : Nat) : (s.setPair a b v).arr = s.arr := rfl
@[simp] theorem State.setPair_dm (s : State) (a b v : Nat) : (s.setPair a b v).dm = s.dm := rfl
@[simp] theorem State.setPair_ldr (s : State) (a b v : Nat) : (s.setPair a b v).ldr = s.ldr := rfl
@[simp] theorem State.setPair_snp (s : State) (a b v : Nat) : (s.setPair a b v).snp = s.snp := rfl
@[simp] theorem State.setPair_acq (s : State) (a b v : Nat) : (s.setPair a b v).acq = s.acq := rfl
@[simp] theorem State.setPair_lanes (s : State) (a b v : Nat) : (s.setPair a b v).lanes = s.lanes := rfl
@[simp] theorem State.setPair_lge (s : State) (a b v : Nat) : (s.setPair a b v).lge = s.lge := rfl
@[simp] theorem State.setPair_tim (s : State) (a b v : Nat) : (s.setPair a b v).tim = s.tim := rfl
@[simp] theorem State.setPair_cores (s : State) (a b v : Nat) : (s.setPair a b v).cores = s.cores := rfl
@[simp] theorem State.setPair_evt (s : State) (a b v : Nat) : (s.setPair a b v).evt = s.evt := rfl
@[simp] theorem State.setPair_tsk (s : State) (a b v : Nat) : (s.setPair a b v).tsk = s.tsk := rfl
@[simp] theorem State.setPair_chn (s : State) (a b v : Nat) : (s.setPair a b v).chn = s.chn := rfl
@[simp] theorem State.setPair_hub (s : State) (a b v : Nat) : (s.setPair a b v).hub = s.hub := rfl
@[simp] theorem State.setPair_noc (s : State) (a b v : Nat) : (s.setPair a b v).noc = s.noc := rfl
@[simp] theorem State.setPair_hmp (s : State) (a b v : Nat) : (s.setPair a b v).hmp = s.hmp := rfl
@[simp] theorem State.setPair_dbg (s : State) (a b v : Nat) : (s.setPair a b v).dbg = s.dbg := rfl
@[simp] theorem State.setPair_trc (s : State) (a b v : Nat) : (s.setPair a b v).trc = s.trc := rfl
@[simp] theorem State.setPair_pmc (s : State) (a b v : Nat) : (s.setPair a b v).pmc = s.pmc := rfl
@[simp] theorem State.setPair_fio (s : State) (a b v : Nat) : (s.setPair a b v).fio = s.fio := rfl
@[simp] theorem State.setPair_fb (s : State) (a b v : Nat) : (s.setPair a b v).fb = s.fb := rfl
@[simp] theorem State.setPair_mgt (s : State) (a b v : Nat) : (s.setPair a b v).mgt = s.mgt := rfl
@[simp] theorem State.setPair_thm (s : State) (a b v : Nat) : (s.setPair a b v).thm = s.thm := rfl
@[simp] theorem State.setPair_mem (s : State) (a b v : Nat) : (s.setPair a b v).mem = s.mem := rfl
@[simp] theorem State.setPair_badMem (s : State) (a b v : Nat) : (s.setPair a b v).badMem = s.badMem := rfl
@[simp] theorem State.setPair_out (s : State) (a b v : Nat) : (s.setPair a b v).out = s.out := rfl
@[simp] theorem State.setPair_freeCtr (s : State) (a b v : Nat) : (s.setPair a b v).freeCtr = s.freeCtr := rfl
@[simp] theorem State.setPair_pending (s : State) (a b v : Nat) : (s.setPair a b v).pending = s.pending := rfl

/-! ### State.clearRegs -/

@[simp] theorem State.clearRegs_latches (s : State) (l : List Nat) : (s.clearRegs l).latches = s.latches := rfl
@[simp] theorem State.clearRegs_ctl (s : State) (l : List Nat) : (s.clearRegs l).ctl = s.ctl := rfl
@[simp] theorem State.clearRegs_fuses (s : State) (l : List Nat) : (s.clearRegs l).fuses = s.fuses := rfl
@[simp] theorem State.clearRegs_arr (s : State) (l : List Nat) : (s.clearRegs l).arr = s.arr := rfl
@[simp] theorem State.clearRegs_dm (s : State) (l : List Nat) : (s.clearRegs l).dm = s.dm := rfl
@[simp] theorem State.clearRegs_ldr (s : State) (l : List Nat) : (s.clearRegs l).ldr = s.ldr := rfl
@[simp] theorem State.clearRegs_snp (s : State) (l : List Nat) : (s.clearRegs l).snp = s.snp := rfl
@[simp] theorem State.clearRegs_acq (s : State) (l : List Nat) : (s.clearRegs l).acq = s.acq := rfl
@[simp] theorem State.clearRegs_lanes (s : State) (l : List Nat) : (s.clearRegs l).lanes = s.lanes := rfl
@[simp] theorem State.clearRegs_lge (s : State) (l : List Nat) : (s.clearRegs l).lge = s.lge := rfl
@[simp] theorem State.clearRegs_tim (s : State) (l : List Nat) : (s.clearRegs l).tim = s.tim := rfl
@[simp] theorem State.clearRegs_cores (s : State) (l : List Nat) : (s.clearRegs l).cores = s.cores := rfl
@[simp] theorem State.clearRegs_evt (s : State) (l : List Nat) : (s.clearRegs l).evt = s.evt := rfl
@[simp] theorem State.clearRegs_tsk (s : State) (l : List Nat) : (s.clearRegs l).tsk = s.tsk := rfl
@[simp] theorem State.clearRegs_chn (s : State) (l : List Nat) : (s.clearRegs l).chn = s.chn := rfl
@[simp] theorem State.clearRegs_hub (s : State) (l : List Nat) : (s.clearRegs l).hub = s.hub := rfl
@[simp] theorem State.clearRegs_noc (s : State) (l : List Nat) : (s.clearRegs l).noc = s.noc := rfl
@[simp] theorem State.clearRegs_hmp (s : State) (l : List Nat) : (s.clearRegs l).hmp = s.hmp := rfl
@[simp] theorem State.clearRegs_dbg (s : State) (l : List Nat) : (s.clearRegs l).dbg = s.dbg := rfl
@[simp] theorem State.clearRegs_trc (s : State) (l : List Nat) : (s.clearRegs l).trc = s.trc := rfl
@[simp] theorem State.clearRegs_pmc (s : State) (l : List Nat) : (s.clearRegs l).pmc = s.pmc := rfl
@[simp] theorem State.clearRegs_fio (s : State) (l : List Nat) : (s.clearRegs l).fio = s.fio := rfl
@[simp] theorem State.clearRegs_fb (s : State) (l : List Nat) : (s.clearRegs l).fb = s.fb := rfl
@[simp] theorem State.clearRegs_mgt (s : State) (l : List Nat) : (s.clearRegs l).mgt = s.mgt := rfl
@[simp] theorem State.clearRegs_thm (s : State) (l : List Nat) : (s.clearRegs l).thm = s.thm := rfl
@[simp] theorem State.clearRegs_mem (s : State) (l : List Nat) : (s.clearRegs l).mem = s.mem := rfl
@[simp] theorem State.clearRegs_badMem (s : State) (l : List Nat) : (s.clearRegs l).badMem = s.badMem := rfl
@[simp] theorem State.clearRegs_out (s : State) (l : List Nat) : (s.clearRegs l).out = s.out := rfl
@[simp] theorem State.clearRegs_freeCtr (s : State) (l : List Nat) : (s.clearRegs l).freeCtr = s.freeCtr := rfl
@[simp] theorem State.clearRegs_pending (s : State) (l : List Nat) : (s.clearRegs l).pending = s.pending := rfl

/-! ### State.setCore -/

@[simp] theorem State.setCore_regs (s : State) (n : Nat) (c : Core) : (s.setCore n c).regs = s.regs := rfl
@[simp] theorem State.setCore_latches (s : State) (n : Nat) (c : Core) : (s.setCore n c).latches = s.latches := rfl
@[simp] theorem State.setCore_ctl (s : State) (n : Nat) (c : Core) : (s.setCore n c).ctl = s.ctl := rfl
@[simp] theorem State.setCore_fuses (s : State) (n : Nat) (c : Core) : (s.setCore n c).fuses = s.fuses := rfl
@[simp] theorem State.setCore_arr (s : State) (n : Nat) (c : Core) : (s.setCore n c).arr = s.arr := rfl
@[simp] theorem State.setCore_dm (s : State) (n : Nat) (c : Core) : (s.setCore n c).dm = s.dm := rfl
@[simp] theorem State.setCore_ldr (s : State) (n : Nat) (c : Core) : (s.setCore n c).ldr = s.ldr := rfl
@[simp] theorem State.setCore_snp (s : State) (n : Nat) (c : Core) : (s.setCore n c).snp = s.snp := rfl
@[simp] theorem State.setCore_acq (s : State) (n : Nat) (c : Core) : (s.setCore n c).acq = s.acq := rfl
@[simp] theorem State.setCore_lanes (s : State) (n : Nat) (c : Core) : (s.setCore n c).lanes = s.lanes := rfl
@[simp] theorem State.setCore_lge (s : State) (n : Nat) (c : Core) : (s.setCore n c).lge = s.lge := rfl
@[simp] theorem State.setCore_tim (s : State) (n : Nat) (c : Core) : (s.setCore n c).tim = s.tim := rfl
@[simp] theorem State.setCore_evt (s : State) (n : Nat) (c : Core) : (s.setCore n c).evt = s.evt := rfl
@[simp] theorem State.setCore_tsk (s : State) (n : Nat) (c : Core) : (s.setCore n c).tsk = s.tsk := rfl
@[simp] theorem State.setCore_chn (s : State) (n : Nat) (c : Core) : (s.setCore n c).chn = s.chn := rfl
@[simp] theorem State.setCore_hub (s : State) (n : Nat) (c : Core) : (s.setCore n c).hub = s.hub := rfl
@[simp] theorem State.setCore_noc (s : State) (n : Nat) (c : Core) : (s.setCore n c).noc = s.noc := rfl
@[simp] theorem State.setCore_hmp (s : State) (n : Nat) (c : Core) : (s.setCore n c).hmp = s.hmp := rfl
@[simp] theorem State.setCore_dbg (s : State) (n : Nat) (c : Core) : (s.setCore n c).dbg = s.dbg := rfl
@[simp] theorem State.setCore_trc (s : State) (n : Nat) (c : Core) : (s.setCore n c).trc = s.trc := rfl
@[simp] theorem State.setCore_pmc (s : State) (n : Nat) (c : Core) : (s.setCore n c).pmc = s.pmc := rfl
@[simp] theorem State.setCore_fio (s : State) (n : Nat) (c : Core) : (s.setCore n c).fio = s.fio := rfl
@[simp] theorem State.setCore_fb (s : State) (n : Nat) (c : Core) : (s.setCore n c).fb = s.fb := rfl
@[simp] theorem State.setCore_mgt (s : State) (n : Nat) (c : Core) : (s.setCore n c).mgt = s.mgt := rfl
@[simp] theorem State.setCore_thm (s : State) (n : Nat) (c : Core) : (s.setCore n c).thm = s.thm := rfl
@[simp] theorem State.setCore_mem (s : State) (n : Nat) (c : Core) : (s.setCore n c).mem = s.mem := rfl
@[simp] theorem State.setCore_badMem (s : State) (n : Nat) (c : Core) : (s.setCore n c).badMem = s.badMem := rfl
@[simp] theorem State.setCore_out (s : State) (n : Nat) (c : Core) : (s.setCore n c).out = s.out := rfl
@[simp] theorem State.setCore_freeCtr (s : State) (n : Nat) (c : Core) : (s.setCore n c).freeCtr = s.freeCtr := rfl
@[simp] theorem State.setCore_pending (s : State) (n : Nat) (c : Core) : (s.setCore n c).pending = s.pending := rfl

/-! ### State.clearResv -/

@[simp] theorem State.clearResv_regs (s : State) (a n : Nat) : (s.clearResv a n).regs = s.regs := rfl
@[simp] theorem State.clearResv_latches (s : State) (a n : Nat) : (s.clearResv a n).latches = s.latches := rfl
@[simp] theorem State.clearResv_ctl (s : State) (a n : Nat) : (s.clearResv a n).ctl = s.ctl := rfl
@[simp] theorem State.clearResv_fuses (s : State) (a n : Nat) : (s.clearResv a n).fuses = s.fuses := rfl
@[simp] theorem State.clearResv_arr (s : State) (a n : Nat) : (s.clearResv a n).arr = s.arr := rfl
@[simp] theorem State.clearResv_dm (s : State) (a n : Nat) : (s.clearResv a n).dm = s.dm := rfl
@[simp] theorem State.clearResv_ldr (s : State) (a n : Nat) : (s.clearResv a n).ldr = s.ldr := rfl
@[simp] theorem State.clearResv_snp (s : State) (a n : Nat) : (s.clearResv a n).snp = s.snp := rfl
@[simp] theorem State.clearResv_acq (s : State) (a n : Nat) : (s.clearResv a n).acq = s.acq := rfl
@[simp] theorem State.clearResv_lanes (s : State) (a n : Nat) : (s.clearResv a n).lanes = s.lanes := rfl
@[simp] theorem State.clearResv_lge (s : State) (a n : Nat) : (s.clearResv a n).lge = s.lge := rfl
@[simp] theorem State.clearResv_tim (s : State) (a n : Nat) : (s.clearResv a n).tim = s.tim := rfl
@[simp] theorem State.clearResv_evt (s : State) (a n : Nat) : (s.clearResv a n).evt = s.evt := rfl
@[simp] theorem State.clearResv_tsk (s : State) (a n : Nat) : (s.clearResv a n).tsk = s.tsk := rfl
@[simp] theorem State.clearResv_chn (s : State) (a n : Nat) : (s.clearResv a n).chn = s.chn := rfl
@[simp] theorem State.clearResv_hub (s : State) (a n : Nat) : (s.clearResv a n).hub = s.hub := rfl
@[simp] theorem State.clearResv_noc (s : State) (a n : Nat) : (s.clearResv a n).noc = s.noc := rfl
@[simp] theorem State.clearResv_hmp (s : State) (a n : Nat) : (s.clearResv a n).hmp = s.hmp := rfl
@[simp] theorem State.clearResv_dbg (s : State) (a n : Nat) : (s.clearResv a n).dbg = s.dbg := rfl
@[simp] theorem State.clearResv_trc (s : State) (a n : Nat) : (s.clearResv a n).trc = s.trc := rfl
@[simp] theorem State.clearResv_pmc (s : State) (a n : Nat) : (s.clearResv a n).pmc = s.pmc := rfl
@[simp] theorem State.clearResv_fio (s : State) (a n : Nat) : (s.clearResv a n).fio = s.fio := rfl
@[simp] theorem State.clearResv_fb (s : State) (a n : Nat) : (s.clearResv a n).fb = s.fb := rfl
@[simp] theorem State.clearResv_mgt (s : State) (a n : Nat) : (s.clearResv a n).mgt = s.mgt := rfl
@[simp] theorem State.clearResv_thm (s : State) (a n : Nat) : (s.clearResv a n).thm = s.thm := rfl
@[simp] theorem State.clearResv_mem (s : State) (a n : Nat) : (s.clearResv a n).mem = s.mem := rfl
@[simp] theorem State.clearResv_badMem (s : State) (a n : Nat) : (s.clearResv a n).badMem = s.badMem := rfl
@[simp] theorem State.clearResv_out (s : State) (a n : Nat) : (s.clearResv a n).out = s.out := rfl
@[simp] theorem State.clearResv_freeCtr (s : State) (a n : Nat) : (s.clearResv a n).freeCtr = s.freeCtr := rfl
@[simp] theorem State.clearResv_pending (s : State) (a n : Nat) : (s.clearResv a n).pending = s.pending := rfl

/-! ### State.setSys -/

@[simp] theorem State.setSys_regs (s : State) (n k : Nat) (w : Word) : (s.setSys n k w).regs = s.regs := rfl
@[simp] theorem State.setSys_latches (s : State) (n k : Nat) (w : Word) : (s.setSys n k w).latches = s.latches := rfl
@[simp] theorem State.setSys_ctl (s : State) (n k : Nat) (w : Word) : (s.setSys n k w).ctl = s.ctl := rfl
@[simp] theorem State.setSys_fuses (s : State) (n k : Nat) (w : Word) : (s.setSys n k w).fuses = s.fuses := rfl
@[simp] theorem State.setSys_arr (s : State) (n k : Nat) (w : Word) : (s.setSys n k w).arr = s.arr := rfl
@[simp] theorem State.setSys_dm (s : State) (n k : Nat) (w : Word) : (s.setSys n k w).dm = s.dm := rfl
@[simp] theorem State.setSys_ldr (s : State) (n k : Nat) (w : Word) : (s.setSys n k w).ldr = s.ldr := rfl
@[simp] theorem State.setSys_snp (s : State) (n k : Nat) (w : Word) : (s.setSys n k w).snp = s.snp := rfl
@[simp] theorem State.setSys_acq (s : State) (n k : Nat) (w : Word) : (s.setSys n k w).acq = s.acq := rfl
@[simp] theorem State.setSys_lanes (s : State) (n k : Nat) (w : Word) : (s.setSys n k w).lanes = s.lanes := rfl
@[simp] theorem State.setSys_lge (s : State) (n k : Nat) (w : Word) : (s.setSys n k w).lge = s.lge := rfl
@[simp] theorem State.setSys_tim (s : State) (n k : Nat) (w : Word) : (s.setSys n k w).tim = s.tim := rfl
@[simp] theorem State.setSys_evt (s : State) (n k : Nat) (w : Word) : (s.setSys n k w).evt = s.evt := rfl
@[simp] theorem State.setSys_tsk (s : State) (n k : Nat) (w : Word) : (s.setSys n k w).tsk = s.tsk := rfl
@[simp] theorem State.setSys_chn (s : State) (n k : Nat) (w : Word) : (s.setSys n k w).chn = s.chn := rfl
@[simp] theorem State.setSys_hub (s : State) (n k : Nat) (w : Word) : (s.setSys n k w).hub = s.hub := rfl
@[simp] theorem State.setSys_noc (s : State) (n k : Nat) (w : Word) : (s.setSys n k w).noc = s.noc := rfl
@[simp] theorem State.setSys_hmp (s : State) (n k : Nat) (w : Word) : (s.setSys n k w).hmp = s.hmp := rfl
@[simp] theorem State.setSys_dbg (s : State) (n k : Nat) (w : Word) : (s.setSys n k w).dbg = s.dbg := rfl
@[simp] theorem State.setSys_trc (s : State) (n k : Nat) (w : Word) : (s.setSys n k w).trc = s.trc := rfl
@[simp] theorem State.setSys_pmc (s : State) (n k : Nat) (w : Word) : (s.setSys n k w).pmc = s.pmc := rfl
@[simp] theorem State.setSys_fio (s : State) (n k : Nat) (w : Word) : (s.setSys n k w).fio = s.fio := rfl
@[simp] theorem State.setSys_fb (s : State) (n k : Nat) (w : Word) : (s.setSys n k w).fb = s.fb := rfl
@[simp] theorem State.setSys_mgt (s : State) (n k : Nat) (w : Word) : (s.setSys n k w).mgt = s.mgt := rfl
@[simp] theorem State.setSys_thm (s : State) (n k : Nat) (w : Word) : (s.setSys n k w).thm = s.thm := rfl
@[simp] theorem State.setSys_mem (s : State) (n k : Nat) (w : Word) : (s.setSys n k w).mem = s.mem := rfl
@[simp] theorem State.setSys_badMem (s : State) (n k : Nat) (w : Word) : (s.setSys n k w).badMem = s.badMem := rfl
@[simp] theorem State.setSys_out (s : State) (n k : Nat) (w : Word) : (s.setSys n k w).out = s.out := rfl
@[simp] theorem State.setSys_freeCtr (s : State) (n k : Nat) (w : Word) : (s.setSys n k w).freeCtr = s.freeCtr := rfl
@[simp] theorem State.setSys_pending (s : State) (n k : Nat) (w : Word) : (s.setSys n k w).pending = s.pending := rfl

/-! ### State.setPc -/

@[simp] theorem State.setPc_regs (s : State) (n : Nat) (w : Word) : (s.setPc n w).regs = s.regs := rfl
@[simp] theorem State.setPc_latches (s : State) (n : Nat) (w : Word) : (s.setPc n w).latches = s.latches := rfl
@[simp] theorem State.setPc_ctl (s : State) (n : Nat) (w : Word) : (s.setPc n w).ctl = s.ctl := rfl
@[simp] theorem State.setPc_fuses (s : State) (n : Nat) (w : Word) : (s.setPc n w).fuses = s.fuses := rfl
@[simp] theorem State.setPc_arr (s : State) (n : Nat) (w : Word) : (s.setPc n w).arr = s.arr := rfl
@[simp] theorem State.setPc_dm (s : State) (n : Nat) (w : Word) : (s.setPc n w).dm = s.dm := rfl
@[simp] theorem State.setPc_ldr (s : State) (n : Nat) (w : Word) : (s.setPc n w).ldr = s.ldr := rfl
@[simp] theorem State.setPc_snp (s : State) (n : Nat) (w : Word) : (s.setPc n w).snp = s.snp := rfl
@[simp] theorem State.setPc_acq (s : State) (n : Nat) (w : Word) : (s.setPc n w).acq = s.acq := rfl
@[simp] theorem State.setPc_lanes (s : State) (n : Nat) (w : Word) : (s.setPc n w).lanes = s.lanes := rfl
@[simp] theorem State.setPc_lge (s : State) (n : Nat) (w : Word) : (s.setPc n w).lge = s.lge := rfl
@[simp] theorem State.setPc_tim (s : State) (n : Nat) (w : Word) : (s.setPc n w).tim = s.tim := rfl
@[simp] theorem State.setPc_evt (s : State) (n : Nat) (w : Word) : (s.setPc n w).evt = s.evt := rfl
@[simp] theorem State.setPc_tsk (s : State) (n : Nat) (w : Word) : (s.setPc n w).tsk = s.tsk := rfl
@[simp] theorem State.setPc_chn (s : State) (n : Nat) (w : Word) : (s.setPc n w).chn = s.chn := rfl
@[simp] theorem State.setPc_hub (s : State) (n : Nat) (w : Word) : (s.setPc n w).hub = s.hub := rfl
@[simp] theorem State.setPc_noc (s : State) (n : Nat) (w : Word) : (s.setPc n w).noc = s.noc := rfl
@[simp] theorem State.setPc_hmp (s : State) (n : Nat) (w : Word) : (s.setPc n w).hmp = s.hmp := rfl
@[simp] theorem State.setPc_dbg (s : State) (n : Nat) (w : Word) : (s.setPc n w).dbg = s.dbg := rfl
@[simp] theorem State.setPc_trc (s : State) (n : Nat) (w : Word) : (s.setPc n w).trc = s.trc := rfl
@[simp] theorem State.setPc_pmc (s : State) (n : Nat) (w : Word) : (s.setPc n w).pmc = s.pmc := rfl
@[simp] theorem State.setPc_fio (s : State) (n : Nat) (w : Word) : (s.setPc n w).fio = s.fio := rfl
@[simp] theorem State.setPc_fb (s : State) (n : Nat) (w : Word) : (s.setPc n w).fb = s.fb := rfl
@[simp] theorem State.setPc_mgt (s : State) (n : Nat) (w : Word) : (s.setPc n w).mgt = s.mgt := rfl
@[simp] theorem State.setPc_thm (s : State) (n : Nat) (w : Word) : (s.setPc n w).thm = s.thm := rfl
@[simp] theorem State.setPc_mem (s : State) (n : Nat) (w : Word) : (s.setPc n w).mem = s.mem := rfl
@[simp] theorem State.setPc_badMem (s : State) (n : Nat) (w : Word) : (s.setPc n w).badMem = s.badMem := rfl
@[simp] theorem State.setPc_out (s : State) (n : Nat) (w : Word) : (s.setPc n w).out = s.out := rfl
@[simp] theorem State.setPc_freeCtr (s : State) (n : Nat) (w : Word) : (s.setPc n w).freeCtr = s.freeCtr := rfl
@[simp] theorem State.setPc_pending (s : State) (n : Nat) (w : Word) : (s.setPc n w).pending = s.pending := rfl

/-! ### State.dropResv -/

@[simp] theorem State.dropResv_regs (s : State) (n : Nat) : (s.dropResv n).regs = s.regs := rfl
@[simp] theorem State.dropResv_latches (s : State) (n : Nat) : (s.dropResv n).latches = s.latches := rfl
@[simp] theorem State.dropResv_ctl (s : State) (n : Nat) : (s.dropResv n).ctl = s.ctl := rfl
@[simp] theorem State.dropResv_fuses (s : State) (n : Nat) : (s.dropResv n).fuses = s.fuses := rfl
@[simp] theorem State.dropResv_arr (s : State) (n : Nat) : (s.dropResv n).arr = s.arr := rfl
@[simp] theorem State.dropResv_dm (s : State) (n : Nat) : (s.dropResv n).dm = s.dm := rfl
@[simp] theorem State.dropResv_ldr (s : State) (n : Nat) : (s.dropResv n).ldr = s.ldr := rfl
@[simp] theorem State.dropResv_snp (s : State) (n : Nat) : (s.dropResv n).snp = s.snp := rfl
@[simp] theorem State.dropResv_acq (s : State) (n : Nat) : (s.dropResv n).acq = s.acq := rfl
@[simp] theorem State.dropResv_lanes (s : State) (n : Nat) : (s.dropResv n).lanes = s.lanes := rfl
@[simp] theorem State.dropResv_lge (s : State) (n : Nat) : (s.dropResv n).lge = s.lge := rfl
@[simp] theorem State.dropResv_tim (s : State) (n : Nat) : (s.dropResv n).tim = s.tim := rfl
@[simp] theorem State.dropResv_evt (s : State) (n : Nat) : (s.dropResv n).evt = s.evt := rfl
@[simp] theorem State.dropResv_tsk (s : State) (n : Nat) : (s.dropResv n).tsk = s.tsk := rfl
@[simp] theorem State.dropResv_chn (s : State) (n : Nat) : (s.dropResv n).chn = s.chn := rfl
@[simp] theorem State.dropResv_hub (s : State) (n : Nat) : (s.dropResv n).hub = s.hub := rfl
@[simp] theorem State.dropResv_noc (s : State) (n : Nat) : (s.dropResv n).noc = s.noc := rfl
@[simp] theorem State.dropResv_hmp (s : State) (n : Nat) : (s.dropResv n).hmp = s.hmp := rfl
@[simp] theorem State.dropResv_dbg (s : State) (n : Nat) : (s.dropResv n).dbg = s.dbg := rfl
@[simp] theorem State.dropResv_trc (s : State) (n : Nat) : (s.dropResv n).trc = s.trc := rfl
@[simp] theorem State.dropResv_pmc (s : State) (n : Nat) : (s.dropResv n).pmc = s.pmc := rfl
@[simp] theorem State.dropResv_fio (s : State) (n : Nat) : (s.dropResv n).fio = s.fio := rfl
@[simp] theorem State.dropResv_fb (s : State) (n : Nat) : (s.dropResv n).fb = s.fb := rfl
@[simp] theorem State.dropResv_mgt (s : State) (n : Nat) : (s.dropResv n).mgt = s.mgt := rfl
@[simp] theorem State.dropResv_thm (s : State) (n : Nat) : (s.dropResv n).thm = s.thm := rfl
@[simp] theorem State.dropResv_mem (s : State) (n : Nat) : (s.dropResv n).mem = s.mem := rfl
@[simp] theorem State.dropResv_badMem (s : State) (n : Nat) : (s.dropResv n).badMem = s.badMem := rfl
@[simp] theorem State.dropResv_out (s : State) (n : Nat) : (s.dropResv n).out = s.out := rfl
@[simp] theorem State.dropResv_freeCtr (s : State) (n : Nat) : (s.dropResv n).freeCtr = s.freeCtr := rfl
@[simp] theorem State.dropResv_pending (s : State) (n : Nat) : (s.dropResv n).pending = s.pending := rfl

/-! ### State.setLane -/

@[simp] theorem State.setLane_regs (s : State) (n : Nat) (p : LanePort) : (s.setLane n p).regs = s.regs := rfl
@[simp] theorem State.setLane_latches (s : State) (n : Nat) (p : LanePort) : (s.setLane n p).latches = s.latches := rfl
@[simp] theorem State.setLane_ctl (s : State) (n : Nat) (p : LanePort) : (s.setLane n p).ctl = s.ctl := rfl
@[simp] theorem State.setLane_fuses (s : State) (n : Nat) (p : LanePort) : (s.setLane n p).fuses = s.fuses := rfl
@[simp] theorem State.setLane_arr (s : State) (n : Nat) (p : LanePort) : (s.setLane n p).arr = s.arr := rfl
@[simp] theorem State.setLane_dm (s : State) (n : Nat) (p : LanePort) : (s.setLane n p).dm = s.dm := rfl
@[simp] theorem State.setLane_ldr (s : State) (n : Nat) (p : LanePort) : (s.setLane n p).ldr = s.ldr := rfl
@[simp] theorem State.setLane_snp (s : State) (n : Nat) (p : LanePort) : (s.setLane n p).snp = s.snp := rfl
@[simp] theorem State.setLane_acq (s : State) (n : Nat) (p : LanePort) : (s.setLane n p).acq = s.acq := rfl
@[simp] theorem State.setLane_lge (s : State) (n : Nat) (p : LanePort) : (s.setLane n p).lge = s.lge := rfl
@[simp] theorem State.setLane_tim (s : State) (n : Nat) (p : LanePort) : (s.setLane n p).tim = s.tim := rfl
@[simp] theorem State.setLane_cores (s : State) (n : Nat) (p : LanePort) : (s.setLane n p).cores = s.cores := rfl
@[simp] theorem State.setLane_evt (s : State) (n : Nat) (p : LanePort) : (s.setLane n p).evt = s.evt := rfl
@[simp] theorem State.setLane_tsk (s : State) (n : Nat) (p : LanePort) : (s.setLane n p).tsk = s.tsk := rfl
@[simp] theorem State.setLane_chn (s : State) (n : Nat) (p : LanePort) : (s.setLane n p).chn = s.chn := rfl
@[simp] theorem State.setLane_hub (s : State) (n : Nat) (p : LanePort) : (s.setLane n p).hub = s.hub := rfl
@[simp] theorem State.setLane_noc (s : State) (n : Nat) (p : LanePort) : (s.setLane n p).noc = s.noc := rfl
@[simp] theorem State.setLane_hmp (s : State) (n : Nat) (p : LanePort) : (s.setLane n p).hmp = s.hmp := rfl
@[simp] theorem State.setLane_dbg (s : State) (n : Nat) (p : LanePort) : (s.setLane n p).dbg = s.dbg := rfl
@[simp] theorem State.setLane_trc (s : State) (n : Nat) (p : LanePort) : (s.setLane n p).trc = s.trc := rfl
@[simp] theorem State.setLane_pmc (s : State) (n : Nat) (p : LanePort) : (s.setLane n p).pmc = s.pmc := rfl
@[simp] theorem State.setLane_fio (s : State) (n : Nat) (p : LanePort) : (s.setLane n p).fio = s.fio := rfl
@[simp] theorem State.setLane_fb (s : State) (n : Nat) (p : LanePort) : (s.setLane n p).fb = s.fb := rfl
@[simp] theorem State.setLane_mgt (s : State) (n : Nat) (p : LanePort) : (s.setLane n p).mgt = s.mgt := rfl
@[simp] theorem State.setLane_thm (s : State) (n : Nat) (p : LanePort) : (s.setLane n p).thm = s.thm := rfl
@[simp] theorem State.setLane_mem (s : State) (n : Nat) (p : LanePort) : (s.setLane n p).mem = s.mem := rfl
@[simp] theorem State.setLane_badMem (s : State) (n : Nat) (p : LanePort) : (s.setLane n p).badMem = s.badMem := rfl
@[simp] theorem State.setLane_out (s : State) (n : Nat) (p : LanePort) : (s.setLane n p).out = s.out := rfl
@[simp] theorem State.setLane_freeCtr (s : State) (n : Nat) (p : LanePort) : (s.setLane n p).freeCtr = s.freeCtr := rfl
@[simp] theorem State.setLane_pending (s : State) (n : Nat) (p : LanePort) : (s.setLane n p).pending = s.pending := rfl

/-! ### State.setSession -/

@[simp] theorem State.setSession_regs (s : State) (x : Session) : (s.setSession x).regs = s.regs := rfl
@[simp] theorem State.setSession_latches (s : State) (x : Session) : (s.setSession x).latches = s.latches := rfl
@[simp] theorem State.setSession_ctl (s : State) (x : Session) : (s.setSession x).ctl = s.ctl := rfl
@[simp] theorem State.setSession_fuses (s : State) (x : Session) : (s.setSession x).fuses = s.fuses := rfl
@[simp] theorem State.setSession_arr (s : State) (x : Session) : (s.setSession x).arr = s.arr := rfl
@[simp] theorem State.setSession_dm (s : State) (x : Session) : (s.setSession x).dm = s.dm := rfl
@[simp] theorem State.setSession_ldr (s : State) (x : Session) : (s.setSession x).ldr = s.ldr := rfl
@[simp] theorem State.setSession_snp (s : State) (x : Session) : (s.setSession x).snp = s.snp := rfl
@[simp] theorem State.setSession_acq (s : State) (x : Session) : (s.setSession x).acq = s.acq := rfl
@[simp] theorem State.setSession_lanes (s : State) (x : Session) : (s.setSession x).lanes = s.lanes := rfl
@[simp] theorem State.setSession_lge (s : State) (x : Session) : (s.setSession x).lge = s.lge := rfl
@[simp] theorem State.setSession_tim (s : State) (x : Session) : (s.setSession x).tim = s.tim := rfl
@[simp] theorem State.setSession_cores (s : State) (x : Session) : (s.setSession x).cores = s.cores := rfl
@[simp] theorem State.setSession_evt (s : State) (x : Session) : (s.setSession x).evt = s.evt := rfl
@[simp] theorem State.setSession_tsk (s : State) (x : Session) : (s.setSession x).tsk = s.tsk := rfl
@[simp] theorem State.setSession_chn (s : State) (x : Session) : (s.setSession x).chn = s.chn := rfl
@[simp] theorem State.setSession_hub (s : State) (x : Session) : (s.setSession x).hub = s.hub := rfl
@[simp] theorem State.setSession_noc (s : State) (x : Session) : (s.setSession x).noc = s.noc := rfl
@[simp] theorem State.setSession_dbg (s : State) (x : Session) : (s.setSession x).dbg = s.dbg := rfl
@[simp] theorem State.setSession_trc (s : State) (x : Session) : (s.setSession x).trc = s.trc := rfl
@[simp] theorem State.setSession_pmc (s : State) (x : Session) : (s.setSession x).pmc = s.pmc := rfl
@[simp] theorem State.setSession_fio (s : State) (x : Session) : (s.setSession x).fio = s.fio := rfl
@[simp] theorem State.setSession_fb (s : State) (x : Session) : (s.setSession x).fb = s.fb := rfl
@[simp] theorem State.setSession_mgt (s : State) (x : Session) : (s.setSession x).mgt = s.mgt := rfl
@[simp] theorem State.setSession_thm (s : State) (x : Session) : (s.setSession x).thm = s.thm := rfl
@[simp] theorem State.setSession_mem (s : State) (x : Session) : (s.setSession x).mem = s.mem := rfl
@[simp] theorem State.setSession_badMem (s : State) (x : Session) : (s.setSession x).badMem = s.badMem := rfl
@[simp] theorem State.setSession_out (s : State) (x : Session) : (s.setSession x).out = s.out := rfl
@[simp] theorem State.setSession_freeCtr (s : State) (x : Session) : (s.setSession x).freeCtr = s.freeCtr := rfl
@[simp] theorem State.setSession_pending (s : State) (x : Session) : (s.setSession x).pending = s.pending := rfl

/-! ### State.discard -/

@[simp] theorem State.discard_regs (s : State) : (s.discard).regs = s.regs := rfl
@[simp] theorem State.discard_latches (s : State) : (s.discard).latches = s.latches := rfl
@[simp] theorem State.discard_ctl (s : State) : (s.discard).ctl = s.ctl := rfl
@[simp] theorem State.discard_fuses (s : State) : (s.discard).fuses = s.fuses := rfl
@[simp] theorem State.discard_arr (s : State) : (s.discard).arr = s.arr := rfl
@[simp] theorem State.discard_dm (s : State) : (s.discard).dm = s.dm := rfl
@[simp] theorem State.discard_ldr (s : State) : (s.discard).ldr = s.ldr := rfl
@[simp] theorem State.discard_snp (s : State) : (s.discard).snp = s.snp := rfl
@[simp] theorem State.discard_acq (s : State) : (s.discard).acq = s.acq := rfl
@[simp] theorem State.discard_lanes (s : State) : (s.discard).lanes = s.lanes := rfl
@[simp] theorem State.discard_lge (s : State) : (s.discard).lge = s.lge := rfl
@[simp] theorem State.discard_tim (s : State) : (s.discard).tim = s.tim := rfl
@[simp] theorem State.discard_cores (s : State) : (s.discard).cores = s.cores := rfl
@[simp] theorem State.discard_evt (s : State) : (s.discard).evt = s.evt := rfl
@[simp] theorem State.discard_tsk (s : State) : (s.discard).tsk = s.tsk := rfl
@[simp] theorem State.discard_chn (s : State) : (s.discard).chn = s.chn := rfl
@[simp] theorem State.discard_hub (s : State) : (s.discard).hub = s.hub := rfl
@[simp] theorem State.discard_noc (s : State) : (s.discard).noc = s.noc := rfl
@[simp] theorem State.discard_dbg (s : State) : (s.discard).dbg = s.dbg := rfl
@[simp] theorem State.discard_trc (s : State) : (s.discard).trc = s.trc := rfl
@[simp] theorem State.discard_pmc (s : State) : (s.discard).pmc = s.pmc := rfl
@[simp] theorem State.discard_fio (s : State) : (s.discard).fio = s.fio := rfl
@[simp] theorem State.discard_fb (s : State) : (s.discard).fb = s.fb := rfl
@[simp] theorem State.discard_mgt (s : State) : (s.discard).mgt = s.mgt := rfl
@[simp] theorem State.discard_thm (s : State) : (s.discard).thm = s.thm := rfl
@[simp] theorem State.discard_mem (s : State) : (s.discard).mem = s.mem := rfl
@[simp] theorem State.discard_badMem (s : State) : (s.discard).badMem = s.badMem := rfl
@[simp] theorem State.discard_out (s : State) : (s.discard).out = s.out := rfl
@[simp] theorem State.discard_freeCtr (s : State) : (s.discard).freeCtr = s.freeCtr := rfl
@[simp] theorem State.discard_pending (s : State) : (s.discard).pending = s.pending := rfl

/-! ### State.reply -/

@[simp] theorem State.reply_regs (s : State) (m : Msg) (o st : Nat) (p : List Byte) : (s.reply m o st p).regs = s.regs := rfl
@[simp] theorem State.reply_latches (s : State) (m : Msg) (o st : Nat) (p : List Byte) : (s.reply m o st p).latches = s.latches := rfl
@[simp] theorem State.reply_ctl (s : State) (m : Msg) (o st : Nat) (p : List Byte) : (s.reply m o st p).ctl = s.ctl := rfl
@[simp] theorem State.reply_fuses (s : State) (m : Msg) (o st : Nat) (p : List Byte) : (s.reply m o st p).fuses = s.fuses := rfl
@[simp] theorem State.reply_arr (s : State) (m : Msg) (o st : Nat) (p : List Byte) : (s.reply m o st p).arr = s.arr := rfl
@[simp] theorem State.reply_dm (s : State) (m : Msg) (o st : Nat) (p : List Byte) : (s.reply m o st p).dm = s.dm := rfl
@[simp] theorem State.reply_ldr (s : State) (m : Msg) (o st : Nat) (p : List Byte) : (s.reply m o st p).ldr = s.ldr := rfl
@[simp] theorem State.reply_snp (s : State) (m : Msg) (o st : Nat) (p : List Byte) : (s.reply m o st p).snp = s.snp := rfl
@[simp] theorem State.reply_acq (s : State) (m : Msg) (o st : Nat) (p : List Byte) : (s.reply m o st p).acq = s.acq := rfl
@[simp] theorem State.reply_lanes (s : State) (m : Msg) (o st : Nat) (p : List Byte) : (s.reply m o st p).lanes = s.lanes := rfl
@[simp] theorem State.reply_lge (s : State) (m : Msg) (o st : Nat) (p : List Byte) : (s.reply m o st p).lge = s.lge := rfl
@[simp] theorem State.reply_tim (s : State) (m : Msg) (o st : Nat) (p : List Byte) : (s.reply m o st p).tim = s.tim := rfl
@[simp] theorem State.reply_cores (s : State) (m : Msg) (o st : Nat) (p : List Byte) : (s.reply m o st p).cores = s.cores := rfl
@[simp] theorem State.reply_evt (s : State) (m : Msg) (o st : Nat) (p : List Byte) : (s.reply m o st p).evt = s.evt := rfl
@[simp] theorem State.reply_tsk (s : State) (m : Msg) (o st : Nat) (p : List Byte) : (s.reply m o st p).tsk = s.tsk := rfl
@[simp] theorem State.reply_chn (s : State) (m : Msg) (o st : Nat) (p : List Byte) : (s.reply m o st p).chn = s.chn := rfl
@[simp] theorem State.reply_hub (s : State) (m : Msg) (o st : Nat) (p : List Byte) : (s.reply m o st p).hub = s.hub := rfl
@[simp] theorem State.reply_noc (s : State) (m : Msg) (o st : Nat) (p : List Byte) : (s.reply m o st p).noc = s.noc := rfl
@[simp] theorem State.reply_hmp (s : State) (m : Msg) (o st : Nat) (p : List Byte) : (s.reply m o st p).hmp = s.hmp := rfl
@[simp] theorem State.reply_dbg (s : State) (m : Msg) (o st : Nat) (p : List Byte) : (s.reply m o st p).dbg = s.dbg := rfl
@[simp] theorem State.reply_trc (s : State) (m : Msg) (o st : Nat) (p : List Byte) : (s.reply m o st p).trc = s.trc := rfl
@[simp] theorem State.reply_pmc (s : State) (m : Msg) (o st : Nat) (p : List Byte) : (s.reply m o st p).pmc = s.pmc := rfl
@[simp] theorem State.reply_fio (s : State) (m : Msg) (o st : Nat) (p : List Byte) : (s.reply m o st p).fio = s.fio := rfl
@[simp] theorem State.reply_fb (s : State) (m : Msg) (o st : Nat) (p : List Byte) : (s.reply m o st p).fb = s.fb := rfl
@[simp] theorem State.reply_mgt (s : State) (m : Msg) (o st : Nat) (p : List Byte) : (s.reply m o st p).mgt = s.mgt := rfl
@[simp] theorem State.reply_thm (s : State) (m : Msg) (o st : Nat) (p : List Byte) : (s.reply m o st p).thm = s.thm := rfl
@[simp] theorem State.reply_mem (s : State) (m : Msg) (o st : Nat) (p : List Byte) : (s.reply m o st p).mem = s.mem := rfl
@[simp] theorem State.reply_badMem (s : State) (m : Msg) (o st : Nat) (p : List Byte) : (s.reply m o st p).badMem = s.badMem := rfl
@[simp] theorem State.reply_freeCtr (s : State) (m : Msg) (o st : Nat) (p : List Byte) : (s.reply m o st p).freeCtr = s.freeCtr := rfl
@[simp] theorem State.reply_pending (s : State) (m : Msg) (o st : Nat) (p : List Byte) : (s.reply m o st p).pending = s.pending := rfl

/-! ### State.sendTo -/

@[simp] theorem State.sendTo_regs (s : State) (x : Session) (a b c d : Nat) (p : List Byte) : (s.sendTo x a b c d p).regs = s.regs := rfl
@[simp] theorem State.sendTo_latches (s : State) (x : Session) (a b c d : Nat) (p : List Byte) : (s.sendTo x a b c d p).latches = s.latches := rfl
@[simp] theorem State.sendTo_ctl (s : State) (x : Session) (a b c d : Nat) (p : List Byte) : (s.sendTo x a b c d p).ctl = s.ctl := rfl
@[simp] theorem State.sendTo_fuses (s : State) (x : Session) (a b c d : Nat) (p : List Byte) : (s.sendTo x a b c d p).fuses = s.fuses := rfl
@[simp] theorem State.sendTo_arr (s : State) (x : Session) (a b c d : Nat) (p : List Byte) : (s.sendTo x a b c d p).arr = s.arr := rfl
@[simp] theorem State.sendTo_dm (s : State) (x : Session) (a b c d : Nat) (p : List Byte) : (s.sendTo x a b c d p).dm = s.dm := rfl
@[simp] theorem State.sendTo_ldr (s : State) (x : Session) (a b c d : Nat) (p : List Byte) : (s.sendTo x a b c d p).ldr = s.ldr := rfl
@[simp] theorem State.sendTo_snp (s : State) (x : Session) (a b c d : Nat) (p : List Byte) : (s.sendTo x a b c d p).snp = s.snp := rfl
@[simp] theorem State.sendTo_acq (s : State) (x : Session) (a b c d : Nat) (p : List Byte) : (s.sendTo x a b c d p).acq = s.acq := rfl
@[simp] theorem State.sendTo_lanes (s : State) (x : Session) (a b c d : Nat) (p : List Byte) : (s.sendTo x a b c d p).lanes = s.lanes := rfl
@[simp] theorem State.sendTo_lge (s : State) (x : Session) (a b c d : Nat) (p : List Byte) : (s.sendTo x a b c d p).lge = s.lge := rfl
@[simp] theorem State.sendTo_tim (s : State) (x : Session) (a b c d : Nat) (p : List Byte) : (s.sendTo x a b c d p).tim = s.tim := rfl
@[simp] theorem State.sendTo_cores (s : State) (x : Session) (a b c d : Nat) (p : List Byte) : (s.sendTo x a b c d p).cores = s.cores := rfl
@[simp] theorem State.sendTo_evt (s : State) (x : Session) (a b c d : Nat) (p : List Byte) : (s.sendTo x a b c d p).evt = s.evt := rfl
@[simp] theorem State.sendTo_tsk (s : State) (x : Session) (a b c d : Nat) (p : List Byte) : (s.sendTo x a b c d p).tsk = s.tsk := rfl
@[simp] theorem State.sendTo_chn (s : State) (x : Session) (a b c d : Nat) (p : List Byte) : (s.sendTo x a b c d p).chn = s.chn := rfl
@[simp] theorem State.sendTo_hub (s : State) (x : Session) (a b c d : Nat) (p : List Byte) : (s.sendTo x a b c d p).hub = s.hub := rfl
@[simp] theorem State.sendTo_noc (s : State) (x : Session) (a b c d : Nat) (p : List Byte) : (s.sendTo x a b c d p).noc = s.noc := rfl
@[simp] theorem State.sendTo_hmp (s : State) (x : Session) (a b c d : Nat) (p : List Byte) : (s.sendTo x a b c d p).hmp = s.hmp := rfl
@[simp] theorem State.sendTo_dbg (s : State) (x : Session) (a b c d : Nat) (p : List Byte) : (s.sendTo x a b c d p).dbg = s.dbg := rfl
@[simp] theorem State.sendTo_trc (s : State) (x : Session) (a b c d : Nat) (p : List Byte) : (s.sendTo x a b c d p).trc = s.trc := rfl
@[simp] theorem State.sendTo_pmc (s : State) (x : Session) (a b c d : Nat) (p : List Byte) : (s.sendTo x a b c d p).pmc = s.pmc := rfl
@[simp] theorem State.sendTo_fio (s : State) (x : Session) (a b c d : Nat) (p : List Byte) : (s.sendTo x a b c d p).fio = s.fio := rfl
@[simp] theorem State.sendTo_fb (s : State) (x : Session) (a b c d : Nat) (p : List Byte) : (s.sendTo x a b c d p).fb = s.fb := rfl
@[simp] theorem State.sendTo_mgt (s : State) (x : Session) (a b c d : Nat) (p : List Byte) : (s.sendTo x a b c d p).mgt = s.mgt := rfl
@[simp] theorem State.sendTo_thm (s : State) (x : Session) (a b c d : Nat) (p : List Byte) : (s.sendTo x a b c d p).thm = s.thm := rfl
@[simp] theorem State.sendTo_mem (s : State) (x : Session) (a b c d : Nat) (p : List Byte) : (s.sendTo x a b c d p).mem = s.mem := rfl
@[simp] theorem State.sendTo_badMem (s : State) (x : Session) (a b c d : Nat) (p : List Byte) : (s.sendTo x a b c d p).badMem = s.badMem := rfl
@[simp] theorem State.sendTo_freeCtr (s : State) (x : Session) (a b c d : Nat) (p : List Byte) : (s.sendTo x a b c d p).freeCtr = s.freeCtr := rfl
@[simp] theorem State.sendTo_pending (s : State) (x : Session) (a b c d : Nat) (p : List Byte) : (s.sendTo x a b c d p).pending = s.pending := rfl

/-! ### The fields the updates write -/

@[simp] theorem State.setReg_regs (s : State) (a : Nat) (w : Word) : (s.setReg a w).regs = rset resetWord s.regs a w := rfl
@[simp] theorem State.setCore_cores (s : State) (n : Nat) (c : Core) : (s.setCore n c).cores = setAt s.cores n c := rfl
@[simp] theorem State.setLane_lanes (s : State) (n : Nat) (p : LanePort) : (s.setLane n p).lanes = setAt s.lanes n p := rfl
@[simp] theorem State.setSession_sessions (s : State) (x : Session) :
    (s.setSession x).hmp.sessions = s.hmp.sessions.map fun y => if y.num == x.num then x else y := rfl
@[simp] theorem State.discard_discards (s : State) : s.discard.hmp.discards = s.hmp.discards + 1 := rfl

end Sys2Proof.Machine
end

