-- ==== Sys2Proof/Laws/Kept.lean ====
section
/-! SUPPORT. What every operation of the module keeps, as one relation to a fixed earlier state, and the lemmas that carry it
through register writes, memory writes, cores, ports, folds and updates of the fields it does not speak of. -/
namespace Sys2Proof.Machine

/-- What every operation keeps of a state `s₀`: the waiting commands and the fuses but the anti-rollback counter, which never falls;
no message already sent is unsent; the counter of free values never falls; and the canonical forms of `Parts`. -/
def Held (s₀ : State) (q : List Instr) (f : Fuses) (o : List Out) (k : Nat) (r : SMap Word) (c : List Core) (l : List LanePort)
    (m : List Host.Cell) : Prop :=
  q = s₀.pending ∧ (f = { s₀.fuses with rbcnt := f.rbcnt } ∧ s₀.fuses.rbcnt ≤ f.rbcnt) ∧ s₀.out <+: o ∧ s₀.freeCtr ≤ k ∧ Parts r c l m

/-- A state that has kept what `Held` says of an earlier one. -/
def Keeps (s₀ s : State) : Prop := Held s₀ s.pending s.fuses s.out s.freeCtr s.regs s.cores s.lanes s.mem

theorem kept_refl (s : State) (h : s.Inv) : Keeps s s := ⟨rfl, ⟨rfl, Nat.le_refl _⟩, List.prefix_refl _, Nat.le_refl _, h⟩

theorem kept_foldl {α : Type} (s₀ : State) (g : State → α → State) (hg : ∀ s x, Keeps s₀ s → Keeps s₀ (g s x)) (l : List α)
    (s : State) (h : Keeps s₀ s) : Keeps s₀ (l.foldl g s) := by
  induction l generalizing s with
  | nil => exact h
  | cons a l ih => exact ih _ (hg _ _ h)

/-- A fold that carries other values beside the state. -/
theorem kept_foldl_with {α β γ : Type} (s₀ : State) (g : β × γ × State → α → β × γ × State)
    (hg : ∀ x a, Keeps s₀ x.2.2 → Keeps s₀ (g x a).2.2) (l : List α) (x : β × γ × State) (h : Keeps s₀ x.2.2) :
    Keeps s₀ (l.foldl g x).2.2 := by
  induction l generalizing x with
  | nil => exact h
  | cons a l ih => exact ih _ (hg _ _ h)

theorem keeps_let {s₀ s : State} {P : Prop} (hb : Keeps s₀ s → P) (hs : Keeps s₀ s) : P := hb hs

/-- An update of other fields. -/
theorem keeps_upd {s₀ s : State} (x_latches : SMap Word) (x_ctl : Ctl) (x_arr : Arr) (x_dm : Dm) (x_ldr : Ldr) (x_snp : Snp) (x_acq : Acq) (x_lge : Lge)
    (x_tim : Tim) (x_evt : Evt) (x_tsk : Tsk) (x_chn : Chn) (x_hub : Hub) (x_noc : Noc) (x_hmp : Hmp) (x_dbg : Dbg) (x_trc :
    Trc) (x_pmc : Pmc) (x_fio : Fio) (x_fb : Fb) (x_mgt : Mgt) (x_thm : Thm) (x_badMem : NSet)
    (h : Keeps s₀ s) :
    Keeps s₀ ⟨s.regs, x_latches, x_ctl, s.fuses, x_arr, x_dm, x_ldr, x_snp, x_acq, s.lanes, x_lge, x_tim, s.cores, x_evt, x_tsk,
      x_chn, x_hub, x_noc, x_hmp, x_dbg, x_trc, x_pmc, x_fio, x_fb, x_mgt, x_thm, s.mem, x_badMem, s.out, s.freeCtr,
      s.pending⟩ := h

/-- The counter of free values moves on. -/
theorem keeps_free {s₀ s : State} (n : Nat) (x_latches : SMap Word) (x_ctl : Ctl) (x_arr : Arr) (x_dm : Dm) (x_ldr : Ldr) (x_snp : Snp) (x_acq : Acq) (x_lge : Lge)
    (x_tim : Tim) (x_evt : Evt) (x_tsk : Tsk) (x_chn : Chn) (x_hub : Hub) (x_noc : Noc) (x_hmp : Hmp) (x_dbg : Dbg) (x_trc :
    Trc) (x_pmc : Pmc) (x_fio : Fio) (x_fb : Fb) (x_mgt : Mgt) (x_thm : Thm) (x_badMem : NSet)
    (h : Keeps s₀ s) :
    Keeps s₀ ⟨s.regs, x_latches, x_ctl, s.fuses, x_arr, x_dm, x_ldr, x_snp, x_acq, s.lanes, x_lge, x_tim, s.cores, x_evt, x_tsk,
      x_chn, x_hub, x_noc, x_hmp, x_dbg, x_trc, x_pmc, x_fio, x_fb, x_mgt, x_thm, s.mem, x_badMem, s.out, s.freeCtr + n,
      s.pending⟩ :=
  ⟨h.1, h.2.1, h.2.2.1, Nat.le_add_right_of_le h.2.2.2.1, h.2.2.2.2⟩

/-- The same of a result that may be absent, or comes with other values, is an outcome, or is what an access comes to. -/
def OptKeeps (s₀ : State) (o : Option State) : Prop := ∀ t, o = some t → Keeps s₀ t
/-- With a Bool. -/
def OptKeeps2 (s₀ : State) (o : Option (Bool × State)) : Prop := ∀ t, o = some t → Keeps s₀ t.2
/-- With an answer's kind and data. -/
def OptKeeps3 (s₀ : State) (o : Option (Nat × List Byte × State)) : Prop := ∀ t, o = some t → Keeps s₀ t.2.2
/-- Of an outcome. -/
def OutKeeps (s₀ : State) (o : Host.Outcome State Fault Refusal) : Prop := ∀ t, o = .next t → Keeps s₀ t
/-- Of an access. -/
def ReachKeeps (s₀ : State) : Reach → Prop
  | .done _ t => Keeps s₀ t
  | .fault _ _ t => Keeps s₀ t
  | .stall _ => True
  | .peripheral => True

/-- Of a core's request. -/
def GotKeeps (s₀ : State) : Got → Prop
  | .ans _ _ t => Keeps s₀ t
  | .wait _ => True
/-- Of a write-back. -/
def ExcKeeps (s₀ : State) (o : Except Flight State) : Prop := ∀ t, o = .ok t → Keeps s₀ t

theorem gotKeeps_ans {s₀ t : State} {k : Nat} {d : List Byte} (h : Keeps s₀ t) : GotKeeps s₀ (.ans k d t) := h
theorem gotKeeps_wait {s₀ : State} {f : Flight} : GotKeeps s₀ (.wait f) := trivial
theorem keeps_ans {s₀ t : State} {k : Nat} {d : List Byte} {o : Got} (h : GotKeeps s₀ o) (e : o = .ans k d t) : Keeps s₀ t := by
  rw [e] at h; exact h
theorem excKeeps_ok {s₀ t : State} (h : Keeps s₀ t) : ExcKeeps s₀ (.ok t) := by
  intro u e
  cases e
  exact h
theorem excKeeps_error {s₀ : State} {f : Flight} : ExcKeeps s₀ (.error f) := fun _ h => by cases h
/-- Where it succeeds, an operation with a further result keeps what `Keeps` says. -/
def ExcKeeps2 {α : Type} (s₀ : State) (o : Except Flight (α × State)) : Prop := ∀ x, o = .ok x → Keeps s₀ x.2

theorem excKeeps2_ok {α : Type} {s₀ : State} {x : α × State} (h : Keeps s₀ x.2) : ExcKeeps2 s₀ (.ok x) := by
  intro y e
  cases e
  exact h
theorem excKeeps2_error {α : Type} {s₀ : State} {f : Flight} : ExcKeeps2 (α := α) s₀ (.error f) := fun _ h => by cases h
theorem keeps_ok2 {α : Type} {s₀ : State} {x : α × State} {o : Except Flight (α × State)} (h : ExcKeeps2 s₀ o) (e : o = .ok x) :
    Keeps s₀ x.2 := h x e
theorem keeps_ok2' {α : Type} {s₀ t : State} {a : α} {o : Except Flight (α × State)} (h : ExcKeeps2 s₀ o) (e : o = .ok (a, t)) :
    Keeps s₀ t := h (a, t) e
theorem keeps_ok {s₀ t : State} {o : Except Flight State} (h : ExcKeeps s₀ o) (e : o = .ok t) : Keeps s₀ t := h t e

theorem optKeeps_none {s₀ : State} : OptKeeps s₀ none := fun _ h => by cases h
theorem optKeeps_some {s₀ t : State} (h : Keeps s₀ t) : OptKeeps s₀ (some t) := by
  intro t' hu
  have e := Option.some.inj hu
  subst e
  exact h
theorem optKeeps2_none {s₀ : State} : OptKeeps2 s₀ none := fun _ h => by cases h
theorem optKeeps2_some {s₀ t : State} {b : Bool} (h : Keeps s₀ t) : OptKeeps2 s₀ (some (b, t)) :=
  by
  intro t' hu
  have e := Option.some.inj hu
  subst e
  exact h
theorem optKeeps3_none {s₀ : State} : OptKeeps3 s₀ none := fun _ h => by cases h
theorem optKeeps3_some {s₀ t : State} {n : Nat} {d : List Byte} (h : Keeps s₀ t) : OptKeeps3 s₀ (some (n, d, t)) :=
  by
  intro t' hu
  have e := Option.some.inj hu
  subst e
  exact h
theorem optKeeps_map {α : Type} {s₀ : State} {o : Option α} {g : α → State} (h : ∀ x, o = some x → Keeps s₀ (g x)) :
    OptKeeps s₀ (o.map g) := by
  intro t ht
  cases o with
  | none => cases ht
  | some x => exact Option.some.inj ht ▸ h x rfl
theorem outKeeps_next {s₀ t : State} (h : Keeps s₀ t) : OutKeeps s₀ (.next t) :=
  by
  intro t' hu
  have e := Host.Outcome.next.inj hu
  subst e
  exact h
theorem outKeeps_refused {s₀ : State} {r : Refusal} : OutKeeps s₀ (.refused r) := fun _ h => by cases h
theorem reachKeeps_done {s₀ t : State} {v : Nat} (h : Keeps s₀ t) : ReachKeeps s₀ (.done v t) := h
theorem reachKeeps_fault {s₀ t : State} {v a : Nat} (h : Keeps s₀ t) : ReachKeeps s₀ (.fault v a t) := h
theorem reachKeeps_stall {s₀ : State} {f : Flight} : ReachKeeps s₀ (.stall f) := trivial
theorem reachKeeps_peripheral {s₀ : State} : ReachKeeps s₀ .peripheral := trivial

theorem keeps_getD {s₀ s : State} {o : Option State} (h : OptKeeps s₀ o) (hs : Keeps s₀ s) : Keeps s₀ (o.getD s) := by
  cases o with
  | none => exact hs
  | some t => exact h t rfl

theorem keeps_opt {s₀ t : State} {o : Option State} (h : OptKeeps s₀ o) (e : o = some t) : Keeps s₀ t := h t e
theorem keeps_opt2 {s₀ t : State} {b : Bool} {o : Option (Bool × State)} (h : OptKeeps2 s₀ o) (e : o = some (b, t)) : Keeps s₀ t := h _ e
theorem keeps_opt3 {s₀ t : State} {n : Nat} {d : List Byte} {o : Option (Nat × List Byte × State)} (h : OptKeeps3 s₀ o)
    (e : o = some (n, d, t)) : Keeps s₀ t := h _ e
theorem keeps_opt3' {s₀ : State} {x : Nat × List Byte × State} {o : Option (Nat × List Byte × State)} (h : OptKeeps3 s₀ o)
    (e : o = some x) : Keeps s₀ x.2.2 := h _ e
theorem keeps_done {s₀ t : State} {v : Nat} {o : Reach} (h : ReachKeeps s₀ o) (e : o = .done v t) : Keeps s₀ t := by rw [e] at h; exact h
theorem keeps_fault {s₀ t : State} {v a : Nat} {o : Reach} (h : ReachKeeps s₀ o) (e : o = .fault v a t) : Keeps s₀ t := by
  rw [e] at h; exact h
theorem keeps_pair {α : Type} {s₀ t : State} {a : α} {x : α × State} (h : Keeps s₀ x.2) (e : x = (a, t)) : Keeps s₀ t := by
  rw [e] at h; exact h
theorem keeps_triple {α β : Type} {s₀ t : State} {a : α} {b : β} {x : α × β × State} (h : Keeps s₀ x.2.2) (e : x = (a, b, t)) :
    Keeps s₀ t := by rw [e] at h; exact h

variable {s₀ : State} {q : List Instr} {f : Fuses} {o : List Out} {k : Nat} {r : SMap Word} {c : List Core} {l : List LanePort}
  {m : List Host.Cell}

theorem held_rset (a : Nat) (w : Word) (h : Held s₀ q f o k r c l m) : Held s₀ q f o k (rset resetWord r a w) c l m :=
  ⟨h.1, h.2.1, h.2.2.1, h.2.2.2.1, rwfFrom_rset _ r 0 a w h.2.2.2.2.1 (Nat.zero_le a), h.2.2.2.2.2⟩

theorem held_filter_regs (p : Nat × Word → Bool) (h : Held s₀ q f o k r c l m) : Held s₀ q f o k (r.filter p) c l m :=
  ⟨h.1, h.2.1, h.2.2.1, h.2.2.2.1, rwfFrom_filter _ p r 0 h.2.2.2.2.1, h.2.2.2.2.2⟩

theorem held_foldl_regs (x : SMap Word) (h : Held s₀ q f o k r c l m) :
    Held s₀ q f o k (x.foldl (fun m y => rset resetWord m y.1 y.2) r) c l m :=
  ⟨h.1, h.2.1, h.2.2.1, h.2.2.2.1, rwfFrom_foldl _ x r h.2.2.2.2.1, h.2.2.2.2.2⟩

theorem coresOk_setAt {c : List Core} (n : Nat) (x : Core) (hx : Core.sound n x) (h : CoresOk c) : CoresOk (setAt c n x) := by
  refine ⟨by rw [length_setAt]; exact h.1, fun i => ?_⟩
  by_cases hi : i = n
  · subst hi
    by_cases hl : i < c.length
    · rw [getD_setAt_same _ _ _ _ hl]; exact hx
    · rw [setAt_ge _ _ _ (by omega)]; exact h.2 i
  · rw [getD_setAt_other _ _ _ _ _ hi]; exact h.2 i

theorem sound_reset (n : Nat) : Core.sound n Core.reset := ⟨rfl, rfl⟩

theorem coresOk_map {c : List Core} (g : Core → Core) (hg : ∀ n x, Core.sound n x → Core.sound n (g x)) (h : CoresOk c) :
    CoresOk (c.map g) := by
  refine ⟨by rw [List.length_map]; exact h.1, fun i => ?_⟩
  by_cases hl : i < c.length
  · rw [List.getD_eq_getElem?_getD, List.getElem?_map, List.getElem?_eq_getElem hl]
    have := h.2 i
    rw [List.getD_eq_getElem?_getD, List.getElem?_eq_getElem hl] at this
    exact hg i _ this
  · rw [List.getD_eq_getElem?_getD, List.getElem?_eq_none (by rw [List.length_map]; omega)]
    exact sound_reset i

theorem held_setAt_cores (n : Nat) (x : Core) (hx : Core.sound n x) (h : Held s₀ q f o k r c l m) :
    Held s₀ q f o k r (setAt c n x) l m :=
  ⟨h.1, h.2.1, h.2.2.1, h.2.2.2.1, h.2.2.2.2.1, coresOk_setAt n x hx h.2.2.2.2.2.1, h.2.2.2.2.2.2⟩

theorem held_map_cores (g : Core → Core) (hg : ∀ n x, Core.sound n x → Core.sound n (g x)) (h : Held s₀ q f o k r c l m) :
    Held s₀ q f o k r (c.map g) l m :=
  ⟨h.1, h.2.1, h.2.2.1, h.2.2.2.1, h.2.2.2.2.1, coresOk_map g hg h.2.2.2.2.2.1, h.2.2.2.2.2.2⟩

theorem held_setAt_lanes (n : Nat) (x : LanePort) (h : Held s₀ q f o k r c l m) : Held s₀ q f o k r c (setAt l n x) m :=
  ⟨h.1, h.2.1, h.2.2.1, h.2.2.2.1, h.2.2.2.2.1, h.2.2.2.2.2.1, by rw [length_setAt]; exact h.2.2.2.2.2.2.1, h.2.2.2.2.2.2.2⟩

theorem held_map_lanes (g : LanePort → LanePort) (h : Held s₀ q f o k r c l m) : Held s₀ q f o k r c (l.map g) m :=
  ⟨h.1, h.2.1, h.2.2.1, h.2.2.2.1, h.2.2.2.2.1, h.2.2.2.2.2.1, by rw [List.length_map]; exact h.2.2.2.2.2.2.1, h.2.2.2.2.2.2.2⟩

theorem held_wf (m' : List Host.Cell) (h : Held s₀ q f o k r c l m) (hm : Memory.wf m' = true) : Held s₀ q f o k r c l m' :=
  ⟨h.1, h.2.1, h.2.2.1, h.2.2.2.1, h.2.2.2.2.1, h.2.2.2.2.2.1, h.2.2.2.2.2.2.1, hm⟩

theorem held_mem (h : Held s₀ q f o k r c l m) : Memory.wf m = true := h.2.2.2.2.2.2.2

theorem held_write1 (a : Nat) (v : Byte) (h : Held s₀ q f o k r c l m) : Held s₀ q f o k r c l (Mem.write1 m a v) :=
  held_wf _ h (Memory.wf_write1 m a v (held_mem h))

theorem held_write (a : Nat) (d : List Byte) (h : Held s₀ q f o k r c l m) : Held s₀ q f o k r c l (Mem.write m a d) :=
  held_wf _ h (Memory.wf_write m a d (held_mem h))

theorem held_clear (a n : Nat) (h : Held s₀ q f o k r c l m) : Held s₀ q f o k r c l (Mem.clear m a n) :=
  held_wf _ h (Memory.wf_clear m a n (held_mem h))

theorem held_filter_mem (p : Host.Cell → Bool) (h : Held s₀ q f o k r c l m) : Held s₀ q f o k r c l (m.filter p) :=
  held_wf _ h (Memory.wf_filter p m (held_mem h))

theorem held_puts (g : Nat → Nat) (d : List Byte) (n : Nat) (h : Held s₀ q f o k r c l m) :
    Held s₀ q f o k r c l (d.foldl (fun (x : List Host.Cell × Nat) v => (Mem.write1 x.1 (g x.2) v, x.2 + 1)) (m, n)).1 := by
  induction d generalizing m n with
  | nil => exact h
  | cons b t ih => exact ih (n + 1) (held_write1 (g n) b h)

theorem held_out (x : List Out) (h : Held s₀ q f o k r c l m) : Held s₀ q f (o ++ x) k r c l m :=
  ⟨h.1, h.2.1, h.2.2.1.trans (List.prefix_append o x), h.2.2.2⟩

theorem held_free (n : Nat) (h : Held s₀ q f o k r c l m) : Held s₀ q f o (k + n) r c l m :=
  ⟨h.1, h.2.1, h.2.2.1, Nat.le_add_right_of_le h.2.2.2.1, h.2.2.2.2⟩

/-- Every core of a state that keeps `Held` is sound. -/
theorem keeps_sound {s₀ s : State} (h : Keeps s₀ s) (n : Nat) : Core.sound n (s.core n) := h.2.2.2.2.2.1.2 n

/-- A core replaced by a sound one. -/
theorem keeps_setCore {s₀ s : State} (n : Nat) (x : Core) (hx : Core.sound n x) (h : Keeps s₀ s) : Keeps s₀ (s.setCore n x) :=
  held_setAt_cores n x hx h

/-- A core replaced by one with the registers of the core of some state. -/
theorem keeps_setCore_upd {s₀ s : State} (t : State) (n : Nat) (pc : Word) (cyc : BitVec 64) (cycLatch : Word) (resv : Option Nat)
    (running lockup wfe : Bool) (ran : Nat) (asleep : Bool) (sleptAt : Nat) (monPrv stepped rstHalt wdog wdogOnce : Bool) (icache dcache : List CLine)
    (run : Option LoopRun) (ht : Keeps s₀ t) (h : Keeps s₀ s) :
    Keeps s₀ (s.setCore n ⟨(t.core n).x, pc, (t.core n).sys, cyc, cycLatch, resv, running, lockup, wfe, ran, asleep, sleptAt, monPrv, stepped,
      rstHalt, wdog, wdogOnce, icache, dcache, run⟩) :=
  keeps_setCore n _ (keeps_sound ht n) h

/-- Sixteen cores reset, and the management controller as it was. -/
theorem coresOk_keepMc (x : Core) (hx : Core.sound 16 x) : CoresOk (State.reset.cores.take 16 ++ [x]) := by
  have e : State.reset.cores.take 16 = List.replicate 16 Core.reset := rfl
  rw [e]
  refine ⟨rfl, fun i => ?_⟩
  by_cases h : i < 16
  · rw [List.getD_eq_getElem?_getD, List.getElem?_append_left (by simpa using h), List.getElem?_replicate_of_lt h]
    exact sound_reset i
  · by_cases h' : i = 16
    · subst h'; exact hx
    · rw [List.getD_eq_getElem?_getD, List.getElem?_eq_none (by rw [List.length_append, List.length_replicate, List.length_singleton]; omega)]
      exact sound_reset i

/-- The management controller as it starts. -/
theorem sound_mc (n : Nat) : Core.sound n Core.mc := ⟨rfl, rfl⟩

/-- A core reset. -/
theorem keeps_setCore_reset {s₀ s : State} (n : Nat) (h : Keeps s₀ s) : Keeps s₀ (s.setCore n Core.reset) :=
  keeps_setCore n _ (sound_reset n) h

theorem held_rbcnt (n : Nat) (h : Held s₀ q f o k r c l m) : Held s₀ q { f with rbcnt := Nat.max f.rbcnt n } o k r c l m :=
  ⟨h.1, ⟨by rw [h.2.1.1], Nat.le_trans h.2.1.2 (Nat.le_max_left _ _)⟩, h.2.2⟩

end Sys2Proof.Machine
end

