-- ==== Sys2Proof/Laws/KeptOps.lean ====
section
/-! SUPPORT. Ops: each operation keeps what `Keeps` says. -/
namespace Sys2Proof.Machine

theorem kept_State_setReg (s₀ : State) (s : State) (a : Nat) (w : Word)  (hk : Keeps s₀ s) : Keeps s₀ (State.setReg s a w) := by
  unfold State.setReg
  repeat' first
    | (with_reducible first | assumption | intro _)
    | split
  all_goals grind [Keeps, held_rset, held_setAt_cores, held_setAt_lanes, held_filter_regs, held_map_cores, held_map_lanes, held_write1, held_write, held_clear, held_filter_mem, held_out, held_free, held_rbcnt]

theorem kept_State_setFld (s₀ : State) (s : State) (f : Fld) (v : Nat)  (hk : Keeps s₀ s) : Keeps s₀ (State.setFld s f v) := by
  unfold State.setFld
  repeat' first
    | (with_reducible first | assumption | intro _)
    | split
    | (with_reducible first | apply kept_State_setReg)

theorem kept_State_setFlds (s₀ : State) (s : State) (l : List (Fld × Nat))  (hk : Keeps s₀ s) : Keeps s₀ (State.setFlds s l) := by
  unfold State.setFlds
  repeat' first
    | (with_reducible first | assumption | intro _)
    | split
    | (with_reducible first | apply kept_State_setFld | apply kept_foldl)

theorem kept_State_count (s₀ : State) (s : State) (f : Fld) (n : optParam Nat 1)  (hk : Keeps s₀ s) : Keeps s₀ (State.count s f n) := by
  unfold State.count
  repeat' first
    | (with_reducible first | assumption | intro _)
    | split
    | (with_reducible first | apply kept_State_setFld)

theorem kept_State_setPair (s₀ : State) (s : State) (lo : Nat) (hi : Nat) (v : Nat)  (hk : Keeps s₀ s) : Keeps s₀ (State.setPair s lo hi v) := by
  unfold State.setPair
  repeat' first
    | (with_reducible first | assumption | intro _)
    | split
    | (with_reducible first | apply kept_State_setReg)

theorem kept_State_clearRegs (s₀ : State) (s : State) (l : List Nat)  (hk : Keeps s₀ s) : Keeps s₀ (State.clearRegs s l) := by
  unfold State.clearRegs
  repeat' first
    | (with_reducible first | assumption | intro _)
    | split
  all_goals grind [Keeps, held_rset, held_setAt_cores, held_setAt_lanes, held_filter_regs, held_map_cores, held_map_lanes, held_write1, held_write, held_clear, held_filter_mem, held_out, held_free, held_rbcnt]

theorem kept_State_first (s₀ : State) (s : State) (valid : Fld) (more : Fld) (l : List (Fld × Nat)) (several : optParam Bool false)  (hk : Keeps s₀ s) : Keeps s₀ (State.first s valid more l several) := by
  unfold State.first
  repeat' first
    | (with_reducible first | assumption | intro _)
    | split
    | (with_reducible first | apply kept_State_setFld | apply kept_State_setFlds)

theorem kept_State_freshNat (s₀ : State) (s : State) (w : Nat)  (hk : Keeps s₀ s) : Keeps s₀ (State.freshNat s w).2 := by
  unfold State.freshNat
  repeat' first
    | (with_reducible first | assumption | intro _)
    | split
  all_goals grind [Keeps, held_rset, held_setAt_cores, held_setAt_lanes, held_filter_regs, held_map_cores, held_map_lanes, held_write1, held_write, held_clear, held_filter_mem, held_out, held_free, held_rbcnt]

theorem kept_State_freshBit (s₀ : State) (s : State)  (hk : Keeps s₀ s) : Keeps s₀ (State.freshBit s).2 := by
  unfold State.freshBit
  repeat' first
    | (with_reducible first | assumption | intro _)
    | split
  all_goals grind [Keeps, held_rset, held_setAt_cores, held_setAt_lanes, held_filter_regs, held_map_cores, held_map_lanes, held_write1, held_write, held_clear, held_filter_mem, held_out, held_free, held_rbcnt]

theorem kept_State_clearResv (s₀ : State) (s : State) (a : Nat) (n : Nat)  (hk : Keeps s₀ s) : Keeps s₀ (State.clearResv s a n) := by
  unfold State.clearResv
  refine held_map_cores _ (fun n x hx => ?_) hk
  split
  · split <;> exact hx
  · exact hx

theorem kept_State_sendTo (s₀ : State) (s : State) (x : Session) (kind : Nat) (opcode : Nat) (seq : Nat) (status : Nat) (payload : List Byte)  (hk : Keeps s₀ s) : Keeps s₀ (State.sendTo s x kind opcode seq status payload) := by
  unfold State.sendTo
  repeat' first
    | (with_reducible first | assumption | intro _)
    | split
  all_goals grind [Keeps, held_rset, held_setAt_cores, held_setAt_lanes, held_filter_regs, held_map_cores, held_map_lanes, held_write1, held_write, held_clear, held_filter_mem, held_out, held_free, held_rbcnt]

theorem kept_State_setSession (s₀ : State) (s : State) (x : Session)  (hk : Keeps s₀ s) : Keeps s₀ (State.setSession s x) := by
  unfold State.setSession
  repeat' first
    | (with_reducible first | assumption | intro _)
    | split
    | (with_reducible apply keeps_upd; with_reducible first | assumption)

theorem kept_State_tellSession (s₀ : State) (s : State) (x : Session) (opcode : Nat) (payload : List Byte)  (hk : Keeps s₀ s) : Keeps s₀ (State.tellSession s x opcode payload) := by
  unfold State.tellSession
  repeat' first
    | (with_reducible first | assumption | intro _)
    | (extract_lets +onlyGivenNames x
       first
       | (refine keeps_let (s₀ := s₀) (s := x) ?_ ?_ <;> first | (intro hx; clear_value x) | subst x)
       | subst x)
    | split
    | (with_reducible first | apply kept_State_sendTo | apply outKeeps_next | exact outKeeps_refused | apply optKeeps_some
                            | exact optKeeps_none)
    | dsimp -zeta only
    | (with_reducible apply keeps_upd; with_reducible first | assumption | apply kept_State_sendTo)
  all_goals grind [kept_State_sendTo, Keeps, held_rset, held_setAt_cores, held_setAt_lanes, held_filter_regs, held_map_cores, held_map_lanes, held_write1, held_write, held_clear, held_filter_mem, held_out, held_free, held_rbcnt]

theorem kept_State_eventTo (s₀ : State) (s : State) (n : Nat) (opcode : Nat) (payload : List Byte)  (hk : Keeps s₀ s) : Keeps s₀ (State.eventTo s n opcode payload) := by
  unfold State.eventTo
  repeat' first
    | (with_reducible first | assumption | intro _)
    | split
    | (with_reducible first | apply kept_State_tellSession)

theorem kept_State_eventAll (s₀ : State) (s : State) (opcode : Nat) (payload : List Byte)  (hk : Keeps s₀ s) : Keeps s₀ (State.eventAll s opcode payload) := by
  unfold State.eventAll
  repeat' first
    | (with_reducible first | assumption | intro _)
    | split
    | (with_reducible first | apply kept_State_tellSession | apply kept_foldl)

theorem kept_State_flushLog (s₀ : State) (s : State)  (hk : Keeps s₀ s) : Keeps s₀ (State.flushLog s) := by
  unfold State.flushLog
  repeat' first
    | (with_reducible first | assumption | intro _)
    | split
    | (with_reducible first | apply kept_foldl)
    | (with_reducible apply keeps_upd; with_reducible first | assumption | apply kept_foldl)

theorem kept_State_log (s₀ : State) (s : State) (src : Nat) (data : List Byte)  (hk : Keeps s₀ s) : Keeps s₀ (State.log s src data) := by
  unfold State.log
  repeat' first
    | (with_reducible first | assumption | intro _)
    | split
    | (with_reducible first | apply kept_State_flushLog)
    | (with_reducible apply keeps_upd; with_reducible first | assumption | apply kept_State_flushLog)

theorem kept_State_hubLog (s₀ : State) (s : State) (src : Nat) (data : List Byte)  (hk : Keeps s₀ s) : Keeps s₀ (State.hubLog s src data) := by
  unfold State.hubLog
  repeat' first
    | (with_reducible first | assumption | intro _)
    | (extract_lets +onlyGivenNames x
       first
       | (refine keeps_let (s₀ := s₀) (s := x) ?_ ?_ <;> first | (intro hx; clear_value x) | subst x)
       | subst x)
    | split
    | (with_reducible first | apply kept_State_log | apply outKeeps_next | exact outKeeps_refused | apply optKeeps_some
                            | exact optKeeps_none)
    | dsimp -zeta only
    | (with_reducible apply keeps_upd; with_reducible first | assumption | apply kept_State_log)
  all_goals grind [kept_State_log, Keeps, held_rset, held_setAt_cores, held_setAt_lanes, held_filter_regs, held_map_cores, held_map_lanes, held_write1, held_write, held_clear, held_filter_mem, held_out, held_free, held_rbcnt]

theorem kept_raise (s₀ : State) (k : Nat) (s : State)  (hk : Keeps s₀ s) : Keeps s₀ (raise k s) := by
  unfold raise
  repeat' first
    | (with_reducible first | assumption | intro _)
    | (extract_lets +onlyGivenNames x
       first
       | (refine keeps_let (s₀ := s₀) (s := x) ?_ ?_ <;> first | (intro hx; clear_value x) | subst x)
       | subst x)
    | split
    | (with_reducible first | apply kept_State_count | apply kept_State_setFld | apply kept_State_eventAll
                            | apply kept_State_hubLog)
    | (with_reducible apply keeps_upd; with_reducible first | assumption | apply kept_State_count | apply kept_State_setFld
                                                             | apply kept_State_eventAll | apply kept_State_hubLog)

theorem kept_raiseIf (s₀ : State) (b : Bool) (k : Nat) (s : State)  (hk : Keeps s₀ s) : Keeps s₀ (raiseIf b k s) := by
  unfold raiseIf
  repeat' first
    | (with_reducible first | assumption | intro _)
    | split
    | (with_reducible first | apply kept_raise)

theorem kept_State_create (s₀ : State) (s : State) (k : Nat) (p : Nat)  (hk : Keeps s₀ s) : OptKeeps s₀ (State.create s k p) := by
  unfold State.create
  repeat' first
    | (with_reducible first | assumption | intro _)
    | split
    | (with_reducible first | apply kept_State_setFlds | apply outKeeps_next | exact outKeeps_refused | apply optKeeps_some
                            | exact optKeeps_none | apply optKeeps_map)
    | dsimp -zeta only

theorem kept_State_free (s₀ : State) (s : State) (k : Nat)  (hk : Keeps s₀ s) : Keeps s₀ (State.free s k) := by
  unfold State.free
  repeat' first
    | (with_reducible first | assumption | intro _)
    | split
    | (with_reducible first | apply kept_State_setFlds)

theorem kept_State_putRegion (s₀ : State) (s : State) (k : Nat) (o : Nat) (d : List Byte)  (hk : Keeps s₀ s) : Keeps s₀ (State.putRegion s k o d) := by
  unfold State.putRegion
  split
  · exact held_puts _ _ _ hk
  · exact hk

end Sys2Proof.Machine
end

