-- ==== Sys2Proof/Laws/KeptRecords.lean ====
section
/-! SUPPORT. Records: each operation keeps what `Keeps` says. -/
namespace Sys2Proof.Machine

theorem kept_putRecord (s₀ : State) (i : Nat) (cycle : Nat) (stamp : Nat) (held : Nat) (flags : Nat) (n : Nat) (body : List Byte) (s : State)  (hk : Keeps s₀ s) : Keeps s₀ (putRecord i cycle stamp held flags n body s) := by
  unfold putRecord
  repeat' first
    | (with_reducible first | assumption | intro _)
    | (extract_lets +onlyGivenNames x
       first
       | (refine keeps_let (s₀ := s₀) (s := x) ?_ ?_ <;> first | (intro hx; clear_value x) | subst x)
       | subst x)
    | split
    | (with_reducible first | apply kept_raise | apply kept_State_count | apply kept_foldl)
    | (with_reducible apply keeps_upd; with_reducible first | assumption | apply kept_raise | apply kept_State_count
                                                             | apply kept_foldl)

theorem kept_closeWindow (s₀ : State) (extra : Nat) (s : State)  (hk : Keeps s₀ s) : Keeps s₀ (closeWindow extra s) := by
  unfold closeWindow
  repeat' first
    | (with_reducible first | assumption | intro _)
    | split
    | (with_reducible first | apply kept_putRecord)
    | (with_reducible apply keeps_upd; with_reducible first | assumption | apply kept_putRecord)

theorem kept_endCapture (s₀ : State) (cause : Nat) (s : State)  (hk : Keeps s₀ s) : Keeps s₀ (endCapture cause s) := by
  unfold endCapture
  repeat' first
    | (with_reducible first | assumption | intro _)
    | (extract_lets +onlyGivenNames x
       first
       | (refine keeps_let (s₀ := s₀) (s := x) ?_ ?_ <;> first | (intro hx; clear_value x) | subst x)
       | subst x)
    | split
    | (with_reducible first | apply kept_closeWindow | apply kept_State_setFlds | apply kept_raiseIf)
    | (with_reducible apply keeps_upd; with_reducible first | assumption | apply kept_closeWindow | apply kept_State_setFlds
                                                             | apply kept_raiseIf)

end Sys2Proof.Machine
end

