-- ==== Sys2Proof/Laws/KeptModes.lean ====
section
/-! SUPPORT. Modes: each operation keeps what `Keeps` says. -/
namespace Sys2Proof.Machine

theorem kept_hbmCorrect (s₀ : State) (s : State)  (hk : Keeps s₀ s) : Keeps s₀ (hbmCorrect s) := by
  unfold hbmCorrect
  repeat' first
    | (with_reducible first | assumption | intro _)
    | split
    | (with_reducible first | apply kept_raiseIf | apply kept_State_count)

theorem kept_hbmUe (s₀ : State) (scrub : Bool) (a : Nat) (s : State)  (hk : Keeps s₀ s) : Keeps s₀ (hbmUe scrub a s) := by
  unfold hbmUe
  repeat' first
    | (with_reducible first | assumption | intro _)
    | split
    | (with_reducible first | apply kept_raise | apply kept_State_first)

theorem kept_eccReads (s₀ : State) (l : List Nat) (e : List (Ecc × Ecc)) (s : State)  (hk : Keeps s₀ s) : Keeps s₀ (eccReads l e s).2 := by
  unfold eccReads
  extract_lets m r
  split
  · exact hk
  · have h : Keeps s₀ r.2.2 := by
      refine kept_foldl_with s₀ _ (fun x a hx => ?_) m (true, e ++ s.noc.eccs, s) hk
      split
      · exact kept_hbmUe s₀ false a _ hx
      · exact kept_hbmCorrect s₀ _ hx
      · exact kept_hbmCorrect s₀ _ hx
      · exact hx
    with_reducible apply keeps_upd
    exact h

theorem kept_State_freeBytes (s₀ : State) (s : State) (a0 : Nat) (a1 : List Byte)  (hk : Keeps s₀ s) : Keeps s₀ (State.freeBytes s a0 a1).2 := by
  induction a0 generalizing s a1 with
  | zero => exact hk
  | succ n ih =>
    unfold State.freeBytes
    exact ih _ _ (kept_State_freshNat s₀ s 8 hk)

theorem kept_hubRead (s₀ : State) (k : Nat) (o : Nat) (d : List Byte) (s : State)  (hk : Keeps s₀ s) : Keeps s₀ (hubRead k o d s).2 := by
  unfold hubRead
  repeat' first
    | (with_reducible first | assumption | intro _)
    | (extract_lets +onlyGivenNames x
       first
       | (refine keeps_let (s₀ := s₀) (s := x) ?_ ?_ <;> first | (intro hx; clear_value x) | subst x)
       | subst x)
    | split
    | (with_reducible first | apply kept_eccReads | apply kept_State_freeBytes | apply outKeeps_next | exact outKeeps_refused
                            | apply optKeeps_some | exact optKeeps_none | refine keeps_pair ?_ (by assumption)
                            | refine keeps_triple ?_ (by assumption))
    | dsimp -zeta only
    | (with_reducible apply keeps_upd; with_reducible first | assumption | apply kept_eccReads | apply kept_State_freeBytes)
  all_goals grind [kept_eccReads, kept_State_freeBytes, Keeps, held_rset, held_setAt_cores, held_setAt_lanes, held_filter_regs, held_map_cores, held_map_lanes, held_write1, held_write, held_clear, held_filter_mem, held_out, held_free, held_rbcnt]

theorem kept_setMode (s₀ : State) (m : Mode) (s : State)  (hk : Keeps s₀ s) : Keeps s₀ (setMode m s) := by
  unfold setMode
  repeat' first
    | (with_reducible first | assumption | intro _)
    | (extract_lets +onlyGivenNames x
       first
       | (refine keeps_let (s₀ := s₀) (s := x) ?_ ?_ <;> first | (intro hx; clear_value x) | subst x)
       | subst x)
    | split
    | (with_reducible first | apply kept_State_hubLog | apply kept_raise)
    | (with_reducible apply keeps_upd; with_reducible first | assumption | apply kept_State_hubLog | apply kept_raise)

theorem kept_State_sendFb (s₀ : State) (s : State) (f : HubFrame) (again : optParam Bool false)  (hk : Keeps s₀ s) : Keeps s₀ (State.sendFb s f again) := by
  unfold State.sendFb
  repeat' first
    | (with_reducible first | assumption | intro _)
    | split
    | (with_reducible apply keeps_upd; with_reducible first | assumption)

theorem kept_State_sendInert (s₀ : State) (s : State)  (hk : Keeps s₀ s) : Keeps s₀ (State.sendInert s) := by
  unfold State.sendInert
  repeat' first
    | (with_reducible first | assumption | intro _)
    | (extract_lets +onlyGivenNames x
       first
       | (refine keeps_let (s₀ := s₀) (s := x) ?_ ?_ <;> first | (intro hx; clear_value x) | subst x)
       | subst x)
    | split
    | (with_reducible first | apply kept_State_setFld | apply kept_State_sendFb | apply outKeeps_next | exact outKeeps_refused
                            | apply optKeeps_some | exact optKeeps_none)
    | dsimp -zeta only
    | (with_reducible apply keeps_upd; with_reducible first | assumption | apply kept_State_setFld | apply kept_State_sendFb)
  all_goals grind [kept_State_setFld, kept_State_sendFb, Keeps, held_rset, held_setAt_cores, held_setAt_lanes, held_filter_regs, held_map_cores, held_map_lanes, held_write1, held_write, held_clear, held_filter_mem, held_out, held_free, held_rbcnt]

theorem kept_State_addVote (s₀ : State) (s : State) (e : VoteEv)  (hk : Keeps s₀ s) : Keeps s₀ (State.addVote s e) := by
  unfold State.addVote
  repeat' first
    | (with_reducible first | assumption | intro _)
    | split
    | (with_reducible apply keeps_upd; with_reducible first | assumption)

theorem kept_State_setLane (s₀ : State) (s : State) (n : Nat) (p : LanePort)  (hk : Keeps s₀ s) : Keeps s₀ (State.setLane s n p) := by
  unfold State.setLane
  repeat' first
    | (with_reducible first | assumption | intro _)
    | split
  all_goals grind [Keeps, held_rset, held_setAt_cores, held_setAt_lanes, held_filter_regs, held_map_cores, held_map_lanes, held_write1, held_write, held_clear, held_filter_mem, held_out, held_free, held_rbcnt]

theorem kept_State_queueToken (s₀ : State) (s : State) (n : Nat) (body : Nat)  (hk : Keeps s₀ s) : Keeps s₀ (State.queueToken s n body) := by
  unfold State.queueToken
  repeat' first
    | (with_reducible first | assumption | intro _)
    | split
    | (with_reducible first | apply kept_State_setLane)

theorem kept_State_queueVote (s₀ : State) (s : State) (n : Nat) (e : VoteEv)  (hk : Keeps s₀ s) : Keeps s₀ (State.queueVote s n e) := by
  unfold State.queueVote
  repeat' first
    | (with_reducible first | assumption | intro _)
    | split
    | (with_reducible first | apply kept_State_setLane | apply kept_State_queueToken)

theorem kept_State_originate (s₀ : State) (s : State) (ek : Nat) (stamp : Nat)  (hk : Keeps s₀ s) : Keeps s₀ (State.originate s ek stamp) := by
  unfold State.originate
  repeat' first
    | (with_reducible first | assumption | intro _)
    | split
    | (with_reducible first | apply kept_State_queueVote | apply kept_State_addVote | apply kept_foldl)

theorem kept_State_pump (s₀ : State) (s : State) (n : Nat) (op : Nat)  (hk : Keeps s₀ s) : Keeps s₀ (State.pump s n op) := by
  unfold State.pump
  repeat' first
    | (with_reducible first | assumption | intro _)
    | split
    | (with_reducible first | apply kept_State_sendTo | apply kept_foldl)
    | (with_reducible apply keeps_upd; with_reducible first | assumption | apply kept_State_sendTo | apply kept_foldl)

theorem kept_State_putStream (s₀ : State) (s : State) (n : Nat) (op : Nat) (d : List (List Byte))  (hk : Keeps s₀ s) : Keeps s₀ (State.putStream s n op d) := by
  unfold State.putStream
  repeat' first
    | (with_reducible first | assumption | intro _)
    | split
    | (with_reducible first | apply kept_State_pump)
    | (with_reducible apply keeps_upd; with_reducible first | assumption | apply kept_State_pump)

theorem kept_State_openIn (s₀ : State) (s : State) (n : Nat) (k : InKind) (op : Nat) (total : Nat)  (hk : Keeps s₀ s) : Keeps s₀ (State.openIn s n k op total) := by
  unfold State.openIn
  repeat' first
    | (with_reducible first | assumption | intro _)
    | split
    | (with_reducible apply keeps_upd; with_reducible first | assumption)

theorem kept_abortSnap (s₀ : State) (why : Nat) (s : State)  (hk : Keeps s₀ s) : Keeps s₀ (abortSnap why s) := by
  unfold abortSnap
  repeat' first
    | (with_reducible first | assumption | intro _)
    | split
    | (with_reducible first | apply kept_State_putStream | apply kept_State_setFlds | apply kept_State_eventAll
                            | apply kept_raise | apply keeps_getD)
    | (with_reducible apply keeps_upd; with_reducible first | assumption | apply kept_State_putStream | apply kept_State_setFlds
                                                             | apply kept_State_eventAll | apply kept_raise)

theorem kept_State_setReport (s₀ : State) (s : State) (r : Report)  (hk : Keeps s₀ s) : Keeps s₀ (State.setReport s r) := by
  unfold State.setReport
  repeat' first
    | (with_reducible first | assumption | intro _)
    | split
    | (with_reducible first | apply kept_State_setFlds | apply keeps_getD)

theorem kept_dropChannels (s₀ : State) (s : State)  (hk : Keeps s₀ s) : Keeps s₀ (dropChannels s) := by
  unfold dropChannels
  repeat' first
    | (with_reducible first | assumption | intro _)
    | (extract_lets +onlyGivenNames x
       first
       | (refine keeps_let (s₀ := s₀) (s := x) ?_ ?_ <;> first | (intro hx; clear_value x) | subst x)
       | subst x)
    | split
    | (with_reducible first | apply kept_State_setFld | apply kept_foldl | apply outKeeps_next | exact outKeeps_refused
                            | apply optKeeps_some | exact optKeeps_none)
    | dsimp -zeta only
    | (with_reducible apply keeps_upd; with_reducible first | assumption | apply kept_State_setFld | apply kept_foldl)
  all_goals grind [kept_State_setFld, kept_foldl, Keeps, held_rset, held_setAt_cores, held_setAt_lanes, held_filter_regs, held_map_cores, held_map_lanes, held_write1, held_write, held_clear, held_filter_mem, held_out, held_free, held_rbcnt]

theorem kept_dropSlotBits (s₀ : State) (s : State)  (hk : Keeps s₀ s) : Keeps s₀ (dropSlotBits s) := by
  unfold dropSlotBits
  repeat' first
    | (with_reducible first | assumption | intro _)
    | (extract_lets +onlyGivenNames x
       first
       | (refine keeps_let (s₀ := s₀) (s := x) ?_ ?_ <;> first | (intro hx; clear_value x) | subst x)
       | subst x)
    | split
    | (with_reducible first | apply outKeeps_next | exact outKeeps_refused | apply optKeeps_some | exact optKeeps_none)
    | dsimp -zeta only
    | (with_reducible apply keeps_upd; with_reducible first | assumption)
  all_goals grind [Keeps, held_rset, held_setAt_cores, held_setAt_lanes, held_filter_regs, held_map_cores, held_map_lanes, held_write1, held_write, held_clear, held_filter_mem, held_out, held_free, held_rbcnt]

theorem kept_dropCauses (s₀ : State) (s : State)  (hk : Keeps s₀ s) : Keeps s₀ (dropCauses s) := by
  unfold dropCauses
  repeat' first
    | (with_reducible first | assumption | intro _)
    | (extract_lets +onlyGivenNames x
       first
       | (refine keeps_let (s₀ := s₀) (s := x) ?_ ?_ <;> first | (intro hx; clear_value x) | subst x)
       | subst x)
    | split
    | (with_reducible first | apply kept_State_setFlds | apply outKeeps_next | exact outKeeps_refused | apply optKeeps_some
                            | exact optKeeps_none)
    | dsimp -zeta only
    | (with_reducible apply keeps_upd; with_reducible first | assumption | apply kept_State_setFlds)
  all_goals grind [kept_State_setFlds, Keeps, held_rset, held_setAt_cores, held_setAt_lanes, held_filter_regs, held_map_cores, held_map_lanes, held_write1, held_write, held_clear, held_filter_mem, held_out, held_free, held_rbcnt]

theorem kept_discardImage (s₀ : State) (s : State)  (hk : Keeps s₀ s) : Keeps s₀ (discardImage s) := by
  unfold discardImage
  repeat' first
    | (with_reducible first | assumption | intro _)
    | (extract_lets +onlyGivenNames x
       first
       | (refine keeps_let (s₀ := s₀) (s := x) ?_ ?_ <;> first | (intro hx; clear_value x) | subst x)
       | subst x)
    | split
    | (with_reducible first | apply kept_endCapture | apply kept_abortSnap | apply kept_State_free | apply kept_State_setFlds
                            | apply kept_dropCauses | apply kept_dropSlotBits | apply kept_dropChannels)
  all_goals grind [kept_endCapture, kept_abortSnap, kept_State_free, kept_State_setFlds, kept_dropCauses, kept_dropSlotBits, kept_dropChannels, Keeps, held_rset, held_setAt_cores, held_setAt_lanes, held_filter_regs, held_map_cores, held_map_lanes, held_write1, held_write, held_clear, held_filter_mem, held_out, held_free, held_rbcnt]

theorem kept_dropLoad (s₀ : State) (ld : Loading) (r : Report) (s : State)  (hk : Keeps s₀ s) : Keeps s₀ (dropLoad ld r s) := by
  unfold dropLoad
  repeat' first
    | (with_reducible first | assumption | intro _)
    | (extract_lets +onlyGivenNames x
       first
       | (refine keeps_let (s₀ := s₀) (s := x) ?_ ?_ <;> first | (intro hx; clear_value x) | subst x)
       | subst x)
    | split
    | (with_reducible first | apply kept_State_setFlds | apply kept_State_free | apply kept_State_setReport
                            | apply kept_State_setFld | apply outKeeps_next | exact outKeeps_refused | apply optKeeps_some
                            | exact optKeeps_none)
    | dsimp -zeta only
    | (with_reducible apply keeps_upd; with_reducible first | assumption | apply kept_State_setFlds | apply kept_State_free
                                                             | apply kept_State_setReport | apply kept_State_setFld)
  all_goals grind [kept_State_setFlds, kept_State_free, kept_State_setReport, kept_State_setFld, Keeps, held_rset, held_setAt_cores, held_setAt_lanes, held_filter_regs, held_map_cores, held_map_lanes, held_write1, held_write, held_clear, held_filter_mem, held_out, held_free, held_rbcnt]

theorem kept_tellRefusal (s₀ : State) (ld : Loading) (r : Report) (s : State)  (hk : Keeps s₀ s) : Keeps s₀ (tellRefusal ld r s) := by
  unfold tellRefusal
  repeat' first
    | (with_reducible first | assumption | intro _)
    | (extract_lets +onlyGivenNames x
       first
       | (refine keeps_let (s₀ := s₀) (s := x) ?_ ?_ <;> first | (intro hx; clear_value x) | subst x)
       | subst x)
    | split
    | (with_reducible first | apply kept_State_eventTo | apply kept_raise | apply outKeeps_next | exact outKeeps_refused
                            | apply optKeeps_some | exact optKeeps_none)
    | dsimp -zeta only
    | (with_reducible apply keeps_upd; with_reducible first | assumption | apply kept_State_eventTo | apply kept_raise)
  all_goals grind [kept_State_eventTo, kept_raise, Keeps, held_rset, held_setAt_cores, held_setAt_lanes, held_filter_regs, held_map_cores, held_map_lanes, held_write1, held_write, held_clear, held_filter_mem, held_out, held_free, held_rbcnt]

theorem kept_refuseLoad (s₀ : State) (r : Report) (s : State)  (hk : Keeps s₀ s) : Keeps s₀ (refuseLoad r s) := by
  unfold refuseLoad
  repeat' first
    | (with_reducible first | assumption | intro _)
    | split
    | (with_reducible first | apply kept_tellRefusal | apply kept_dropLoad)
    | (with_reducible apply keeps_upd; with_reducible first | assumption | apply kept_tellRefusal | apply kept_dropLoad)

theorem kept_laterCause (s₀ : State) (why : Nat) (s : State)  (hk : Keeps s₀ s) : Keeps s₀ (laterCause why s) := by
  unfold laterCause
  repeat' first
    | (with_reducible first | assumption | intro _)
    | (extract_lets +onlyGivenNames x
       first
       | (refine keeps_let (s₀ := s₀) (s := x) ?_ ?_ <;> first | (intro hx; clear_value x) | subst x)
       | subst x)
    | split
    | (with_reducible first | apply kept_State_hubLog | apply outKeeps_next | exact outKeeps_refused | apply optKeeps_some
                            | exact optKeeps_none)
    | dsimp -zeta only
    | (with_reducible apply keeps_upd; with_reducible first | assumption | apply kept_State_hubLog)
  all_goals grind [kept_State_hubLog, Keeps, held_rset, held_setAt_cores, held_setAt_lanes, held_filter_regs, held_map_cores, held_map_lanes, held_write1, held_write, held_clear, held_filter_mem, held_out, held_free, held_rbcnt]

theorem kept_enterSafe (s₀ : State) (why : Nat) (s : State)  (hk : Keeps s₀ s) : Keeps s₀ (enterSafe why s) := by
  unfold enterSafe
  repeat' first
    | (with_reducible first | assumption | intro _)
    | split
    | (with_reducible first | apply kept_laterCause | apply kept_refuseLoad | apply kept_abortSnap | apply kept_endCapture
                            | apply kept_State_originate | apply kept_State_setFlds | apply kept_State_flushLog
                            | apply kept_State_sendInert | apply kept_setMode)
    | (with_reducible apply keeps_upd; with_reducible first | assumption | apply kept_laterCause | apply kept_refuseLoad
                                                             | apply kept_abortSnap | apply kept_endCapture
                                                             | apply kept_State_originate | apply kept_State_setFlds
                                                             | apply kept_State_flushLog | apply kept_State_sendInert
                                                             | apply kept_setMode)

theorem kept_requestSafe (s₀ : State) (why : Nat) (s : State)  (hk : Keeps s₀ s) : Keeps s₀ (requestSafe why s) := by
  unfold requestSafe
  repeat' first
    | (with_reducible first | assumption | intro _)
    | split
    | (with_reducible first | apply kept_State_setFld | apply kept_laterCause | apply kept_enterSafe | apply keeps_getD)
    | (with_reducible apply keeps_upd; with_reducible first | assumption | apply kept_State_setFld | apply kept_laterCause
                                                             | apply kept_enterSafe)

theorem kept_State_discard (s₀ : State) (s : State)  (hk : Keeps s₀ s) : Keeps s₀ (State.discard s) := by
  unfold State.discard
  repeat' first
    | (with_reducible first | assumption | intro _)
    | split
    | (with_reducible apply keeps_upd; with_reducible first | assumption)

theorem kept_State_reply (s₀ : State) (s : State) (m : Msg) (op : Nat) (status : Nat) (p : optParam (List Byte) [])  (hk : Keeps s₀ s) : Keeps s₀ (State.reply s m op status p) := by
  unfold State.reply
  repeat' first
    | (with_reducible first | assumption | intro _)
    | split
  all_goals grind [Keeps, held_rset, held_setAt_cores, held_setAt_lanes, held_filter_regs, held_map_cores, held_map_lanes, held_write1, held_write, held_clear, held_filter_mem, held_out, held_free, held_rbcnt]

theorem kept_State_respond (s₀ : State) (s : State) (m : Msg) (op : Nat) (status : Nat) (p : List Byte)  (hk : Keeps s₀ s) : Keeps s₀ (State.respond s m op status p) := by
  unfold State.respond
  repeat' first
    | (with_reducible first | assumption | intro _)
    | split
    | (with_reducible first | apply kept_State_reply | apply kept_State_setSession | apply kept_State_sendTo)

theorem kept_request (s₀ : State) (m : Msg) (sp : ReqSpec) (act : Session →   List Byte → State → Nat × List Byte × State) (s : State) (h_act : ∀ v0 v1 v2, Keeps s₀ v2 → Keeps s₀ (act v0 v1 v2).2.2) (h_r : ∀ v0 v1, Keeps s₀ v1 → Keeps s₀ (sp.refused v0 v1)) (hk : Keeps s₀ s) : Keeps s₀ (request m sp act s) := by
  unfold request
  repeat' first
    | (with_reducible first | assumption | intro _)
    | (extract_lets +onlyGivenNames x
       first
       | (refine keeps_let (s₀ := s₀) (s := x) ?_ ?_ <;> first | (intro hx; clear_value x) | subst x)
       | subst x)
    | split
    | (with_reducible first | apply kept_State_discard | apply kept_State_reply | apply kept_raise | apply kept_State_count
                            | apply kept_State_sendTo | apply kept_State_setSession | apply kept_State_respond | apply h_act
                            | apply h_r)

theorem kept_ok (s₀ : State) (s : State)  (hk : Keeps s₀ s) : Keeps s₀ (ok s).2.2 := by
  unfold ok
  repeat' first
    | (with_reducible first | assumption | intro _)
    | split

theorem kept_State_fly (s₀ : State) (s : State) (f : Flight)  (hk : Keeps s₀ s) : Keeps s₀ (State.fly s f) := by
  unfold State.fly
  repeat' first
    | (with_reducible first | assumption | intro _)
    | (extract_lets +onlyGivenNames x
       first
       | (refine keeps_let (s₀ := s₀) (s := x) ?_ ?_ <;> first | (intro hx; clear_value x) | subst x)
       | subst x)
    | split
    | (with_reducible first | apply outKeeps_next | exact outKeeps_refused | apply optKeeps_some | exact optKeeps_none)
    | dsimp -zeta only
    | (with_reducible apply keeps_upd; with_reducible first | assumption)
  all_goals grind [Keeps, held_rset, held_setAt_cores, held_setAt_lanes, held_filter_regs, held_map_cores, held_map_lanes, held_write1, held_write, held_clear, held_filter_mem, held_out, held_free, held_rbcnt]

theorem kept_flitLost (s₀ : State) (s : State)  (hk : Keeps s₀ s) : Keeps s₀ (flitLost s) := by
  unfold flitLost
  repeat' first
    | (with_reducible first | assumption | intro _)
    | (extract_lets +onlyGivenNames x
       first
       | (refine keeps_let (s₀ := s₀) (s := x) ?_ ?_ <;> first | (intro hx; clear_value x) | subst x)
       | subst x)
    | split
    | (with_reducible first | apply kept_raise | apply kept_State_count | apply outKeeps_next | exact outKeeps_refused
                            | apply optKeeps_some | exact optKeeps_none)
    | dsimp -zeta only
    | (with_reducible apply keeps_upd; with_reducible first | assumption | apply kept_raise | apply kept_State_count)
  all_goals grind [kept_raise, kept_State_count, Keeps, held_rset, held_setAt_cores, held_setAt_lanes, held_filter_regs, held_map_cores, held_map_lanes, held_write1, held_write, held_clear, held_filter_mem, held_out, held_free, held_rbcnt]

theorem kept_State_answer (s₀ : State) (s : State) (f : Flight) (err : Nat) (d : List Byte)  (hk : Keeps s₀ s) : Keeps s₀ (State.answer s f err d) := by
  unfold State.answer
  repeat' first
    | (with_reducible first | assumption | intro _)
    | (extract_lets +onlyGivenNames x
       first
       | (refine keeps_let (s₀ := s₀) (s := x) ?_ ?_ <;> first | (intro hx; clear_value x) | subst x)
       | subst x)
    | split
    | (with_reducible first | apply kept_State_count | apply kept_flitLost | apply kept_State_fly | apply outKeeps_next
                            | exact outKeeps_refused | apply optKeeps_some | exact optKeeps_none)
    | dsimp -zeta only
    | (with_reducible apply keeps_upd; with_reducible first | assumption | apply kept_State_count | apply kept_flitLost
                                                             | apply kept_State_fly)
  all_goals grind [kept_State_count, kept_flitLost, kept_State_fly, Keeps, held_rset, held_setAt_cores, held_setAt_lanes, held_filter_regs, held_map_cores, held_map_lanes, held_write1, held_write, held_clear, held_filter_mem, held_out, held_free, held_rbcnt]

theorem kept_netStop (s₀ : State) (m : Nat) (t : Nat) (a : Nat) (write : Bool) (n : Nat) (d : List Byte) (s : State)  (hk : Keeps s₀ s) : OptKeeps s₀ (netStop m t a write n d s) := by
  unfold netStop
  repeat' first
    | (with_reducible first | assumption | intro _)
    | (extract_lets +onlyGivenNames x
       first
       | (refine keeps_let (s₀ := s₀) (s := x) ?_ ?_ <;> first | (intro hx; clear_value x) | subst x)
       | subst x)
    | split
    | (with_reducible first | apply kept_State_answer | apply kept_State_fly | apply kept_flitLost | apply outKeeps_next
                            | exact outKeeps_refused | apply optKeeps_some | exact optKeeps_none)
    | dsimp -zeta only
    | (with_reducible apply keeps_upd; with_reducible first | assumption | apply kept_State_answer | apply kept_State_fly
                                                             | apply kept_flitLost)
  all_goals grind [kept_State_answer, kept_State_fly, kept_flitLost, Keeps, held_rset, held_setAt_cores, held_setAt_lanes, held_filter_regs, held_map_cores, held_map_lanes, held_write1, held_write, held_clear, held_filter_mem, held_out, held_free, held_rbcnt]

theorem kept_regWrite (s₀ : State) (m : Nat) (a : Nat) (d : Word) (f : State → State) (s : State) (h_f : ∀ v0, Keeps s₀ v0 → Keeps s₀ (f v0)) (hk : Keeps s₀ s) : Keeps s₀ (regWrite m a d f s) := by
  unfold regWrite
  repeat' first
    | (with_reducible first | assumption | intro _)
    | split
    | (with_reducible first | apply kept_netStop | apply kept_State_answer | apply h_f | apply outKeeps_next
                            | exact outKeeps_refused | apply optKeeps_some | exact optKeeps_none
                            | refine keeps_opt ?_ (by assumption))
    | dsimp -zeta only

theorem kept_regRead (s₀ : State) (m : Nat) (a : Nat) (f : State → Nat × State) (s : State) (h_f : ∀ v0, Keeps s₀ v0 → Keeps s₀ (f v0).2) (hk : Keeps s₀ s) : Keeps s₀ (regRead m a f s) := by
  unfold regRead
  repeat' first
    | (with_reducible first | assumption | intro _)
    | split
    | (with_reducible first | apply kept_netStop | apply kept_State_answer | apply h_f | apply outKeeps_next
                            | exact outKeeps_refused | apply optKeeps_some | exact optKeeps_none
                            | refine keeps_opt ?_ (by assumption) | refine keeps_pair ?_ (by assumption)
                            | refine keeps_triple ?_ (by assumption))
    | dsimp -zeta only

theorem kept_plainWrite (s₀ : State) (a : Nat) (d : Word) (s : State)  (hk : Keeps s₀ s) : Keeps s₀ (plainWrite a d s) := by
  unfold plainWrite
  repeat' first
    | (with_reducible first | assumption | intro _)
    | split
    | (with_reducible first | apply kept_State_setReg)

end Sys2Proof.Machine
end

