-- ==== Sys2Proof/Laws/KeptLanes.lean ====
section
/-! SUPPORT. Lanes: each operation keeps what `Keeps` says. -/
namespace Sys2Proof.Machine

theorem kept_updateUncert (s₀ : State) (s : State)  (hk : Keeps s₀ s) : Keeps s₀ (updateUncert s) := by
  unfold updateUncert
  repeat' first
    | (with_reducible first | assumption | intro _)
    | (extract_lets +onlyGivenNames x
       first
       | (refine keeps_let (s₀ := s₀) (s := x) ?_ ?_ <;> first | (intro hx; clear_value x) | subst x)
       | subst x)
    | split
    | (with_reducible first | apply kept_raise | apply kept_State_setFld)

theorem kept_selectSource (s₀ : State) (s : State)  (hk : Keeps s₀ s) : Keeps s₀ (selectSource s) := by
  unfold selectSource
  repeat' first
    | (with_reducible first | assumption | intro _)
    | (extract_lets +onlyGivenNames x
       first
       | (refine keeps_let (s₀ := s₀) (s := x) ?_ ?_ <;> first | (intro hx; clear_value x) | subst x)
       | subst x)
    | split
    | (with_reducible first | apply kept_State_setFld | apply kept_updateUncert | apply kept_raiseIf | apply outKeeps_next
                            | exact outKeeps_refused | apply optKeeps_some | exact optKeeps_none | apply optKeeps_map)
    | dsimp -zeta only
    | (with_reducible apply keeps_upd; with_reducible first | assumption | apply kept_State_setFld | apply kept_updateUncert
                                                             | apply kept_raiseIf)
  all_goals grind [kept_State_setFld, kept_updateUncert, kept_raiseIf, Keeps, held_rset, held_setAt_cores, held_setAt_lanes, held_filter_regs, held_map_cores, held_map_lanes, held_write1, held_write, held_clear, held_filter_mem, held_out, held_free, held_rbcnt]

theorem kept_formMessage (s₀ : State) (outcome : Nat) (s : State)  (hk : Keeps s₀ s) : Keeps s₀ (formMessage outcome s) := by
  unfold formMessage
  repeat' first
    | (with_reducible first | assumption | intro _)
    | split
    | (with_reducible first | apply kept_State_eventAll)

theorem kept_leagueBroken (s₀ : State) (s : State)  (hk : Keeps s₀ s) : Keeps s₀ (leagueBroken s) := by
  unfold leagueBroken
  repeat' first
    | (with_reducible first | assumption | intro _)
    | (extract_lets +onlyGivenNames x
       first
       | (refine keeps_let (s₀ := s₀) (s := x) ?_ ?_ <;> first | (intro hx; clear_value x) | subst x)
       | subst x)
    | split
    | (with_reducible first | apply kept_raise | apply kept_State_setFld | apply kept_State_originate | apply kept_formMessage
                            | apply kept_requestSafe)

theorem kept_portCheck (s₀ : State) (n : Nat) (s : State)  (hk : Keeps s₀ s) : Keeps s₀ (portCheck n s) := by
  unfold portCheck
  repeat' first
    | (with_reducible first | assumption | intro _)
    | (extract_lets +onlyGivenNames x
       first
       | (refine keeps_let (s₀ := s₀) (s := x) ?_ ?_ <;> first | (intro hx; clear_value x) | subst x)
       | subst x)
    | split
    | (with_reducible first | apply kept_State_setFld | apply kept_leagueBroken)

theorem kept_updateLaneHold (s₀ : State) (s : State)  (hk : Keeps s₀ s) : Keeps s₀ (updateLaneHold s) := by
  unfold updateLaneHold
  repeat' first
    | (with_reducible first | assumption | intro _)
    | split
    | (with_reducible first | apply kept_State_setFld)

theorem kept_toDetect (s₀ : State) (n : Nat) (r : Nat) (s : State)  (hk : Keeps s₀ s) : Keeps s₀ (toDetect n r s) := by
  unfold toDetect
  repeat' first
    | (with_reducible first | assumption | intro _)
    | split
    | (with_reducible first | apply kept_State_setFlds | apply kept_State_count | apply kept_State_setLane
                            | apply kept_State_freshNat | apply kept_raise | apply kept_updateLaneHold
                            | apply kept_portCheck)

theorem kept_detectPoll (s₀ : State) (n : Nat) (term : Termination) (s : State)  (hk : Keeps s₀ s) : Keeps s₀ (detectPoll n term s) := by
  unfold detectPoll
  repeat' first
    | (with_reducible first | assumption | intro _)
    | (extract_lets +onlyGivenNames x
       first
       | (refine keeps_let (s₀ := s₀) (s := x) ?_ ?_ <;> first | (intro hx; clear_value x) | subst x)
       | subst x)
    | split
    | (with_reducible first | apply kept_State_setFld | apply kept_raiseIf | apply kept_State_setFlds | apply kept_updateUncert
                            | apply kept_toDetect)
    | (with_reducible apply keeps_upd; with_reducible first | assumption | apply kept_State_setFld | apply kept_raiseIf
                                                             | apply kept_State_setFlds | apply kept_updateUncert
                                                             | apply kept_toDetect)

theorem kept_execLaneDetectPoll (s₀ : State) (port : Nat) (term : Termination) (s : State)  (hk : Keeps s₀ s) : OutKeeps s₀ (execLaneDetectPoll port term s) := by
  unfold execLaneDetectPoll
  repeat' first
    | (with_reducible first | assumption | intro _)
    | split
    | (with_reducible first | apply kept_detectPoll | apply outKeeps_next | exact outKeeps_refused | apply optKeeps_some
                            | exact optKeeps_none)
    | dsimp -zeta only

theorem kept_trainComplete (s₀ : State) (n : Nat) (x : Training) (trips : List (Nat × Nat) × List (Nat × Nat)) (s : State)  (hk : Keeps s₀ s) : Keeps s₀ (trainComplete n x trips s) := by
  unfold trainComplete
  repeat' first
    | (with_reducible first | assumption | intro _)
    | (extract_lets +onlyGivenNames x
       first
       | (refine keeps_let (s₀ := s₀) (s := x) ?_ ?_ <;> first | (intro hx; clear_value x) | subst x)
       | subst x)
    | split
    | (with_reducible first | apply kept_State_setLane | apply kept_State_setFlds | apply kept_toDetect
                            | apply kept_State_setFld | apply outKeeps_next | exact outKeeps_refused | apply optKeeps_some
                            | exact optKeeps_none | refine keeps_pair ?_ (by assumption)
                            | refine keeps_triple ?_ (by assumption))
    | dsimp -zeta only
    | (with_reducible apply keeps_upd; with_reducible first | assumption | apply kept_State_setLane | apply kept_State_setFlds
                                                             | apply kept_toDetect | apply kept_State_setFld)
  all_goals grind [kept_State_setLane, kept_State_setFlds, kept_toDetect, kept_State_setFld, Keeps, held_rset, held_setAt_cores, held_setAt_lanes, held_filter_regs, held_map_cores, held_map_lanes, held_write1, held_write, held_clear, held_filter_mem, held_out, held_free, held_rbcnt]

theorem kept_execTrainComplete (s₀ : State) (port : Nat) (x : Training) (trips : List (Nat × Nat) × List (Nat × Nat)) (s : State)  (hk : Keeps s₀ s) : OutKeeps s₀ (execTrainComplete port x trips s) := by
  unfold execTrainComplete
  repeat' first
    | (with_reducible first | assumption | intro _)
    | split
    | (with_reducible first | apply kept_trainComplete | apply outKeeps_next | exact outKeeps_refused | apply optKeeps_some
                            | exact optKeeps_none | refine keeps_pair ?_ (by assumption)
                            | refine keeps_triple ?_ (by assumption))
    | dsimp -zeta only

theorem kept_lockComplete (s₀ : State) (n : Nat) (s : State)  (hk : Keeps s₀ s) : Keeps s₀ (lockComplete n s) := by
  unfold lockComplete
  repeat' first
    | (with_reducible first | assumption | intro _)
    | split
    | (with_reducible first | apply kept_State_setFld)

theorem kept_execLockComplete (s₀ : State) (port : Nat) (s : State)  (hk : Keeps s₀ s) : OutKeeps s₀ (execLockComplete port s) := by
  unfold execLockComplete
  repeat' first
    | (with_reducible first | assumption | intro _)
    | split
    | (with_reducible first | apply kept_lockComplete | apply outKeeps_next | exact outKeeps_refused | apply optKeeps_some
                            | exact optKeeps_none)
    | dsimp -zeta only

theorem kept_stageTimeout (s₀ : State) (n : Nat) (s : State)  (hk : Keeps s₀ s) : Keeps s₀ (stageTimeout n s) := by
  unfold stageTimeout
  repeat' first
    | (with_reducible first | assumption | intro _)
    | split
    | (with_reducible first | apply kept_toDetect)

theorem kept_laneLost (s₀ : State) (n : Nat) (s : State)  (hk : Keeps s₀ s) : Keeps s₀ (laneLost n s) := by
  unfold laneLost
  repeat' first
    | (with_reducible first | assumption | intro _)
    | split
    | (with_reducible first | apply kept_toDetect)

theorem kept_lnkCtlWrite (s₀ : State) (n : Nat) (d : Word) (s : State)  (hk : Keeps s₀ s) : Keeps s₀ (lnkCtlWrite n d s) := by
  unfold lnkCtlWrite
  repeat' first
    | (with_reducible first | assumption | intro _)
    | (extract_lets +onlyGivenNames x
       first
       | (refine keeps_let (s₀ := s₀) (s := x) ?_ ?_ <;> first | (intro hx; clear_value x) | subst x)
       | subst x)
    | split
    | (with_reducible first | apply kept_plainWrite | apply kept_raise | apply kept_State_setFld | apply kept_portCheck
                            | apply kept_toDetect)

theorem kept_eyeStart (s₀ : State) (n : Nat) (d : Word) (s : State)  (hk : Keeps s₀ s) : Keeps s₀ (eyeStart n d s) := by
  unfold eyeStart
  repeat' first
    | (with_reducible first | assumption | intro _)
    | (extract_lets +onlyGivenNames x
       first
       | (refine keeps_let (s₀ := s₀) (s := x) ?_ ?_ <;> first | (intro hx; clear_value x) | subst x)
       | subst x)
    | split
    | (with_reducible first | apply kept_plainWrite | apply kept_State_setFlds)

theorem kept_execEyeScanStart (s₀ : State) (m : Nat) (port : Nat) (d : Word) (s : State)  (hk : Keeps s₀ s) : OutKeeps s₀ (execEyeScanStart m port d s) := by
  unfold execEyeScanStart
  repeat' first
    | (with_reducible first | assumption | intro _)
    | split
    | (with_reducible first | apply kept_regWrite | apply kept_eyeStart | apply outKeeps_next | exact outKeeps_refused
                            | apply optKeeps_some | exact optKeeps_none)
    | dsimp -zeta only

theorem kept_eyeEnd (s₀ : State) (n : Nat) (errs : Nat) (s : State)  (hk : Keeps s₀ s) : Keeps s₀ (eyeEnd n errs s) := by
  unfold eyeEnd
  repeat' first
    | (with_reducible first | assumption | intro _)
    | split
    | (with_reducible first | apply kept_raise | apply kept_State_setFlds)

theorem kept_execEyeScanEnd (s₀ : State) (port : Nat) (errs : Nat) (s : State)  (hk : Keeps s₀ s) : OutKeeps s₀ (execEyeScanEnd port errs s) := by
  unfold execEyeScanEnd
  repeat' first
    | (with_reducible first | assumption | intro _)
    | split
    | (with_reducible first | apply kept_eyeEnd | apply outKeeps_next | exact outKeeps_refused | apply optKeeps_some
                            | exact optKeeps_none)
    | dsimp -zeta only

theorem kept_errInterval (s₀ : State) (n : Nat) (s : State)  (hk : Keeps s₀ s) : Keeps s₀ (errInterval n s) := by
  unfold errInterval
  repeat' first
    | (with_reducible first | assumption | intro _)
    | split
    | (with_reducible first | apply kept_raiseIf | apply kept_State_setLane)

theorem kept_execLaneErrInterval (s₀ : State) (port : Nat) (s : State)  (hk : Keeps s₀ s) : OutKeeps s₀ (execLaneErrInterval port s) := by
  unfold execLaneErrInterval
  repeat' first
    | (with_reducible first | assumption | intro _)
    | split
    | (with_reducible first | apply kept_errInterval | apply outKeeps_next | exact outKeeps_refused | apply optKeeps_some
                            | exact optKeeps_none)
    | dsimp -zeta only

end Sys2Proof.Machine
end

