-- ==== Sys2Proof/Laws/KeptSnapshot.lean ====
section
/-! SUPPORT. Snapshot: each operation keeps what `Keeps` says. -/
namespace Sys2Proof.Machine

theorem kept_serviceFails (s₀ : State) (n : Nat) (g : Nat) (bad : Nat) (several : Bool) (s : State)  (hk : Keeps s₀ s) : Keeps s₀ (serviceFails n g bad several s) := by
  unfold serviceFails
  repeat' first
    | (with_reducible first | assumption | intro _)
    | split
    | (with_reducible first | apply kept_raise | apply kept_State_first)

theorem kept_copyFails (s₀ : State) (a : Nat) (bad : Nat) (several : Bool) (s : State)  (hk : Keeps s₀ s) : Keeps s₀ (copyFails a bad several s) := by
  unfold copyFails
  repeat' first
    | (with_reducible first | assumption | intro _)
    | split
    | (with_reducible first | apply kept_serviceFails | apply kept_abortSnap)

theorem kept_keepWord (s₀ : State) (a : Nat) (s : State)  (hk : Keeps s₀ s) : Keeps s₀ (keepWord a s) := by
  unfold keepWord
  repeat' first
    | (with_reducible first | assumption | intro _)
    | (extract_lets +onlyGivenNames x
       first
       | (refine keeps_let (s₀ := s₀) (s := x) ?_ ?_ <;> first | (intro hx; clear_value x) | subst x)
       | subst x)
    | split
    | (with_reducible first | apply outKeeps_next | exact outKeeps_refused | apply optKeeps_some | exact optKeeps_none)
    | dsimp -zeta only
    | (with_reducible apply keeps_upd; with_reducible first | assumption)
  all_goals grind [Keeps, held_rset, held_setAt_cores, held_setAt_lanes, held_filter_regs, held_map_cores, held_map_lanes, held_write1, held_write, held_clear, held_filter_mem, held_out, held_free, held_rbcnt]

theorem kept_saveWord (s₀ : State) (a : Nat) (s : State)  (hk : Keeps s₀ s) : Keeps s₀ (saveWord a s) := by
  unfold saveWord
  repeat' first
    | (with_reducible first | assumption | intro _)
    | split
    | (with_reducible first | apply kept_keepWord | apply kept_copyFails)
    | (with_reducible apply keeps_upd; with_reducible first | assumption | apply kept_keepWord | apply kept_copyFails)

theorem kept_tellSwept (s₀ : State) (s : State)  (hk : Keeps s₀ s) : Keeps s₀ (tellSwept s) := by
  unfold tellSwept
  repeat' first
    | (with_reducible first | assumption | intro _)
    | (extract_lets +onlyGivenNames x
       first
       | (refine keeps_let (s₀ := s₀) (s := x) ?_ ?_ <;> first | (intro hx; clear_value x) | subst x)
       | subst x)
    | split
    | (with_reducible first | apply kept_State_setFld | apply outKeeps_next | exact outKeeps_refused | apply optKeeps_some
                            | exact optKeeps_none)
    | dsimp -zeta only
    | (with_reducible apply keeps_upd; with_reducible first | assumption | apply kept_State_setFld)
  all_goals grind [kept_State_setFld, Keeps, held_rset, held_setAt_cores, held_setAt_lanes, held_filter_regs, held_map_cores, held_map_lanes, held_write1, held_write, held_clear, held_filter_mem, held_out, held_free, held_rbcnt]

theorem kept_slackGrain (s₀ : State) (s : State) (k : Nat)  (hk : Keeps s₀ s) : Keeps s₀ (slackGrain s k) := by
  unfold slackGrain
  repeat' first
    | (with_reducible first | assumption | intro _)
    | (extract_lets +onlyGivenNames x
       first
       | (refine keeps_let (s₀ := s₀) (s := x) ?_ ?_ <;> first | (intro hx; clear_value x) | subst x)
       | subst x)
    | split
    | (with_reducible first | apply outKeeps_next | exact outKeeps_refused | apply optKeeps_some | exact optKeeps_none)
    | dsimp -zeta only
    | (with_reducible apply keeps_upd; with_reducible first | assumption)
  all_goals grind [Keeps, held_rset, held_setAt_cores, held_setAt_lanes, held_filter_regs, held_map_cores, held_map_lanes, held_write1, held_write, held_clear, held_filter_mem, held_out, held_free, held_rbcnt]

theorem kept_snapGrain (s₀ : State) (busy : Nat → Bool) (s : State)  (hk : Keeps s₀ s) : Keeps s₀ (snapGrain busy s) := by
  unfold snapGrain
  repeat' first
    | (with_reducible first | assumption | intro _)
    | (extract_lets +onlyGivenNames x
       first
       | (refine keeps_let (s₀ := s₀) (s := x) ?_ ?_ <;> first | (intro hx; clear_value x) | subst x)
       | subst x)
    | split
    | (with_reducible first | apply kept_copyFails | apply kept_tellSwept | apply kept_slackGrain | apply kept_foldl
                            | apply outKeeps_next | exact outKeeps_refused | apply optKeeps_some | exact optKeeps_none)
    | dsimp -zeta only
    | (with_reducible apply keeps_upd; with_reducible first | assumption | apply kept_copyFails | apply kept_tellSwept
                                                             | apply kept_slackGrain | apply kept_foldl)
  all_goals grind [kept_copyFails, kept_tellSwept, kept_slackGrain, kept_foldl, Keeps, held_rset, held_setAt_cores, held_setAt_lanes, held_filter_regs, held_map_cores, held_map_lanes, held_write1, held_write, held_clear, held_filter_mem, held_out, held_free, held_rbcnt]

theorem kept_undoEntry (s₀ : State) (c : Nat) (o : Nat) (s : State)  (hk : Keeps s₀ s) : Keeps s₀ (undoEntry c o s) := by
  unfold undoEntry
  repeat' first
    | (with_reducible first | assumption | intro _)
    | (extract_lets +onlyGivenNames x
       first
       | (refine keeps_let (s₀ := s₀) (s := x) ?_ ?_ <;> first | (intro hx; clear_value x) | subst x)
       | subst x)
    | split
    | (with_reducible first | apply kept_abortSnap | apply kept_raiseIf | apply kept_State_count | apply kept_State_setFld
                            | apply keeps_getD)
    | (with_reducible apply keeps_upd; with_reducible first | assumption | apply kept_abortSnap | apply kept_raiseIf
                                                             | apply kept_State_count | apply kept_State_setFld)

theorem kept_snapMessage (s₀ : State) (c : Nat) (why : Nat) (s : State)  (hk : Keeps s₀ s) : Keeps s₀ (snapMessage c why s) := by
  unfold snapMessage
  repeat' first
    | (with_reducible first | assumption | intro _)
    | split
    | (with_reducible first | apply kept_State_eventAll)

theorem kept_flashCopy (s₀ : State) (c : Nat) (s : State)  (hk : Keeps s₀ s) : Keeps s₀ (flashCopy c s) := by
  unfold flashCopy
  repeat' first
    | (with_reducible first | assumption | intro _)
    | split
    | (with_reducible first | apply kept_State_setFlds | apply kept_State_setPair | apply kept_snapMessage | apply kept_raise)
    | (with_reducible apply keeps_upd; with_reducible first | assumption | apply kept_State_setFlds | apply kept_State_setPair
                                                             | apply kept_snapMessage | apply kept_raise)

theorem kept_fieldRecord (s₀ : State) (c : Nat) (i : NSet) (s : State)  (hk : Keeps s₀ s) : Keeps s₀ (fieldRecord c i s) := by
  unfold fieldRecord
  repeat' first
    | (with_reducible first | assumption | intro _)
    | split
    | (with_reducible first | apply kept_State_setFld)
    | (with_reducible apply keeps_upd; with_reducible first | assumption | apply kept_State_setFld)

theorem kept_snapAccept (s₀ : State) (when_ : Option Nat) (s : State)  (hk : Keeps s₀ s) : Keeps s₀ (snapAccept when_ s).2 := by
  unfold snapAccept
  repeat' first
    | (with_reducible first | assumption | intro _)
    | (extract_lets +onlyGivenNames x
       first
       | (refine keeps_let (s₀ := s₀) (s := x) ?_ ?_ <;> first | (intro hx; clear_value x) | subst x)
       | subst x)
    | split
    | (with_reducible first | apply kept_State_create | apply kept_State_setFlds | apply kept_flashCopy | apply outKeeps_next
                            | exact outKeeps_refused | apply optKeeps_some | exact optKeeps_none
                            | refine keeps_opt ?_ (by assumption))
    | dsimp -zeta only
    | (with_reducible apply keeps_upd; with_reducible first | assumption | apply kept_State_create | apply kept_State_setFlds
                                                             | apply kept_flashCopy | apply outKeeps_next
                                                             | exact outKeeps_refused | apply optKeeps_some
                                                             | exact optKeeps_none | refine keeps_opt ?_ (by assumption))

theorem kept_takeSnapReq (s₀ : State) (s : State)  (hk : Keeps s₀ s) : Keeps s₀ (takeSnapReq s) := by
  unfold takeSnapReq
  repeat' first
    | (with_reducible first | assumption | intro _)
    | (extract_lets +onlyGivenNames x
       first
       | (refine keeps_let (s₀ := s₀) (s := x) ?_ ?_ <;> first | (intro hx; clear_value x) | subst x)
       | subst x)
    | split
    | (with_reducible first | apply kept_snapAccept | apply kept_raise | apply kept_State_count | apply outKeeps_next
                            | exact outKeeps_refused | apply optKeeps_some | exact optKeeps_none
                            | refine keeps_pair ?_ (by assumption) | refine keeps_triple ?_ (by assumption))
    | dsimp -zeta only
    | (with_reducible apply keeps_upd; with_reducible first | assumption | apply kept_snapAccept | apply kept_raise
                                                             | apply kept_State_count)
  all_goals grind [kept_snapAccept, kept_raise, kept_State_count, Keeps, held_rset, held_setAt_cores, held_setAt_lanes, held_filter_regs, held_map_cores, held_map_lanes, held_write1, held_write, held_clear, held_filter_mem, held_out, held_free, held_rbcnt]

theorem kept_triggerSnap (s₀ : State) (c : Nat) (s : State)  (hk : Keeps s₀ s) : Keeps s₀ (triggerSnap c s) := by
  unfold triggerSnap
  repeat' first
    | (with_reducible first | assumption | intro _)
    | (extract_lets +onlyGivenNames x
       first
       | (refine keeps_let (s₀ := s₀) (s := x) ?_ ?_ <;> first | (intro hx; clear_value x) | subst x)
       | subst x)
    | split
    | (with_reducible first | apply kept_takeSnapReq | apply kept_State_originate)

theorem kept_snapRequest (s₀ : State) (d : Word) (s : State)  (hk : Keeps s₀ s) : Keeps s₀ (snapRequest d s) := by
  unfold snapRequest
  repeat' first
    | (with_reducible first | assumption | intro _)
    | (extract_lets +onlyGivenNames x
       first
       | (refine keeps_let (s₀ := s₀) (s := x) ?_ ?_ <;> first | (intro hx; clear_value x) | subst x)
       | subst x)
    | split
    | (with_reducible first | apply kept_plainWrite | apply kept_snapAccept)

theorem kept_execSnpReq (s₀ : State) (m : Nat) (d : Word) (s : State)  (hk : Keeps s₀ s) : OutKeeps s₀ (execSnpReq m d s) := by
  unfold execSnpReq
  repeat' first
    | (with_reducible first | assumption | intro _)
    | split
    | (with_reducible first | apply kept_regWrite | apply kept_snapRequest | apply outKeeps_next | exact outKeeps_refused
                            | apply optKeeps_some | exact optKeeps_none)
    | dsimp -zeta only

theorem kept_execSnap (s₀ : State) (msg : Msg) (s : State)  (hk : Keeps s₀ s) : OutKeeps s₀ (execSnap msg s) := by
  unfold execSnap
  repeat' first
    | (with_reducible first | assumption | intro _)
    | split
    | (with_reducible first | apply kept_request | apply kept_snapAccept | apply outKeeps_next | exact outKeeps_refused
                            | apply optKeeps_some | exact optKeeps_none | refine keeps_pair ?_ (by assumption)
                            | refine keeps_triple ?_ (by assumption))
    | dsimp -zeta only

theorem kept_execSnapDiscard (s₀ : State) (msg : Msg) (s : State)  (hk : Keeps s₀ s) : OutKeeps s₀ (execSnapDiscard msg s) := by
  unfold execSnapDiscard
  repeat' first
    | (with_reducible first | assumption | intro _)
    | split
    | (with_reducible first | apply kept_request | apply kept_ok | apply kept_abortSnap | apply outKeeps_next
                            | exact outKeeps_refused | apply optKeeps_some | exact optKeeps_none
                            | refine keeps_pair ?_ (by assumption) | refine keeps_triple ?_ (by assumption))
    | dsimp -zeta only

theorem kept_leagueAbort (s₀ : State) (s : State)  (hk : Keeps s₀ s) : Keeps s₀ (leagueAbort s) := by
  unfold leagueAbort
  repeat' first
    | (with_reducible first | assumption | intro _)
    | (extract_lets +onlyGivenNames x
       first
       | (refine keeps_let (s₀ := s₀) (s := x) ?_ ?_ <;> first | (intro hx; clear_value x) | subst x)
       | subst x)
    | split
    | (with_reducible first | apply kept_State_freshNat | apply kept_abortSnap | apply outKeeps_next | exact outKeeps_refused
                            | apply optKeeps_some | exact optKeeps_none | refine keeps_pair ?_ (by assumption)
                            | refine keeps_triple ?_ (by assumption))
    | dsimp -zeta only
    | (with_reducible apply keeps_upd; with_reducible first | assumption | apply kept_State_freshNat | apply kept_abortSnap)
  all_goals grind [kept_State_freshNat, kept_abortSnap, Keeps, held_rset, held_setAt_cores, held_setAt_lanes, held_filter_regs, held_map_cores, held_map_lanes, held_write1, held_write, held_clear, held_filter_mem, held_out, held_free, held_rbcnt]

theorem kept_execSnapQuery (s₀ : State) (msg : Msg) (s : State)  (hk : Keeps s₀ s) : OutKeeps s₀ (execSnapQuery msg s) := by
  unfold execSnapQuery
  repeat' first
    | (with_reducible first | assumption | intro _)
    | split
    | (with_reducible first | apply kept_request | apply outKeeps_next | exact outKeeps_refused | apply optKeeps_some
                            | exact optKeeps_none)
    | dsimp -zeta only

theorem kept_priorityCopy (s₀ : State) (l : Nat) (bad : Bool) (s : State)  (hk : Keeps s₀ s) : Keeps s₀ (priorityCopy l bad s) := by
  unfold priorityCopy
  repeat' first
    | (with_reducible first | assumption | intro _)
    | (extract_lets +onlyGivenNames x
       first
       | (refine keeps_let (s₀ := s₀) (s := x) ?_ ?_ <;> first | (intro hx; clear_value x) | subst x)
       | subst x)
    | split
    | (with_reducible first | apply kept_copyFails | apply kept_State_freshNat | apply kept_State_count | apply kept_tellSwept
                            | apply outKeeps_next | exact outKeeps_refused | apply optKeeps_some | exact optKeeps_none
                            | refine keeps_pair ?_ (by assumption) | refine keeps_triple ?_ (by assumption))
    | dsimp -zeta only
    | (with_reducible apply keeps_upd; with_reducible first | assumption | apply kept_copyFails | apply kept_State_freshNat
                                                             | apply kept_State_count | apply kept_tellSwept)
  all_goals grind [kept_copyFails, kept_State_freshNat, kept_State_count, kept_tellSwept, Keeps, held_rset, held_setAt_cores, held_setAt_lanes, held_filter_regs, held_map_cores, held_map_lanes, held_write1, held_write, held_clear, held_filter_mem, held_out, held_free, held_rbcnt]

theorem kept_execPriorityCopy (s₀ : State) (line : Nat) (bad : Bool) (s : State)  (hk : Keeps s₀ s) : OutKeeps s₀ (execPriorityCopy line bad s) := by
  unfold execPriorityCopy
  repeat' first
    | (with_reducible first | assumption | intro _)
    | split
    | (with_reducible first | apply kept_priorityCopy | apply outKeeps_next | exact outKeeps_refused | apply optKeeps_some
                            | exact optKeeps_none)
    | dsimp -zeta only

theorem kept_shadowDrain (s₀ : State) (die : Nat) (bad : Bool) (s : State)  (hk : Keeps s₀ s) : Keeps s₀ (shadowDrain die bad s) := by
  unfold shadowDrain
  repeat' first
    | (with_reducible first | assumption | intro _)
    | (extract_lets +onlyGivenNames x
       first
       | (refine keeps_let (s₀ := s₀) (s := x) ?_ ?_ <;> first | (intro hx; clear_value x) | subst x)
       | subst x)
    | split
    | (with_reducible first | apply kept_abortSnap | apply kept_State_setFld | apply kept_foldl)
    | (with_reducible apply keeps_upd; with_reducible first | assumption | apply kept_abortSnap | apply kept_State_setFld
                                                             | apply kept_foldl)

theorem kept_snapKept (s₀ : State) (s : State)  (hk : Keeps s₀ s) : Keeps s₀ (snapKept s) := by
  unfold snapKept
  repeat' first
    | (with_reducible first | assumption | intro _)
    | split
    | (with_reducible first | apply kept_State_setFld | apply kept_raise)
    | (with_reducible apply keeps_upd; with_reducible first | assumption | apply kept_State_setFld | apply kept_raise)

theorem kept_undoDrain (s₀ : State) (c : Nat) (s : State)  (hk : Keeps s₀ s) : Keeps s₀ (undoDrain c s) := by
  unfold undoDrain
  repeat' first
    | (with_reducible first | assumption | intro _)
    | (extract_lets +onlyGivenNames x
       first
       | (refine keeps_let (s₀ := s₀) (s := x) ?_ ?_ <;> first | (intro hx; clear_value x) | subst x)
       | subst x)
    | split
    | (with_reducible first | apply kept_State_setFld)
    | (with_reducible apply keeps_upd; with_reducible first | assumption | apply kept_State_setFld)

theorem kept_execUndoBufferGuardClear (s₀ : State) (ctl : Nat) (s : State)  (hk : Keeps s₀ s) : OutKeeps s₀ (execUndoBufferGuardClear ctl s) := by
  unfold execUndoBufferGuardClear
  repeat' first
    | (with_reducible first | assumption | intro _)
    | split
    | (with_reducible first | apply kept_undoDrain | apply outKeeps_next | exact outKeeps_refused | apply optKeeps_some
                            | exact optKeeps_none)
    | dsimp -zeta only

end Sys2Proof.Machine
end

