-- ==== Sys2Proof/Laws/KeptAcquisition.lean ====
section
/-! SUPPORT. Acquisition: each operation keeps what `Keeps` says. -/
namespace Sys2Proof.Machine

theorem kept_askStop (s₀ : State) (s : State)  (hk : Keeps s₀ s) : Keeps s₀ (askStop s) := by
  unfold askStop
  repeat' first
    | (with_reducible first | assumption | intro _)
    | split
    | (with_reducible apply keeps_upd; with_reducible first | assumption)

theorem kept_execAcqStop (s₀ : State) (msg : Msg) (s : State)  (hk : Keeps s₀ s) : OutKeeps s₀ (execAcqStop msg s) := by
  unfold execAcqStop
  repeat' first
    | (with_reducible first | assumption | intro _)
    | split
    | (with_reducible first | apply kept_request | apply kept_ok | apply kept_askStop | apply outKeeps_next
                            | exact outKeeps_refused | apply optKeeps_some | exact optKeeps_none
                            | refine keeps_pair ?_ (by assumption) | refine keeps_triple ?_ (by assumption))
    | dsimp -zeta only

theorem kept_ctlStop (s₀ : State) (d : Word) (s : State)  (hk : Keeps s₀ s) : Keeps s₀ (ctlStop d s) := by
  unfold ctlStop
  repeat' first
    | (with_reducible first | assumption | intro _)
    | split
    | (with_reducible first | apply kept_plainWrite | apply kept_askStop)

theorem kept_execAcqCtlStop (s₀ : State) (m : Nat) (d : Word) (s : State)  (hk : Keeps s₀ s) : OutKeeps s₀ (execAcqCtlStop m d s) := by
  unfold execAcqCtlStop
  repeat' first
    | (with_reducible first | assumption | intro _)
    | split
    | (with_reducible first | apply kept_regWrite | apply kept_ctlStop | apply outKeeps_next | exact outKeeps_refused
                            | apply optKeeps_some | exact optKeeps_none)
    | dsimp -zeta only

theorem kept_setLoad (s₀ : State) (n : Nat) (len : Nat) (s : State)  (hk : Keeps s₀ s) : Keeps s₀ (setLoad n len s) := by
  unfold setLoad
  repeat' first
    | (with_reducible first | assumption | intro _)
    | split
    | (with_reducible first | apply kept_State_openIn | apply kept_State_setPair)
    | (with_reducible apply keeps_upd; with_reducible first | assumption | apply kept_State_openIn | apply kept_State_setPair)

theorem kept_execAcqSetload (s₀ : State) (msg : Msg) (s : State)  (hk : Keeps s₀ s) : OutKeeps s₀ (execAcqSetload msg s) := by
  unfold execAcqSetload
  repeat' first
    | (with_reducible first | assumption | intro _)
    | split
    | (with_reducible first | apply kept_request | apply kept_ok | apply kept_setLoad | apply outKeeps_next
                            | exact outKeeps_refused | apply optKeeps_some | exact optKeeps_none
                            | refine keeps_pair ?_ (by assumption) | refine keeps_triple ?_ (by assumption))
    | dsimp -zeta only

theorem kept_captureStart (s₀ : State) (s : State)  (hk : Keeps s₀ s) : Keeps s₀ (captureStart s) := by
  unfold captureStart
  repeat' first
    | (with_reducible first | assumption | intro _)
    | split
    | (with_reducible first | apply kept_State_setFld)
    | (with_reducible apply keeps_upd; with_reducible first | assumption | apply kept_State_setFld)

theorem kept_execCaptureStart (s₀ : State) (s : State)  (hk : Keeps s₀ s) : OutKeeps s₀ (execCaptureStart s) := by
  unfold execCaptureStart
  repeat' first
    | (with_reducible first | assumption | intro _)
    | split
    | (with_reducible first | apply kept_captureStart | apply outKeeps_next | exact outKeeps_refused | apply optKeeps_some
                            | exact optKeeps_none)
    | dsimp -zeta only

theorem kept_probeReads (s₀ : State) (p : Nat) (s : State)  (hk : Keeps s₀ s) : Keeps s₀ (probeReads p s) := by
  unfold probeReads
  repeat' first
    | (with_reducible first | assumption | intro _)
    | (extract_lets +onlyGivenNames x
       first
       | (refine keeps_let (s₀ := s₀) (s := x) ?_ ?_ <;> first | (intro hx; clear_value x) | subst x)
       | subst x)
    | split
    | (with_reducible first | apply kept_raise | apply kept_State_count | apply kept_foldl)
    | (with_reducible apply keeps_upd; with_reducible first | assumption | apply kept_raise | apply kept_State_count
                                                             | apply kept_foldl)

theorem kept_comparators (s₀ : State) (s : State)  (hk : Keeps s₀ s) : Keeps s₀ (comparators s) := by
  unfold comparators
  repeat' first
    | (with_reducible first | assumption | intro _)
    | split
    | (with_reducible first | apply kept_State_setFld | apply kept_State_setFlds | apply kept_foldl)
    | (with_reducible apply keeps_upd; with_reducible first | assumption | apply kept_State_setFld | apply kept_State_setFlds
                                                             | apply kept_foldl)

theorem kept_goComplete (s₀ : State) (s : State)  (hk : Keeps s₀ s) : Keeps s₀ (goComplete s) := by
  unfold goComplete
  repeat' first
    | (with_reducible first | assumption | intro _)
    | split
    | (with_reducible first | apply kept_State_setFlds)
    | (with_reducible apply keeps_upd; with_reducible first | assumption | apply kept_State_setFlds)

theorem kept_execSeqGoComplete (s₀ : State) (s : State)  (hk : Keeps s₀ s) : OutKeeps s₀ (execSeqGoComplete s) := by
  unfold execSeqGoComplete
  repeat' first
    | (with_reducible first | assumption | intro _)
    | split
    | (with_reducible first | apply kept_goComplete | apply outKeeps_next | exact outKeeps_refused | apply optKeeps_some
                            | exact optKeeps_none)
    | dsimp -zeta only

theorem kept_autoFire (s₀ : State) (s : State)  (hk : Keeps s₀ s) : Keeps s₀ (autoFire s) := by
  unfold autoFire
  repeat' first
    | (with_reducible first | assumption | intro _)
    | (extract_lets +onlyGivenNames x
       first
       | (refine keeps_let (s₀ := s₀) (s := x) ?_ ?_ <;> first | (intro hx; clear_value x) | subst x)
       | subst x)
    | split
    | (with_reducible first | apply kept_goComplete)
    | (with_reducible apply keeps_upd; with_reducible first | assumption | apply kept_goComplete)

theorem kept_execTrgAutoFire (s₀ : State) (s : State)  (hk : Keeps s₀ s) : OutKeeps s₀ (execTrgAutoFire s) := by
  unfold execTrgAutoFire
  repeat' first
    | (with_reducible first | assumption | intro _)
    | split
    | (with_reducible first | apply kept_autoFire | apply outKeeps_next | exact outKeeps_refused | apply optKeeps_some
                            | exact optKeeps_none)
    | dsimp -zeta only

theorem kept_sequencer (s₀ : State) (c : Nat) (s : State)  (hk : Keeps s₀ s) : Keeps s₀ (sequencer c s) := by
  unfold sequencer
  repeat' first
    | (with_reducible first | assumption | intro _)
    | (extract_lets +onlyGivenNames x
       first
       | (refine keeps_let (s₀ := s₀) (s := x) ?_ ?_ <;> first | (intro hx; clear_value x) | subst x)
       | subst x)
    | split
    | (with_reducible first | apply kept_State_setFlds | apply kept_State_setFld)
    | (with_reducible apply keeps_upd; with_reducible first | assumption | apply kept_State_setFlds | apply kept_State_setFld)

theorem kept_leagueApply (s₀ : State) (c : Nat) (s : State)  (hk : Keeps s₀ s) : Keeps s₀ (leagueApply c s) := by
  unfold leagueApply
  repeat' first
    | (with_reducible first | assumption | intro _)
    | split
    | (with_reducible first | apply kept_raise | apply kept_foldl)
    | (with_reducible apply keeps_upd; with_reducible first | assumption | apply kept_raise | apply kept_foldl)

theorem kept_execLeagueTriggerApply (s₀ : State) (s : State)  (hk : Keeps s₀ s) : OutKeeps s₀ (execLeagueTriggerApply s) := by
  unfold execLeagueTriggerApply
  repeat' first
    | (with_reducible first | assumption | intro _)
    | split
    | (with_reducible first | apply kept_leagueApply | apply outKeeps_next | exact outKeeps_refused | apply optKeeps_some
                            | exact optKeeps_none)
    | dsimp -zeta only

theorem kept_addLtrig (s₀ : State) (c : Nat) (pos : Nat) (s : State)  (hk : Keeps s₀ s) : Keeps s₀ (addLtrig c pos s) := by
  unfold addLtrig
  repeat' first
    | (with_reducible first | assumption | intro _)
    | split
    | (with_reducible apply keeps_upd; with_reducible first | assumption)

theorem kept_stopAt (s₀ : State) (c : Nat) (s : State)  (hk : Keeps s₀ s) : Keeps s₀ (stopAt c s) := by
  unfold stopAt
  repeat' first
    | (with_reducible first | assumption | intro _)
    | (extract_lets +onlyGivenNames x
       first
       | (refine keeps_let (s₀ := s₀) (s := x) ?_ ?_ <;> first | (intro hx; clear_value x) | subst x)
       | subst x)
    | split
    | (with_reducible first | apply kept_State_setFlds | apply kept_raise | apply kept_State_setPair | apply kept_endCapture
                            | apply outKeeps_next | exact outKeeps_refused | apply optKeeps_some | exact optKeeps_none)
    | dsimp -zeta only
    | (with_reducible apply keeps_upd; with_reducible first | assumption | apply kept_State_setFlds | apply kept_raise
                                                             | apply kept_State_setPair | apply kept_endCapture)
  all_goals grind [kept_State_setFlds, kept_raise, kept_State_setPair, kept_endCapture, Keeps, held_rset, held_setAt_cores, held_setAt_lanes, held_filter_regs, held_map_cores, held_map_lanes, held_write1, held_write, held_clear, held_filter_mem, held_out, held_free, held_rbcnt]

theorem kept_stopCycle (s₀ : State) (s : State)  (hk : Keeps s₀ s) : Keeps s₀ (stopCycle s) := by
  unfold stopCycle
  repeat' first
    | (with_reducible first | assumption | intro _)
    | split
    | (with_reducible first | apply kept_stopAt)
    | (with_reducible apply keeps_upd; with_reducible first | assumption | apply kept_stopAt)

theorem kept_execAcqStopCycle (s₀ : State) (s : State)  (hk : Keeps s₀ s) : OutKeeps s₀ (execAcqStopCycle s) := by
  unfold execAcqStopCycle
  repeat' first
    | (with_reducible first | assumption | intro _)
    | split
    | (with_reducible first | apply kept_stopCycle | apply outKeeps_next | exact outKeeps_refused | apply optKeeps_some
                            | exact optKeeps_none)
    | dsimp -zeta only

theorem kept_recordTrigger (s₀ : State) (c : Nat) (s : State)  (hk : Keeps s₀ s) : Keeps s₀ (recordTrigger c s) := by
  unfold recordTrigger
  repeat' first
    | (with_reducible first | assumption | intro _)
    | split
    | (with_reducible first | apply kept_State_setFlds | apply kept_State_setPair | apply kept_raise | apply kept_State_count
                            | apply keeps_getD)
    | (with_reducible apply keeps_upd; with_reducible first | assumption | apply kept_State_setFlds | apply kept_State_setPair
                                                             | apply kept_raise | apply kept_State_count)

theorem kept_triggerActions (s₀ : State) (c : Nat) (s : State)  (hk : Keeps s₀ s) : Keeps s₀ (triggerActions c s) := by
  unfold triggerActions
  repeat' first
    | (with_reducible first | assumption | intro _)
    | split
    | (with_reducible first | apply kept_leagueApply | apply kept_recordTrigger | apply kept_triggerSnap
                            | apply kept_State_setFld | apply kept_raise | apply kept_addLtrig | apply kept_State_originate
                            | apply kept_stopCycle)
    | (with_reducible apply keeps_upd; with_reducible first | assumption | apply kept_leagueApply | apply kept_recordTrigger
                                                             | apply kept_triggerSnap | apply kept_State_setFld
                                                             | apply kept_raise | apply kept_addLtrig
                                                             | apply kept_State_originate | apply kept_stopCycle)

theorem kept_gather (s₀ : State) (c : Nat) (held : Nat) (stamp : Nat) (flags : Nat) (v : List Int) (s : State)  (hk : Keeps s₀ s) : Keeps s₀ (gather c held stamp flags v s) := by
  unfold gather
  repeat' first
    | (with_reducible first | assumption | intro _)
    | split
    | (with_reducible apply keeps_upd; with_reducible first | assumption)

theorem kept_writeRecords (s₀ : State) (c : Nat) (s : State)  (hk : Keeps s₀ s) : Keeps s₀ (writeRecords c s) := by
  unfold writeRecords
  repeat' first
    | (with_reducible first | assumption | intro _)
    | (extract_lets +onlyGivenNames x
       first
       | (refine keeps_let (s₀ := s₀) (s := x) ?_ ?_ <;> first | (intro hx; clear_value x) | subst x)
       | subst x)
    | split
    | (with_reducible first | apply kept_gather | apply kept_putRecord | apply kept_closeWindow | apply kept_endCapture
                            | apply kept_stopAt)
    | (with_reducible apply keeps_upd; with_reducible first | assumption | apply kept_gather | apply kept_putRecord
                                                             | apply kept_closeWindow | apply kept_endCapture
                                                             | apply kept_stopAt)

theorem kept_heldRecord (s₀ : State) (s : State)  (hk : Keeps s₀ s) : Keeps s₀ (heldRecord s) := by
  unfold heldRecord
  repeat' first
    | (with_reducible first | assumption | intro _)
    | (extract_lets +onlyGivenNames x
       first
       | (refine keeps_let (s₀ := s₀) (s := x) ?_ ?_ <;> first | (intro hx; clear_value x) | subst x)
       | subst x)
    | split
    | (with_reducible first | apply outKeeps_next | exact outKeeps_refused | apply optKeeps_some | exact optKeeps_none
                            | apply optKeeps_map)
    | dsimp -zeta only
    | (with_reducible apply keeps_upd; with_reducible first | assumption)
  all_goals grind [Keeps, held_rset, held_setAt_cores, held_setAt_lanes, held_filter_regs, held_map_cores, held_map_lanes, held_write1, held_write, held_clear, held_filter_mem, held_out, held_free, held_rbcnt]

theorem kept_bufferWrite (s₀ : State) (s : State)  (hk : Keeps s₀ s) : Keeps s₀ (bufferWrite s) := by
  unfold bufferWrite
  repeat' first
    | (with_reducible first | assumption | intro _)
    | split
    | (with_reducible first | apply kept_State_putRegion)
    | (with_reducible apply keeps_upd; with_reducible first | assumption | apply kept_State_putRegion)

theorem kept_execAcqBufferWrite (s₀ : State) (s : State)  (hk : Keeps s₀ s) : OutKeeps s₀ (execAcqBufferWrite s) := by
  unfold execAcqBufferWrite
  repeat' first
    | (with_reducible first | assumption | intro _)
    | split
    | (with_reducible first | apply kept_bufferWrite | apply outKeeps_next | exact outKeeps_refused | apply optKeeps_some
                            | exact optKeeps_none)
    | dsimp -zeta only

theorem kept_execTunRead (s₀ : State) (msg : Msg) (s : State)  (hk : Keeps s₀ s) : OutKeeps s₀ (execTunRead msg s) := by
  unfold execTunRead
  repeat' first
    | (with_reducible first | assumption | intro _)
    | split
    | (with_reducible first | apply kept_request | apply kept_hubRead | apply kept_ok | apply kept_State_putStream
                            | apply outKeeps_next | exact outKeeps_refused | apply optKeeps_some | exact optKeeps_none
                            | refine keeps_pair ?_ (by assumption) | refine keeps_triple ?_ (by assumption))
    | dsimp -zeta only

theorem kept_execAcqQuery (s₀ : State) (msg : Msg) (s : State)  (hk : Keeps s₀ s) : OutKeeps s₀ (execAcqQuery msg s) := by
  unfold execAcqQuery
  repeat' first
    | (with_reducible first | assumption | intro _)
    | split
    | (with_reducible first | apply kept_request | apply outKeeps_next | exact outKeeps_refused | apply optKeeps_some
                            | exact optKeeps_none | apply keeps_getD)
    | dsimp -zeta only

theorem kept_execTunFree (s₀ : State) (msg : Msg) (s : State)  (hk : Keeps s₀ s) : OutKeeps s₀ (execTunFree msg s) := by
  unfold execTunFree
  repeat' first
    | (with_reducible first | assumption | intro _)
    | split
    | (with_reducible first | apply kept_request | apply kept_ok | apply kept_State_free | apply outKeeps_next
                            | exact outKeeps_refused | apply optKeeps_some | exact optKeeps_none
                            | refine keeps_pair ?_ (by assumption) | refine keeps_triple ?_ (by assumption))
    | dsimp -zeta only
    | (with_reducible apply keeps_upd; with_reducible first | assumption | apply kept_request | apply kept_ok
                                                             | apply kept_State_free)

theorem kept_execAcqCal (s₀ : State) (msg : Msg) (s : State)  (hk : Keeps s₀ s) : OutKeeps s₀ (execAcqCal msg s) := by
  unfold execAcqCal
  repeat' first
    | (with_reducible first | assumption | intro _)
    | split
    | (with_reducible first | apply kept_request | apply outKeeps_next | exact outKeeps_refused | apply optKeeps_some
                            | exact optKeeps_none)
    | dsimp -zeta only
    | (with_reducible apply keeps_upd; with_reducible first | assumption | apply kept_request)

theorem kept_calComplete (s₀ : State) (rs : List (Nat × Int × Int)) (up : Int) (s : State)  (hk : Keeps s₀ s) : Keeps s₀ (calComplete rs up s) := by
  unfold calComplete
  repeat' first
    | (with_reducible first | assumption | intro _)
    | (extract_lets +onlyGivenNames x
       first
       | (refine keeps_let (s₀ := s₀) (s := x) ?_ ?_ <;> first | (intro hx; clear_value x) | subst x)
       | subst x)
    | split
    | (with_reducible first | apply kept_State_setFlds | apply kept_raise | apply kept_State_setFld | apply kept_State_respond
                            | apply kept_foldl)
    | (with_reducible apply keeps_upd; with_reducible first | assumption | apply kept_State_setFlds | apply kept_raise
                                                             | apply kept_State_setFld | apply kept_State_respond
                                                             | apply kept_foldl)

theorem kept_execCalComplete (s₀ : State) (rs : List (Nat × Int × Int)) (upAlofs : Int) (s : State)  (hk : Keeps s₀ s) : OutKeeps s₀ (execCalComplete rs upAlofs s) := by
  unfold execCalComplete
  repeat' first
    | (with_reducible first | assumption | intro _)
    | split
    | (with_reducible first | apply kept_calComplete | apply outKeeps_next | exact outKeeps_refused | apply optKeeps_some
                            | exact optKeeps_none | refine keeps_pair ?_ (by assumption)
                            | refine keeps_triple ?_ (by assumption))
    | dsimp -zeta only

theorem kept_alignWrite (s₀ : State) (k : Nat) (d : Word) (s : State)  (hk : Keeps s₀ s) : Keeps s₀ (alignWrite k d s) := by
  unfold alignWrite
  repeat' first
    | (with_reducible first | assumption | intro _)
    | split
    | (with_reducible first | apply kept_State_setFld | apply kept_plainWrite)

theorem kept_execAlignWrite (s₀ : State) (m : Nat) (k : Nat) (d : Word) (s : State)  (hk : Keeps s₀ s) : OutKeeps s₀ (execAlignWrite m k d s) := by
  unfold execAlignWrite
  repeat' first
    | (with_reducible first | assumption | intro _)
    | split
    | (with_reducible first | apply kept_regWrite | apply kept_alignWrite | apply outKeeps_next | exact outKeeps_refused
                            | apply optKeeps_some | exact optKeeps_none)
    | dsimp -zeta only

end Sys2Proof.Machine
end

