-- ==== Sys2Proof/Laws/KeptDesignMem.lean ====
section
/-! SUPPORT. DesignMem: each operation keeps what `Keeps` says. -/
namespace Sys2Proof.Machine

theorem kept_failGrain (s₀ : State) (why : Nat) (s : State)  (hk : Keeps s₀ s) : Keeps s₀ (failGrain why s) := by
  unfold failGrain
  repeat' first
    | (with_reducible first | assumption | intro _)
    | split
    | (with_reducible apply keeps_upd; with_reducible first | assumption)

theorem kept_State_setAccess (s₀ : State) (s : State) (x : Access)  (hk : Keeps s₀ s) : Keeps s₀ (State.setAccess s x) := by
  unfold State.setAccess
  repeat' first
    | (with_reducible first | assumption | intro _)
    | split
    | (with_reducible apply keeps_upd; with_reducible first | assumption)

theorem kept_State_dropAccess (s₀ : State) (s : State) (m : Nat) (k : Nat)  (hk : Keeps s₀ s) : Keeps s₀ (State.dropAccess s m k) := by
  unfold State.dropAccess
  repeat' first
    | (with_reducible first | assumption | intro _)
    | split
    | (with_reducible apply keeps_upd; with_reducible first | assumption)

theorem kept_takeBeats (s₀ : State) (t : Nat) (l : List Beat) (s : State)  (hk : Keeps s₀ s) : Keeps s₀ (takeBeats t l s) := by
  unfold takeBeats
  repeat' first
    | (with_reducible first | assumption | intro _)
    | split
    | (with_reducible first | apply kept_State_setAccess | apply kept_foldl)

theorem kept_outOfRange (s₀ : State) (b : Bound) (x : Access) (s : State)  (hk : Keeps s₀ s) : Keeps s₀ (outOfRange b x s) := by
  unfold outOfRange
  repeat' first
    | (with_reducible first | assumption | intro _)
    | split
    | (with_reducible first | apply kept_State_first | apply kept_raiseIf | apply kept_State_count)

theorem kept_collide (s₀ : State) (b : Bound) (addr : Nat) (ports : Nat) (s : State)  (hk : Keeps s₀ s) : Keeps s₀ (collide b addr ports s) := by
  unfold collide
  repeat' first
    | (with_reducible first | assumption | intro _)
    | split
    | (with_reducible first | apply kept_State_first | apply kept_State_setFld | apply kept_raiseIf | apply kept_State_count)

theorem kept_multiWrite (s₀ : State) (b : Bound) (x : Access) (old : Nat) (s : State)  (hk : Keeps s₀ s) : Keeps s₀ (multiWrite b x old s).2 := by
  unfold multiWrite
  repeat' first
    | (with_reducible first | assumption | intro _)
    | (extract_lets +onlyGivenNames x
       first
       | (refine keeps_let (s₀ := s₀) (s := x) ?_ ?_ <;> first | (intro hx; clear_value x) | subst x)
       | subst x)
    | split
    | (with_reducible first | apply kept_collide | apply keeps_getD)
    | (with_reducible apply keeps_upd; with_reducible first | assumption | apply kept_collide)

theorem kept_bankFails (s₀ : State) (b : Bound) (g : Nat) (bad : Nat) (kind : Nat) (s : State)  (hk : Keeps s₀ s) : Keeps s₀ (bankFails b g bad kind s) := by
  unfold bankFails
  repeat' first
    | (with_reducible first | assumption | intro _)
    | split
    | (with_reducible first | apply kept_State_first | apply kept_failGrain | apply kept_raise)

theorem kept_dieAccess (s₀ : State) (b : Bound) (x : Access) (s : State)  (hk : Keeps s₀ s) : Keeps s₀ (dieAccess b x s) := by
  unfold dieAccess
  repeat' first
    | (with_reducible first | assumption | intro _)
    | (extract_lets +onlyGivenNames x
       first
       | (refine keeps_let (s₀ := s₀) (s := x) ?_ ?_ <;> first | (intro hx; clear_value x) | subst x)
       | subst x)
    | split
    | (with_reducible first | apply kept_State_setAccess | apply kept_State_dropAccess | apply kept_bankFails
                            | apply kept_saveWord | apply kept_multiWrite | apply outKeeps_next | exact outKeeps_refused
                            | apply optKeeps_some | exact optKeeps_none | refine keeps_pair ?_ (by assumption)
                            | refine keeps_triple ?_ (by assumption))
    | dsimp -zeta only
    | (with_reducible apply keeps_upd; with_reducible first | assumption | apply kept_State_setAccess
                                                             | apply kept_State_dropAccess | apply kept_bankFails
                                                             | apply kept_saveWord | apply kept_multiWrite)
  all_goals grind [kept_State_setAccess, kept_State_dropAccess, kept_bankFails, kept_saveWord, kept_multiWrite, Keeps, held_rset, held_setAt_cores, held_setAt_lanes, held_filter_regs, held_map_cores, held_map_lanes, held_write1, held_write, held_clear, held_filter_mem, held_out, held_free, held_rbcnt]

theorem kept_queueGuard (s₀ : State) (c : Nat) (s : State)  (hk : Keeps s₀ s) : Keeps s₀ (queueGuard c s) := by
  unfold queueGuard
  repeat' first
    | (with_reducible first | assumption | intro _)
    | split
    | (with_reducible first | apply kept_State_setFld | apply kept_raise | apply kept_State_count)
    | (with_reducible apply keeps_upd; with_reducible first | assumption | apply kept_State_setFld | apply kept_raise
                                                             | apply kept_State_count)

theorem kept_hbmRead (s₀ : State) (b : Bound) (x : Access) (s : State)  (hk : Keeps s₀ s) : Keeps s₀ (hbmRead b x s) := by
  unfold hbmRead
  repeat' first
    | (with_reducible first | assumption | intro _)
    | split
    | (with_reducible first | apply kept_State_setAccess)
    | (with_reducible apply keeps_upd; with_reducible first | assumption | apply kept_State_setAccess)

theorem kept_hbmWrite (s₀ : State) (b : Bound) (x : Access) (s : State)  (hk : Keeps s₀ s) : Keeps s₀ (hbmWrite b x s) := by
  unfold hbmWrite
  repeat' first
    | (with_reducible first | assumption | intro _)
    | split
    | (with_reducible first | apply kept_undoEntry | apply kept_State_putRegion | apply kept_queueGuard)
    | (with_reducible apply keeps_upd; with_reducible first | assumption | apply kept_undoEntry | apply kept_State_putRegion
                                                             | apply kept_queueGuard)

theorem kept_memAccesses (s₀ : State) (p : Nat) (s : State)  (hk : Keeps s₀ s) : Keeps s₀ (memAccesses p s) := by
  unfold memAccesses
  repeat' first
    | (with_reducible first | assumption | intro _)
    | split
    | (with_reducible first | apply kept_State_dropAccess | apply kept_outOfRange | apply kept_dieAccess | apply kept_hbmRead
                            | apply kept_hbmWrite | apply kept_foldl)

theorem kept_endReads (s₀ : State) (t : Nat) (s : State)  (hk : Keeps s₀ s) : Keeps s₀ (endReads t s) := by
  unfold endReads
  repeat' first
    | (with_reducible first | assumption | intro _)
    | split
    | (with_reducible first | apply kept_State_dropAccess | apply kept_foldl)

theorem kept_duePoints (s₀ : State) (p : Nat) (s : State)  (hk : Keeps s₀ s) : Keeps s₀ (duePoints p s) := by
  unfold duePoints
  repeat' first
    | (with_reducible first | assumption | intro _)
    | split
    | (with_reducible first | apply kept_State_count | apply kept_State_setFld | apply kept_raiseIf | apply kept_foldl
                            | apply keeps_getD)
    | (with_reducible apply keeps_upd; with_reducible first | assumption | apply kept_State_count | apply kept_State_setFld
                                                             | apply kept_raiseIf | apply kept_foldl)

theorem kept_overrunGrain (s₀ : State) (s : State)  (hk : Keeps s₀ s) : Keeps s₀ (overrunGrain s) := by
  unfold overrunGrain
  repeat' first
    | (with_reducible first | assumption | intro _)
    | split
    | (with_reducible apply keeps_upd; with_reducible first | assumption)

theorem kept_clearHbm (s₀ : State) (s : State)  (hk : Keeps s₀ s) : Keeps s₀ (clearHbm s) := by
  unfold clearHbm
  repeat' first
    | (with_reducible first | assumption | intro _)
    | split
    | (with_reducible first | apply kept_State_setFld)

theorem kept_corrected (s₀ : State) (s : State)  (hk : Keeps s₀ s) : Keeps s₀ (corrected s) := by
  unfold corrected
  repeat' first
    | (with_reducible first | assumption | intro _)
    | split
    | (with_reducible first | apply kept_raiseIf | apply kept_State_count)

theorem kept_deliver (s₀ : State) (r : HbmRead) (s : State)  (hk : Keeps s₀ s) : Keeps s₀ (deliver r s) := by
  unfold deliver
  repeat' first
    | (with_reducible first | assumption | intro _)
    | split
    | (with_reducible first | apply kept_State_setFld | apply kept_State_setAccess | apply kept_clearHbm)
    | (with_reducible apply keeps_upd; with_reducible first | assumption | apply kept_State_setFld | apply kept_State_setAccess
                                                             | apply kept_clearHbm)

theorem kept_retryRead (s₀ : State) (r : HbmRead) (s : State)  (hk : Keeps s₀ s) : Keeps s₀ (retryRead r s) := by
  unfold retryRead
  repeat' first
    | (with_reducible first | assumption | intro _)
    | split
    | (with_reducible first | apply kept_State_count)
    | (with_reducible apply keeps_upd; with_reducible first | assumption | apply kept_State_count)

theorem kept_uncorrectable (s₀ : State) (r : HbmRead) (s : State)  (hk : Keeps s₀ s) : Keeps s₀ (uncorrectable r s) := by
  unfold uncorrectable
  repeat' first
    | (with_reducible first | assumption | intro _)
    | split
    | (with_reducible first | apply kept_State_first | apply kept_enterSafe | apply kept_raise | apply keeps_getD)
    | (with_reducible apply keeps_upd; with_reducible first | assumption | apply kept_State_first | apply kept_enterSafe
                                                             | apply kept_raise)

theorem kept_hbmArrive (s₀ : State) (m : Nat) (k : Nat) (e : Ecc) (s : State)  (hk : Keeps s₀ s) : Keeps s₀ (hbmArrive m k e s) := by
  unfold hbmArrive
  repeat' first
    | (with_reducible first | assumption | intro _)
    | split
    | (with_reducible first | apply kept_deliver | apply kept_corrected | apply kept_retryRead)

theorem kept_hbmRetry (s₀ : State) (m : Nat) (k : Nat) (e : Ecc) (s : State)  (hk : Keeps s₀ s) : Keeps s₀ (hbmRetry m k e s) := by
  unfold hbmRetry
  repeat' first
    | (with_reducible first | assumption | intro _)
    | split
    | (with_reducible first | apply kept_deliver | apply kept_corrected | apply kept_uncorrectable)

theorem kept_execHbmReadDataArrive (s₀ : State) (mem : Nat) (port : Nat) (ecc : Ecc) (s : State)  (hk : Keeps s₀ s) : OutKeeps s₀ (execHbmReadDataArrive mem port ecc s) := by
  unfold execHbmReadDataArrive
  repeat' first
    | (with_reducible first | assumption | intro _)
    | split
    | (with_reducible first | apply kept_hbmArrive | apply outKeeps_next | exact outKeeps_refused | apply optKeeps_some
                            | exact optKeeps_none)
    | dsimp -zeta only

theorem kept_execHbmEccRetry (s₀ : State) (mem : Nat) (port : Nat) (ecc : Ecc) (s : State)  (hk : Keeps s₀ s) : OutKeeps s₀ (execHbmEccRetry mem port ecc s) := by
  unfold execHbmEccRetry
  repeat' first
    | (with_reducible first | assumption | intro _)
    | split
    | (with_reducible first | apply kept_hbmRetry | apply outKeeps_next | exact outKeeps_refused | apply optKeeps_some
                            | exact optKeeps_none)
    | dsimp -zeta only

theorem kept_writeDrain (s₀ : State) (c : Nat) (n : Nat) (s : State)  (hk : Keeps s₀ s) : Keeps s₀ (writeDrain c n s) := by
  unfold writeDrain
  repeat' first
    | (with_reducible first | assumption | intro _)
    | (extract_lets +onlyGivenNames x
       first
       | (refine keeps_let (s₀ := s₀) (s := x) ?_ ?_ <;> first | (intro hx; clear_value x) | subst x)
       | subst x)
    | split
    | (with_reducible first | apply kept_clearHbm | apply kept_State_setFld)
    | (with_reducible apply keeps_upd; with_reducible first | assumption | apply kept_clearHbm | apply kept_State_setFld)

theorem kept_execHbmWriteDrain (s₀ : State) (ctl : Nat) (count : Nat) (s : State)  (hk : Keeps s₀ s) : OutKeeps s₀ (execHbmWriteDrain ctl count s) := by
  unfold execHbmWriteDrain
  repeat' first
    | (with_reducible first | assumption | intro _)
    | split
    | (with_reducible first | apply kept_writeDrain | apply outKeeps_next | exact outKeeps_refused | apply optKeeps_some
                            | exact optKeeps_none)
    | dsimp -zeta only

theorem kept_refresh (s₀ : State) (c : Nat) (bank : Nat) (s : State)  (hk : Keeps s₀ s) : Keeps s₀ (refresh c bank s) := by
  unfold refresh
  repeat' first
    | (with_reducible first | assumption | intro _)
    | split
    | (with_reducible apply keeps_upd; with_reducible first | assumption)

theorem kept_execHbmRefresh (s₀ : State) (ctl : Nat) (bank : Nat) (s : State)  (hk : Keeps s₀ s) : OutKeeps s₀ (execHbmRefresh ctl bank s) := by
  unfold execHbmRefresh
  repeat' first
    | (with_reducible first | assumption | intro _)
    | split
    | (with_reducible first | apply kept_refresh | apply outKeeps_next | exact outKeeps_refused | apply optKeeps_some
                            | exact optKeeps_none)
    | dsimp -zeta only

theorem kept_endRecords (s₀ : State) (s : State)  (hk : Keeps s₀ s) : Keeps s₀ (endRecords s) := by
  unfold endRecords
  repeat' first
    | (with_reducible first | assumption | intro _)
    | split
    | (with_reducible apply keeps_upd; with_reducible first | assumption)

end Sys2Proof.Machine
end

