-- ==== Sys2Proof/Laws/KeptArray.lean ====
section
/-! SUPPORT. Array: each operation keeps what `Keeps` says. -/
namespace Sys2Proof.Machine

theorem kept_recordErr (s₀ : State) (t : Nat) (o : BpOut) (s : State)  (hk : Keeps s₀ s) : Keeps s₀ (recordErr t o s) := by
  unfold recordErr
  repeat' first
    | (with_reducible first | assumption | intro _)
    | split
    | (with_reducible first | apply kept_State_first)

theorem kept_assertions (s₀ : State) (t : Nat) (l : List BpOut) (s : State)  (hk : Keeps s₀ s) : Keeps s₀ (assertions t l s) := by
  unfold assertions
  repeat' first
    | (with_reducible first | assumption | intro _)
    | (extract_lets +onlyGivenNames x
       first
       | (refine keeps_let (s₀ := s₀) (s := x) ?_ ?_ <;> first | (intro hx; clear_value x) | subst x)
       | subst x)
    | split
    | (with_reducible first | apply kept_State_count | apply kept_State_first | apply kept_raiseIf | apply kept_State_setFld
                            | apply kept_foldl)

theorem kept_holdRequests (s₀ : State) (t : Nat) (l : List BpOut) (s : State)  (hk : Keeps s₀ s) : Keeps s₀ (holdRequests t l s) := by
  unfold holdRequests
  repeat' first
    | (with_reducible first | assumption | intro _)
    | split
    | (with_reducible first | apply kept_State_first | apply kept_raiseIf | apply kept_State_setFld | apply kept_State_count
                            | apply kept_foldl)

theorem kept_writeBps (s₀ : State) (t : Nat) (l : List BpOut) (s : State)  (hk : Keeps s₀ s) : Keeps s₀ (writeBps t l s) := by
  unfold writeBps
  repeat' first
    | (with_reducible first | assumption | intro _)
    | split
    | (with_reducible first | apply kept_foldl)
  all_goals grind [kept_foldl, Keeps, held_rset, held_setAt_cores, held_setAt_lanes, held_filter_regs, held_map_cores, held_map_lanes, held_write1, held_write, held_clear, held_filter_mem, held_out, held_free, held_rbcnt]

theorem kept_routeFail (s₀ : State) (t : Nat) (l : List RouteErr) (s : State)  (hk : Keeps s₀ s) : Keeps s₀ (routeFail t l s) := by
  unfold routeFail
  repeat' first
    | (with_reducible first | assumption | intro _)
    | split
    | (with_reducible first | apply kept_State_first | apply kept_State_setFld | apply kept_failGrain | apply kept_raise)

theorem kept_emitStep (s₀ : State) (t : Nat) (due : List Dest) (s : State)  (hk : Keeps s₀ s) : Keeps s₀ (emitStep t due s) := by
  unfold emitStep
  repeat' first
    | (with_reducible first | assumption | intro _)
    | split
    | (with_reducible first | apply kept_routeFail)
    | (with_reducible apply keeps_upd; with_reducible first | assumption | apply kept_routeFail)

theorem kept_arrayStep (s₀ : State) (t : Nat) (s : State)  (hk : Keeps s₀ s) : Keeps s₀ (arrayStep t s) := by
  unfold arrayStep
  repeat' first
    | (with_reducible first | assumption | intro _)
    | split
    | (with_reducible first | apply kept_writeBps | apply kept_recordErr | apply kept_failGrain | apply kept_raise
                            | apply kept_holdRequests | apply kept_assertions | apply kept_endReads | apply kept_takeBeats
                            | apply kept_emitStep | apply kept_foldl)

theorem kept_scrupleClear (s₀ : State) (s : State)  (hk : Keeps s₀ s) : Keeps s₀ (scrupleClear s) := by
  unfold scrupleClear
  repeat' first
    | (with_reducible first | assumption | intro _)
    | split
    | (with_reducible apply keeps_upd; with_reducible first | assumption)

theorem kept_placeHub (s₀ : State) (die : Nat) (line : Nat) (t : Nat) (b : Bool) (s : State)  (hk : Keeps s₀ s) : Keeps s₀ (placeHub die line t b s) := by
  unfold placeHub
  repeat' first
    | (with_reducible first | assumption | intro _)
    | split
    | (with_reducible apply keeps_upd; with_reducible first | assumption)

theorem kept_upset (s₀ : State) (s : State) (a0 : Upset)  (hk : Keeps s₀ s) : Keeps s₀ (upset s a0) := by
  unfold upset
  repeat' first
    | (with_reducible first | assumption | intro _)
    | (extract_lets +onlyGivenNames x
       first
       | (refine keeps_let (s₀ := s₀) (s := x) ?_ ?_ <;> first | (intro hx; clear_value x) | subst x)
       | subst x)
    | split
    | (with_reducible first | apply keeps_setCore_reset | apply keeps_setCore_upd | apply kept_keepWord | apply kept_foldl
                            | apply outKeeps_next | exact outKeeps_refused | apply optKeeps_some | exact optKeeps_none)
    | dsimp -zeta only
    | (with_reducible apply keeps_upd; with_reducible first | assumption | apply keeps_setCore_reset | apply keeps_setCore_upd
                                                             | apply kept_keepWord | apply kept_foldl)
  all_goals grind [kept_keepWord, kept_foldl, Keeps, held_rset, held_setAt_cores, held_setAt_lanes, held_filter_regs, held_map_cores, held_map_lanes, held_write1, held_write, held_clear, held_filter_mem, held_out, held_free, held_rbcnt]

end Sys2Proof.Machine
end

