-- ==== Sys2Proof/Laws/KeptFieldIO.lean ====
section
/-! SUPPORT. FieldIO: each operation keeps what `Keeps` says. -/
namespace Sys2Proof.Machine

theorem kept_sendOut (s₀ : State) (prime : Bool) (drive : Bool) (cyc : Nat) (held : Nat) (period : Nat) (out : NSet) (oe : NSet) (s : State)  (hk : Keeps s₀ s) : Keeps s₀ (sendOut prime drive cyc held period out oe s) := by
  unfold sendOut
  repeat' first
    | (with_reducible first | assumption | intro _)
    | (extract_lets +onlyGivenNames x
       first
       | (refine keeps_let (s₀ := s₀) (s := x) ?_ ?_ <;> first | (intro hx; clear_value x) | subst x)
       | subst x)
    | split
    | (with_reducible first | apply kept_State_sendFb | apply kept_State_setFlds | apply outKeeps_next | exact outKeeps_refused
                            | apply optKeeps_some | exact optKeeps_none)
    | dsimp -zeta only
    | (with_reducible apply keeps_upd; with_reducible first | assumption | apply kept_State_sendFb | apply kept_State_setFlds)
  all_goals grind [kept_State_sendFb, kept_State_setFlds, Keeps, held_rset, held_setAt_cores, held_setAt_lanes, held_filter_regs, held_map_cores, held_map_lanes, held_write1, held_write, held_clear, held_filter_mem, held_out, held_free, held_rbcnt]

theorem kept_startOut (s₀ : State) (c : Nat) (s : State)  (hk : Keeps s₀ s) : Keeps s₀ (startOut c s) := by
  unfold startOut
  repeat' first
    | (with_reducible first | assumption | intro _)
    | split
    | (with_reducible first | apply kept_State_setFlds | apply kept_sendOut)
    | (with_reducible apply keeps_upd; with_reducible first | assumption | apply kept_State_setFlds | apply kept_sendOut)

theorem kept_lateFrame (s₀ : State) (n : Nat) (s : State)  (hk : Keeps s₀ s) : Keeps s₀ (lateFrame n s) := by
  unfold lateFrame
  repeat' first
    | (with_reducible first | assumption | intro _)
    | split
    | (with_reducible first | apply kept_raise | apply kept_State_count | apply kept_State_setFlds)
    | (with_reducible apply keeps_upd; with_reducible first | assumption | apply kept_raise | apply kept_State_count
                                                             | apply kept_State_setFlds)

theorem kept_dueField (s₀ : State) (n : Nat) (s : State)  (hk : Keeps s₀ s) : Keeps s₀ (dueField n s) := by
  unfold dueField
  repeat' first
    | (with_reducible first | assumption | intro _)
    | split
    | (with_reducible first | apply kept_lateFrame)

theorem kept_standField (s₀ : State) (s : State)  (hk : Keeps s₀ s) : Keeps s₀ (standField s) := by
  unfold standField
  repeat' first
    | (with_reducible first | assumption | intro _)
    | split
    | (with_reducible first | apply kept_State_setFld)
    | (with_reducible apply keeps_upd; with_reducible first | assumption | apply kept_State_setFld)

theorem kept_runField (s₀ : State) (s : State)  (hk : Keeps s₀ s) : Keeps s₀ (runField s) := by
  unfold runField
  repeat' first
    | (with_reducible first | assumption | intro _)
    | split
    | (with_reducible first | apply kept_lateFrame)

theorem kept_primeFrames (s₀ : State) (restored : Option (NSet × NSet × NSet)) (s : State)  (hk : Keeps s₀ s) : Keeps s₀ (primeFrames restored s) := by
  unfold primeFrames
  repeat' first
    | (with_reducible first | assumption | intro _)
    | split
    | (with_reducible first | apply kept_State_setFlds | apply kept_sendOut | apply kept_standField)
    | (with_reducible apply keeps_upd; with_reducible first | assumption | apply kept_State_setFlds | apply kept_sendOut
                                                             | apply kept_standField)

theorem kept_inertIfDriven (s₀ : State) (s : State)  (hk : Keeps s₀ s) : Keeps s₀ (inertIfDriven s) := by
  unfold inertIfDriven
  repeat' first
    | (with_reducible first | assumption | intro _)
    | split
    | (with_reducible first | apply kept_State_sendInert)

theorem kept_State_popFb (s₀ : State) (s : State)  (hk : Keeps s₀ s) : Keeps s₀ (State.popFb s) := by
  unfold State.popFb
  repeat' first
    | (with_reducible first | assumption | intro _)
    | split
    | (with_reducible apply keeps_upd; with_reducible first | assumption)

theorem kept_State_fbSend (s₀ : State) (s : State) (f : FbFrame) (again : optParam Bool false)  (hk : Keeps s₀ s) : Keeps s₀ (State.fbSend s f again) := by
  unfold State.fbSend
  repeat' first
    | (with_reducible first | assumption | intro _)
    | split
    | (with_reducible apply keeps_upd; with_reducible first | assumption)

theorem kept_fbBad (s₀ : State) (seq : Nat) (kind : Nat) (s : State)  (hk : Keeps s₀ s) : Keeps s₀ (fbBad seq kind s) := by
  unfold fbBad
  repeat' first
    | (with_reducible first | assumption | intro _)
    | split
    | (with_reducible first | apply kept_State_fbSend)
    | (with_reducible apply keeps_upd; with_reducible first | assumption | apply kept_State_fbSend)

theorem kept_fbGood (s₀ : State) (prime : Bool) (seq : Nat) (drive : Bool) (cyc : Nat) (out : NSet) (oe : NSet) (pins : Pins) (s : State)  (hk : Keeps s₀ s) : Keeps s₀ (fbGood prime seq drive cyc out oe pins s) := by
  unfold fbGood
  repeat' first
    | (with_reducible first | assumption | intro _)
    | (extract_lets +onlyGivenNames x
       first
       | (refine keeps_let (s₀ := s₀) (s := x) ?_ ?_ <;> first | (intro hx; clear_value x) | subst x)
       | subst x)
    | split
    | (with_reducible first | apply kept_fbBad | apply kept_State_fbSend)
    | (with_reducible apply keeps_upd; with_reducible first | assumption | apply kept_fbBad | apply kept_State_fbSend)

theorem kept_fbCrc (s₀ : State) (seq : Nat) (again : Bool) (s : State)  (hk : Keeps s₀ s) : Keeps s₀ (fbCrc seq again s) := by
  unfold fbCrc
  repeat' first
    | (with_reducible first | assumption | intro _)
    | split
    | (with_reducible first | apply kept_State_count | apply kept_fbBad | apply kept_State_fbSend)
    | (with_reducible apply keeps_upd; with_reducible first | assumption | apply kept_State_count | apply kept_fbBad
                                                             | apply kept_State_fbSend)

theorem kept_fbReads (s₀ : State) (t : Nat → Bool) (crcBad : Bool) (crc : Wire → State → State) (act : HubFrame → State → State) (s : State) (h_crc : ∀ v0 v1, Keeps s₀ v1 → Keeps s₀ (crc v0 v1)) (h_act : ∀ v0 v1, Keeps s₀ v1 → Keeps s₀ (act v0 v1)) (hk : Keeps s₀ s) : Keeps s₀ (fbReads t crcBad crc act s) := by
  unfold fbReads
  repeat' first
    | (with_reducible first | assumption | intro _)
    | (extract_lets +onlyGivenNames x
       first
       | (refine keeps_let (s₀ := s₀) (s := x) ?_ ?_ <;> first | (intro hx; clear_value x) | subst x)
       | subst x)
    | split
    | (with_reducible first | apply kept_State_popFb | apply kept_fbBad | apply h_crc | apply h_act | apply outKeeps_next
                            | exact outKeeps_refused | apply optKeeps_some | exact optKeeps_none)
    | dsimp -zeta only
    | (with_reducible apply keeps_upd; with_reducible first | assumption | apply kept_State_popFb | apply kept_fbBad)
  all_goals grind [kept_State_popFb, kept_fbBad, Keeps, held_rset, held_setAt_cores, held_setAt_lanes, held_filter_regs, held_map_cores, held_map_lanes, held_write1, held_write, held_clear, held_filter_mem, held_out, held_free, held_rbcnt]

theorem kept_fbDrop (s₀ : State) (a0 : Wire) (s : State)  (hk : Keeps s₀ s) : Keeps s₀ (fbDrop a0 s) := by
  unfold fbDrop
  repeat' first
    | (with_reducible first | assumption | intro _)
    | (extract_lets +onlyGivenNames x
       first
       | (refine keeps_let (s₀ := s₀) (s := x) ?_ ?_ <;> first | (intro hx; clear_value x) | subst x)
       | subst x)
    | split
    | (with_reducible first | apply kept_State_count | apply outKeeps_next | exact outKeeps_refused | apply optKeeps_some
                            | exact optKeeps_none)
    | dsimp -zeta only
    | (with_reducible apply keeps_upd; with_reducible first | assumption | apply kept_State_count)
  all_goals grind [kept_State_count, Keeps, held_rset, held_setAt_cores, held_setAt_lanes, held_filter_regs, held_map_cores, held_map_lanes, held_write1, held_write, held_clear, held_filter_mem, held_out, held_free, held_rbcnt]

theorem kept_fbFrame (s₀ : State) (prime : Bool) (crcBad : Bool) (pins : Pins) (s : State)  (hk : Keeps s₀ s) : Keeps s₀ (fbFrame prime crcBad pins s) := by
  unfold fbFrame
  repeat' first
    | (with_reducible first | assumption | intro _)
    | split
    | (with_reducible first | apply kept_fbReads | apply kept_fbCrc | apply kept_fbGood)

theorem kept_execFbOut (s₀ : State) (crcBad : Bool) (pins : Pins) (s : State)  (hk : Keeps s₀ s) : OutKeeps s₀ (execFbOut crcBad pins s) := by
  unfold execFbOut
  repeat' first
    | (with_reducible first | assumption | intro _)
    | split
    | (with_reducible first | apply kept_fbFrame | apply outKeeps_next | exact outKeeps_refused | apply optKeeps_some
                            | exact optKeeps_none)
    | dsimp -zeta only

theorem kept_execFbPrime (s₀ : State) (crcBad : Bool) (pins : Pins) (s : State)  (hk : Keeps s₀ s) : OutKeeps s₀ (execFbPrime crcBad pins s) := by
  unfold execFbPrime
  repeat' first
    | (with_reducible first | assumption | intro _)
    | split
    | (with_reducible first | apply kept_fbFrame | apply outKeeps_next | exact outKeeps_refused | apply optKeeps_some
                            | exact optKeeps_none)
    | dsimp -zeta only

theorem kept_fbConfig (s₀ : State) (crcBad : Bool) (s : State)  (hk : Keeps s₀ s) : Keeps s₀ (fbConfig crcBad s) := by
  unfold fbConfig
  repeat' first
    | (with_reducible first | assumption | intro _)
    | split
    | (with_reducible first | apply kept_fbReads | apply kept_fbDrop)
    | (with_reducible apply keeps_upd; with_reducible first | assumption | apply kept_fbReads | apply kept_fbDrop)

theorem kept_execFbConfig (s₀ : State) (crcBad : Bool) (s : State)  (hk : Keeps s₀ s) : OutKeeps s₀ (execFbConfig crcBad s) := by
  unfold execFbConfig
  repeat' first
    | (with_reducible first | assumption | intro _)
    | split
    | (with_reducible first | apply kept_fbConfig | apply outKeeps_next | exact outKeeps_refused | apply optKeeps_some
                            | exact optKeeps_none)
    | dsimp -zeta only

theorem kept_fbInert (s₀ : State) (s : State)  (hk : Keeps s₀ s) : Keeps s₀ (fbInert s) := by
  unfold fbInert
  repeat' first
    | (with_reducible first | assumption | intro _)
    | split
    | (with_reducible first | apply kept_fbReads | apply kept_fbDrop)
    | (with_reducible apply keeps_upd; with_reducible first | assumption | apply kept_fbReads | apply kept_fbDrop)

theorem kept_execFbInert (s₀ : State) (s : State)  (hk : Keeps s₀ s) : OutKeeps s₀ (execFbInert s) := by
  unfold execFbInert
  repeat' first
    | (with_reducible first | assumption | intro _)
    | split
    | (with_reducible first | apply kept_fbInert | apply outKeeps_next | exact outKeeps_refused | apply optKeeps_some
                            | exact optKeeps_none)
    | dsimp -zeta only

theorem kept_resent (s₀ : State) (s : State)  (hk : Keeps s₀ s) : Keeps s₀ (resent s) := by
  unfold resent
  repeat' first
    | (with_reducible first | assumption | intro _)
    | split
    | (with_reducible first | apply kept_raiseIf)

theorem kept_fbResend (s₀ : State) (s : State)  (hk : Keeps s₀ s) : Keeps s₀ (fbResend s) := by
  unfold fbResend
  repeat' first
    | (with_reducible first | assumption | intro _)
    | split
    | (with_reducible first | apply kept_fbReads | apply kept_fbDrop | apply kept_resent | apply kept_State_fbSend)

theorem kept_execFbResend (s₀ : State) (s : State)  (hk : Keeps s₀ s) : OutKeeps s₀ (execFbResend s) := by
  unfold execFbResend
  repeat' first
    | (with_reducible first | assumption | intro _)
    | split
    | (with_reducible first | apply kept_fbResend | apply outKeeps_next | exact outKeeps_refused | apply optKeeps_some
                            | exact optKeeps_none)
    | dsimp -zeta only

theorem kept_fbIdle (s₀ : State) (s : State)  (hk : Keeps s₀ s) : Keeps s₀ (fbIdle s) := by
  unfold fbIdle
  repeat' first
    | (with_reducible first | assumption | intro _)
    | split
    | (with_reducible first | apply kept_fbReads | apply kept_fbDrop)

theorem kept_execFbIdle (s₀ : State) (s : State)  (hk : Keeps s₀ s) : OutKeeps s₀ (execFbIdle s) := by
  unfold execFbIdle
  repeat' first
    | (with_reducible first | assumption | intro _)
    | split
    | (with_reducible first | apply kept_fbIdle | apply outKeeps_next | exact outKeeps_refused | apply optKeeps_some
                            | exact optKeeps_none)
    | dsimp -zeta only

theorem kept_execFbWatchdog (s₀ : State) (s : State)  (hk : Keeps s₀ s) : OutKeeps s₀ (execFbWatchdog s) := by
  unfold execFbWatchdog
  repeat' first
    | (with_reducible first | assumption | intro _)
    | split
    | (with_reducible first | apply outKeeps_next | exact outKeeps_refused | apply optKeeps_some | exact optKeeps_none)
    | dsimp -zeta only
    | (with_reducible apply keeps_upd; with_reducible first | assumption)

theorem kept_fieldUp (s₀ : State) (s : State)  (hk : Keeps s₀ s) : Keeps s₀ (fieldUp s) := by
  unfold fieldUp
  repeat' first
    | (with_reducible first | assumption | intro _)
    | split
    | (with_reducible first | apply kept_raise | apply kept_State_setFld)

theorem kept_takePg (s₀ : State) (g : Nat) (s : State)  (hk : Keeps s₀ s) : Keeps s₀ (takePg g s) := by
  unfold takePg
  repeat' first
    | (with_reducible first | assumption | intro _)
    | split
    | (with_reducible first | apply kept_State_setFld | apply kept_foldl)

theorem kept_badFrame (s₀ : State) (kind : Nat) (seq : Nat) (s : State)  (hk : Keeps s₀ s) : Keeps s₀ (badFrame kind seq s) := by
  unfold badFrame
  repeat' first
    | (with_reducible first | assumption | intro _)
    | split
    | (with_reducible first | apply kept_enterSafe | apply kept_raise | apply kept_State_first)

theorem kept_State_popHub (s₀ : State) (s : State)  (hk : Keeps s₀ s) : Keeps s₀ (State.popHub s) := by
  unfold State.popHub
  repeat' first
    | (with_reducible first | assumption | intro _)
    | split
    | (with_reducible apply keeps_upd; with_reducible first | assumption)

theorem kept_contention (s₀ : State) (l : NSet) (s : State)  (hk : Keeps s₀ s) : Keeps s₀ (contention l s) := by
  unfold contention
  repeat' first
    | (with_reducible first | assumption | intro _)
    | split
    | (with_reducible first | apply kept_raiseIf | apply kept_State_count | apply kept_State_setFld | apply kept_foldl)

theorem kept_putFrame (s₀ : State) (n : Nat) (i : NSet) (s : State)  (hk : Keeps s₀ s) : Keeps s₀ (putFrame n i s) := by
  unfold putFrame
  repeat' first
    | (with_reducible first | assumption | intro _)
    | split
    | (with_reducible first | apply kept_State_setFlds | apply kept_fieldRecord | apply outKeeps_next | exact outKeeps_refused
                            | apply optKeeps_some | exact optKeeps_none)
    | dsimp -zeta only
    | (with_reducible apply keeps_upd; with_reducible first | assumption | apply kept_State_setFlds | apply kept_fieldRecord)

theorem kept_State_sendShort (s₀ : State) (s : State) (f : HubFrame)  (hk : Keeps s₀ s) : Keeps s₀ (State.sendShort s f) := by
  unfold State.sendShort
  repeat' first
    | (with_reducible first | assumption | intro _)
    | (extract_lets +onlyGivenNames x
       first
       | (refine keeps_let (s₀ := s₀) (s := x) ?_ ?_ <;> first | (intro hx; clear_value x) | subst x)
       | subst x)
    | split
    | (with_reducible first | apply kept_State_sendFb | apply outKeeps_next | exact outKeeps_refused | apply optKeeps_some
                            | exact optKeeps_none)
    | dsimp -zeta only
    | (with_reducible apply keeps_upd; with_reducible first | assumption | apply kept_State_sendFb)
  all_goals grind [kept_State_sendFb, Keeps, held_rset, held_setAt_cores, held_setAt_lanes, held_filter_regs, held_map_cores, held_map_lanes, held_write1, held_write, held_clear, held_filter_mem, held_out, held_free, held_rbcnt]

theorem kept_hubReads (s₀ : State) (t : Nat → Bool) (crcBad : Bool) (crc : Wire → State → State) (act : FbFrame → State → State) (s : State) (h_crc : ∀ v0 v1, Keeps s₀ v1 → Keeps s₀ (crc v0 v1)) (h_act : ∀ v0 v1, Keeps s₀ v1 → Keeps s₀ (act v0 v1)) (hk : Keeps s₀ s) : Keeps s₀ (hubReads t crcBad crc act s) := by
  unfold hubReads
  repeat' first
    | (with_reducible first | assumption | intro _)
    | (extract_lets +onlyGivenNames x
       first
       | (refine keeps_let (s₀ := s₀) (s := x) ?_ ?_ <;> first | (intro hx; clear_value x) | subst x)
       | subst x)
    | split
    | (with_reducible first | apply kept_State_count | apply kept_State_popHub | apply kept_badFrame | apply h_crc | apply h_act
                            | apply outKeeps_next | exact outKeeps_refused | apply optKeeps_some | exact optKeeps_none)
    | dsimp -zeta only
    | (with_reducible apply keeps_upd; with_reducible first | assumption | apply kept_State_count | apply kept_State_popHub
                                                             | apply kept_badFrame)
  all_goals grind [kept_State_count, kept_State_popHub, kept_badFrame, Keeps, held_rset, held_setAt_cores, held_setAt_lanes, held_filter_regs, held_map_cores, held_map_lanes, held_write1, held_write, held_clear, held_filter_mem, held_out, held_free, held_rbcnt]

theorem kept_acceptIn (s₀ : State) (q : Nat) (c : Nat) (g : Nat) (i : NSet) (x : NSet) (s : State)  (hk : Keeps s₀ s) : Keeps s₀ (acceptIn q c g i x s) := by
  unfold acceptIn
  repeat' first
    | (with_reducible first | assumption | intro _)
    | (extract_lets +onlyGivenNames x
       first
       | (refine keeps_let (s₀ := s₀) (s := x) ?_ ?_ <;> first | (intro hx; clear_value x) | subst x)
       | subst x)
    | split
    | (with_reducible first | apply kept_takePg | apply kept_fieldUp | apply kept_contention | apply kept_putFrame
                            | apply kept_badFrame | apply outKeeps_next | exact outKeeps_refused | apply optKeeps_some
                            | exact optKeeps_none)
    | dsimp -zeta only
    | (with_reducible apply keeps_upd; with_reducible first | assumption | apply kept_takePg | apply kept_fieldUp
                                                             | apply kept_contention | apply kept_putFrame
                                                             | apply kept_badFrame)
  all_goals grind [kept_takePg, kept_fieldUp, kept_contention, kept_putFrame, kept_badFrame, Keeps, held_rset, held_setAt_cores, held_setAt_lanes, held_filter_regs, held_map_cores, held_map_lanes, held_write1, held_write, held_clear, held_filter_mem, held_out, held_free, held_rbcnt]

theorem kept_fieldIn (s₀ : State) (crcBad : Bool) (s : State)  (hk : Keeps s₀ s) : Keeps s₀ (fieldIn crcBad s) := by
  unfold fieldIn
  repeat' first
    | (with_reducible first | assumption | intro _)
    | (extract_lets +onlyGivenNames x
       first
       | (refine keeps_let (s₀ := s₀) (s := x) ?_ ?_ <;> first | (intro hx; clear_value x) | subst x)
       | subst x)
    | split
    | (with_reducible first | apply kept_hubReads | apply kept_badFrame | apply kept_State_sendShort | apply kept_acceptIn)
    | (with_reducible apply keeps_upd; with_reducible first | assumption | apply kept_hubReads | apply kept_badFrame
                                                             | apply kept_State_sendShort | apply kept_acceptIn)

theorem kept_execFieldIn (s₀ : State) (crcBad : Bool) (s : State)  (hk : Keeps s₀ s) : OutKeeps s₀ (execFieldIn crcBad s) := by
  unfold execFieldIn
  repeat' first
    | (with_reducible first | assumption | intro _)
    | split
    | (with_reducible first | apply kept_fieldIn | apply outKeeps_next | exact outKeeps_refused | apply optKeeps_some
                            | exact optKeeps_none)
    | dsimp -zeta only

theorem kept_fieldIdle (s₀ : State) (s : State)  (hk : Keeps s₀ s) : Keeps s₀ (fieldIdle s) := by
  unfold fieldIdle
  repeat' first
    | (with_reducible first | assumption | intro _)
    | split
    | (with_reducible first | apply kept_hubReads | apply kept_takePg | apply kept_fieldUp)

theorem kept_execFieldIdleFromFb (s₀ : State) (s : State)  (hk : Keeps s₀ s) : OutKeeps s₀ (execFieldIdleFromFb s) := by
  unfold execFieldIdleFromFb
  repeat' first
    | (with_reducible first | assumption | intro _)
    | split
    | (with_reducible first | apply kept_fieldIdle | apply outKeeps_next | exact outKeeps_refused | apply optKeeps_some
                            | exact optKeeps_none)
    | dsimp -zeta only

theorem kept_fieldNak (s₀ : State) (s : State)  (hk : Keeps s₀ s) : Keeps s₀ (fieldNak s) := by
  unfold fieldNak
  repeat' first
    | (with_reducible first | assumption | intro _)
    | (extract_lets +onlyGivenNames x
       first
       | (refine keeps_let (s₀ := s₀) (s := x) ?_ ?_ <;> first | (intro hx; clear_value x) | subst x)
       | subst x)
    | split
    | (with_reducible first | apply kept_hubReads | apply kept_takePg | apply kept_fieldUp | apply kept_resent
                            | apply kept_State_sendFb | apply outKeeps_next | exact outKeeps_refused | apply optKeeps_some
                            | exact optKeeps_none)
    | dsimp -zeta only
    | (with_reducible apply keeps_upd; with_reducible first | assumption | apply kept_hubReads | apply kept_takePg
                                                             | apply kept_fieldUp | apply kept_resent
                                                             | apply kept_State_sendFb)
  all_goals grind [kept_hubReads, kept_takePg, kept_fieldUp, kept_resent, kept_State_sendFb, Keeps, held_rset, held_setAt_cores, held_setAt_lanes, held_filter_regs, held_map_cores, held_map_lanes, held_write1, held_write, held_clear, held_filter_mem, held_out, held_free, held_rbcnt]

theorem kept_execFieldNak (s₀ : State) (s : State)  (hk : Keeps s₀ s) : OutKeeps s₀ (execFieldNak s) := by
  unfold execFieldNak
  repeat' first
    | (with_reducible first | assumption | intro _)
    | split
    | (with_reducible first | apply kept_fieldNak | apply outKeeps_next | exact outKeeps_refused | apply optKeeps_some
                            | exact optKeeps_none)
    | dsimp -zeta only

theorem kept_fieldBad (s₀ : State) (s : State)  (hk : Keeps s₀ s) : Keeps s₀ (fieldBad s) := by
  unfold fieldBad
  repeat' first
    | (with_reducible first | assumption | intro _)
    | split
    | (with_reducible first | apply kept_hubReads | apply kept_badFrame | apply kept_fieldUp)

theorem kept_execFieldBad (s₀ : State) (s : State)  (hk : Keeps s₀ s) : OutKeeps s₀ (execFieldBad s) := by
  unfold execFieldBad
  repeat' first
    | (with_reducible first | assumption | intro _)
    | split
    | (with_reducible first | apply kept_fieldBad | apply outKeeps_next | exact outKeeps_refused | apply optKeeps_some
                            | exact optKeeps_none)
    | dsimp -zeta only

theorem kept_fieldTimeout (s₀ : State) (s : State)  (hk : Keeps s₀ s) : Keeps s₀ (fieldTimeout s) := by
  unfold fieldTimeout
  repeat' first
    | (with_reducible first | assumption | intro _)
    | split
    | (with_reducible first | apply kept_badFrame)

theorem kept_execFieldTimeout (s₀ : State) (s : State)  (hk : Keeps s₀ s) : OutKeeps s₀ (execFieldTimeout s) := by
  unfold execFieldTimeout
  repeat' first
    | (with_reducible first | assumption | intro _)
    | split
    | (with_reducible first | apply kept_fieldTimeout | apply outKeeps_next | exact outKeeps_refused | apply optKeeps_some
                            | exact optKeeps_none)
    | dsimp -zeta only

theorem kept_fieldDown (s₀ : State) (s : State)  (hk : Keeps s₀ s) : Keeps s₀ (fieldDown s) := by
  unfold fieldDown
  repeat' first
    | (with_reducible first | assumption | intro _)
    | (extract_lets +onlyGivenNames x
       first
       | (refine keeps_let (s₀ := s₀) (s := x) ?_ ?_ <;> first | (intro hx; clear_value x) | subst x)
       | subst x)
    | split
    | (with_reducible first | apply kept_raise | apply kept_State_setFld | apply kept_badFrame)

theorem kept_execFieldCrossingDown (s₀ : State) (s : State)  (hk : Keeps s₀ s) : OutKeeps s₀ (execFieldCrossingDown s) := by
  unfold execFieldCrossingDown
  repeat' first
    | (with_reducible first | assumption | intro _)
    | split
    | (with_reducible first | apply kept_fieldDown | apply outKeeps_next | exact outKeeps_refused | apply optKeeps_some
                            | exact optKeeps_none)
    | dsimp -zeta only

theorem kept_fieldIdleSend (s₀ : State) (hubEnd : Bool) (s : State)  (hk : Keeps s₀ s) : Keeps s₀ (fieldIdleSend hubEnd s) := by
  unfold fieldIdleSend
  repeat' first
    | (with_reducible first | assumption | intro _)
    | split
    | (with_reducible first | apply kept_State_sendShort | apply kept_State_fbSend)

theorem kept_execFieldIdleSend (s₀ : State) (hubEnd : Bool) (s : State)  (hk : Keeps s₀ s) : OutKeeps s₀ (execFieldIdleSend hubEnd s) := by
  unfold execFieldIdleSend
  repeat' first
    | (with_reducible first | assumption | intro _)
    | split
    | (with_reducible first | apply kept_fieldIdleSend | apply outKeeps_next | exact outKeeps_refused | apply optKeeps_some
                            | exact optKeeps_none)
    | dsimp -zeta only

theorem kept_bankWrite (s₀ : State) (n : Nat) (d : Word) (s : State)  (hk : Keeps s₀ s) : Keeps s₀ (bankWrite n d s) := by
  unfold bankWrite
  repeat' first
    | (with_reducible first | assumption | intro _)
    | (extract_lets +onlyGivenNames x
       first
       | (refine keeps_let (s₀ := s₀) (s := x) ?_ ?_ <;> first | (intro hx; clear_value x) | subst x)
       | subst x)
    | split
    | (with_reducible first | apply kept_State_setFld | apply kept_plainWrite | apply kept_State_setFlds)
    | (with_reducible apply keeps_upd; with_reducible first | assumption | apply kept_State_setFld | apply kept_plainWrite
                                                             | apply kept_State_setFlds)

theorem kept_execFioBankWrite (s₀ : State) (m : Nat) (n : Nat) (d : Word) (s : State)  (hk : Keeps s₀ s) : OutKeeps s₀ (execFioBankWrite m n d s) := by
  unfold execFioBankWrite
  repeat' first
    | (with_reducible first | assumption | intro _)
    | split
    | (with_reducible first | apply kept_regWrite | apply kept_bankWrite | apply outKeeps_next | exact outKeeps_refused
                            | apply optKeeps_some | exact optKeeps_none)
    | dsimp -zeta only

theorem kept_cellWrite (s₀ : State) (n : Nat) (d : Word) (s : State)  (hk : Keeps s₀ s) : Keeps s₀ (cellWrite n d s) := by
  unfold cellWrite
  repeat' first
    | (with_reducible first | assumption | intro _)
    | split
    | (with_reducible first | apply kept_plainWrite)
    | (with_reducible apply keeps_upd; with_reducible first | assumption | apply kept_plainWrite)

theorem kept_execFioCellWrite (s₀ : State) (m : Nat) (n : Nat) (d : Word) (s : State)  (hk : Keeps s₀ s) : OutKeeps s₀ (execFioCellWrite m n d s) := by
  unfold execFioCellWrite
  repeat' first
    | (with_reducible first | assumption | intro _)
    | split
    | (with_reducible first | apply kept_regWrite | apply kept_cellWrite | apply outKeeps_next | exact outKeeps_refused
                            | apply optKeeps_some | exact optKeeps_none)
    | dsimp -zeta only

theorem kept_configSend (s₀ : State) (n : Nat) (s : State)  (hk : Keeps s₀ s) : Keeps s₀ (configSend n s) := by
  unfold configSend
  repeat' first
    | (with_reducible first | assumption | intro _)
    | (extract_lets +onlyGivenNames x
       first
       | (refine keeps_let (s₀ := s₀) (s := x) ?_ ?_ <;> first | (intro hx; clear_value x) | subst x)
       | subst x)
    | split
    | (with_reducible first | apply kept_State_sendFb | apply outKeeps_next | exact outKeeps_refused | apply optKeeps_some
                            | exact optKeeps_none)
    | dsimp -zeta only
    | (with_reducible apply keeps_upd; with_reducible first | assumption | apply kept_State_sendFb)
  all_goals grind [kept_State_sendFb, Keeps, held_rset, held_setAt_cores, held_setAt_lanes, held_filter_regs, held_map_cores, held_map_lanes, held_write1, held_write, held_clear, held_filter_mem, held_out, held_free, held_rbcnt]

theorem kept_execConfigSend (s₀ : State) (n : Nat) (s : State)  (hk : Keeps s₀ s) : OutKeeps s₀ (execConfigSend n s) := by
  unfold execConfigSend
  repeat' first
    | (with_reducible first | assumption | intro _)
    | split
    | (with_reducible first | apply kept_configSend | apply outKeeps_next | exact outKeeps_refused | apply optKeeps_some
                            | exact optKeeps_none)
    | dsimp -zeta only

theorem kept_bankFault (s₀ : State) (n : Nat) (s : State)  (hk : Keeps s₀ s) : Keeps s₀ (bankFault n s) := by
  unfold bankFault
  repeat' first
    | (with_reducible first | assumption | intro _)
    | split
    | (with_reducible first | apply kept_raise | apply kept_State_setFld)
    | (with_reducible apply keeps_upd; with_reducible first | assumption | apply kept_raise | apply kept_State_setFld)

theorem kept_execBankFault (s₀ : State) (n : Nat) (s : State)  (hk : Keeps s₀ s) : OutKeeps s₀ (execBankFault n s) := by
  unfold execBankFault
  repeat' first
    | (with_reducible first | assumption | intro _)
    | split
    | (with_reducible first | apply kept_bankFault | apply outKeeps_next | exact outKeeps_refused | apply optKeeps_some
                            | exact optKeeps_none)
    | dsimp -zeta only

theorem kept_supplyGood (s₀ : State) (n : Nat) (s : State)  (hk : Keeps s₀ s) : Keeps s₀ (supplyGood n s) := by
  unfold supplyGood
  repeat' first
    | (with_reducible first | assumption | intro _)
    | split
    | (with_reducible apply keeps_upd; with_reducible first | assumption)

theorem kept_execBankSupplyGood (s₀ : State) (n : Nat) (s : State)  (hk : Keeps s₀ s) : OutKeeps s₀ (execBankSupplyGood n s) := by
  unfold execBankSupplyGood
  repeat' first
    | (with_reducible first | assumption | intro _)
    | split
    | (with_reducible first | apply kept_supplyGood | apply outKeeps_next | exact outKeeps_refused | apply optKeeps_some
                            | exact optKeeps_none)
    | dsimp -zeta only

end Sys2Proof.Machine
end

