-- ==== Sys2Proof/Laws/KeptLeague.lean ====
section
/-! SUPPORT. League: each operation keeps what `Keeps` says. -/
namespace Sys2Proof.Machine

theorem kept_rebase (s₀ : State) (t : Nat) (s : State)  (hk : Keeps s₀ s) : Keeps s₀ (rebase t s) := by
  unfold rebase
  repeat' first
    | (with_reducible first | assumption | intro _)
    | split
    | (with_reducible first | apply kept_foldl | apply keeps_getD)
    | (with_reducible apply keeps_upd; with_reducible first | assumption | apply kept_foldl)

theorem kept_leagueLate (s₀ : State) (kind : Nat) (port : Nat) (origin : Nat) (s : State)  (hk : Keeps s₀ s) : Keeps s₀ (leagueLate kind port origin s) := by
  unfold leagueLate
  repeat' first
    | (with_reducible first | assumption | intro _)
    | split
    | (with_reducible first | apply kept_enterSafe | apply kept_raise | apply kept_State_first)

theorem kept_lockstepError (s₀ : State) (kind : Nat) (port : Nat) (group : Nat) (s : State)  (hk : Keeps s₀ s) : Keeps s₀ (lockstepError kind port group s) := by
  unfold lockstepError
  repeat' first
    | (with_reducible first | assumption | intro _)
    | split
    | (with_reducible first | apply kept_enterSafe | apply kept_raise | apply kept_State_first)

theorem kept_State_relay (s₀ : State) (s : State) (but : Nat) (body : Nat) (copies : Nat)  (hk : Keeps s₀ s) : Keeps s₀ (State.relay s but body copies) := by
  unfold State.relay
  repeat' first
    | (with_reducible first | assumption | intro _)
    | split
    | (with_reducible first | apply kept_State_queueToken | apply kept_foldl)

theorem kept_cymSend (s₀ : State) (c : Nat) (s : State)  (hk : Keeps s₀ s) : Keeps s₀ (cymSend c s) := by
  unfold cymSend
  repeat' first
    | (with_reducible first | assumption | intro _)
    | split
    | (with_reducible first | apply kept_State_setLane | apply kept_foldl)

theorem kept_cymReset (s₀ : State) (s : State)  (hk : Keeps s₀ s) : Keeps s₀ (cymReset s) := by
  unfold cymReset
  repeat' first
    | (with_reducible first | assumption | intro _)
    | split
    | (with_reducible first | apply kept_State_setLane | apply kept_foldl)

theorem kept_updThr (s₀ : State) (s : State)  (hk : Keeps s₀ s) : Keeps s₀ (updThr s) := by
  unfold updThr
  repeat' first
    | (with_reducible first | assumption | intro _)
    | split
    | (with_reducible first | apply kept_State_setFld | apply kept_State_freshNat)

theorem kept_takeEvent (s₀ : State) (port : Nat) (slot : Nat) (s : State)  (hk : Keeps s₀ s) : Keeps s₀ (takeEvent port slot s) := by
  unfold takeEvent
  repeat' first
    | (with_reducible first | assumption | intro _)
    | (extract_lets +onlyGivenNames x
       first
       | (refine keeps_let (s₀ := s₀) (s := x) ?_ ?_ <;> first | (intro hx; clear_value x) | subst x)
       | subst x)
    | split
    | (with_reducible first | apply kept_State_addVote | apply kept_State_queueVote | apply kept_addLtrig
                            | apply kept_takeSnapReq | apply kept_State_setFld | apply kept_raise | apply kept_formMessage
                            | apply kept_requestSafe | apply kept_leagueLate | apply kept_foldl | apply outKeeps_next
                            | exact outKeeps_refused | apply optKeeps_some | exact optKeeps_none)
    | dsimp -zeta only
    | (with_reducible apply keeps_upd; with_reducible first | assumption | apply kept_State_addVote | apply kept_State_queueVote
                                                             | apply kept_addLtrig | apply kept_takeSnapReq
                                                             | apply kept_State_setFld | apply kept_raise
                                                             | apply kept_formMessage | apply kept_requestSafe
                                                             | apply kept_leagueLate | apply kept_foldl)
  all_goals grind [kept_State_addVote, kept_State_queueVote, kept_addLtrig, kept_takeSnapReq, kept_State_setFld, kept_raise, kept_formMessage, kept_requestSafe, kept_leagueLate, kept_foldl, Keeps, held_rset, held_setAt_cores, held_setAt_lanes, held_filter_regs, held_map_cores, held_map_lanes, held_write1, held_write, held_clear, held_filter_mem, held_out, held_free, held_rbcnt]

theorem kept_takeEarly (s₀ : State) (s : State)  (hk : Keeps s₀ s) : Keeps s₀ (takeEarly s) := by
  unfold takeEarly
  repeat' first
    | (with_reducible first | assumption | intro _)
    | (extract_lets +onlyGivenNames x
       first
       | (refine keeps_let (s₀ := s₀) (s := x) ?_ ?_ <;> first | (intro hx; clear_value x) | subst x)
       | subst x)
    | split
    | (with_reducible first | apply kept_takeEvent | apply kept_foldl | apply outKeeps_next | exact outKeeps_refused
                            | apply optKeeps_some | exact optKeeps_none)
    | dsimp -zeta only
    | (with_reducible apply keeps_upd; with_reducible first | assumption | apply kept_takeEvent | apply kept_foldl)
  all_goals grind [kept_takeEvent, kept_foldl, Keeps, held_rset, held_setAt_cores, held_setAt_lanes, held_filter_regs, held_map_cores, held_map_lanes, held_write1, held_write, held_clear, held_filter_mem, held_out, held_free, held_rbcnt]

theorem kept_becomeFormed (s₀ : State) (s : State)  (hk : Keeps s₀ s) : Keeps s₀ (becomeFormed s) := by
  unfold becomeFormed
  repeat' first
    | (with_reducible first | assumption | intro _)
    | (extract_lets +onlyGivenNames x
       first
       | (refine keeps_let (s₀ := s₀) (s := x) ?_ ?_ <;> first | (intro hx; clear_value x) | subst x)
       | subst x)
    | split
    | (with_reducible first | apply kept_raise | apply kept_State_setFld | apply kept_takeEarly | apply kept_formMessage)

theorem kept_zeroTime (s₀ : State) (s : State)  (hk : Keeps s₀ s) : Keeps s₀ (zeroTime s) := by
  unfold zeroTime
  repeat' first
    | (with_reducible first | assumption | intro _)
    | split
    | (with_reducible first | apply kept_rebase)
    | (with_reducible apply keeps_upd; with_reducible first | assumption | apply kept_rebase)

theorem kept_formPort (s₀ : State) (n : Nat) (on : Bool) (s : State)  (hk : Keeps s₀ s) : Keeps s₀ (formPort n on s) := by
  unfold formPort
  repeat' first
    | (with_reducible first | assumption | intro _)
    | split
    | (with_reducible first | apply kept_lnkCtlWrite)

theorem kept_startFormation (s₀ : State) (plan : Nat) (lid : Nat) (tmo : Nat) (s : State)  (hk : Keeps s₀ s) : Keeps s₀ (startFormation plan lid tmo s) := by
  unfold startFormation
  repeat' first
    | (with_reducible first | assumption | intro _)
    | (extract_lets +onlyGivenNames x
       first
       | (refine keeps_let (s₀ := s₀) (s := x) ?_ ?_ <;> first | (intro hx; clear_value x) | subst x)
       | subst x)
    | split
    | (with_reducible first | apply kept_setMode | apply kept_discardImage | apply kept_State_setFlds | apply kept_State_setFld
                            | apply kept_State_setReg | apply kept_formPort | apply kept_updThr | apply kept_selectSource
                            | apply kept_portCheck | apply kept_becomeFormed | apply kept_zeroTime | apply kept_foldl
                            | apply outKeeps_next | exact outKeeps_refused | apply optKeeps_some | exact optKeeps_none)
    | dsimp -zeta only
    | (with_reducible apply keeps_upd; with_reducible first | assumption | apply kept_setMode | apply kept_discardImage
                                                             | apply kept_State_setFlds | apply kept_State_setFld
                                                             | apply kept_State_setReg | apply kept_formPort
                                                             | apply kept_updThr | apply kept_selectSource
                                                             | apply kept_portCheck | apply kept_becomeFormed
                                                             | apply kept_zeroTime | apply kept_foldl)
  all_goals grind [kept_setMode, kept_discardImage, kept_State_setFlds, kept_State_setFld, kept_State_setReg, kept_formPort, kept_updThr, kept_selectSource, kept_portCheck, kept_becomeFormed, kept_zeroTime, kept_foldl, Keeps, held_rset, held_setAt_cores, held_setAt_lanes, held_filter_regs, held_map_cores, held_map_lanes, held_write1, held_write, held_clear, held_filter_mem, held_out, held_free, held_rbcnt]

theorem kept_autoForm (s₀ : State) (s : State)  (hk : Keeps s₀ s) : Keeps s₀ (autoForm s) := by
  unfold autoForm
  repeat' first
    | (with_reducible first | assumption | intro _)
    | (extract_lets +onlyGivenNames x
       first
       | (refine keeps_let (s₀ := s₀) (s := x) ?_ ?_ <;> first | (intro hx; clear_value x) | subst x)
       | subst x)
    | split
    | (with_reducible first | apply kept_startFormation)

theorem kept_enterIdle (s₀ : State) (s : State)  (hk : Keeps s₀ s) : Keeps s₀ (enterIdle s) := by
  unfold enterIdle
  repeat' first
    | (with_reducible first | assumption | intro _)
    | split
    | (with_reducible first | apply kept_autoForm | apply kept_setMode)

theorem kept_bootFormation (s₀ : State) (s : State)  (hk : Keeps s₀ s) : Keeps s₀ (bootFormation s) := by
  unfold bootFormation
  repeat' first
    | (with_reducible first | assumption | intro _)
    | (extract_lets +onlyGivenNames x
       first
       | (refine keeps_let (s₀ := s₀) (s := x) ?_ ?_ <;> first | (intro hx; clear_value x) | subst x)
       | subst x)
    | split
    | (with_reducible first | apply kept_startFormation | apply kept_State_setReg)

theorem kept_execLgeForm (s₀ : State) (msg : Msg) (s : State)  (hk : Keeps s₀ s) : OutKeeps s₀ (execLgeForm msg s) := by
  unfold execLgeForm
  repeat' first
    | (with_reducible first | assumption | intro _)
    | split
    | (with_reducible first | apply kept_request | apply kept_startFormation | apply outKeeps_next | exact outKeeps_refused
                            | apply optKeeps_some | exact optKeeps_none)
    | dsimp -zeta only

theorem kept_lgeCtlWrite (s₀ : State) (d : Word) (s : State)  (hk : Keeps s₀ s) : Keeps s₀ (lgeCtlWrite d s) := by
  unfold lgeCtlWrite
  repeat' first
    | (with_reducible first | assumption | intro _)
    | (extract_lets +onlyGivenNames x
       first
       | (refine keeps_let (s₀ := s₀) (s := x) ?_ ?_ <;> first | (intro hx; clear_value x) | subst x)
       | subst x)
    | split
    | (with_reducible first | apply kept_plainWrite | apply kept_startFormation)

theorem kept_execLgeCtlForm (s₀ : State) (m : Nat) (d : Word) (s : State)  (hk : Keeps s₀ s) : OutKeeps s₀ (execLgeCtlForm m d s) := by
  unfold execLgeCtlForm
  repeat' first
    | (with_reducible first | assumption | intro _)
    | split
    | (with_reducible first | apply kept_regWrite | apply kept_lgeCtlWrite | apply outKeeps_next | exact outKeeps_refused
                            | apply optKeeps_some | exact optKeeps_none)
    | dsimp -zeta only

theorem kept_ownMasks (s₀ : State) (s : State)  (hk : Keeps s₀ s) : Keeps s₀ (ownMasks s) := by
  unfold ownMasks
  repeat' first
    | (with_reducible first | assumption | intro _)
    | split
    | (with_reducible first | apply kept_foldl)
    | (with_reducible apply keeps_upd; with_reducible first | assumption | apply kept_foldl)

theorem kept_tryComplete (s₀ : State) (s : State)  (hk : Keeps s₀ s) : Keeps s₀ (tryComplete s) := by
  unfold tryComplete
  repeat' first
    | (with_reducible first | assumption | intro _)
    | (extract_lets +onlyGivenNames x
       first
       | (refine keeps_let (s₀ := s₀) (s := x) ?_ ?_ <;> first | (intro hx; clear_value x) | subst x)
       | subst x)
    | split
    | (with_reducible first | apply kept_State_relay | apply kept_State_setFld | apply kept_becomeFormed | apply kept_zeroTime)
    | (with_reducible apply keeps_upd; with_reducible first | assumption | apply kept_State_relay | apply kept_State_setFld
                                                             | apply kept_becomeFormed | apply kept_zeroTime)

theorem kept_formTokenSend (s₀ : State) (s : State)  (hk : Keeps s₀ s) : Keeps s₀ (formTokenSend s) := by
  unfold formTokenSend
  repeat' first
    | (with_reducible first | assumption | intro _)
    | split
    | (with_reducible first | apply kept_ownMasks | apply kept_tryComplete | apply kept_State_relay)

theorem kept_execFormTokenSend (s₀ : State) (s : State)  (hk : Keeps s₀ s) : OutKeeps s₀ (execFormTokenSend s) := by
  unfold execFormTokenSend
  repeat' first
    | (with_reducible first | assumption | intro _)
    | split
    | (with_reducible first | apply kept_formTokenSend | apply outKeeps_next | exact outKeeps_refused | apply optKeeps_some
                            | exact optKeeps_none)
    | dsimp -zeta only

theorem kept_formReceive (s₀ : State) (port : Nat) (r : Nat) (g : Nat) (w : Nat) (s : State)  (hk : Keeps s₀ s) : Keeps s₀ (formReceive port r g w s) := by
  unfold formReceive
  repeat' first
    | (with_reducible first | assumption | intro _)
    | split
    | (with_reducible first | apply kept_tryComplete | apply kept_ownMasks)
    | (with_reducible apply keeps_upd; with_reducible first | assumption | apply kept_tryComplete | apply kept_ownMasks)

theorem kept_execTokenForm (s₀ : State) (port : Nat) (ready : BitVec 64) (gradebad : BitVec 64) (wrong : BitVec 64) (s : State)  (hk : Keeps s₀ s) : OutKeeps s₀ (execTokenForm port ready gradebad wrong s) := by
  unfold execTokenForm
  repeat' first
    | (with_reducible first | assumption | intro _)
    | split
    | (with_reducible first | apply kept_formReceive | apply outKeeps_next | exact outKeeps_refused | apply optKeeps_some
                            | exact optKeeps_none)
    | dsimp -zeta only

theorem kept_takeRate (s₀ : State) (mhz : Nat) (s : State)  (hk : Keeps s₀ s) : Keeps s₀ (takeRate mhz s) := by
  unfold takeRate
  repeat' first
    | (with_reducible first | assumption | intro _)
    | split
    | (with_reducible first | apply kept_State_setFlds)
    | (with_reducible apply keeps_upd; with_reducible first | assumption | apply kept_State_setFlds)

theorem kept_formedReceive (s₀ : State) (port : Nat) (h : Nat) (mhz : Nat) (s : State)  (hk : Keeps s₀ s) : Keeps s₀ (formedReceive port h mhz s) := by
  unfold formedReceive
  repeat' first
    | (with_reducible first | assumption | intro _)
    | (extract_lets +onlyGivenNames x
       first
       | (refine keeps_let (s₀ := s₀) (s := x) ?_ ?_ <;> first | (intro hx; clear_value x) | subst x)
       | subst x)
    | split
    | (with_reducible first | apply kept_State_relay | apply kept_State_setFld | apply kept_takeRate | apply kept_zeroTime
                            | apply kept_becomeFormed)
    | (with_reducible apply keeps_upd; with_reducible first | assumption | apply kept_State_relay | apply kept_State_setFld
                                                             | apply kept_takeRate | apply kept_zeroTime
                                                             | apply kept_becomeFormed)

theorem kept_execTokenFormed (s₀ : State) (port : Nat) (h : Nat) (mhz : Nat) (s : State)  (hk : Keeps s₀ s) : OutKeeps s₀ (execTokenFormed port h mhz s) := by
  unfold execTokenFormed
  repeat' first
    | (with_reducible first | assumption | intro _)
    | split
    | (with_reducible first | apply kept_formedReceive | apply outKeeps_next | exact outKeeps_refused | apply optKeeps_some
                            | exact optKeeps_none)
    | dsimp -zeta only

theorem kept_tbsyncSend (s₀ : State) (s : State)  (hk : Keeps s₀ s) : Keeps s₀ (tbsyncSend s) := by
  unfold tbsyncSend
  repeat' first
    | (with_reducible first | assumption | intro _)
    | (extract_lets +onlyGivenNames x
       first
       | (refine keeps_let (s₀ := s₀) (s := x) ?_ ?_ <;> first | (intro hx; clear_value x) | subst x)
       | subst x)
    | split
    | (with_reducible first | apply kept_raiseIf | apply kept_becomeFormed | apply kept_State_relay | apply kept_zeroTime
                            | apply kept_raise)
    | (with_reducible apply keeps_upd; with_reducible first | assumption | apply kept_raiseIf | apply kept_becomeFormed
                                                             | apply kept_State_relay | apply kept_zeroTime
                                                             | apply kept_raise)

theorem kept_execTbsyncSend (s₀ : State) (s : State)  (hk : Keeps s₀ s) : OutKeeps s₀ (execTbsyncSend s) := by
  unfold execTbsyncSend
  repeat' first
    | (with_reducible first | assumption | intro _)
    | split
    | (with_reducible first | apply kept_tbsyncSend | apply outKeeps_next | exact outKeeps_refused | apply optKeeps_some
                            | exact optKeeps_none)
    | dsimp -zeta only

theorem kept_tbsyncReceive (s₀ : State) (port : Nat) (t : Nat) (s : State)  (hk : Keeps s₀ s) : Keeps s₀ (tbsyncReceive port t s) := by
  unfold tbsyncReceive
  repeat' first
    | (with_reducible first | assumption | intro _)
    | (extract_lets +onlyGivenNames x
       first
       | (refine keeps_let (s₀ := s₀) (s := x) ?_ ?_ <;> first | (intro hx; clear_value x) | subst x)
       | subst x)
    | split
    | (with_reducible first | apply kept_rebase | apply kept_State_relay | apply kept_raiseIf | apply kept_becomeFormed
                            | apply kept_raise | apply kept_enterSafe)
    | (with_reducible apply keeps_upd; with_reducible first | assumption | apply kept_rebase | apply kept_State_relay
                                                             | apply kept_raiseIf | apply kept_becomeFormed
                                                             | apply kept_raise | apply kept_enterSafe)

theorem kept_execTokenTbsync (s₀ : State) (port : Nat) (t : Nat) (s : State)  (hk : Keeps s₀ s) : OutKeeps s₀ (execTokenTbsync port t s) := by
  unfold execTokenTbsync
  repeat' first
    | (with_reducible first | assumption | intro _)
    | split
    | (with_reducible first | apply kept_tbsyncReceive | apply outKeeps_next | exact outKeeps_refused | apply optKeeps_some
                            | exact optKeeps_none)
    | dsimp -zeta only

theorem kept_formationTimeout (s₀ : State) (s : State)  (hk : Keeps s₀ s) : Keeps s₀ (formationTimeout s) := by
  unfold formationTimeout
  repeat' first
    | (with_reducible first | assumption | intro _)
    | (extract_lets +onlyGivenNames x
       first
       | (refine keeps_let (s₀ := s₀) (s := x) ?_ ?_ <;> first | (intro hx; clear_value x) | subst x)
       | subst x)
    | split
    | (with_reducible first | apply kept_ownMasks | apply kept_State_setPair | apply kept_raise | apply kept_formMessage)
    | (with_reducible apply keeps_upd; with_reducible first | assumption | apply kept_ownMasks | apply kept_State_setPair
                                                             | apply kept_raise | apply kept_formMessage)

theorem kept_execFormationTimeout (s₀ : State) (s : State)  (hk : Keeps s₀ s) : OutKeeps s₀ (execFormationTimeout s) := by
  unfold execFormationTimeout
  repeat' first
    | (with_reducible first | assumption | intro _)
    | split
    | (with_reducible first | apply kept_formationTimeout | apply outKeeps_next | exact outKeeps_refused | apply optKeeps_some
                            | exact optKeeps_none)
    | dsimp -zeta only

theorem kept_reflock (s₀ : State) (s : State)  (hk : Keeps s₀ s) : Keeps s₀ (reflock s) := by
  unfold reflock
  repeat' first
    | (with_reducible first | assumption | intro _)
    | split
    | (with_reducible first | apply kept_State_setFld)

theorem kept_execReflock (s₀ : State) (s : State)  (hk : Keeps s₀ s) : OutKeeps s₀ (execReflock s) := by
  unfold execReflock
  repeat' first
    | (with_reducible first | assumption | intro _)
    | split
    | (with_reducible first | apply kept_reflock | apply outKeeps_next | exact outKeeps_refused | apply optKeeps_some
                            | exact optKeeps_none)
    | dsimp -zeta only

theorem kept_voteReceive (s₀ : State) (port : Nat) (vseq : Nat) (slots : List Nat) (s : State)  (hk : Keeps s₀ s) : Keeps s₀ (voteReceive port vseq slots s) := by
  unfold voteReceive
  repeat' first
    | (with_reducible first | assumption | intro _)
    | (extract_lets +onlyGivenNames x
       first
       | (refine keeps_let (s₀ := s₀) (s := x) ?_ ?_ <;> first | (intro hx; clear_value x) | subst x)
       | subst x)
    | split
    | (with_reducible first | apply kept_toDetect | apply kept_State_setLane | apply kept_takeEvent | apply kept_foldl
                            | apply outKeeps_next | exact outKeeps_refused | apply optKeeps_some | exact optKeeps_none)
    | dsimp -zeta only
    | (with_reducible apply keeps_upd; with_reducible first | assumption | apply kept_toDetect | apply kept_State_setLane
                                                             | apply kept_takeEvent | apply kept_foldl)
  all_goals grind [kept_toDetect, kept_State_setLane, kept_takeEvent, kept_foldl, Keeps, held_rset, held_setAt_cores, held_setAt_lanes, held_filter_regs, held_map_cores, held_map_lanes, held_write1, held_write, held_clear, held_filter_mem, held_out, held_free, held_rbcnt]

theorem kept_execTokenVote (s₀ : State) (port : Nat) (vseq : Nat) (slots : List (BitVec 32)) (s : State)  (hk : Keeps s₀ s) : OutKeeps s₀ (execTokenVote port vseq slots s) := by
  unfold execTokenVote
  repeat' first
    | (with_reducible first | assumption | intro _)
    | split
    | (with_reducible first | apply kept_autoForm | apply kept_voteReceive | apply outKeeps_next | exact outKeeps_refused
                            | apply optKeeps_some | exact optKeeps_none)
    | dsimp -zeta only

theorem kept_snapNamed (s₀ : State) (t : CycleTok) (s : State)  (hk : Keeps s₀ s) : Keeps s₀ (snapNamed t s) := by
  unfold snapNamed
  split
  · exact hk
  · split
    · exact hk
    · next u e =>
      have hu : Keeps s₀ u := by
        split at e
        · cases e
          exact hk
        · exact kept_State_create s₀ s 6 _ hk u e
      apply kept_State_setFlds
      exact hu

theorem kept_cycleReceive (s₀ : State) (port : Nat) (t : CycleTok) (s : State)  (hk : Keeps s₀ s) : Keeps s₀ (cycleReceive port t s) := by
  unfold cycleReceive
  repeat' first
    | (with_reducible first | assumption | intro _)
    | (extract_lets +onlyGivenNames x
       first
       | (refine keeps_let (s₀ := s₀) (s := x) ?_ ?_ <;> first | (intro hx; clear_value x) | subst x)
       | subst x)
    | split
    | (with_reducible first | apply kept_State_relay | apply kept_lockstepError | apply kept_snapNamed | apply outKeeps_next
                            | exact outKeeps_refused | apply optKeeps_some | exact optKeeps_none)
    | dsimp -zeta only
    | (with_reducible apply keeps_upd; with_reducible first | assumption | apply kept_State_relay | apply kept_lockstepError
                                                             | apply kept_snapNamed)
  all_goals grind [kept_State_relay, kept_lockstepError, kept_snapNamed, Keeps, held_rset, held_setAt_cores, held_setAt_lanes, held_filter_regs, held_map_cores, held_map_lanes, held_write1, held_write, held_clear, held_filter_mem, held_out, held_free, held_rbcnt]

theorem kept_execTokenCycle (s₀ : State) (port : Nat) (tok : CycleTok) (s : State)  (hk : Keeps s₀ s) : OutKeeps s₀ (execTokenCycle port tok s) := by
  unfold execTokenCycle
  repeat' first
    | (with_reducible first | assumption | intro _)
    | split
    | (with_reducible first | apply kept_cycleReceive | apply outKeeps_next | exact outKeeps_refused | apply optKeeps_some
                            | exact optKeeps_none)
    | dsimp -zeta only

theorem kept_startMode (s₀ : State) (gs : Nat) (last : Nat) (s : State)  (hk : Keeps s₀ s) : Keeps s₀ (startMode gs last s) := by
  unfold startMode
  repeat' first
    | (with_reducible first | assumption | intro _)
    | (extract_lets +onlyGivenNames x
       first
       | (refine keeps_let (s₀ := s₀) (s := x) ?_ ?_ <;> first | (intro hx; clear_value x) | subst x)
       | subst x)
    | split
    | (with_reducible first | apply kept_setMode | apply outKeeps_next | exact outKeeps_refused | apply optKeeps_some
                            | exact optKeeps_none)
    | dsimp -zeta only
    | (with_reducible apply keeps_upd; with_reducible first | assumption | apply kept_setMode)
  all_goals grind [kept_setMode, Keeps, held_rset, held_setAt_cores, held_setAt_lanes, held_filter_regs, held_map_cores, held_map_lanes, held_write1, held_write, held_clear, held_filter_mem, held_out, held_free, held_rbcnt]

theorem kept_startReceive (s₀ : State) (port : Nat) (gs : Nat) (last : Nat) (s : State)  (hk : Keeps s₀ s) : Keeps s₀ (startReceive port gs last s) := by
  unfold startReceive
  repeat' first
    | (with_reducible first | assumption | intro _)
    | (extract_lets +onlyGivenNames x
       first
       | (refine keeps_let (s₀ := s₀) (s := x) ?_ ?_ <;> first | (intro hx; clear_value x) | subst x)
       | subst x)
    | split
    | (with_reducible first | apply kept_State_relay | apply kept_leagueLate | apply kept_startMode | apply kept_cymSend
                            | apply outKeeps_next | exact outKeeps_refused | apply optKeeps_some | exact optKeeps_none)
    | dsimp -zeta only
    | (with_reducible apply keeps_upd; with_reducible first | assumption | apply kept_State_relay | apply kept_leagueLate
                                                             | apply kept_startMode | apply kept_cymSend)
  all_goals grind [kept_State_relay, kept_leagueLate, kept_startMode, kept_cymSend, Keeps, held_rset, held_setAt_cores, held_setAt_lanes, held_filter_regs, held_map_cores, held_map_lanes, held_write1, held_write, held_clear, held_filter_mem, held_out, held_free, held_rbcnt]

theorem kept_execTokenStart (s₀ : State) (port : Nat) (gs : Nat) (last : Nat) (s : State)  (hk : Keeps s₀ s) : OutKeeps s₀ (execTokenStart port gs last s) := by
  unfold execTokenStart
  repeat' first
    | (with_reducible first | assumption | intro _)
    | split
    | (with_reducible first | apply kept_startReceive | apply outKeeps_next | exact outKeeps_refused | apply optKeeps_some
                            | exact optKeeps_none)
    | dsimp -zeta only

theorem kept_runStart (s₀ : State) (s : State)  (hk : Keeps s₀ s) : Keeps s₀ (runStart s) := by
  unfold runStart
  repeat' first
    | (with_reducible first | assumption | intro _)
    | split
    | (with_reducible apply keeps_upd; with_reducible first | assumption)

theorem kept_execRunStart (s₀ : State) (s : State)  (hk : Keeps s₀ s) : OutKeeps s₀ (execRunStart s) := by
  unfold execRunStart
  repeat' first
    | (with_reducible first | assumption | intro _)
    | split
    | (with_reducible first | apply kept_runStart | apply outKeeps_next | exact outKeeps_refused | apply optKeeps_some
                            | exact optKeeps_none)
    | dsimp -zeta only

theorem kept_rateReceive (s₀ : State) (port : Nat) (mhz : Nat) (s : State)  (hk : Keeps s₀ s) : Keeps s₀ (rateReceive port mhz s) := by
  unfold rateReceive
  repeat' first
    | (with_reducible first | assumption | intro _)
    | split
    | (with_reducible first | apply kept_State_relay | apply kept_takeRate)
    | (with_reducible apply keeps_upd; with_reducible first | assumption | apply kept_State_relay | apply kept_takeRate)

theorem kept_execTokenRate (s₀ : State) (port : Nat) (mhz : Nat) (s : State)  (hk : Keeps s₀ s) : OutKeeps s₀ (execTokenRate port mhz s) := by
  unfold execTokenRate
  repeat' first
    | (with_reducible first | assumption | intro _)
    | split
    | (with_reducible first | apply kept_rateReceive | apply outKeeps_next | exact outKeeps_refused | apply optKeeps_some
                            | exact optKeeps_none)
    | dsimp -zeta only

theorem kept_sfbClkWrite (s₀ : State) (d : Word) (s : State)  (hk : Keeps s₀ s) : Keeps s₀ (sfbClkWrite d s) := by
  unfold sfbClkWrite
  repeat' first
    | (with_reducible first | assumption | intro _)
    | (extract_lets +onlyGivenNames x
       first
       | (refine keeps_let (s₀ := s₀) (s := x) ?_ ?_ <;> first | (intro hx; clear_value x) | subst x)
       | subst x)
    | split
    | (with_reducible first | apply kept_State_setFld | apply kept_takeRate | apply kept_State_relay)
    | (with_reducible apply keeps_upd; with_reducible first | assumption | apply kept_State_setFld | apply kept_takeRate
                                                             | apply kept_State_relay)

theorem kept_execSfbClkWrite (s₀ : State) (m : Nat) (d : Word) (s : State)  (hk : Keeps s₀ s) : OutKeeps s₀ (execSfbClkWrite m d s) := by
  unfold execSfbClkWrite
  repeat' first
    | (with_reducible first | assumption | intro _)
    | split
    | (with_reducible first | apply kept_regWrite | apply kept_sfbClkWrite | apply outKeeps_next | exact outKeeps_refused
                            | apply optKeeps_some | exact optKeeps_none)
    | dsimp -zeta only

theorem kept_stepPllLock (s₀ : State) (s : State)  (hk : Keeps s₀ s) : Keeps s₀ (stepPllLock s) := by
  unfold stepPllLock
  repeat' first
    | (with_reducible first | assumption | intro _)
    | split
    | (with_reducible first | apply kept_State_setFld)
    | (with_reducible apply keeps_upd; with_reducible first | assumption | apply kept_State_setFld)

theorem kept_execStepPllLock (s₀ : State) (s : State)  (hk : Keeps s₀ s) : OutKeeps s₀ (execStepPllLock s) := by
  unfold execStepPllLock
  repeat' first
    | (with_reducible first | assumption | intro _)
    | split
    | (with_reducible first | apply kept_stepPllLock | apply outKeeps_next | exact outKeeps_refused | apply optKeeps_some
                            | exact optKeeps_none)
    | dsimp -zeta only

theorem kept_execLgeQuery (s₀ : State) (msg : Msg) (s : State)  (hk : Keeps s₀ s) : OutKeeps s₀ (execLgeQuery msg s) := by
  unfold execLgeQuery
  repeat' first
    | (with_reducible first | assumption | intro _)
    | split
    | (with_reducible first | apply kept_request | apply outKeeps_next | exact outKeeps_refused | apply optKeeps_some
                            | exact optKeeps_none)
    | dsimp -zeta only

theorem kept_execStageTimeout (s₀ : State) (port : Nat) (s : State)  (hk : Keeps s₀ s) : OutKeeps s₀ (execStageTimeout port s) := by
  unfold execStageTimeout
  repeat' first
    | (with_reducible first | assumption | intro _)
    | split
    | (with_reducible first | apply kept_autoForm | apply kept_stageTimeout | apply outKeeps_next | exact outKeeps_refused
                            | apply optKeeps_some | exact optKeeps_none)
    | dsimp -zeta only

theorem kept_execLaneLost (s₀ : State) (port : Nat) (s : State)  (hk : Keeps s₀ s) : OutKeeps s₀ (execLaneLost port s) := by
  unfold execLaneLost
  repeat' first
    | (with_reducible first | assumption | intro _)
    | split
    | (with_reducible first | apply kept_autoForm | apply kept_laneLost | apply outKeeps_next | exact outKeeps_refused
                            | apply optKeeps_some | exact optKeeps_none)
    | dsimp -zeta only

theorem kept_execLnkRetrain (s₀ : State) (m : Nat) (port : Nat) (d : Word) (s : State)  (hk : Keeps s₀ s) : OutKeeps s₀ (execLnkRetrain m port d s) := by
  unfold execLnkRetrain
  repeat' first
    | (with_reducible first | assumption | intro _)
    | split
    | (with_reducible first | apply kept_regWrite | apply kept_autoForm | apply kept_lnkCtlWrite | apply outKeeps_next
                            | exact outKeeps_refused | apply optKeeps_some | exact optKeeps_none)
    | dsimp -zeta only

theorem kept_execLnkEnable (s₀ : State) (m : Nat) (port : Nat) (d : Word) (s : State)  (hk : Keeps s₀ s) : OutKeeps s₀ (execLnkEnable m port d s) := by
  unfold execLnkEnable
  repeat' first
    | (with_reducible first | assumption | intro _)
    | split
    | (with_reducible first | apply kept_regWrite | apply kept_autoForm | apply kept_lnkCtlWrite | apply outKeeps_next
                            | exact outKeeps_refused | apply optKeeps_some | exact optKeeps_none)
    | dsimp -zeta only

end Sys2Proof.Machine
end

