-- ==== Sys2Proof/Laws/KeptLoader.lean ====
section
/-! SUPPORT. Loader: each operation keeps what `Keeps` says. -/
namespace Sys2Proof.Machine

theorem kept_createDesign (s₀ : State) (mib : Nat) (s : State)  (hk : Keeps s₀ s) : OptKeeps s₀ (createDesign mib s) := by
  unfold createDesign
  repeat' first
    | (with_reducible first | assumption | intro _)
    | split
    | (with_reducible first | apply kept_State_create | apply outKeeps_next | exact outKeeps_refused | apply optKeeps_some
                            | exact optKeeps_none | refine keeps_opt ?_ (by assumption))
    | dsimp -zeta only

theorem kept_writeStores (s₀ : State) (l : Nat) (x : Sect) (d : List Byte) (s : State)  (hk : Keeps s₀ s) : Keeps s₀ (writeStores l x d s) := by
  unfold writeStores
  repeat' first
    | (with_reducible first | assumption | intro _)
    | split
    | (with_reducible apply keeps_upd; with_reducible first | assumption)

theorem kept_State_setTake (s₀ : State) (s : State) (t : Intake)  (hk : Keeps s₀ s) : Keeps s₀ (State.setTake s t) := by
  unfold State.setTake
  repeat' first
    | (with_reducible first | assumption | intro _)
    | split
    | (with_reducible apply keeps_upd; with_reducible first | assumption)

theorem kept_loadStep (s₀ : State) (x : Loading) (s : State)  (hk : Keeps s₀ s) : Keeps s₀ (loadStep x s) := by
  unfold loadStep
  repeat' first
    | (with_reducible first | assumption | intro _)
    | (extract_lets +onlyGivenNames x
       first
       | (refine keeps_let (s₀ := s₀) (s := x) ?_ ?_ <;> first | (intro hx; clear_value x) | subst x)
       | subst x)
    | split
    | (with_reducible first | apply kept_State_setTake | apply kept_createDesign | apply kept_State_setFld
                            | apply kept_State_create | apply kept_writeStores | apply outKeeps_next
                            | exact outKeeps_refused | apply optKeeps_some | exact optKeeps_none
                            | refine keeps_opt ?_ (by assumption))
    | dsimp -zeta only

theorem kept_loadProgress (s₀ : State) (a0 : Nat) (a1 : State)  (hk : Keeps s₀ a1) : Keeps s₀ (loadProgress a0 a1) := by
  induction a0 generalizing a1 with
  | zero =>
    unfold loadProgress
    repeat' first
      | (with_reducible first | assumption | intro _)
      | split
      | (with_reducible first | apply kept_loadStep)
  | succ y ih =>
    unfold loadProgress
    repeat' first
      | (with_reducible first | assumption | intro _)
      | with_reducible apply ih
      | split
      | (with_reducible first | apply kept_loadStep)

theorem kept_loadBytes (s₀ : State) (d : List Byte) (s : State)  (hk : Keeps s₀ s) : Keeps s₀ (loadBytes d s) := by
  unfold loadBytes
  repeat' first
    | (with_reducible first | assumption | intro _)
    | split
    | (with_reducible first | apply kept_loadProgress | apply kept_State_setFld | apply kept_State_setTake)

theorem kept_stageBytes (s₀ : State) (k : Nat) (d : List Byte) (s : State)  (hk : Keeps s₀ s) : Keeps s₀ (stageBytes k d s) := by
  unfold stageBytes
  repeat' first
    | (with_reducible first | assumption | intro _)
    | split
    | (with_reducible first | apply kept_State_putRegion)
    | (with_reducible apply keeps_upd; with_reducible first | assumption | apply kept_State_putRegion)

theorem kept_beginLoad (s₀ : State) (session : Nat) (length : Nat) (slot : Option Nat) (s : State)  (hk : Keeps s₀ s) : Keeps s₀ (beginLoad session length slot s) := by
  unfold beginLoad
  repeat' first
    | (with_reducible first | assumption | intro _)
    | (extract_lets +onlyGivenNames x
       first
       | (refine keeps_let (s₀ := s₀) (s := x) ?_ ?_ <;> first | (intro hx; clear_value x) | subst x)
       | subst x)
    | split
    | (with_reducible first | apply kept_discardImage | apply kept_State_setFlds | apply kept_setMode | apply keeps_getD)
  all_goals grind [kept_discardImage, kept_State_setFlds, kept_setMode, Keeps, held_rset, held_setAt_cores, held_setAt_lanes, held_filter_regs, held_map_cores, held_map_lanes, held_write1, held_write, held_clear, held_filter_mem, held_out, held_free, held_rbcnt]

theorem kept_execLoadBegin (s₀ : State) (msg : Msg) (s : State)  (hk : Keeps s₀ s) : OutKeeps s₀ (execLoadBegin msg s) := by
  unfold execLoadBegin
  repeat' first
    | (with_reducible first | assumption | intro _)
    | split
    | (with_reducible first | apply kept_request | apply kept_ok | apply kept_State_openIn | apply kept_beginLoad
                            | apply outKeeps_next | exact outKeeps_refused | apply optKeeps_some | exact optKeeps_none
                            | refine keeps_pair ?_ (by assumption) | refine keeps_triple ?_ (by assumption))
    | dsimp -zeta only

theorem kept_loadStaged (s₀ : State) (n : Nat) (k : Nat) (s : State)  (hk : Keeps s₀ s) : Keeps s₀ (loadStaged n k s).2.2 := by
  unfold loadStaged
  repeat' first
    | (with_reducible first | assumption | intro _)
    | split
    | (with_reducible first | apply kept_hubRead | apply kept_State_setFld | apply kept_beginLoad | apply kept_ok
                            | apply kept_loadBytes)

theorem kept_execLoadStaged (s₀ : State) (msg : Msg) (s : State)  (hk : Keeps s₀ s) : OutKeeps s₀ (execLoadStaged msg s) := by
  unfold execLoadStaged
  repeat' first
    | (with_reducible first | assumption | intro _)
    | split
    | (with_reducible first | apply kept_request | apply kept_loadStaged | apply outKeeps_next | exact outKeeps_refused
                            | apply optKeeps_some | exact optKeeps_none | refine keeps_pair ?_ (by assumption)
                            | refine keeps_triple ?_ (by assumption))
    | dsimp -zeta only

theorem kept_endLoad (s₀ : State) (r : Report) (s : State)  (hk : Keeps s₀ s) : Keeps s₀ (endLoad r s) := by
  unfold endLoad
  repeat' first
    | (with_reducible first | assumption | intro _)
    | (extract_lets +onlyGivenNames x
       first
       | (refine keeps_let (s₀ := s₀) (s := x) ?_ ?_ <;> first | (intro hx; clear_value x) | subst x)
       | subst x)
    | split
    | (with_reducible first | apply kept_tellRefusal | apply kept_enterIdle | apply kept_dropLoad | apply outKeeps_next
                            | exact outKeeps_refused | apply optKeeps_some | exact optKeeps_none)
    | dsimp -zeta only
    | (with_reducible apply keeps_upd; with_reducible first | assumption | apply kept_tellRefusal | apply kept_enterIdle
                                                             | apply kept_dropLoad)
  all_goals grind [kept_tellRefusal, kept_enterIdle, kept_dropLoad, Keeps, held_rset, held_setAt_cores, held_setAt_lanes, held_filter_regs, held_map_cores, held_map_lanes, held_write1, held_write, held_clear, held_filter_mem, held_out, held_free, held_rbcnt]

theorem kept_execLoadAbort (s₀ : State) (msg : Msg) (s : State)  (hk : Keeps s₀ s) : OutKeeps s₀ (execLoadAbort msg s) := by
  unfold execLoadAbort
  repeat' first
    | (with_reducible first | assumption | intro _)
    | split
    | (with_reducible first | apply kept_request | apply kept_ok | apply kept_endLoad | apply outKeeps_next
                            | exact outKeeps_refused | apply optKeeps_some | exact optKeeps_none
                            | refine keeps_pair ?_ (by assumption) | refine keeps_triple ?_ (by assumption))
    | dsimp -zeta only

theorem kept_execUnload (s₀ : State) (msg : Msg) (s : State)  (hk : Keeps s₀ s) : OutKeeps s₀ (execUnload msg s) := by
  unfold execUnload
  repeat' first
    | (with_reducible first | assumption | intro _)
    | split
    | (with_reducible first | apply kept_request | apply kept_ok | apply kept_enterIdle | apply kept_discardImage
                            | apply outKeeps_next | exact outKeeps_refused | apply optKeeps_some | exact optKeeps_none
                            | refine keeps_pair ?_ (by assumption) | refine keeps_triple ?_ (by assumption))
    | dsimp -zeta only

theorem kept_emptySlot (s₀ : State) (k : Nat) (s : State)  (hk : Keeps s₀ s) : Keeps s₀ (emptySlot k s) := by
  unfold emptySlot
  repeat' first
    | (with_reducible first | assumption | intro _)
    | split
    | (with_reducible first | apply kept_State_clearRegs | apply kept_State_free)
    | (with_reducible apply keeps_upd; with_reducible first | assumption | apply kept_State_clearRegs | apply kept_State_free)

theorem kept_stageBegin (s₀ : State) (n : Nat) (k : Nat) (len : Nat) (s : State)  (hk : Keeps s₀ s) : Keeps s₀ (stageBegin n k len s).2.2 := by
  unfold stageBegin
  repeat' first
    | (with_reducible first | assumption | intro _)
    | (extract_lets +onlyGivenNames x
       first
       | (refine keeps_let (s₀ := s₀) (s := x) ?_ ?_ <;> first | (intro hx; clear_value x) | subst x)
       | subst x)
    | split
    | (with_reducible first | apply kept_emptySlot | apply kept_State_create | apply kept_State_setFlds | apply kept_ok
                            | apply kept_State_openIn | apply outKeeps_next | exact outKeeps_refused | apply optKeeps_some
                            | exact optKeeps_none | refine keeps_opt ?_ (by assumption)
                            | refine keeps_pair ?_ (by assumption) | refine keeps_triple ?_ (by assumption))
    | dsimp -zeta only
    | (with_reducible apply keeps_upd; with_reducible first | assumption | apply kept_emptySlot | apply kept_State_create
                                                             | apply kept_State_setFlds | apply kept_ok
                                                             | apply kept_State_openIn)

theorem kept_execStageBegin (s₀ : State) (msg : Msg) (s : State)  (hk : Keeps s₀ s) : OutKeeps s₀ (execStageBegin msg s) := by
  unfold execStageBegin
  repeat' first
    | (with_reducible first | assumption | intro _)
    | split
    | (with_reducible first | apply kept_request | apply kept_stageBegin | apply outKeeps_next | exact outKeeps_refused
                            | apply optKeeps_some | exact optKeeps_none | refine keeps_pair ?_ (by assumption)
                            | refine keeps_triple ?_ (by assumption))
    | dsimp -zeta only

theorem kept_execStageDelete (s₀ : State) (msg : Msg) (s : State)  (hk : Keeps s₀ s) : OutKeeps s₀ (execStageDelete msg s) := by
  unfold execStageDelete
  repeat' first
    | (with_reducible first | assumption | intro _)
    | split
    | (with_reducible first | apply kept_request | apply kept_ok | apply kept_emptySlot | apply outKeeps_next
                            | exact outKeeps_refused | apply optKeeps_some | exact optKeeps_none
                            | refine keeps_pair ?_ (by assumption) | refine keeps_triple ?_ (by assumption))
    | dsimp -zeta only

theorem kept_execLoadQuery (s₀ : State) (msg : Msg) (s : State)  (hk : Keeps s₀ s) : OutKeeps s₀ (execLoadQuery msg s) := by
  unfold execLoadQuery
  repeat' first
    | (with_reducible first | assumption | intro _)
    | split
    | (with_reducible first | apply kept_request | apply outKeeps_next | exact outKeeps_refused | apply optKeeps_some
                            | exact optKeeps_none)
    | dsimp -zeta only

theorem kept_execLoadRefuse (s₀ : State) (s : State)  (hk : Keeps s₀ s) : OutKeeps s₀ (execLoadRefuse s) := by
  unfold execLoadRefuse
  repeat' first
    | (with_reducible first | assumption | intro _)
    | split
    | (with_reducible first | apply kept_endLoad | apply outKeeps_next | exact outKeeps_refused | apply optKeeps_some
                            | exact optKeeps_none)
    | dsimp -zeta only

theorem kept_execLoadStall (s₀ : State) (s : State)  (hk : Keeps s₀ s) : OutKeeps s₀ (execLoadStall s) := by
  unfold execLoadStall
  repeat' first
    | (with_reducible first | assumption | intro _)
    | split
    | (with_reducible first | apply kept_endLoad | apply outKeeps_next | exact outKeeps_refused | apply optKeeps_some
                            | exact optKeeps_none)
    | dsimp -zeta only

theorem kept_initMemories (s₀ : State) (mems : List MemDesc) (inits : List (Nat × Nat × List Nat)) (s : State)  (hk : Keeps s₀ s) : Keeps s₀ (initMemories mems inits s) := by
  unfold initMemories
  repeat' first
    | (with_reducible first | assumption | intro _)
    | split
    | (with_reducible first | apply kept_foldl)
  all_goals grind [kept_foldl, Keeps, held_rset, held_setAt_cores, held_setAt_lanes, held_filter_regs, held_map_cores, held_map_lanes, held_write1, held_write, held_clear, held_filter_mem, held_out, held_free, held_rbcnt]

theorem kept_programChannels (s₀ : State) (asRead : List ChanRec) (patched : List ChanRec) (s : State)  (hk : Keeps s₀ s) : Keeps s₀ (programChannels asRead patched s) := by
  unfold programChannels
  repeat' first
    | (with_reducible first | assumption | intro _)
    | split
    | (with_reducible first | apply kept_State_setFlds | apply kept_foldl | apply keeps_getD)
  all_goals grind [kept_State_setFlds, kept_foldl, Keeps, held_rset, held_setAt_cores, held_setAt_lanes, held_filter_regs, held_map_cores, held_map_lanes, held_write1, held_write, held_clear, held_filter_mem, held_out, held_free, held_rbcnt]

theorem kept_completeLoad (s₀ : State) (x : Loading) (s : State)  (hk : Keeps s₀ s) : Keeps s₀ (completeLoad x s) := by
  unfold completeLoad
  repeat' first
    | (with_reducible first | assumption | intro _)
    | (extract_lets +onlyGivenNames x
       first
       | (refine keeps_let (s₀ := s₀) (s := x) ?_ ?_ <;> first | (intro hx; clear_value x) | subst x)
       | subst x)
    | split
    | (with_reducible first | apply kept_initMemories | apply kept_programChannels | apply kept_State_setFld
                            | apply kept_State_setFlds | apply kept_State_setReport | apply kept_State_eventTo
                            | apply kept_raise | apply kept_setMode | apply kept_primeFrames)
  all_goals grind [kept_initMemories, kept_programChannels, kept_State_setFld, kept_State_setFlds, kept_State_setReport, kept_State_eventTo, kept_raise, kept_setMode, kept_primeFrames, Keeps, held_rset, held_setAt_cores, held_setAt_lanes, held_filter_regs, held_map_cores, held_map_lanes, held_write1, held_write, held_clear, held_filter_mem, held_out, held_free, held_rbcnt]

theorem kept_endStaging (s₀ : State) (x : Staging) (r : Option Report) (s : State)  (hk : Keeps s₀ s) : Keeps s₀ (endStaging x r s) := by
  unfold endStaging
  repeat' first
    | (with_reducible first | assumption | intro _)
    | split
    | (with_reducible first | apply kept_State_setFld | apply kept_State_setReport | apply kept_emptySlot
                            | apply kept_State_eventTo | apply kept_raise | apply kept_State_setFlds)
    | (with_reducible apply keeps_upd; with_reducible first | assumption | apply kept_State_setFld | apply kept_State_setReport
                                                             | apply kept_emptySlot | apply kept_State_eventTo
                                                             | apply kept_raise | apply kept_State_setFlds)

theorem kept_execStageComplete (s₀ : State) (s : State)  (hk : Keeps s₀ s) : OutKeeps s₀ (execStageComplete s) := by
  unfold execStageComplete
  repeat' first
    | (with_reducible first | assumption | intro _)
    | split
    | (with_reducible first | apply kept_endStaging | apply outKeeps_next | exact outKeeps_refused | apply optKeeps_some
                            | exact optKeeps_none)
    | dsimp -zeta only

theorem kept_loaderLoses (s₀ : State) (n : Nat) (gone : Bool) (s : State)  (hk : Keeps s₀ s) : Keeps s₀ (loaderLoses n gone s) := by
  unfold loaderLoses
  repeat' first
    | (with_reducible first | assumption | intro _)
    | split
    | (with_reducible first | apply kept_endLoad | apply kept_endStaging | apply kept_foldl)

theorem kept_relWrite (s₀ : State) (d : Word) (s : State)  (hk : Keeps s₀ s) : Keeps s₀ (relWrite d s) := by
  unfold relWrite
  repeat' first
    | (with_reducible first | assumption | intro _)
    | (extract_lets +onlyGivenNames x
       first
       | (refine keeps_let (s₀ := s₀) (s := x) ?_ ?_ <;> first | (intro hx; clear_value x) | subst x)
       | subst x)
    | split
    | (with_reducible first | apply kept_plainWrite | apply kept_State_setFld)

end Sys2Proof.Machine
end

