-- ==== Sys2Proof/Laws/KeptCheckpoint.lean ====
section
/-! SUPPORT. Checkpoint: each operation keeps what `Keeps` says. -/
namespace Sys2Proof.Machine

theorem kept_ckNext (s₀ : State) (s : State)  (hk : Keeps s₀ s) : Keeps s₀ (ckNext s) := by
  unfold ckNext
  repeat' first
    | (with_reducible first | assumption | intro _)
    | (extract_lets +onlyGivenNames x
       first
       | (refine keeps_let (s₀ := s₀) (s := x) ?_ ?_ <;> first | (intro hx; clear_value x) | subst x)
       | subst x)
    | split
    | (with_reducible first | apply kept_State_putStream | apply kept_eccReads | apply kept_abortSnap | apply kept_State_setFld
                            | apply kept_foldl | apply keeps_getD)
    | (with_reducible apply keeps_upd; with_reducible first | assumption | apply kept_State_putStream | apply kept_eccReads
                                                             | apply kept_abortSnap | apply kept_State_setFld
                                                             | apply kept_foldl)

theorem kept_ckPump (s₀ : State) (a0 : Nat) (a1 : State)  (hk : Keeps s₀ a1) : Keeps s₀ (ckPump a0 a1) := by
  induction a0 generalizing a1 with
  | zero =>
    unfold ckPump
    repeat' first
      | (with_reducible first | assumption | intro _)
      | (extract_lets +onlyGivenNames x
         first
         | (refine keeps_let (s₀ := s₀) (s := x) ?_ ?_ <;> first | (intro hx; clear_value x) | subst x)
         | subst x)
      | split
      | (with_reducible first | apply kept_ckNext | apply keeps_getD)
  | succ y ih =>
    unfold ckPump
    repeat' first
      | (with_reducible first | assumption | intro _)
      | (extract_lets +onlyGivenNames x
         first
         | (refine keeps_let (s₀ := s₀) (s := x) ?_ ?_ <;> first | (intro hx; clear_value x) | subst x)
         | subst x)
      | with_reducible apply ih
      | split
      | (with_reducible first | apply kept_ckNext | apply keeps_getD)

theorem kept_checkpoint (s₀ : State) (n : Nat) (s : State)  (hk : Keeps s₀ s) : Keeps s₀ (checkpoint n s).2.2 := by
  unfold checkpoint
  repeat' first
    | (with_reducible first | assumption | intro _)
    | split
    | (with_reducible first | apply kept_ok | apply kept_State_setFld)
    | (with_reducible apply keeps_upd; with_reducible first | assumption | apply kept_ok | apply kept_State_setFld)

theorem kept_execCheckpoint (s₀ : State) (msg : Msg) (s : State)  (hk : Keeps s₀ s) : OutKeeps s₀ (execCheckpoint msg s) := by
  unfold execCheckpoint
  repeat' first
    | (with_reducible first | assumption | intro _)
    | split
    | (with_reducible first | apply kept_ckPump | apply kept_request | apply kept_checkpoint | apply outKeeps_next
                            | exact outKeeps_refused | apply optKeeps_some | exact optKeeps_none
                            | refine keeps_pair ?_ (by assumption) | refine keeps_triple ?_ (by assumption))
    | dsimp -zeta only

theorem kept_execShadowPlaneDrain (s₀ : State) (die : Nat) (bad : Bool) (s : State)  (hk : Keeps s₀ s) : OutKeeps s₀ (execShadowPlaneDrain die bad s) := by
  unfold execShadowPlaneDrain
  repeat' first
    | (with_reducible first | assumption | intro _)
    | split
    | (with_reducible first | apply kept_ckPump | apply kept_shadowDrain | apply outKeeps_next | exact outKeeps_refused
                            | apply optKeeps_some | exact optKeeps_none)
    | dsimp -zeta only

theorem kept_execSnapshotKept (s₀ : State) (s : State)  (hk : Keeps s₀ s) : OutKeeps s₀ (execSnapshotKept s) := by
  unfold execSnapshotKept
  repeat' first
    | (with_reducible first | assumption | intro _)
    | split
    | (with_reducible first | apply kept_ckPump | apply kept_snapKept | apply outKeeps_next | exact outKeeps_refused
                            | apply optKeeps_some | exact optKeeps_none)
    | dsimp -zeta only

theorem kept_execCheckpointStall (s₀ : State) (s : State)  (hk : Keeps s₀ s) : OutKeeps s₀ (execCheckpointStall s) := by
  unfold execCheckpointStall
  repeat' first
    | (with_reducible first | assumption | intro _)
    | split
    | (with_reducible first | apply kept_abortSnap | apply outKeeps_next | exact outKeeps_refused | apply optKeeps_some
                            | exact optKeeps_none)
    | dsimp -zeta only

theorem kept_ckAcked (s₀ : State) (s : State)  (hk : Keeps s₀ s) : Keeps s₀ (ckAcked s) := by
  unfold ckAcked
  repeat' first
    | (with_reducible first | assumption | intro _)
    | split
    | (with_reducible first | apply kept_raise | apply kept_State_setFlds)
    | (with_reducible apply keeps_upd; with_reducible first | assumption | apply kept_raise | apply kept_State_setFlds)

theorem kept_restoreBegin (s₀ : State) (n : Nat) (len : Nat) (s : State)  (hk : Keeps s₀ s) : Keeps s₀ (restoreBegin n len s) := by
  unfold restoreBegin
  repeat' first
    | (with_reducible first | assumption | intro _)
    | split
    | (with_reducible first | apply kept_endCapture | apply kept_abortSnap | apply kept_State_openIn | apply kept_State_setFld
                            | apply kept_setMode)
    | (with_reducible apply keeps_upd; with_reducible first | assumption | apply kept_endCapture | apply kept_abortSnap
                                                             | apply kept_State_openIn | apply kept_State_setFld
                                                             | apply kept_setMode)

theorem kept_execRestoreBegin (s₀ : State) (msg : Msg) (s : State)  (hk : Keeps s₀ s) : OutKeeps s₀ (execRestoreBegin msg s) := by
  unfold execRestoreBegin
  repeat' first
    | (with_reducible first | assumption | intro _)
    | split
    | (with_reducible first | apply kept_request | apply kept_ok | apply kept_restoreBegin | apply outKeeps_next
                            | exact outKeeps_refused | apply optKeeps_some | exact optKeeps_none
                            | refine keeps_pair ?_ (by assumption) | refine keeps_triple ?_ (by assumption))
    | dsimp -zeta only

theorem kept_writeSection (s₀ : State) (b : List Byte) (i : Nat) (s : State)  (hk : Keeps s₀ s) : Keeps s₀ (writeSection b i s) := by
  unfold writeSection
  repeat' first
    | (with_reducible first | assumption | intro _)
    | split
    | (with_reducible first | apply kept_State_putRegion | apply kept_foldl)
    | exact held_wf _ hk (Memory.wf_cells _ _ (Memory.wf_filter _ _ (held_mem hk)))
    | (with_reducible apply keeps_upd; with_reducible first | assumption | apply kept_State_putRegion | apply kept_foldl)

theorem kept_restoreBytes (s₀ : State) (d : List Byte) (s : State)  (hk : Keeps s₀ s) : Keeps s₀ (restoreBytes d s) := by
  unfold restoreBytes
  repeat' first
    | (with_reducible first | assumption | intro _)
    | (extract_lets +onlyGivenNames x
       first
       | (refine keeps_let (s₀ := s₀) (s := x) ?_ ?_ <;> first | (intro hx; clear_value x) | subst x)
       | subst x)
    | split
    | (with_reducible first | apply kept_writeSection | apply kept_foldl)
    | (with_reducible apply keeps_upd; with_reducible first | assumption | apply kept_writeSection | apply kept_foldl)

theorem kept_applyUndo (s₀ : State) (b : List Byte) (n : Nat) (s : State)  (hk : Keeps s₀ s) : Keeps s₀ (applyUndo b n s) := by
  unfold applyUndo
  repeat' first
    | (with_reducible first | assumption | intro _)
    | split
    | (with_reducible first | apply kept_State_putRegion | apply kept_foldl)

theorem kept_emptyChannels (s₀ : State) (s : State)  (hk : Keeps s₀ s) : Keeps s₀ (emptyChannels s) := by
  unfold emptyChannels
  repeat' first
    | (with_reducible first | assumption | intro _)
    | split
    | (with_reducible first | apply kept_State_setFlds | apply kept_State_setFld | apply kept_foldl)
    | (with_reducible apply keeps_upd; with_reducible first | assumption | apply kept_State_setFlds | apply kept_State_setFld
                                                             | apply kept_foldl)

theorem kept_completeRestore (s₀ : State) (r : Restoring) (s : State)  (hk : Keeps s₀ s) : Keeps s₀ (completeRestore r s) := by
  unfold completeRestore
  repeat' first
    | (with_reducible first | assumption | intro _)
    | (extract_lets +onlyGivenNames x
       first
       | (refine keeps_let (s₀ := s₀) (s := x) ?_ ?_ <;> first | (intro hx; clear_value x) | subst x)
       | subst x)
    | split
    | (with_reducible first | apply kept_applyUndo | apply kept_State_setFlds | apply kept_setMode | apply kept_dropSlotBits
                            | apply kept_emptyChannels | apply kept_raise | apply kept_primeFrames | apply outKeeps_next
                            | exact outKeeps_refused | apply optKeeps_some | exact optKeeps_none)
    | dsimp -zeta only
    | (with_reducible apply keeps_upd; with_reducible first | assumption | apply kept_applyUndo | apply kept_State_setFlds
                                                             | apply kept_setMode | apply kept_dropSlotBits
                                                             | apply kept_emptyChannels | apply kept_raise
                                                             | apply kept_primeFrames)
  all_goals grind [kept_applyUndo, kept_State_setFlds, kept_setMode, kept_dropSlotBits, kept_emptyChannels, kept_raise, kept_primeFrames, Keeps, held_rset, held_setAt_cores, held_setAt_lanes, held_filter_regs, held_map_cores, held_map_lanes, held_write1, held_write, held_clear, held_filter_mem, held_out, held_free, held_rbcnt]

theorem kept_refuseRestore (s₀ : State) (code : Nat) (offset : Nat) (s : State)  (hk : Keeps s₀ s) : Keeps s₀ (refuseRestore code offset s) := by
  unfold refuseRestore
  repeat' first
    | (with_reducible first | assumption | intro _)
    | split
    | (with_reducible first | apply kept_discardImage | apply kept_enterIdle | apply kept_State_eventTo | apply kept_raise)
    | (with_reducible apply keeps_upd; with_reducible first | assumption | apply kept_discardImage | apply kept_enterIdle
                                                             | apply kept_State_eventTo | apply kept_raise)

theorem kept_execRestoreRefuse (s₀ : State) (s : State)  (hk : Keeps s₀ s) : OutKeeps s₀ (execRestoreRefuse s) := by
  unfold execRestoreRefuse
  repeat' first
    | (with_reducible first | assumption | intro _)
    | split
    | (with_reducible first | apply kept_refuseRestore | apply outKeeps_next | exact outKeeps_refused | apply optKeeps_some
                            | exact optKeeps_none)
    | dsimp -zeta only

theorem kept_execRestoreStall (s₀ : State) (s : State)  (hk : Keeps s₀ s) : OutKeeps s₀ (execRestoreStall s) := by
  unfold execRestoreStall
  repeat' first
    | (with_reducible first | assumption | intro _)
    | split
    | (with_reducible first | apply kept_refuseRestore | apply outKeeps_next | exact outKeeps_refused | apply optKeeps_some
                            | exact optKeeps_none)
    | dsimp -zeta only

theorem kept_snapshotLoses (s₀ : State) (n : Nat) (s : State)  (hk : Keeps s₀ s) : Keeps s₀ (snapshotLoses n s) := by
  unfold snapshotLoses
  repeat' first
    | (with_reducible first | assumption | intro _)
    | (extract_lets +onlyGivenNames x
       first
       | (refine keeps_let (s₀ := s₀) (s := x) ?_ ?_ <;> first | (intro hx; clear_value x) | subst x)
       | subst x)
    | split
    | (with_reducible first | apply kept_abortSnap | apply kept_refuseRestore)

end Sys2Proof.Machine
end

