-- ==== Sys2Proof/Laws/KeptTrace.lean ====
section
/-! SUPPORT. Trace: each operation keeps what `Keeps` says. -/
namespace Sys2Proof.Machine

theorem kept_State_setSrc (s₀ : State) (s : State) (n : Nat) (x : TrcSrc)  (hk : Keeps s₀ s) : Keeps s₀ (State.setSrc s n x) := by
  unfold State.setSrc
  repeat' first
    | (with_reducible first | assumption | intro _)
    | split
    | (with_reducible apply keeps_upd; with_reducible first | assumption)

theorem kept_trcPut (s₀ : State) (n : Nat) (type : Nat) (body : List Byte) (s : State)  (hk : Keeps s₀ s) : Keeps s₀ (trcPut n type body s) := by
  unfold trcPut
  repeat' first
    | (with_reducible first | assumption | intro _)
    | (extract_lets +onlyGivenNames x
       first
       | (refine keeps_let (s₀ := s₀) (s := x) ?_ ?_ <;> first | (intro hx; clear_value x) | subst x)
       | subst x)
    | split
    | (with_reducible first | apply kept_raise | apply kept_State_count | apply kept_State_setSrc)
    | (with_reducible apply keeps_upd; with_reducible first | assumption | apply kept_raise | apply kept_State_count
                                                             | apply kept_State_setSrc)

theorem kept_trcSync (s₀ : State) (n : Nat) (s : State)  (hk : Keeps s₀ s) : Keeps s₀ (trcSync n s) := by
  unfold trcSync
  repeat' first
    | (with_reducible first | assumption | intro _)
    | split
    | (with_reducible first | apply kept_trcPut | apply kept_State_setSrc)

theorem kept_trcEmit (s₀ : State) (n : Nat) (type : Nat) (timed : Bool) (body : List Byte) (s : State)  (hk : Keeps s₀ s) : Keeps s₀ (trcEmit n type timed body s) := by
  unfold trcEmit
  repeat' first
    | (with_reducible first | assumption | intro _)
    | split
    | (with_reducible first | apply kept_trcSync | apply kept_trcPut | apply kept_State_setSrc)

theorem kept_execTraceSyncEmit (s₀ : State) (n : Nat) (s : State)  (hk : Keeps s₀ s) : OutKeeps s₀ (execTraceSyncEmit n s) := by
  unfold execTraceSyncEmit
  repeat' first
    | (with_reducible first | assumption | intro _)
    | split
    | (with_reducible first | apply kept_trcSync | apply outKeeps_next | exact outKeeps_refused | apply optKeeps_some
                            | exact optKeeps_none)
    | dsimp -zeta only

theorem kept_trcOvf (s₀ : State) (s : State)  (hk : Keeps s₀ s) : Keeps s₀ (trcOvf s) := by
  unfold trcOvf
  repeat' first
    | (with_reducible first | assumption | intro _)
    | (extract_lets +onlyGivenNames x
       first
       | (refine keeps_let (s₀ := s₀) (s := x) ?_ ?_ <;> first | (intro hx; clear_value x) | subst x)
       | subst x)
    | split
    | (with_reducible first | apply kept_trcSync | apply kept_trcPut | apply kept_State_setSrc | apply kept_foldl)

theorem kept_execTraceOvfEmit (s₀ : State) (s : State)  (hk : Keeps s₀ s) : OutKeeps s₀ (execTraceOvfEmit s) := by
  unfold execTraceOvfEmit
  repeat' first
    | (with_reducible first | assumption | intro _)
    | split
    | (with_reducible first | apply kept_trcOvf | apply outKeeps_next | exact outKeeps_refused | apply optKeeps_some
                            | exact optKeeps_none)
    | dsimp -zeta only

theorem kept_trcDrain (s₀ : State) (k : Nat) (s : State)  (hk : Keeps s₀ s) : Keeps s₀ (trcDrain k s) := by
  unfold trcDrain
  repeat' first
    | (with_reducible first | assumption | intro _)
    | split
    | (with_reducible first | apply kept_foldl)
    | (with_reducible apply keeps_upd; with_reducible first | assumption | apply kept_foldl)

theorem kept_execTraceFifoDrain (s₀ : State) (count : Nat) (s : State)  (hk : Keeps s₀ s) : OutKeeps s₀ (execTraceFifoDrain count s) := by
  unfold execTraceFifoDrain
  repeat' first
    | (with_reducible first | assumption | intro _)
    | split
    | (with_reducible first | apply kept_trcDrain | apply outKeeps_next | exact outKeeps_refused | apply optKeeps_some
                            | exact optKeeps_none)
    | dsimp -zeta only

theorem kept_endRun (s₀ : State) (n : Nat) (s : State)  (hk : Keeps s₀ s) : Keeps s₀ (endRun n s) := by
  unfold endRun
  repeat' first
    | (with_reducible first | assumption | intro _)
    | (extract_lets +onlyGivenNames x
       first
       | (refine keeps_let (s₀ := s₀) (s := x) ?_ ?_ <;> first | (intro hx; clear_value x) | subst x)
       | subst x)
    | split
    | (with_reducible first | apply keeps_setCore_reset | apply keeps_setCore_upd | apply kept_trcEmit)

theorem kept_takeRun (s₀ : State) (n : Nat) (pc : Word) (hidden : Bool) (s : State)  (hk : Keeps s₀ s) : Keeps s₀ (takeRun n pc hidden s) := by
  unfold takeRun
  repeat' first
    | (with_reducible first | assumption | intro _)
    | (extract_lets +onlyGivenNames x
       first
       | (refine keeps_let (s₀ := s₀) (s := x) ?_ ?_ <;> first | (intro hx; clear_value x) | subst x)
       | subst x)
    | split
    | (with_reducible first | apply keeps_setCore_reset | apply keeps_setCore_upd | apply kept_endRun)

theorem kept_msgWrite (s₀ : State) (n : Nat) (d : Word) (s : State)  (hk : Keeps s₀ s) : Keeps s₀ (msgWrite n d s) := by
  unfold msgWrite
  repeat' first
    | (with_reducible first | assumption | intro _)
    | split
    | (with_reducible first | apply kept_trcEmit)

theorem kept_execTrcMsgWrite (s₀ : State) (m : Nat) (d : Word) (s : State)  (hk : Keeps s₀ s) : OutKeeps s₀ (execTrcMsgWrite m d s) := by
  unfold execTrcMsgWrite
  repeat' first
    | (with_reducible first | assumption | intro _)
    | split
    | (with_reducible first | apply kept_regWrite | apply kept_msgWrite | apply outKeeps_next | exact outKeeps_refused
                            | apply optKeeps_some | exact optKeeps_none)
    | dsimp -zeta only

theorem kept_srcWrite (s₀ : State) (n : Nat) (d : Word) (s : State)  (hk : Keeps s₀ s) : Keeps s₀ (srcWrite n d s) := by
  unfold srcWrite
  repeat' first
    | (with_reducible first | assumption | intro _)
    | (extract_lets +onlyGivenNames x
       first
       | (refine keeps_let (s₀ := s₀) (s := x) ?_ ?_ <;> first | (intro hx; clear_value x) | subst x)
       | subst x)
    | split
    | (with_reducible first | apply kept_endRun | apply kept_plainWrite | apply kept_trcSync)

theorem kept_execTrcSrcWrite (s₀ : State) (m : Nat) (n : Nat) (d : Word) (s : State)  (hk : Keeps s₀ s) : OutKeeps s₀ (execTrcSrcWrite m n d s) := by
  unfold execTrcSrcWrite
  repeat' first
    | (with_reducible first | assumption | intro _)
    | split
    | (with_reducible first | apply kept_regWrite | apply kept_srcWrite | apply outKeeps_next | exact outKeeps_refused
                            | apply optKeeps_some | exact optKeeps_none)
    | dsimp -zeta only

theorem kept_outWrite (s₀ : State) (d : Word) (s : State)  (hk : Keeps s₀ s) : Keeps s₀ (outWrite d s) := by
  unfold outWrite
  repeat' first
    | (with_reducible first | assumption | intro _)
    | (extract_lets +onlyGivenNames x
       first
       | (refine keeps_let (s₀ := s₀) (s := x) ?_ ?_ <;> first | (intro hx; clear_value x) | subst x)
       | subst x)
    | split
    | (with_reducible first | apply kept_raise | apply kept_State_setFld | apply kept_raiseIf | apply kept_portCheck
                            | apply kept_State_setFlds | apply kept_plainWrite)

theorem kept_execTrcOutWrite (s₀ : State) (m : Nat) (d : Word) (s : State)  (hk : Keeps s₀ s) : OutKeeps s₀ (execTrcOutWrite m d s) := by
  unfold execTrcOutWrite
  repeat' first
    | (with_reducible first | assumption | intro _)
    | split
    | (with_reducible first | apply kept_regWrite | apply kept_outWrite | apply outKeeps_next | exact outKeeps_refused
                            | apply optKeeps_some | exact optKeeps_none)
    | dsimp -zeta only

theorem kept_sleepCore (s₀ : State) (n : Nat) (s : State)  (hk : Keeps s₀ s) : Keeps s₀ (sleepCore n s) := by
  unfold sleepCore
  repeat' first
    | (with_reducible first | assumption | intro _)
    | (extract_lets +onlyGivenNames x
       first
       | (refine keeps_let (s₀ := s₀) (s := x) ?_ ?_ <;> first | (intro hx; clear_value x) | subst x)
       | subst x)
    | split
    | (with_reducible first | apply keeps_setCore_reset | apply keeps_setCore_upd | apply kept_trcEmit)

theorem kept_execCoreSleep (s₀ : State) (n : Nat) (s : State)  (hk : Keeps s₀ s) : OutKeeps s₀ (execCoreSleep n s) := by
  unfold execCoreSleep
  repeat' first
    | (with_reducible first | assumption | intro _)
    | split
    | (with_reducible first | apply kept_sleepCore | apply outKeeps_next | exact outKeeps_refused | apply optKeeps_some
                            | exact optKeeps_none)
    | dsimp -zeta only

theorem kept_wakeCore (s₀ : State) (n : Nat) (s : State)  (hk : Keeps s₀ s) : Keeps s₀ (wakeCore n s) := by
  unfold wakeCore
  repeat' first
    | (with_reducible first | assumption | intro _)
    | (extract_lets +onlyGivenNames x
       first
       | (refine keeps_let (s₀ := s₀) (s := x) ?_ ?_ <;> first | (intro hx; clear_value x) | subst x)
       | subst x)
    | split
    | (with_reducible first | apply keeps_setCore_reset | apply keeps_setCore_upd | apply kept_trcEmit)

theorem kept_pmcAdd (s₀ : State) (n : Nat) (k : Nat) (amount : Nat) (s : State)  (hk : Keeps s₀ s) : Keeps s₀ (pmcAdd n k amount s) := by
  unfold pmcAdd
  repeat' first
    | (with_reducible first | assumption | intro _)
    | (extract_lets +onlyGivenNames x
       first
       | (refine keeps_let (s₀ := s₀) (s := x) ?_ ?_ <;> first | (intro hx; clear_value x) | subst x)
       | subst x)
    | split
    | (with_reducible first | apply kept_State_setFld | apply kept_raiseIf)

theorem kept_pmcCount (s₀ : State) (n : Nat) (ev : Nat) (amount : Nat) (s : State)  (hk : Keeps s₀ s) : Keeps s₀ (pmcCount n ev amount s) := by
  unfold pmcCount
  repeat' first
    | (with_reducible first | assumption | intro _)
    | split
    | (with_reducible first | apply kept_pmcAdd | apply kept_foldl)

theorem kept_pmcOccupy (s₀ : State) (n : Nat) (ev : Nat) (occ : Nat) (cycles : Nat) (s : State)  (hk : Keeps s₀ s) : Keeps s₀ (pmcOccupy n ev occ cycles s) := by
  unfold pmcOccupy
  repeat' first
    | (with_reducible first | assumption | intro _)
    | split
    | (with_reducible first | apply kept_pmcAdd | apply kept_foldl)

theorem kept_execPmcWrap (s₀ : State) (n : Nat) (k : Nat) (s : State)  (hk : Keeps s₀ s) : OutKeeps s₀ (execPmcWrap n k s) := by
  unfold execPmcWrap
  repeat' first
    | (with_reducible first | assumption | intro _)
    | split
    | (with_reducible first | apply kept_pmcAdd | apply outKeeps_next | exact outKeeps_refused | apply optKeeps_some
                            | exact optKeeps_none)
    | dsimp -zeta only

theorem kept_gctlWrite (s₀ : State) (d : Word) (s : State)  (hk : Keeps s₀ s) : Keeps s₀ (gctlWrite d s) := by
  unfold gctlWrite
  repeat' first
    | (with_reducible first | assumption | intro _)
    | (extract_lets +onlyGivenNames x
       first
       | (refine keeps_let (s₀ := s₀) (s := x) ?_ ?_ <;> first | (intro hx; clear_value x) | subst x)
       | subst x)
    | split
    | (with_reducible first | apply kept_plainWrite)
  all_goals grind [kept_plainWrite, Keeps, held_rset, held_setAt_cores, held_setAt_lanes, held_filter_regs, held_map_cores, held_map_lanes, held_write1, held_write, held_clear, held_filter_mem, held_out, held_free, held_rbcnt]

theorem kept_execPmcClear (s₀ : State) (m : Nat) (d : Word) (s : State)  (hk : Keeps s₀ s) : OutKeeps s₀ (execPmcClear m d s) := by
  unfold execPmcClear
  repeat' first
    | (with_reducible first | assumption | intro _)
    | split
    | (with_reducible first | apply kept_regWrite | apply kept_gctlWrite | apply outKeeps_next | exact outKeeps_refused
                            | apply optKeeps_some | exact optKeeps_none)
    | dsimp -zeta only

end Sys2Proof.Machine
end

