-- ==== Sys2Proof/Laws/KeptSched.lean ====
section
/-! SUPPORT. Sched: each operation keeps what `Keeps` says. -/
namespace Sys2Proof.Machine

theorem kept_State_unready (s₀ : State) (s : State) (t : Nat)  (hk : Keeps s₀ s) : Keeps s₀ (State.unready s t) := by
  unfold State.unready
  repeat' first
    | (with_reducible first | assumption | intro _)
    | split
    | (with_reducible apply keeps_upd; with_reducible first | assumption)

theorem kept_State_toTail (s₀ : State) (s : State) (t : Nat)  (hk : Keeps s₀ s) : Keeps s₀ (State.toTail s t) := by
  unfold State.toTail
  repeat' first
    | (with_reducible first | assumption | intro _)
    | split
    | (with_reducible apply keeps_upd; with_reducible first | assumption)

theorem kept_State_freeCore (s₀ : State) (s : State) (t : Nat)  (hk : Keeps s₀ s) : Keeps s₀ (State.freeCore s t) := by
  unfold State.freeCore
  repeat' first
    | (with_reducible first | assumption | intro _)
    | split
    | (with_reducible first | apply kept_State_setFlds)

theorem kept_makeReady (s₀ : State) (t : Nat) (s : State)  (hk : Keeps s₀ s) : Keeps s₀ (makeReady t s) := by
  unfold makeReady
  repeat' first
    | (with_reducible first | assumption | intro _)
    | split
    | (with_reducible first | apply kept_State_setFlds | apply kept_State_freeCore | apply kept_State_toTail)
    | (with_reducible apply keeps_upd; with_reducible first | assumption | apply kept_State_setFlds | apply kept_State_freeCore
                                                             | apply kept_State_toTail)

theorem kept_makeIdle (s₀ : State) (t : Nat) (s : State)  (hk : Keeps s₀ s) : Keeps s₀ (makeIdle t s) := by
  unfold makeIdle
  repeat' first
    | (with_reducible first | assumption | intro _)
    | split
    | (with_reducible first | apply kept_State_unready | apply kept_State_setFlds | apply kept_State_freeCore)

theorem kept_badCommand (s₀ : State) (s : State)  (hk : Keeps s₀ s) : Keeps s₀ (badCommand s) := by
  unfold badCommand
  repeat' first
    | (with_reducible first | assumption | intro _)
    | split
    | (with_reducible first | apply kept_raise | apply kept_State_count)

theorem kept_State_setSync (s₀ : State) (s : State) (f : Nat) (b : Bool)  (hk : Keeps s₀ s) : Keeps s₀ (State.setSync s f b) := by
  unfold State.setSync
  repeat' first
    | (with_reducible first | assumption | intro _)
    | split
    | (with_reducible first | apply kept_State_setFld)

theorem kept_chservSet (s₀ : State) (s : State)  (hk : Keeps s₀ s) : Keeps s₀ (chservSet s) := by
  unfold chservSet
  repeat' first
    | (with_reducible first | assumption | intro _)
    | split
    | (with_reducible first | apply kept_State_setSync | apply kept_foldl)

theorem kept_wakeFlag (s₀ : State) (s : State) (f : Nat)  (hk : Keeps s₀ s) : Keeps s₀ (wakeFlag s f) := by
  unfold wakeFlag
  repeat' first
    | (with_reducible first | assumption | intro _)
    | (extract_lets +onlyGivenNames x
       first
       | (refine keeps_let (s₀ := s₀) (s := x) ?_ ?_ <;> first | (intro hx; clear_value x) | subst x)
       | subst x)
    | split
    | (with_reducible first | apply kept_makeReady | apply kept_State_setSync | apply kept_foldl)

theorem kept_flagWakes (s₀ : State) (hub : State → State) (s : State) (h_hub : ∀ v0, Keeps s₀ v0 → Keeps s₀ (hub v0)) (hk : Keeps s₀ s) : Keeps s₀ (flagWakes hub s) := by
  unfold flagWakes
  repeat' first
    | (with_reducible first | assumption | intro _)
    | split
    | (with_reducible first | apply kept_State_setSync | apply kept_wakeFlag | apply kept_chservSet | apply h_hub
                            | apply kept_foldl)

theorem kept_cmdReady (s₀ : State) (t : Nat) (s : State)  (hk : Keeps s₀ s) : Keeps s₀ (cmdReady t s) := by
  unfold cmdReady
  repeat' first
    | (with_reducible first | assumption | intro _)
    | split
    | (with_reducible first | apply kept_makeReady | apply kept_badCommand)

theorem kept_cmdBlock (s₀ : State) (t : Nat) (f : Nat) (cons : Bool) (s : State)  (hk : Keeps s₀ s) : Keeps s₀ (cmdBlock t f cons s) := by
  unfold cmdBlock
  repeat' first
    | (with_reducible first | assumption | intro _)
    | split
    | (with_reducible first | apply kept_State_setFlds | apply kept_makeIdle | apply kept_badCommand)

theorem kept_cmdYield (s₀ : State) (t : Nat) (s : State)  (hk : Keeps s₀ s) : Keeps s₀ (cmdYield t s) := by
  unfold cmdYield
  repeat' first
    | (with_reducible first | assumption | intro _)
    | split
    | (with_reducible first | apply kept_makeReady | apply kept_badCommand)

theorem kept_cmdSetpri (s₀ : State) (t : Nat) (pri : Nat) (s : State)  (hk : Keeps s₀ s) : Keeps s₀ (cmdSetpri t pri s) := by
  unfold cmdSetpri
  repeat' first
    | (with_reducible first | assumption | intro _)
    | (extract_lets +onlyGivenNames x
       first
       | (refine keeps_let (s₀ := s₀) (s := x) ?_ ?_ <;> first | (intro hx; clear_value x) | subst x)
       | subst x)
    | split
    | (with_reducible first | apply kept_State_setFld | apply kept_State_toTail | apply kept_badCommand)

theorem kept_cmdDone (s₀ : State) (t : Nat) (s : State)  (hk : Keeps s₀ s) : Keeps s₀ (cmdDone t s) := by
  unfold cmdDone
  repeat' first
    | (with_reducible first | assumption | intro _)
    | split
    | (with_reducible first | apply kept_makeIdle | apply kept_badCommand)

theorem kept_cmdCancel (s₀ : State) (t : Nat) (met : Bool) (s : State)  (hk : Keeps s₀ s) : Keeps s₀ (cmdCancel t met s) := by
  unfold cmdCancel
  repeat' first
    | (with_reducible first | assumption | intro _)
    | split
    | (with_reducible first | apply kept_makeIdle | apply kept_State_count | apply kept_badCommand)

theorem kept_cmdRun (s₀ : State) (d : Word) (s : State)  (hk : Keeps s₀ s) : Keeps s₀ (cmdRun d s) := by
  unfold cmdRun
  repeat' first
    | (with_reducible first | assumption | intro _)
    | (extract_lets +onlyGivenNames x
       first
       | (refine keeps_let (s₀ := s₀) (s := x) ?_ ?_ <;> first | (intro hx; clear_value x) | subst x)
       | subst x)
    | split
    | (with_reducible first | apply kept_cmdReady | apply kept_cmdBlock | apply kept_cmdYield | apply kept_cmdSetpri
                            | apply kept_cmdDone | apply kept_badCommand | apply outKeeps_next | exact outKeeps_refused
                            | apply optKeeps_some | exact optKeeps_none)
    | dsimp -zeta only
    | (with_reducible apply keeps_upd; with_reducible first | assumption | apply kept_cmdReady | apply kept_cmdBlock
                                                             | apply kept_cmdYield | apply kept_cmdSetpri
                                                             | apply kept_cmdDone | apply kept_badCommand)
  all_goals grind [kept_cmdReady, kept_cmdBlock, kept_cmdYield, kept_cmdSetpri, kept_cmdDone, kept_badCommand, Keeps, held_rset, held_setAt_cores, held_setAt_lanes, held_filter_regs, held_map_cores, held_map_lanes, held_write1, held_write, held_clear, held_filter_mem, held_out, held_free, held_rbcnt]

theorem kept_submit (s₀ : State) (n : Nat) (s : State)  (hk : Keeps s₀ s) : Keeps s₀ (submit n s) := by
  unfold submit
  repeat' first
    | (with_reducible first | assumption | intro _)
    | (extract_lets +onlyGivenNames x
       first
       | (refine keeps_let (s₀ := s₀) (s := x) ?_ ?_ <;> first | (intro hx; clear_value x) | subst x)
       | subst x)
    | split
    | (with_reducible first | apply kept_State_setFlds | apply kept_raise | apply kept_State_setFld | apply kept_State_setReg
                            | apply kept_makeReady)

theorem kept_TskCmd_run (s₀ : State) (c : TskCmd) (s : State)  (hk : Keeps s₀ s) : Keeps s₀ (TskCmd.run c s) := by
  unfold TskCmd.run
  repeat' first
    | (with_reducible first | assumption | intro _)
    | (extract_lets +onlyGivenNames x
       first
       | (refine keeps_let (s₀ := s₀) (s := x) ?_ ?_ <;> first | (intro hx; clear_value x) | subst x)
       | subst x)
    | split
    | (with_reducible first | apply kept_cmdRun | apply kept_submit | apply outKeeps_next | exact outKeeps_refused
                            | apply optKeeps_some | exact optKeeps_none)
    | dsimp -zeta only
    | (with_reducible apply keeps_upd; with_reducible first | assumption | apply kept_cmdRun | apply kept_submit)
  all_goals grind [kept_cmdRun, kept_submit, Keeps, held_rset, held_setAt_cores, held_setAt_lanes, held_filter_regs, held_map_cores, held_map_lanes, held_write1, held_write, held_clear, held_filter_mem, held_out, held_free, held_rbcnt]

theorem kept_runOn (s₀ : State) (n : Nat) (t : Nat) (s : State)  (hk : Keeps s₀ s) : Keeps s₀ (runOn n t s) := by
  unfold runOn
  repeat' first
    | (with_reducible first | assumption | intro _)
    | (extract_lets +onlyGivenNames x
       first
       | (refine keeps_let (s₀ := s₀) (s := x) ?_ ?_ <;> first | (intro hx; clear_value x) | subst x)
       | subst x)
    | split
    | (with_reducible first | apply kept_State_setFlds | apply kept_State_unready | apply kept_State_count | apply outKeeps_next
                            | exact outKeeps_refused | apply optKeeps_some | exact optKeeps_none)
    | dsimp -zeta only
    | (with_reducible apply keeps_upd; with_reducible first | assumption | apply kept_State_setFlds | apply kept_State_unready
                                                             | apply kept_State_count)
  all_goals grind [kept_State_setFlds, kept_State_unready, kept_State_count, Keeps, held_rset, held_setAt_cores, held_setAt_lanes, held_filter_regs, held_map_cores, held_map_lanes, held_write1, held_write, held_clear, held_filter_mem, held_out, held_free, held_rbcnt]

theorem kept_TskRead_take (s₀ : State) (x : TskRead) (s : State)  (hk : Keeps s₀ s) : Keeps s₀ (TskRead.take x s) := by
  unfold TskRead.take
  repeat' first
    | (with_reducible first | assumption | intro _)
    | (extract_lets +onlyGivenNames x
       first
       | (refine keeps_let (s₀ := s₀) (s := x) ?_ ?_ <;> first | (intro hx; clear_value x) | subst x)
       | subst x)
    | split
    | (with_reducible first | apply kept_runOn | apply outKeeps_next | exact outKeeps_refused | apply optKeeps_some
                            | exact optKeeps_none)
    | dsimp -zeta only
    | (with_reducible apply keeps_upd; with_reducible first | assumption | apply kept_runOn)
  all_goals grind [kept_runOn, Keeps, held_rset, held_setAt_cores, held_setAt_lanes, held_filter_regs, held_map_cores, held_map_lanes, held_write1, held_write, held_clear, held_filter_mem, held_out, held_free, held_rbcnt]

theorem kept_tskCounts (s₀ : State) (s : State)  (hk : Keeps s₀ s) : Keeps s₀ (tskCounts s) := by
  unfold tskCounts
  repeat' first
    | (with_reducible first | assumption | intro _)
    | split
    | (with_reducible first | apply kept_State_setFlds)

theorem kept_tskOrder (s₀ : State) (s : State)  (hk : Keeps s₀ s) : Keeps s₀ (tskOrder s) := by
  unfold tskOrder
  repeat' first
    | (with_reducible first | assumption | intro _)
    | (extract_lets +onlyGivenNames x
       first
       | (refine keeps_let (s₀ := s₀) (s := x) ?_ ?_ <;> first | (intro hx; clear_value x) | subst x)
       | subst x)
    | split
    | (with_reducible first | apply kept_foldl | apply outKeeps_next | exact outKeeps_refused | apply optKeeps_some
                            | exact optKeeps_none)
    | dsimp -zeta only
    | (with_reducible apply keeps_upd; with_reducible first | assumption | apply kept_foldl)
  all_goals grind [kept_foldl, Keeps, held_rset, held_setAt_cores, held_setAt_lanes, held_filter_regs, held_map_cores, held_map_lanes, held_write1, held_write, held_clear, held_filter_mem, held_out, held_free, held_rbcnt]

theorem kept_tskEvents (s₀ : State) (old : State) (s : State)  (hk : Keeps s₀ s) : Keeps s₀ (tskEvents old s) := by
  unfold tskEvents
  repeat' first
    | (with_reducible first | assumption | intro _)
    | (extract_lets +onlyGivenNames x
       first
       | (refine keeps_let (s₀ := s₀) (s := x) ?_ ?_ <;> first | (intro hx; clear_value x) | subst x)
       | subst x)
    | split
    | (with_reducible first | apply kept_raiseIf | apply kept_foldl | apply outKeeps_next | exact outKeeps_refused
                            | apply optKeeps_some | exact optKeeps_none)
    | dsimp -zeta only
    | (with_reducible apply keeps_upd; with_reducible first | assumption | apply kept_raiseIf | apply kept_foldl)
  all_goals grind [kept_raiseIf, kept_foldl, Keeps, held_rset, held_setAt_cores, held_setAt_lanes, held_filter_regs, held_map_cores, held_map_lanes, held_write1, held_write, held_clear, held_filter_mem, held_out, held_free, held_rbcnt]

theorem kept_resetEntry (s₀ : State) (t : Nat) (s : State)  (hk : Keeps s₀ s) : Keeps s₀ (resetEntry t s) := by
  unfold resetEntry
  repeat' first
    | (with_reducible first | assumption | intro _)
    | (extract_lets +onlyGivenNames x
       first
       | (refine keeps_let (s₀ := s₀) (s := x) ?_ ?_ <;> first | (intro hx; clear_value x) | subst x)
       | subst x)
    | split
    | (with_reducible first | apply kept_makeIdle | apply kept_State_setFld | apply outKeeps_next | exact outKeeps_refused
                            | apply optKeeps_some | exact optKeeps_none)
    | dsimp -zeta only
    | (with_reducible apply keeps_upd; with_reducible first | assumption | apply kept_makeIdle | apply kept_State_setFld)
  all_goals grind [kept_makeIdle, kept_State_setFld, Keeps, held_rset, held_setAt_cores, held_setAt_lanes, held_filter_regs, held_map_cores, held_map_lanes, held_write1, held_write, held_clear, held_filter_mem, held_out, held_free, held_rbcnt]

theorem kept_tskOnce (s₀ : State) (now : List TskCmd) (hub : State → State) (reset : Option Nat) (s : State) (h_hub : ∀ v0, Keeps s₀ v0 → Keeps s₀ (hub v0)) (hk : Keeps s₀ s) : Keeps s₀ (tskOnce now hub reset s) := by
  unfold tskOnce
  repeat' first
    | (with_reducible first | assumption | intro _)
    | (extract_lets +onlyGivenNames x
       first
       | (refine keeps_let (s₀ := s₀) (s := x) ?_ ?_ <;> first | (intro hx; clear_value x) | subst x)
       | subst x)
    | split
    | (with_reducible first | apply kept_State_answer | apply kept_TskRead_take | apply kept_TskCmd_run | apply kept_resetEntry
                            | apply kept_flagWakes | apply kept_cmdCancel | apply kept_tskEvents | apply kept_tskCounts
                            | apply kept_chservSet | apply kept_tskOrder | apply h_hub | apply kept_foldl
                            | apply outKeeps_next | exact outKeeps_refused | apply optKeeps_some | exact optKeeps_none)
    | dsimp -zeta only
    | (with_reducible apply keeps_upd; with_reducible first | assumption | apply kept_State_answer | apply kept_TskRead_take
                                                             | apply kept_TskCmd_run | apply kept_resetEntry
                                                             | apply kept_flagWakes | apply kept_cmdCancel
                                                             | apply kept_tskEvents | apply kept_tskCounts
                                                             | apply kept_chservSet | apply kept_tskOrder | apply kept_foldl)
  all_goals grind [kept_State_answer, kept_TskRead_take, kept_TskCmd_run, kept_resetEntry, kept_flagWakes, kept_cmdCancel, kept_tskEvents, kept_tskCounts, kept_chservSet, kept_tskOrder, kept_foldl, Keeps, held_rset, held_setAt_cores, held_setAt_lanes, held_filter_regs, held_map_cores, held_map_lanes, held_write1, held_write, held_clear, held_filter_mem, held_out, held_free, held_rbcnt]

theorem kept_tskMore (s₀ : State) (a0 : Nat) (a1 : State)  (hk : Keeps s₀ a1) : Keeps s₀ (tskMore a0 a1) := by
  induction a0 generalizing a1 with
  | zero =>
    unfold tskMore
    repeat' first
      | (with_reducible first | assumption | intro _)
      | (extract_lets +onlyGivenNames x
         first
         | (refine keeps_let (s₀ := s₀) (s := x) ?_ ?_ <;> first | (intro hx; clear_value x) | subst x)
         | subst x)
      | split
      | (with_reducible first | apply kept_tskOnce | apply outKeeps_next | exact outKeeps_refused | apply optKeeps_some
                              | exact optKeeps_none)
      | dsimp -zeta only
      | (with_reducible apply keeps_upd; with_reducible first | assumption | apply kept_tskOnce)
    all_goals grind [kept_tskOnce, Keeps, held_rset, held_setAt_cores, held_setAt_lanes, held_filter_regs, held_map_cores, held_map_lanes, held_write1, held_write, held_clear, held_filter_mem, held_out, held_free, held_rbcnt]
  | succ y ih =>
    unfold tskMore
    repeat' first
      | (with_reducible first | assumption | intro _)
      | (extract_lets +onlyGivenNames x
         first
         | (refine keeps_let (s₀ := s₀) (s := x) ?_ ?_ <;> first | (intro hx; clear_value x) | subst x)
         | subst x)
      | with_reducible apply ih
      | split
      | (with_reducible first | apply kept_tskOnce | apply outKeeps_next | exact outKeeps_refused | apply optKeeps_some
                              | exact optKeeps_none)
      | dsimp -zeta only
      | (with_reducible apply keeps_upd; with_reducible first | assumption | apply kept_tskOnce)
    all_goals grind [kept_tskOnce, Keeps, held_rset, held_setAt_cores, held_setAt_lanes, held_filter_regs, held_map_cores, held_map_lanes, held_write1, held_write, held_clear, held_filter_mem, held_out, held_free, held_rbcnt]

theorem kept_tskCycle (s₀ : State) (now : List TskCmd) (hub : State → State) (reset : Option Nat) (s : State) (h_hub : ∀ v0, Keeps s₀ v0 → Keeps s₀ (hub v0)) (hk : Keeps s₀ s) : Keeps s₀ (tskCycle now hub reset s) := by
  unfold tskCycle
  repeat' first
    | (with_reducible first | assumption | intro _)
    | split
    | (with_reducible first | apply kept_tskOnce | apply kept_tskMore | apply h_hub)
    | (with_reducible apply keeps_upd; with_reducible first | assumption | apply kept_tskOnce | apply kept_tskMore)

theorem kept_flagWork (s₀ : State) (s : State)  (hk : Keeps s₀ s) : Keeps s₀ (flagWork s) := by
  unfold flagWork
  repeat' first
    | (with_reducible first | assumption | intro _)
    | (extract_lets +onlyGivenNames x
       first
       | (refine keeps_let (s₀ := s₀) (s := x) ?_ ?_ <;> first | (intro hx; clear_value x) | subst x)
       | subst x)
    | split
    | (with_reducible first | apply kept_chservSet | apply kept_tskMore)

theorem kept_tskTake (s₀ : State) (c : TskCmd) (more : Bool) (s : State)  (hk : Keeps s₀ s) : Keeps s₀ (tskTake c more s) := by
  unfold tskTake
  repeat' first
    | (with_reducible first | assumption | intro _)
    | (extract_lets +onlyGivenNames x
       first
       | (refine keeps_let (s₀ := s₀) (s := x) ?_ ?_ <;> first | (intro hx; clear_value x) | subst x)
       | subst x)
    | split
    | (with_reducible first | apply kept_tskCycle | apply outKeeps_next | exact outKeeps_refused | apply optKeeps_some
                            | exact optKeeps_none)
    | dsimp -zeta only
    | (with_reducible apply keeps_upd; with_reducible first | assumption | apply kept_tskCycle)
  all_goals grind [kept_tskCycle, Keeps, held_rset, held_setAt_cores, held_setAt_lanes, held_filter_regs, held_map_cores, held_map_lanes, held_write1, held_write, held_clear, held_filter_mem, held_out, held_free, held_rbcnt]

theorem kept_sendCmd (s₀ : State) (m : Nat) (n : Nat) (op : Nat) (cons : Bool) (t : Nat) (flag : Nat) (more : Bool) (s : State)  (hk : Keeps s₀ s) : Keeps s₀ (sendCmd m n op cons t flag more s) := by
  unfold sendCmd
  repeat' first
    | (with_reducible first | assumption | intro _)
    | split
    | (with_reducible first | apply kept_regWrite | apply kept_tskTake)

theorem kept_execTskReady (s₀ : State) (c : TskSender) (n : Nat) (t : Nat) (s : State)  (hk : Keeps s₀ s) : OutKeeps s₀ (execTskReady c n t s) := by
  unfold execTskReady
  repeat' first
    | (with_reducible first | assumption | intro _)
    | split
    | (with_reducible first | apply kept_sendCmd | apply outKeeps_next | exact outKeeps_refused | apply optKeeps_some
                            | exact optKeeps_none)
    | dsimp -zeta only

theorem kept_execTskBlock (s₀ : State) (c : TskSender) (n : Nat) (t : Nat) (flag : Nat) (cons : Bool) (s : State)  (hk : Keeps s₀ s) : OutKeeps s₀ (execTskBlock c n t flag cons s) := by
  unfold execTskBlock
  repeat' first
    | (with_reducible first | assumption | intro _)
    | split
    | (with_reducible first | apply kept_sendCmd | apply outKeeps_next | exact outKeeps_refused | apply optKeeps_some
                            | exact optKeeps_none)
    | dsimp -zeta only

theorem kept_execTskYield (s₀ : State) (c : TskSender) (n : Nat) (t : Nat) (s : State)  (hk : Keeps s₀ s) : OutKeeps s₀ (execTskYield c n t s) := by
  unfold execTskYield
  repeat' first
    | (with_reducible first | assumption | intro _)
    | split
    | (with_reducible first | apply kept_sendCmd | apply outKeeps_next | exact outKeeps_refused | apply optKeeps_some
                            | exact optKeeps_none)
    | dsimp -zeta only

theorem kept_execTskCancel (s₀ : State) (m : Nat) (n : Nat) (t : Nat) (more : Bool) (s : State)  (hk : Keeps s₀ s) : OutKeeps s₀ (execTskCancel m n t more s) := by
  unfold execTskCancel
  repeat' first
    | (with_reducible first | assumption | intro _)
    | split
    | (with_reducible first | apply kept_sendCmd | apply outKeeps_next | exact outKeeps_refused | apply optKeeps_some
                            | exact optKeeps_none)
    | dsimp -zeta only

theorem kept_execTskSetpri (s₀ : State) (c : TskSender) (n : Nat) (t : Nat) (pri : Nat) (s : State)  (hk : Keeps s₀ s) : OutKeeps s₀ (execTskSetpri c n t pri s) := by
  unfold execTskSetpri
  repeat' first
    | (with_reducible first | assumption | intro _)
    | split
    | (with_reducible first | apply kept_sendCmd | apply outKeeps_next | exact outKeeps_refused | apply optKeeps_some
                            | exact optKeeps_none)
    | dsimp -zeta only

theorem kept_execTskDone (s₀ : State) (c : TskSender) (n : Nat) (t : Nat) (s : State)  (hk : Keeps s₀ s) : OutKeeps s₀ (execTskDone c n t s) := by
  unfold execTskDone
  repeat' first
    | (with_reducible first | assumption | intro _)
    | split
    | (with_reducible first | apply kept_sendCmd | apply outKeeps_next | exact outKeeps_refused | apply optKeeps_some
                            | exact optKeeps_none)
    | dsimp -zeta only

theorem kept_dispRead (s₀ : State) (n : Nat) (s : State)  (hk : Keeps s₀ s) : Keeps s₀ (dispRead n s).2 := by
  unfold dispRead
  repeat' first
    | (with_reducible first | assumption | intro _)
    | split
    | (with_reducible first | apply kept_tskCycle | apply keeps_getD)

theorem kept_execTskDispatch (s₀ : State) (c : TskSender) (n : Nat) (s : State)  (hk : Keeps s₀ s) : OutKeeps s₀ (execTskDispatch c n s) := by
  unfold execTskDispatch
  repeat' first
    | (with_reducible first | assumption | intro _)
    | split
    | (with_reducible first | apply kept_netStop | apply kept_tskTake | apply kept_regRead | apply kept_dispRead
                            | apply outKeeps_next | exact outKeeps_refused | apply optKeeps_some | exact optKeeps_none
                            | refine keeps_opt ?_ (by assumption) | refine keeps_pair ?_ (by assumption)
                            | refine keeps_triple ?_ (by assumption))
    | dsimp -zeta only

theorem kept_State_clearEntries (s₀ : State) (s : State)  (hk : Keeps s₀ s) : Keeps s₀ (State.clearEntries s) := by
  unfold State.clearEntries
  repeat' first
    | (with_reducible first | assumption | intro _)
    | (extract_lets +onlyGivenNames x
       first
       | (refine keeps_let (s₀ := s₀) (s := x) ?_ ?_ <;> first | (intro hx; clear_value x) | subst x)
       | subst x)
    | split
    | (with_reducible first | apply kept_State_setReg | apply kept_foldl | apply outKeeps_next | exact outKeeps_refused
                            | apply optKeeps_some | exact optKeeps_none)
    | dsimp -zeta only
    | (with_reducible apply keeps_upd; with_reducible first | assumption | apply kept_State_setReg | apply kept_foldl)
  all_goals grind [kept_State_setReg, kept_foldl, Keeps, held_rset, held_setAt_cores, held_setAt_lanes, held_filter_regs, held_map_cores, held_map_lanes, held_write1, held_write, held_clear, held_filter_mem, held_out, held_free, held_rbcnt]

theorem kept_modeWrite (s₀ : State) (d : Word) (s : State)  (hk : Keeps s₀ s) : Keeps s₀ (modeWrite d s) := by
  unfold modeWrite
  repeat' first
    | (with_reducible first | assumption | intro _)
    | (extract_lets +onlyGivenNames x
       first
       | (refine keeps_let (s₀ := s₀) (s := x) ?_ ?_ <;> first | (intro hx; clear_value x) | subst x)
       | subst x)
    | split
    | (with_reducible first | apply kept_State_setFld | apply kept_State_clearEntries)
  all_goals grind [kept_State_setFld, kept_State_clearEntries, Keeps, held_rset, held_setAt_cores, held_setAt_lanes, held_filter_regs, held_map_cores, held_map_lanes, held_write1, held_write, held_clear, held_filter_mem, held_out, held_free, held_rbcnt]

theorem kept_execTskModeWrite (s₀ : State) (m : Nat) (d : Word) (s : State)  (hk : Keeps s₀ s) : OutKeeps s₀ (execTskModeWrite m d s) := by
  unfold execTskModeWrite
  repeat' first
    | (with_reducible first | assumption | intro _)
    | split
    | (with_reducible first | apply kept_regWrite | apply kept_modeWrite | apply outKeeps_next | exact outKeeps_refused
                            | apply optKeeps_some | exact optKeeps_none)
    | dsimp -zeta only

theorem kept_psubWrite (s₀ : State) (n : Nat) (d : Word) (more : Bool) (s : State)  (hk : Keeps s₀ s) : Keeps s₀ (psubWrite n d more s) := by
  unfold psubWrite
  repeat' first
    | (with_reducible first | assumption | intro _)
    | split
    | (with_reducible first | apply kept_tskTake)

theorem kept_execPoolSubmit (s₀ : State) (c : TskSender) (n : Nat) (d : Word) (s : State)  (hk : Keeps s₀ s) : OutKeeps s₀ (execPoolSubmit c n d s) := by
  unfold execPoolSubmit
  repeat' first
    | (with_reducible first | assumption | intro _)
    | split
    | (with_reducible first | apply kept_regWrite | apply kept_psubWrite | apply outKeeps_next | exact outKeeps_refused
                            | apply optKeeps_some | exact optKeeps_none)
    | dsimp -zeta only

theorem kept_entryWrite (s₀ : State) (a : Nat) (d : Word) (s : State)  (hk : Keeps s₀ s) : Keeps s₀ (entryWrite a d s) := by
  unfold entryWrite
  repeat' first
    | (with_reducible first | assumption | intro _)
    | split
    | (with_reducible first | apply kept_plainWrite)

theorem kept_tskCoreReset (s₀ : State) (n : Nat) (s : State)  (hk : Keeps s₀ s) : Keeps s₀ (tskCoreReset n s) := by
  unfold tskCoreReset
  repeat' first
    | (with_reducible first | assumption | intro _)
    | (extract_lets +onlyGivenNames x
       first
       | (refine keeps_let (s₀ := s₀) (s := x) ?_ ?_ <;> first | (intro hx; clear_value x) | subst x)
       | subst x)
    | split
    | (with_reducible first | apply kept_tskCycle)
    | (with_reducible apply keeps_upd; with_reducible first | assumption | apply kept_tskCycle)

theorem kept_fsetWrite (s₀ : State) (n : Nat) (d : Word) (s : State)  (hk : Keeps s₀ s) : Keeps s₀ (fsetWrite n d s) := by
  unfold fsetWrite
  repeat' first
    | (with_reducible first | assumption | intro _)
    | split
    | (with_reducible first | apply kept_tskCycle | apply kept_State_setReg)

theorem kept_fclrWrite (s₀ : State) (n : Nat) (d : Word) (s : State)  (hk : Keeps s₀ s) : Keeps s₀ (fclrWrite n d s) := by
  unfold fclrWrite
  repeat' first
    | (with_reducible first | assumption | intro _)
    | split
    | (with_reducible first | apply kept_tskCycle | apply kept_State_setReg)

theorem kept_boundaryFlags (s₀ : State) (s : State)  (hk : Keeps s₀ s) : Keeps s₀ (boundaryFlags s) := by
  unfold boundaryFlags
  repeat' first
    | (with_reducible first | assumption | intro _)
    | split
    | (with_reducible first | apply kept_tskCycle | apply kept_State_setSync | apply kept_foldl)

theorem kept_execFlagSet (s₀ : State) (m : Nat) (n : Nat) (d : Word) (s : State)  (hk : Keeps s₀ s) : OutKeeps s₀ (execFlagSet m n d s) := by
  unfold execFlagSet
  repeat' first
    | (with_reducible first | assumption | intro _)
    | split
    | (with_reducible first | apply kept_regWrite | apply kept_fsetWrite | apply outKeeps_next | exact outKeeps_refused
                            | apply optKeeps_some | exact optKeeps_none)
    | dsimp -zeta only

end Sys2Proof.Machine
end

