-- ==== Sys2Proof/Laws/KeptChannels.lean ====
section
/-! SUPPORT. Channels: each operation keeps what `Keeps` says. -/
namespace Sys2Proof.Machine

theorem kept_State_advance (s₀ : State) (s : State) (n : Nat) (cons : Bool)  (hk : Keeps s₀ s) : Keeps s₀ (State.advance s n cons) := by
  unfold State.advance
  repeat' first
    | (with_reducible first | assumption | intro _)
    | split
    | (with_reducible first | apply kept_State_setFlds)

theorem kept_State_highWater (s₀ : State) (s : State) (n : Nat)  (hk : Keeps s₀ s) : Keeps s₀ (State.highWater s n) := by
  unfold State.highWater
  repeat' first
    | (with_reducible first | assumption | intro _)
    | split
    | (with_reducible first | apply kept_State_setFld)

theorem kept_State_arrive (s₀ : State) (s : State) (n : Nat) (k : Nat) (t : Nat)  (hk : Keeps s₀ s) : Keeps s₀ (State.arrive s n k t) := by
  unfold State.arrive
  repeat' first
    | (with_reducible first | assumption | intro _)
    | split
    | (with_reducible apply keeps_upd; with_reducible first | assumption)

theorem kept_State_waited (s₀ : State) (s : State) (n : Nat) (t : Nat)  (hk : Keeps s₀ s) : Keeps s₀ (State.waited s n t) := by
  unfold State.waited
  repeat' first
    | (with_reducible first | assumption | intro _)
    | (extract_lets +onlyGivenNames x
       first
       | (refine keeps_let (s₀ := s₀) (s := x) ?_ ?_ <;> first | (intro hx; clear_value x) | subst x)
       | subst x)
    | split
    | (with_reducible first | apply kept_State_setFld | apply outKeeps_next | exact outKeeps_refused | apply optKeeps_some
                            | exact optKeeps_none)
    | dsimp -zeta only
    | (with_reducible apply keeps_upd; with_reducible first | assumption | apply kept_State_setFld)
  all_goals grind [kept_State_setFld, Keeps, held_rset, held_setAt_cores, held_setAt_lanes, held_filter_regs, held_map_cores, held_map_lanes, held_write1, held_write, held_clear, held_filter_mem, held_out, held_free, held_rbcnt]

theorem kept_State_leave (s₀ : State) (s : State) (n : Nat) (k : Nat)  (hk : Keeps s₀ s) : Keeps s₀ (State.leave s n k) := by
  unfold State.leave
  repeat' first
    | (with_reducible first | assumption | intro _)
    | split
    | (with_reducible first | apply kept_State_waited | apply kept_foldl)
    | (with_reducible apply keeps_upd; with_reducible first | assumption | apply kept_State_waited | apply kept_foldl)

theorem kept_State_enqueue (s₀ : State) (s : State) (n : Nat) (data : List Byte) (t : Nat)  (hk : Keeps s₀ s) : Keeps s₀ (State.enqueue s n data t) := by
  unfold State.enqueue
  repeat' first
    | (with_reducible first | assumption | intro _)
    | split
    | (with_reducible first | apply kept_State_highWater | apply kept_State_arrive | apply kept_State_advance
                            | apply kept_State_clearResv)
  all_goals grind [kept_State_highWater, kept_State_arrive, kept_State_advance, kept_State_clearResv, Keeps, held_rset, held_setAt_cores, held_setAt_lanes, held_filter_regs, held_map_cores, held_map_lanes, held_write1, held_write, held_clear, held_filter_mem, held_out, held_free, held_rbcnt]

theorem kept_State_setSpill (s₀ : State) (s : State) (n : Nat) (h : Nat) (l : List (List Byte × Nat))  (hk : Keeps s₀ s) : Keeps s₀ (State.setSpill s n h l) := by
  unfold State.setSpill
  repeat' first
    | (with_reducible first | assumption | intro _)
    | split
    | (with_reducible first | apply kept_State_setFlds)
    | (with_reducible apply keeps_upd; with_reducible first | assumption | apply kept_State_setFlds)

theorem kept_dropRecord (s₀ : State) (n : Nat) (ev : Nat) (s : State)  (hk : Keeps s₀ s) : Keeps s₀ (dropRecord n ev s) := by
  unfold dropRecord
  repeat' first
    | (with_reducible first | assumption | intro _)
    | split
    | (with_reducible first | apply kept_raise | apply kept_State_count | apply kept_State_setFld)

theorem kept_spillEntry (s₀ : State) (n : Nat) (data : List Byte) (s : State)  (hk : Keeps s₀ s) : Keeps s₀ (spillEntry n data s) := by
  unfold spillEntry
  repeat' first
    | (with_reducible first | assumption | intro _)
    | (extract_lets +onlyGivenNames x
       first
       | (refine keeps_let (s₀ := s₀) (s := x) ?_ ?_ <;> first | (intro hx; clear_value x) | subst x)
       | subst x)
    | split
    | (with_reducible first | apply kept_dropRecord | apply kept_raiseIf | apply kept_State_setSpill)

theorem kept_publishTo (s₀ : State) (n : Nat) (a0 : List Reserved) (a1 : State)  (hk : Keeps s₀ a1) : Keeps s₀ (publishTo n a0 a1) := by
  induction a0 generalizing a1 with
  | nil =>
    unfold publishTo
    repeat' first
      | (with_reducible first | assumption | intro _)
      | split
      | (with_reducible first | apply kept_State_enqueue)
      | (with_reducible apply keeps_upd; with_reducible first | assumption | apply kept_State_enqueue)
  | cons y r ih =>
    unfold publishTo
    repeat' first
      | (with_reducible first | assumption | intro _)
      | with_reducible apply ih
      | split
      | (with_reducible first | apply kept_State_enqueue)
      | (with_reducible apply keeps_upd; with_reducible first | assumption | apply kept_State_enqueue)

theorem kept_execChannelPublish (s₀ : State) (n : Nat) (s : State)  (hk : Keeps s₀ s) : OutKeeps s₀ (execChannelPublish n s) := by
  unfold execChannelPublish
  repeat' first
    | (with_reducible first | assumption | intro _)
    | split
    | (with_reducible first | apply kept_flagWork | apply kept_publishTo | apply outKeeps_next | exact outKeeps_refused
                            | apply optKeeps_some | exact optKeeps_none)
    | dsimp -zeta only

theorem kept_spillUe (s₀ : State) (s : State)  (hk : Keeps s₀ s) : Keeps s₀ (spillUe s) := by
  unfold spillUe
  repeat' first
    | (with_reducible first | assumption | intro _)
    | (extract_lets +onlyGivenNames x
       first
       | (refine keeps_let (s₀ := s₀) (s := x) ?_ ?_ <;> first | (intro hx; clear_value x) | subst x)
       | subst x)
    | split
    | (with_reducible first | apply kept_State_freshNat | apply kept_hbmUe | apply outKeeps_next | exact outKeeps_refused
                            | apply optKeeps_some | exact optKeeps_none | refine keeps_pair ?_ (by assumption)
                            | refine keeps_triple ?_ (by assumption))
    | dsimp -zeta only
    | (with_reducible apply keeps_upd; with_reducible first | assumption | apply kept_State_freshNat | apply kept_hbmUe)
  all_goals grind [kept_State_freshNat, kept_hbmUe, Keeps, held_rset, held_setAt_cores, held_setAt_lanes, held_filter_regs, held_map_cores, held_map_lanes, held_write1, held_write, held_clear, held_filter_mem, held_out, held_free, held_rbcnt]

theorem kept_refill (s₀ : State) (n : Nat) (ecc : Ecc) (s : State)  (hk : Keeps s₀ s) : Keeps s₀ (refill n ecc s) := by
  unfold refill
  repeat' first
    | (with_reducible first | assumption | intro _)
    | (extract_lets +onlyGivenNames x
       first
       | (refine keeps_let (s₀ := s₀) (s := x) ?_ ?_ <;> first | (intro hx; clear_value x) | subst x)
       | subst x)
    | split
    | (with_reducible first | apply kept_State_setSpill | apply kept_hbmCorrect | apply kept_dropRecord
                            | apply kept_State_setFld | apply kept_State_waited | apply kept_spillUe
                            | apply kept_State_enqueue | apply outKeeps_next | exact outKeeps_refused | apply optKeeps_some
                            | exact optKeeps_none)
    | dsimp -zeta only
    | (with_reducible apply keeps_upd; with_reducible first | assumption | apply kept_State_setSpill | apply kept_hbmCorrect
                                                             | apply kept_dropRecord | apply kept_State_setFld
                                                             | apply kept_State_waited | apply kept_spillUe
                                                             | apply kept_State_enqueue)
  all_goals grind [kept_State_setSpill, kept_hbmCorrect, kept_dropRecord, kept_State_setFld, kept_State_waited, kept_spillUe, kept_State_enqueue, Keeps, held_rset, held_setAt_cores, held_setAt_lanes, held_filter_regs, held_map_cores, held_map_lanes, held_write1, held_write, held_clear, held_filter_mem, held_out, held_free, held_rbcnt]

theorem kept_execSpillRefill (s₀ : State) (n : Nat) (ecc : Ecc) (s : State)  (hk : Keeps s₀ s) : OutKeeps s₀ (execSpillRefill n ecc s) := by
  unfold execSpillRefill
  repeat' first
    | (with_reducible first | assumption | intro _)
    | split
    | (with_reducible first | apply kept_flagWork | apply kept_refill | apply outKeeps_next | exact outKeeps_refused
                            | apply optKeeps_some | exact optKeeps_none)
    | dsimp -zeta only

theorem kept_commit (s₀ : State) (cycle : Nat) (s : State) (c : ChanDesc)  (hk : Keeps s₀ s) : Keeps s₀ (commit cycle s c) := by
  unfold commit
  repeat' first
    | (with_reducible first | assumption | intro _)
    | (extract_lets +onlyGivenNames x
       first
       | (refine keeps_let (s₀ := s₀) (s := x) ?_ ?_ <;> first | (intro hx; clear_value x) | subst x)
       | subst x)
    | split
    | (with_reducible first | apply kept_dropRecord | apply kept_spillEntry)
    | (with_reducible apply keeps_upd; with_reducible first | assumption | apply kept_dropRecord | apply kept_spillEntry)

theorem kept_chnBoundary (s₀ : State) (cycle : Nat) (s : State)  (hk : Keeps s₀ s) : Keeps s₀ (chnBoundary cycle s) := by
  unfold chnBoundary
  repeat' first
    | (with_reducible first | assumption | intro _)
    | split
    | (with_reducible first | apply kept_commit | apply kept_State_setFlds | apply kept_foldl)
    | (with_reducible apply keeps_upd; with_reducible first | assumption | apply kept_commit | apply kept_State_setFlds
                                                             | apply kept_foldl)

theorem kept_takeEntry (s₀ : State) (n : Nat) (s : State)  (hk : Keeps s₀ s) : Keeps s₀ (takeEntry n s) := by
  unfold takeEntry
  repeat' first
    | (with_reducible first | assumption | intro _)
    | (extract_lets +onlyGivenNames x
       first
       | (refine keeps_let (s₀ := s₀) (s := x) ?_ ?_ <;> first | (intro hx; clear_value x) | subst x)
       | subst x)
    | split
    | (with_reducible first | apply kept_State_leave | apply kept_State_advance | apply kept_raise | apply kept_State_setFld)
    | (with_reducible apply keeps_upd; with_reducible first | assumption | apply kept_State_leave | apply kept_State_advance
                                                             | apply kept_raise | apply kept_State_setFld)

theorem kept_noneTaken (s₀ : State) (n : Nat) (s : State)  (hk : Keeps s₀ s) : Keeps s₀ (noneTaken n s) := by
  unfold noneTaken
  repeat' first
    | (with_reducible first | assumption | intro _)
    | (extract_lets +onlyGivenNames x
       first
       | (refine keeps_let (s₀ := s₀) (s := x) ?_ ?_ <;> first | (intro hx; clear_value x) | subst x)
       | subst x)
    | split
    | (with_reducible first | apply outKeeps_next | exact outKeeps_refused | apply optKeeps_some | exact optKeeps_none)
    | dsimp -zeta only
    | (with_reducible apply keeps_upd; with_reducible first | assumption)
  all_goals grind [Keeps, held_rset, held_setAt_cores, held_setAt_lanes, held_filter_regs, held_map_cores, held_map_lanes, held_write1, held_write, held_clear, held_filter_mem, held_out, held_free, held_rbcnt]

theorem kept_chnHold (s₀ : State) (n : Nat) (s : State)  (hk : Keeps s₀ s) : Keeps s₀ (chnHold n s) := by
  unfold chnHold
  repeat' first
    | (with_reducible first | assumption | intro _)
    | split
    | (with_reducible first | apply kept_raise | apply kept_State_setFld)
    | (with_reducible apply keeps_upd; with_reducible first | assumption | apply kept_raise | apply kept_State_setFld)

theorem kept_chnDue (s₀ : State) (s : State) (c : ChanDesc)  (hk : Keeps s₀ s) : Keeps s₀ (chnDue s c) := by
  unfold chnDue
  repeat' first
    | (with_reducible first | assumption | intro _)
    | (extract_lets +onlyGivenNames x
       first
       | (refine keeps_let (s₀ := s₀) (s := x) ?_ ?_ <;> first | (intro hx; clear_value x) | subst x)
       | subst x)
    | split
    | (with_reducible first | apply kept_noneTaken | apply kept_takeEntry | apply kept_chnHold | apply kept_State_count)

theorem kept_chnRelease (s₀ : State) (s : State) (n : Nat)  (hk : Keeps s₀ s) : Keeps s₀ (chnRelease s n) := by
  unfold chnRelease
  repeat' first
    | (with_reducible first | assumption | intro _)
    | split
    | (with_reducible first | apply kept_takeEntry | apply kept_noneTaken)
    | (with_reducible apply keeps_upd; with_reducible first | assumption | apply kept_takeEntry | apply kept_noneTaken)

theorem kept_chnGrain (s₀ : State) (p : Option Nat) (s : State)  (hk : Keeps s₀ s) : Keeps s₀ (chnGrain p s) := by
  unfold chnGrain
  repeat' first
    | (with_reducible first | assumption | intro _)
    | split
    | (with_reducible first | apply kept_chnRelease | apply kept_chnDue | apply kept_State_setFld | apply kept_foldl)

theorem kept_chnSlots (s₀ : State) (t : Nat) (s : State)  (hk : Keeps s₀ s) : Keeps s₀ (chnSlots t s) := by
  unfold chnSlots
  repeat' first
    | (with_reducible first | assumption | intro _)
    | split
    | (with_reducible first | apply kept_placeHub | apply kept_foldl | apply keeps_getD)

theorem kept_execLoadComplete (s₀ : State) (s : State)  (hk : Keeps s₀ s) : OutKeeps s₀ (execLoadComplete s) := by
  unfold execLoadComplete
  repeat' first
    | (with_reducible first | assumption | intro _)
    | (extract_lets +onlyGivenNames x
       first
       | (refine keeps_let (s₀ := s₀) (s := x) ?_ ?_ <;> first | (intro hx; clear_value x) | subst x)
       | subst x)
    | split
    | (with_reducible first | apply kept_flagWork | apply kept_completeLoad | apply outKeeps_next | exact outKeeps_refused
                            | apply optKeeps_some | exact optKeeps_none)
    | dsimp -zeta only
    | (with_reducible apply keeps_upd; with_reducible first | assumption | apply kept_flagWork | apply kept_completeLoad)
  all_goals grind [kept_flagWork, kept_completeLoad, Keeps, held_rset, held_setAt_cores, held_setAt_lanes, held_filter_regs, held_map_cores, held_map_lanes, held_write1, held_write, held_clear, held_filter_mem, held_out, held_free, held_rbcnt]

theorem kept_execRestoreComplete (s₀ : State) (s : State)  (hk : Keeps s₀ s) : OutKeeps s₀ (execRestoreComplete s) := by
  unfold execRestoreComplete
  repeat' first
    | (with_reducible first | assumption | intro _)
    | (extract_lets +onlyGivenNames x
       first
       | (refine keeps_let (s₀ := s₀) (s := x) ?_ ?_ <;> first | (intro hx; clear_value x) | subst x)
       | subst x)
    | split
    | (with_reducible first | apply kept_flagWork | apply kept_completeRestore | apply outKeeps_next | exact outKeeps_refused
                            | apply optKeeps_some | exact optKeeps_none)
    | dsimp -zeta only
    | (with_reducible apply keeps_upd; with_reducible first | assumption | apply kept_flagWork | apply kept_completeRestore)
  all_goals grind [kept_flagWork, kept_completeRestore, Keeps, held_rset, held_setAt_cores, held_setAt_lanes, held_filter_regs, held_map_cores, held_map_lanes, held_write1, held_write, held_clear, held_filter_mem, held_out, held_free, held_rbcnt]

theorem kept_indexWrite (s₀ : State) (n : Nat) (cons : Bool) (d : Word) (s : State)  (hk : Keeps s₀ s) : Keeps s₀ (indexWrite n cons d s) := by
  unfold indexWrite
  repeat' first
    | (with_reducible first | assumption | intro _)
    | (extract_lets +onlyGivenNames x
       first
       | (refine keeps_let (s₀ := s₀) (s := x) ?_ ?_ <;> first | (intro hx; clear_value x) | subst x)
       | subst x)
    | split
    | (with_reducible first | apply kept_raise | apply kept_State_setFld | apply kept_State_leave | apply kept_State_setFlds
                            | apply kept_State_highWater | apply kept_State_arrive)

theorem kept_execChnIndexWrite (s₀ : State) (m : Nat) (n : Nat) (cons : Bool) (d : Word) (s : State)  (hk : Keeps s₀ s) : OutKeeps s₀ (execChnIndexWrite m n cons d s) := by
  unfold execChnIndexWrite
  repeat' first
    | (with_reducible first | assumption | intro _)
    | split
    | (with_reducible first | apply kept_regWrite | apply kept_flagWork | apply kept_indexWrite | apply outKeeps_next
                            | exact outKeeps_refused | apply optKeeps_some | exact optKeeps_none)
    | dsimp -zeta only

end Sys2Proof.Machine
end

