-- ==== Sys2Proof/Laws/KeptControl.lean ====
section
/-! SUPPORT. Control: each operation keeps what `Keeps` says. -/
namespace Sys2Proof.Machine

theorem kept_holdReqWrite (s₀ : State) (d : Word) (s : State)  (hk : Keeps s₀ s) : Keeps s₀ (holdReqWrite d s) := by
  unfold holdReqWrite
  repeat' first
    | (with_reducible first | assumption | intro _)
    | split
    | (with_reducible first | apply kept_State_setFlds | apply kept_plainWrite)

theorem kept_execHoldReqHost (s₀ : State) (m : Nat) (d : Word) (s : State)  (hk : Keeps s₀ s) : OutKeeps s₀ (execHoldReqHost m d s) := by
  unfold execHoldReqHost
  repeat' first
    | (with_reducible first | assumption | intro _)
    | split
    | (with_reducible first | apply kept_regWrite | apply kept_holdReqWrite | apply outKeeps_next | exact outKeeps_refused
                            | apply optKeeps_some | exact optKeeps_none)
    | dsimp -zeta only

theorem kept_execHoldReqDebug (s₀ : State) (m : Nat) (d : Word) (s : State)  (hk : Keeps s₀ s) : OutKeeps s₀ (execHoldReqDebug m d s) := by
  unfold execHoldReqDebug
  repeat' first
    | (with_reducible first | assumption | intro _)
    | split
    | (with_reducible first | apply kept_regWrite | apply kept_holdReqWrite | apply outKeeps_next | exact outKeeps_refused
                            | apply optKeeps_some | exact optKeeps_none)
    | dsimp -zeta only

theorem kept_execHoldClearDesign (s₀ : State) (m : Nat) (d : Word) (s : State)  (hk : Keeps s₀ s) : OutKeeps s₀ (execHoldClearDesign m d s) := by
  unfold execHoldClearDesign
  repeat' first
    | (with_reducible first | assumption | intro _)
    | split
    | (with_reducible first | apply kept_regWrite | apply kept_plainWrite | apply outKeeps_next | exact outKeeps_refused
                            | apply optKeeps_some | exact optKeeps_none)
    | dsimp -zeta only

theorem kept_execHoldClearTrigger (s₀ : State) (m : Nat) (d : Word) (s : State)  (hk : Keeps s₀ s) : OutKeeps s₀ (execHoldClearTrigger m d s) := by
  unfold execHoldClearTrigger
  repeat' first
    | (with_reducible first | assumption | intro _)
    | split
    | (with_reducible first | apply kept_regWrite | apply kept_plainWrite | apply outKeeps_next | exact outKeeps_refused
                            | apply optKeeps_some | exact optKeeps_none)
    | dsimp -zeta only

theorem kept_execHoldLimitExceeded (s₀ : State) (s : State)  (hk : Keeps s₀ s) : OutKeeps s₀ (execHoldLimitExceeded s) := by
  unfold execHoldLimitExceeded
  repeat' first
    | (with_reducible first | assumption | intro _)
    | split
    | (with_reducible first | apply kept_raise | apply outKeeps_next | exact outKeeps_refused | apply optKeeps_some
                            | exact optKeeps_none)
    | dsimp -zeta only
    | (with_reducible apply keeps_upd; with_reducible first | assumption | apply kept_raise)

theorem kept_thrWrite (s₀ : State) (d : Word) (s : State)  (hk : Keeps s₀ s) : Keeps s₀ (thrWrite d s) := by
  unfold thrWrite
  repeat' first
    | (with_reducible first | assumption | intro _)
    | split
    | (with_reducible first | apply kept_updThr | apply kept_plainWrite)

theorem kept_applyThr (s₀ : State) (s : State)  (hk : Keeps s₀ s) : Keeps s₀ (applyThr s) := by
  unfold applyThr
  repeat' first
    | (with_reducible first | assumption | intro _)
    | (extract_lets +onlyGivenNames x
       first
       | (refine keeps_let (s₀ := s₀) (s := x) ?_ ?_ <;> first | (intro hx; clear_value x) | subst x)
       | subst x)
    | split
    | (with_reducible first | apply kept_raise | apply kept_State_setFld)
    | (with_reducible apply keeps_upd; with_reducible first | assumption | apply kept_raise | apply kept_State_setFld)

theorem kept_execThrottleChange (s₀ : State) (s : State)  (hk : Keeps s₀ s) : OutKeeps s₀ (execThrottleChange s) := by
  unfold execThrottleChange
  repeat' first
    | (with_reducible first | assumption | intro _)
    | split
    | (with_reducible first | apply kept_applyThr | apply outKeeps_next | exact outKeeps_refused | apply optKeeps_some
                            | exact optKeeps_none)
    | dsimp -zeta only

theorem kept_applyRel (s₀ : State) (s : State)  (hk : Keeps s₀ s) : Keeps s₀ (applyRel s) := by
  unfold applyRel
  repeat' first
    | (with_reducible first | assumption | intro _)
    | split
    | (with_reducible first | apply kept_raise | apply kept_State_setFlds)
    | (with_reducible apply keeps_upd; with_reducible first | assumption | apply kept_raise | apply kept_State_setFlds)

theorem kept_execReleaseStage (s₀ : State) (s : State)  (hk : Keeps s₀ s) : OutKeeps s₀ (execReleaseStage s) := by
  unfold execReleaseStage
  repeat' first
    | (with_reducible first | assumption | intro _)
    | split
    | (with_reducible first | apply kept_applyRel | apply outKeeps_next | exact outKeeps_refused | apply optKeeps_some
                            | exact optKeeps_none)
    | dsimp -zeta only

theorem kept_stopClock (s₀ : State) (s : State)  (hk : Keeps s₀ s) : Keeps s₀ (stopClock s) := by
  unfold stopClock
  repeat' first
    | (with_reducible first | assumption | intro _)
    | (extract_lets +onlyGivenNames x
       first
       | (refine keeps_let (s₀ := s₀) (s := x) ?_ ?_ <;> first | (intro hx; clear_value x) | subst x)
       | subst x)
    | split
    | (with_reducible first | apply kept_standField | apply kept_setMode | apply kept_enterSafe)
    | (with_reducible apply keeps_upd; with_reducible first | assumption | apply kept_standField | apply kept_setMode
                                                             | apply kept_enterSafe)

theorem kept_execStepBurstEnd (s₀ : State) (s : State)  (hk : Keeps s₀ s) : OutKeeps s₀ (execStepBurstEnd s) := by
  unfold execStepBurstEnd
  repeat' first
    | (with_reducible first | assumption | intro _)
    | split
    | (with_reducible first | apply kept_stopClock | apply outKeeps_next | exact outKeeps_refused | apply optKeeps_some
                            | exact optKeeps_none)
    | dsimp -zeta only

theorem kept_State_freshMark (s₀ : State) (s : State)  (hk : Keeps s₀ s) : Keeps s₀ (State.freshMark s).2 := by
  unfold State.freshMark
  repeat' first
    | (with_reducible first | assumption | intro _)
    | (extract_lets +onlyGivenNames x
       first
       | (refine keeps_let (s₀ := s₀) (s := x) ?_ ?_ <;> first | (intro hx; clear_value x) | subst x)
       | subst x)
    | split
    | (with_reducible first | apply kept_State_freshBit | apply kept_State_freshNat | apply outKeeps_next
                            | exact outKeeps_refused | apply optKeeps_some | exact optKeeps_none | apply optKeeps3_some
                            | exact optKeeps3_none | refine keeps_pair ?_ (by assumption)
                            | refine keeps_triple ?_ (by assumption))
    | dsimp -zeta only
    | (with_reducible apply keeps_upd; with_reducible first | assumption | apply kept_State_freshBit | apply kept_State_freshNat)
  all_goals grind [kept_State_freshBit, kept_State_freshNat, Keeps, held_rset, held_setAt_cores, held_setAt_lanes, held_filter_regs, held_map_cores, held_map_lanes, held_write1, held_write, held_clear, held_filter_mem, held_out, held_free, held_rbcnt]

theorem kept_lowestDiffers (s₀ : State) (ask : State → Bool × State) (a0 : Nat) (a1 : Nat) (a2 : State) (h_ask : ∀ v0, Keeps s₀ v0 → Keeps s₀ (ask v0).2) (hk : Keeps s₀ a2) : Keeps s₀ (lowestDiffers ask a0 a1 a2).2 := by
  induction a0 generalizing a1 a2 with
  | zero =>
    unfold lowestDiffers
    repeat' first
      | (with_reducible first | assumption | intro _)
      | (extract_lets +onlyGivenNames x
         first
         | (refine keeps_let (s₀ := s₀) (s := x) ?_ ?_ <;> first | (intro hx; clear_value x) | subst x)
         | subst x)
      | split
      | (with_reducible first | apply h_ask | apply outKeeps_next | exact outKeeps_refused | apply optKeeps_some
                              | exact optKeeps_none | refine keeps_pair ?_ (by assumption)
                              | refine keeps_triple ?_ (by assumption))
      | dsimp -zeta only
      | (with_reducible apply keeps_upd; with_reducible first | assumption)
    all_goals grind [Keeps, held_rset, held_setAt_cores, held_setAt_lanes, held_filter_regs, held_map_cores, held_map_lanes, held_write1, held_write, held_clear, held_filter_mem, held_out, held_free, held_rbcnt]
  | succ y ih =>
    unfold lowestDiffers
    repeat' first
      | (with_reducible first | assumption | intro _)
      | (extract_lets +onlyGivenNames x
         first
         | (refine keeps_let (s₀ := s₀) (s := x) ?_ ?_ <;> first | (intro hx; clear_value x) | subst x)
         | subst x)
      | with_reducible apply ih
      | split
      | (with_reducible first | apply h_ask | apply outKeeps_next | exact outKeeps_refused | apply optKeeps_some
                              | exact optKeeps_none | refine keeps_pair ?_ (by assumption)
                              | refine keeps_triple ?_ (by assumption))
      | dsimp -zeta only
      | (with_reducible apply keeps_upd; with_reducible first | assumption)
    all_goals grind [Keeps, held_rset, held_setAt_cores, held_setAt_lanes, held_filter_regs, held_map_cores, held_map_lanes, held_write1, held_write, held_clear, held_filter_mem, held_out, held_free, held_rbcnt]

theorem kept_runChecks (s₀ : State) (s : State)  (hk : Keeps s₀ s) : Keeps s₀ (runChecks s).2.2 := by
  unfold runChecks
  repeat' first
    | (with_reducible first | assumption | intro _)
    | (extract_lets +onlyGivenNames x
       first
       | (refine keeps_let (s₀ := s₀) (s := x) ?_ ?_ <;> first | (intro hx; clear_value x) | subst x)
       | subst x)
    | split
    | (with_reducible first | apply kept_lowestDiffers | apply kept_State_freshBit | apply kept_State_freshMark
                            | apply outKeeps_next | exact outKeeps_refused | apply optKeeps_some | exact optKeeps_none
                            | refine keeps_pair ?_ (by assumption) | refine keeps_triple ?_ (by assumption))
    | dsimp -zeta only
    | (with_reducible apply keeps_upd; with_reducible first | assumption | apply kept_lowestDiffers | apply kept_State_freshBit
                                                             | apply kept_State_freshMark)
  all_goals grind [kept_lowestDiffers, kept_State_freshBit, kept_State_freshMark, Keeps, held_rset, held_setAt_cores, held_setAt_lanes, held_filter_regs, held_map_cores, held_map_lanes, held_write1, held_write, held_clear, held_filter_mem, held_out, held_free, held_rbcnt]

theorem kept_beginRun (s₀ : State) (last : Nat) (s : State)  (hk : Keeps s₀ s) : Keeps s₀ (beginRun last s) := by
  unfold beginRun
  repeat' first
    | (with_reducible first | assumption | intro _)
    | split
    | (with_reducible first | apply kept_startMode | apply kept_cymSend | apply kept_State_relay)
    | (with_reducible apply keeps_upd; with_reducible first | assumption | apply kept_startMode | apply kept_cymSend
                                                             | apply kept_State_relay)

theorem kept_execRun (s₀ : State) (msg : Msg) (s : State)  (hk : Keeps s₀ s) : OutKeeps s₀ (execRun msg s) := by
  unfold execRun
  repeat' first
    | (with_reducible first | assumption | intro _)
    | (extract_lets +onlyGivenNames x
       first
       | (refine keeps_let (s₀ := s₀) (s := x) ?_ ?_ <;> first | (intro hx; clear_value x) | subst x)
       | subst x)
    | split
    | (with_reducible first | apply kept_request | apply kept_runChecks | apply kept_beginRun | apply outKeeps_next
                            | exact outKeeps_refused | apply optKeeps_some | exact optKeeps_none
                            | refine keeps_pair ?_ (by assumption) | refine keeps_triple ?_ (by assumption))
    | dsimp -zeta only

theorem kept_execStep (s₀ : State) (msg : Msg) (s : State)  (hk : Keeps s₀ s) : OutKeeps s₀ (execStep msg s) := by
  unfold execStep
  repeat' first
    | (with_reducible first | assumption | intro _)
    | (extract_lets +onlyGivenNames x
       first
       | (refine keeps_let (s₀ := s₀) (s := x) ?_ ?_ <;> first | (intro hx; clear_value x) | subst x)
       | subst x)
    | split
    | (with_reducible first | apply kept_request | apply kept_runChecks | apply kept_beginRun | apply outKeeps_next
                            | exact outKeeps_refused | apply optKeeps_some | exact optKeeps_none
                            | refine keeps_pair ?_ (by assumption) | refine keeps_triple ?_ (by assumption))
    | dsimp -zeta only

theorem kept_execStop (s₀ : State) (msg : Msg) (s : State)  (hk : Keeps s₀ s) : OutKeeps s₀ (execStop msg s) := by
  unfold execStop
  repeat' first
    | (with_reducible first | assumption | intro _)
    | split
    | (with_reducible first | apply kept_request | apply kept_ok | apply outKeeps_next | exact outKeeps_refused
                            | apply optKeeps_some | exact optKeeps_none | refine keeps_pair ?_ (by assumption)
                            | refine keeps_triple ?_ (by assumption))
    | dsimp -zeta only
    | (with_reducible apply keeps_upd; with_reducible first | assumption | apply kept_request | apply kept_ok)

theorem kept_execSafe (s₀ : State) (msg : Msg) (s : State)  (hk : Keeps s₀ s) : OutKeeps s₀ (execSafe msg s) := by
  unfold execSafe
  repeat' first
    | (with_reducible first | assumption | intro _)
    | split
    | (with_reducible first | apply kept_request | apply kept_State_log | apply kept_State_eventAll | apply kept_ok
                            | apply kept_requestSafe | apply outKeeps_next | exact outKeeps_refused | apply optKeeps_some
                            | exact optKeeps_none | refine keeps_pair ?_ (by assumption)
                            | refine keeps_triple ?_ (by assumption))
    | dsimp -zeta only

theorem kept_safeReqWrite (s₀ : State) (d : Word) (s : State)  (hk : Keeps s₀ s) : Keeps s₀ (safeReqWrite d s) := by
  unfold safeReqWrite
  repeat' first
    | (with_reducible first | assumption | intro _)
    | split
    | (with_reducible first | apply kept_requestSafe)

theorem kept_execMgtSafeReq (s₀ : State) (m : Nat) (d : Word) (s : State)  (hk : Keeps s₀ s) : OutKeeps s₀ (execMgtSafeReq m d s) := by
  unfold execMgtSafeReq
  repeat' first
    | (with_reducible first | assumption | intro _)
    | split
    | (with_reducible first | apply kept_regWrite | apply kept_safeReqWrite | apply outKeeps_next | exact outKeeps_refused
                            | apply optKeeps_some | exact optKeeps_none)
    | dsimp -zeta only

theorem kept_execDiscard (s₀ : State) (msg : Msg) (s : State)  (hk : Keeps s₀ s) : OutKeeps s₀ (execDiscard msg s) := by
  unfold execDiscard
  repeat' first
    | (with_reducible first | assumption | intro _)
    | split
    | (with_reducible first | apply kept_request | apply kept_ok | apply kept_enterIdle | apply kept_inertIfDriven
                            | apply kept_discardImage | apply outKeeps_next | exact outKeeps_refused | apply optKeeps_some
                            | exact optKeeps_none | refine keeps_pair ?_ (by assumption)
                            | refine keeps_triple ?_ (by assumption))
    | dsimp -zeta only

theorem kept_hbmTemps (s₀ : State) (t : List (BitVec 8)) (s : State)  (hk : Keeps s₀ s) : Keeps s₀ (hbmTemps t s) := by
  unfold hbmTemps
  repeat' first
    | (with_reducible first | assumption | intro _)
    | (extract_lets +onlyGivenNames x
       first
       | (refine keeps_let (s₀ := s₀) (s := x) ?_ ?_ <;> first | (intro hx; clear_value x) | subst x)
       | subst x)
    | split
    | (with_reducible first | apply kept_State_setFld | apply kept_raise | apply kept_foldl)
    | (with_reducible apply keeps_upd; with_reducible first | assumption | apply kept_State_setFld | apply kept_raise
                                                             | apply kept_foldl)

theorem kept_execHbmTempRead (s₀ : State) (t0 : BitVec 8) (t1 : BitVec 8) (t2 : BitVec 8) (t3 : BitVec 8) (s : State)  (hk : Keeps s₀ s) : OutKeeps s₀ (execHbmTempRead t0 t1 t2 t3 s) := by
  unfold execHbmTempRead
  repeat' first
    | (with_reducible first | assumption | intro _)
    | split
    | (with_reducible first | apply kept_hbmTemps | apply outKeeps_next | exact outKeeps_refused | apply optKeeps_some
                            | exact optKeeps_none)
    | dsimp -zeta only

theorem kept_scrubRead (s₀ : State) (stack : Nat) (offset : Nat) (e : Ecc) (s : State)  (hk : Keeps s₀ s) : Keeps s₀ (scrubRead stack offset e s) := by
  unfold scrubRead
  repeat' first
    | (with_reducible first | assumption | intro _)
    | (extract_lets +onlyGivenNames x
       first
       | (refine keeps_let (s₀ := s₀) (s := x) ?_ ?_ <;> first | (intro hx; clear_value x) | subst x)
       | subst x)
    | split
    | (with_reducible first | apply kept_hbmCorrect | apply kept_raise | apply kept_State_first | apply kept_hbmUe
                            | apply outKeeps_next | exact outKeeps_refused | apply optKeeps_some | exact optKeeps_none
                            | apply keeps_getD)
    | dsimp -zeta only
    | (with_reducible apply keeps_upd; with_reducible first | assumption | apply kept_hbmCorrect | apply kept_raise
                                                             | apply kept_State_first | apply kept_hbmUe)
  all_goals grind [kept_hbmCorrect, kept_raise, kept_State_first, kept_hbmUe, Keeps, held_rset, held_setAt_cores, held_setAt_lanes, held_filter_regs, held_map_cores, held_map_lanes, held_write1, held_write, held_clear, held_filter_mem, held_out, held_free, held_rbcnt]

theorem kept_execScrubRead (s₀ : State) (stack : Nat) (offset : Nat) (ecc : Ecc) (s : State)  (hk : Keeps s₀ s) : OutKeeps s₀ (execScrubRead stack offset ecc s) := by
  unfold execScrubRead
  repeat' first
    | (with_reducible first | assumption | intro _)
    | split
    | (with_reducible first | apply kept_scrubRead | apply outKeeps_next | exact outKeeps_refused | apply optKeeps_some
                            | exact optKeeps_none)
    | dsimp -zeta only

theorem kept_execScrubPassEnd (s₀ : State) (stack : Nat) (s : State)  (hk : Keeps s₀ s) : OutKeeps s₀ (execScrubPassEnd stack s) := by
  unfold execScrubPassEnd
  repeat' first
    | (with_reducible first | assumption | intro _)
    | split
    | (with_reducible first | apply kept_raiseIf | apply outKeeps_next | exact outKeeps_refused | apply optKeeps_some
                            | exact optKeeps_none)
    | dsimp -zeta only

end Sys2Proof.Machine
end

