-- ==== Sys2Proof/Laws/KeptCores.lean ====
section
/-! SUPPORT. Cores: each operation keeps what `Keeps` says. -/
namespace Sys2Proof.Machine

theorem kept_State_setSys (s₀ : State) (s : State) (n : Nat) (k : Nat) (w : Word)  (hk : Keeps s₀ s) : Keeps s₀ (State.setSys s n k w) := by
  unfold State.setSys
  exact keeps_setCore n _ ⟨(keeps_sound hk n).1, rwfFrom_rset _ _ 0 _ _ (keeps_sound hk n).2 (Nat.zero_le _)⟩ hk

theorem kept_State_setStatus (s₀ : State) (s : State) (n : Nat) (b : Nat) (v : Bool)  (hk : Keeps s₀ s) : Keeps s₀ (State.setStatus s n b v) := by
  unfold State.setStatus
  repeat' first
    | (with_reducible first | assumption | intro _)
    | split
    | (with_reducible first | apply kept_State_setSys)

theorem kept_State_setPc (s₀ : State) (s : State) (n : Nat) (w : Word)  (hk : Keeps s₀ s) : Keeps s₀ (State.setPc s n w) := by
  unfold State.setPc
  repeat' first
    | (with_reducible first | assumption | intro _)
    | split
    | (with_reducible first | apply keeps_setCore_reset | apply keeps_setCore_upd)

theorem kept_State_dropResv (s₀ : State) (s : State) (n : Nat)  (hk : Keeps s₀ s) : Keeps s₀ (State.dropResv s n) := by
  unfold State.dropResv
  repeat' first
    | (with_reducible first | assumption | intro _)
    | split
    | (with_reducible first | apply keeps_setCore_reset | apply keeps_setCore_upd)

theorem kept_enterException (s₀ : State) (n : Nat) (cause : Nat) (addr : Nat) (s : State)  (hk : Keeps s₀ s) : Keeps s₀ (enterException n cause addr s) := by
  unfold enterException
  repeat' first
    | (with_reducible first | assumption | intro _)
    | split
    | (with_reducible first | apply kept_pmcCount | apply kept_endRun | apply kept_State_setSys | apply kept_State_setPc
                            | apply kept_State_dropResv)

theorem kept_lockup (s₀ : State) (n : Nat) (s : State)  (hk : Keeps s₀ s) : Keeps s₀ (lockup n s) := by
  unfold lockup
  repeat' first
    | (with_reducible first | assumption | intro _)
    | split
    | (with_reducible first | apply keeps_setCore_reset | apply keeps_setCore_upd | apply kept_endRun | apply kept_raise
                            | apply kept_State_setReg | apply kept_State_setFld)

theorem kept_except (s₀ : State) (n : Nat) (cause : Nat) (addr : Nat) (s : State)  (hk : Keeps s₀ s) : Keeps s₀ (except n cause addr s) := by
  unfold except
  repeat' first
    | (with_reducible first | assumption | intro _)
    | split
    | (with_reducible first | apply kept_lockup | apply kept_enterException)

theorem kept_enterMonitor (s₀ : State) (n : Nat) (cause : Nat) (s : State)  (hk : Keeps s₀ s) : Keeps s₀ (enterMonitor n cause s) := by
  unfold enterMonitor
  repeat' first
    | (with_reducible first | assumption | intro _)
    | (extract_lets +onlyGivenNames x
       first
       | (refine keeps_let (s₀ := s₀) (s := x) ?_ ?_ <;> first | (intro hx; clear_value x) | subst x)
       | subst x)
    | split
    | (with_reducible first | apply keeps_setCore_reset | apply keeps_setCore_upd | apply kept_endRun | apply kept_State_setSys
                            | apply kept_raise | apply kept_State_setFld)

theorem kept_endWait (s₀ : State) (n : Nat) (s : State)  (hk : Keeps s₀ s) : Keeps s₀ (endWait n s) := by
  unfold endWait
  repeat' first
    | (with_reducible first | assumption | intro _)
    | split
    | (with_reducible first | apply keeps_setCore_reset | apply keeps_setCore_upd | apply kept_wakeCore)

theorem kept_enterInterrupt (s₀ : State) (n : Nat) (k : Nat) (s : State)  (hk : Keeps s₀ s) : Keeps s₀ (enterInterrupt n k s) := by
  unfold enterInterrupt
  repeat' first
    | (with_reducible first | assumption | intro _)
    | split
    | (with_reducible first | apply kept_enterException)
    | (with_reducible apply keeps_upd; with_reducible first | assumption | apply kept_enterException)

theorem kept_boundary (s₀ : State) (n : Nat) (s : State)  (hk : Keeps s₀ s) : OptKeeps s₀ (boundary n s) := by
  unfold boundary
  repeat' first
    | (with_reducible first | assumption | intro _)
    | split
    | (with_reducible first | apply keeps_setCore_reset | apply keeps_setCore_upd | apply kept_enterMonitor
                            | apply kept_enterException | apply kept_enterInterrupt | apply outKeeps_next
                            | exact outKeeps_refused | apply optKeeps_some | exact optKeeps_none | apply optKeeps_map)
    | dsimp -zeta only

theorem kept_execInterruptEntry (s₀ : State) (n : Nat) (s : State)  (hk : Keeps s₀ s) : OutKeeps s₀ (execInterruptEntry n s) := by
  unfold execInterruptEntry
  repeat' first
    | (with_reducible first | assumption | intro _)
    | split
    | (with_reducible first | apply kept_enterInterrupt | apply kept_endWait | apply outKeeps_next | exact outKeeps_refused
                            | apply optKeeps_some | exact optKeeps_none)
    | dsimp -zeta only

theorem kept_execMonitorEntry (s₀ : State) (n : Nat) (s : State)  (hk : Keeps s₀ s) : OutKeeps s₀ (execMonitorEntry n s) := by
  unfold execMonitorEntry
  repeat' first
    | (with_reducible first | assumption | intro _)
    | split
    | (with_reducible first | apply kept_enterMonitor | apply kept_endWait | apply outKeeps_next | exact outKeeps_refused
                            | apply optKeeps_some | exact optKeeps_none)
    | dsimp -zeta only

theorem kept_execCoreWake (s₀ : State) (n : Nat) (s : State)  (hk : Keeps s₀ s) : OutKeeps s₀ (execCoreWake n s) := by
  unfold execCoreWake
  repeat' first
    | (with_reducible first | assumption | intro _)
    | split
    | (with_reducible first | apply kept_endWait | apply outKeeps_next | exact outKeeps_refused | apply optKeeps_some
                            | exact optKeeps_none)
    | dsimp -zeta only

theorem kept_claimRead (s₀ : State) (n : Nat) (s : State)  (hk : Keeps s₀ s) : Keeps s₀ (claimRead n s).2 := by
  unfold claimRead
  repeat' first
    | (with_reducible first | assumption | intro _)
    | split
    | (with_reducible first | apply kept_State_setFld)

theorem kept_execEvtClaim (s₀ : State) (m : Nat) (n : Nat) (s : State)  (hk : Keeps s₀ s) : OutKeeps s₀ (execEvtClaim m n s) := by
  unfold execEvtClaim
  repeat' first
    | (with_reducible first | assumption | intro _)
    | split
    | (with_reducible first | apply kept_regRead | apply kept_claimRead | apply outKeeps_next | exact outKeeps_refused
                            | apply optKeeps_some | exact optKeeps_none | refine keeps_pair ?_ (by assumption)
                            | refine keeps_triple ?_ (by assumption))
    | dsimp -zeta only

theorem kept_testRaise (s₀ : State) (d : Word) (s : State)  (hk : Keeps s₀ s) : Keeps s₀ (testRaise d s) := by
  unfold testRaise
  repeat' first
    | (with_reducible first | assumption | intro _)
    | split
    | (with_reducible first | apply kept_raise)

theorem kept_execEvtTest (s₀ : State) (m : Nat) (d : Word) (s : State)  (hk : Keeps s₀ s) : OutKeeps s₀ (execEvtTest m d s) := by
  unfold execEvtTest
  repeat' first
    | (with_reducible first | assumption | intro _)
    | split
    | (with_reducible first | apply kept_regWrite | apply kept_testRaise | apply outKeeps_next | exact outKeeps_refused
                            | apply optKeeps_some | exact optKeeps_none)
    | dsimp -zeta only

theorem kept_execEventHostMessage (s₀ : State) (k : Nat) (s : State)  (hk : Keeps s₀ s) : OutKeeps s₀ (execEventHostMessage k s) := by
  unfold execEventHostMessage
  repeat' first
    | (with_reducible first | assumption | intro _)
    | split
    | (with_reducible first | apply kept_State_eventAll | apply outKeeps_next | exact outKeeps_refused | apply optKeeps_some
                            | exact optKeeps_none)
    | dsimp -zeta only
    | (with_reducible apply keeps_upd; with_reducible first | assumption | apply kept_State_eventAll)

theorem kept_coreHold (s₀ : State) (n : Nat) (s : State)  (hk : Keeps s₀ s) : Keeps s₀ (coreHold n s) := by
  unfold coreHold
  repeat' first
    | (with_reducible first | assumption | intro _)
    | split
    | (with_reducible first | apply keeps_setCore_reset | apply keeps_setCore_upd | apply kept_endRun | apply kept_State_setFld
                            | apply kept_tskCoreReset)

theorem kept_coreRelease (s₀ : State) (n : Nat) (s : State)  (hk : Keeps s₀ s) : Keeps s₀ (coreRelease n s) := by
  unfold coreRelease
  exact kept_State_setFld _ _ _ _ (keeps_setCore n _ ⟨rfl, rfl⟩ hk)

theorem kept_tccWrite (s₀ : State) (n : Nat) (d : Word) (s : State)  (hk : Keeps s₀ s) : Keeps s₀ (tccWrite n d s) := by
  unfold tccWrite
  repeat' first
    | (with_reducible first | assumption | intro _)
    | (extract_lets +onlyGivenNames x
       first
       | (refine keeps_let (s₀ := s₀) (s := x) ?_ ?_ <;> first | (intro hx; clear_value x) | subst x)
       | subst x)
    | split
    | (with_reducible first | apply kept_plainWrite | apply kept_coreRelease | apply kept_coreHold)

theorem kept_execTccRunWrite (s₀ : State) (m : Nat) (n : Nat) (d : Word) (s : State)  (hk : Keeps s₀ s) : OutKeeps s₀ (execTccRunWrite m n d s) := by
  unfold execTccRunWrite
  repeat' first
    | (with_reducible first | assumption | intro _)
    | split
    | (with_reducible first | apply kept_regWrite | apply kept_tccWrite | apply outKeeps_next | exact outKeeps_refused
                            | apply optKeeps_some | exact optKeeps_none)
    | dsimp -zeta only

theorem kept_reload (s₀ : State) (n : Nat) (s : State)  (hk : Keeps s₀ s) : Keeps s₀ (reload n s) := by
  unfold reload
  repeat' first
    | (with_reducible first | assumption | intro _)
    | split
    | (with_reducible first | apply keeps_setCore_reset | apply keeps_setCore_upd | apply kept_State_setFld)

theorem kept_kick (s₀ : State) (n : Nat) (d : Word) (s : State)  (hk : Keeps s₀ s) : Keeps s₀ (kick n d s) := by
  unfold kick
  repeat' first
    | (with_reducible first | assumption | intro _)
    | split
    | (with_reducible first | apply kept_reload)

theorem kept_execWatchdogKick (s₀ : State) (m : Nat) (n : Nat) (d : Word) (s : State)  (hk : Keeps s₀ s) : OutKeeps s₀ (execWatchdogKick m n d s) := by
  unfold execWatchdogKick
  repeat' first
    | (with_reducible first | assumption | intro _)
    | split
    | (with_reducible first | apply kept_regWrite | apply kept_kick | apply outKeeps_next | exact outKeeps_refused
                            | apply optKeeps_some | exact optKeeps_none)
    | dsimp -zeta only

theorem kept_wdctl (s₀ : State) (n : Nat) (d : Word) (s : State)  (hk : Keeps s₀ s) : Keeps s₀ (wdctl n d s) := by
  unfold wdctl
  repeat' first
    | (with_reducible first | assumption | intro _)
    | split
    | (with_reducible first | apply kept_plainWrite | apply kept_reload)

theorem kept_execWdctlWrite (s₀ : State) (m : Nat) (n : Nat) (d : Word) (s : State)  (hk : Keeps s₀ s) : OutKeeps s₀ (execWdctlWrite m n d s) := by
  unfold execWdctlWrite
  repeat' first
    | (with_reducible first | assumption | intro _)
    | split
    | (with_reducible first | apply kept_regWrite | apply kept_wdctl | apply outKeeps_next | exact outKeeps_refused
                            | apply optKeeps_some | exact optKeeps_none)
    | dsimp -zeta only

theorem kept_expiry (s₀ : State) (n : Nat) (s : State)  (hk : Keeps s₀ s) : Keeps s₀ (expiry n s) := by
  unfold expiry
  repeat' first
    | (with_reducible first | assumption | intro _)
    | split
    | (with_reducible first | apply keeps_setCore_reset | apply keeps_setCore_upd | apply kept_reload | apply kept_coreRelease
                            | apply kept_coreHold | apply kept_raise | apply kept_State_setReg | apply kept_State_setFld)

theorem kept_execWatchdogExpiry (s₀ : State) (n : Nat) (s : State)  (hk : Keeps s₀ s) : OutKeeps s₀ (execWatchdogExpiry n s) := by
  unfold execWatchdogExpiry
  repeat' first
    | (with_reducible first | assumption | intro _)
    | split
    | (with_reducible first | apply kept_expiry | apply outKeeps_next | exact outKeeps_refused | apply optKeeps_some
                            | exact optKeeps_none)
    | dsimp -zeta only

theorem kept_returnException (s₀ : State) (n : Nat) (s : State)  (hk : Keeps s₀ s) : Keeps s₀ (returnException n s) := by
  unfold returnException
  repeat' first
    | (with_reducible first | assumption | intro _)
    | split
    | (with_reducible first | apply kept_endRun | apply kept_State_setSys | apply kept_State_setPc | apply kept_State_dropResv)

theorem kept_returnMonitor (s₀ : State) (n : Nat) (s : State)  (hk : Keeps s₀ s) : Keeps s₀ (returnMonitor n s) := by
  unfold returnMonitor
  repeat' first
    | (with_reducible first | assumption | intro _)
    | (extract_lets +onlyGivenNames x
       first
       | (refine keeps_let (s₀ := s₀) (s := x) ?_ ?_ <;> first | (intro hx; clear_value x) | subst x)
       | subst x)
    | split
    | (with_reducible first | apply keeps_setCore_reset | apply keeps_setCore_upd | apply kept_endRun
                            | apply kept_State_dropResv | apply kept_State_setStatus | apply kept_State_setPc
                            | apply kept_reload)

end Sys2Proof.Machine
end

