-- ==== Sys2Proof/Laws/KeptHubMem.lean ====
section
/-! SUPPORT. HubMem: each operation keeps what `Keeps` says. -/
namespace Sys2Proof.Machine

theorem kept_State_autoFence (s₀ : State) (s : State) (t : Nat)  (hk : Keeps s₀ s) : Keeps s₀ (State.autoFence s t) := by
  unfold State.autoFence
  repeat' first
    | (with_reducible first | assumption | intro _)
    | split
    | (with_reducible first | apply kept_State_setFld)

theorem kept_State_autoFree (s₀ : State) (s : State) (t : Nat)  (hk : Keeps s₀ s) : Keeps s₀ (State.autoFree s t) := by
  unfold State.autoFree
  repeat' first
    | (with_reducible first | assumption | intro _)
    | (extract_lets +onlyGivenNames x
       first
       | (refine keeps_let (s₀ := s₀) (s := x) ?_ ?_ <;> first | (intro hx; clear_value x) | subst x)
       | subst x)
    | split
    | (with_reducible first | apply kept_State_setFld)

theorem kept_fenceWrite (s₀ : State) (t : Nat) (d : Word) (s : State)  (hk : Keeps s₀ s) : Keeps s₀ (fenceWrite t d s) := by
  unfold fenceWrite
  repeat' first
    | (with_reducible first | assumption | intro _)
    | split
    | (with_reducible first | apply kept_State_setFld | apply kept_State_setFlds)

theorem kept_execNocFenceWrite (s₀ : State) (m : Nat) (t : Nat) (d : Word) (s : State)  (hk : Keeps s₀ s) : OutKeeps s₀ (execNocFenceWrite m t d s) := by
  unfold execNocFenceWrite
  repeat' first
    | (with_reducible first | assumption | intro _)
    | split
    | (with_reducible first | apply kept_regWrite | apply kept_fenceWrite | apply outKeeps_next | exact outKeeps_refused
                            | apply optKeeps_some | exact optKeeps_none)
    | dsimp -zeta only

theorem kept_execFenceDrained (s₀ : State) (t : Nat) (s : State)  (hk : Keeps s₀ s) : OutKeeps s₀ (execFenceDrained t s) := by
  unfold execFenceDrained
  repeat' first
    | (with_reducible first | assumption | intro _)
    | split
    | (with_reducible first | apply kept_raise | apply kept_State_setFld | apply outKeeps_next | exact outKeeps_refused
                            | apply optKeeps_some | exact optKeeps_none)
    | dsimp -zeta only

theorem kept_State_wipeBank (s₀ : State) (s : State) (b : Nat)  (hk : Keeps s₀ s) : Keeps s₀ (State.wipeBank s b) := by
  unfold State.wipeBank
  repeat' first
    | (with_reducible first | assumption | intro _)
    | split
  all_goals grind [Keeps, held_rset, held_setAt_cores, held_setAt_lanes, held_filter_regs, held_map_cores, held_map_lanes, held_write1, held_write, held_clear, held_filter_mem, held_out, held_free, held_rbcnt]

theorem kept_bpwrWrite (s₀ : State) (b : Nat) (d : Word) (s : State)  (hk : Keeps s₀ s) : Keeps s₀ (bpwrWrite b d s) := by
  unfold bpwrWrite
  repeat' first
    | (with_reducible first | assumption | intro _)
    | (extract_lets +onlyGivenNames x
       first
       | (refine keeps_let (s₀ := s₀) (s := x) ?_ ?_ <;> first | (intro hx; clear_value x) | subst x)
       | subst x)
    | split
    | (with_reducible first | apply kept_State_setFld | apply kept_State_autoFence)
    | (with_reducible apply keeps_upd; with_reducible first | assumption | apply kept_State_setFld | apply kept_State_autoFence)

theorem kept_execHbkBpwrWrite (s₀ : State) (m : Nat) (b : Nat) (d : Word) (s : State)  (hk : Keeps s₀ s) : OutKeeps s₀ (execHbkBpwrWrite m b d s) := by
  unfold execHbkBpwrWrite
  repeat' first
    | (with_reducible first | assumption | intro _)
    | split
    | (with_reducible first | apply kept_regWrite | apply kept_bpwrWrite | apply outKeeps_next | exact outKeeps_refused
                            | apply optKeeps_some | exact optKeeps_none)
    | dsimp -zeta only

theorem kept_powerDone (s₀ : State) (b : Nat) (s : State)  (hk : Keeps s₀ s) : Keeps s₀ (powerDone b s) := by
  unfold powerDone
  repeat' first
    | (with_reducible first | assumption | intro _)
    | (extract_lets +onlyGivenNames x
       first
       | (refine keeps_let (s₀ := s₀) (s := x) ?_ ?_ <;> first | (intro hx; clear_value x) | subst x)
       | subst x)
    | split
    | (with_reducible first | apply kept_State_clearResv | apply kept_State_wipeBank | apply kept_State_setFlds
                            | apply kept_raise | apply kept_State_autoFree)
    | (with_reducible apply keeps_upd; with_reducible first | assumption | apply kept_State_clearResv
                                                             | apply kept_State_wipeBank | apply kept_State_setFlds
                                                             | apply kept_raise | apply kept_State_autoFree)

theorem kept_execBankPowerDone (s₀ : State) (b : Nat) (s : State)  (hk : Keeps s₀ s) : OutKeeps s₀ (execBankPowerDone b s) := by
  unfold execBankPowerDone
  repeat' first
    | (with_reducible first | assumption | intro _)
    | split
    | (with_reducible first | apply kept_powerDone | apply outKeeps_next | exact outKeeps_refused | apply optKeeps_some
                            | exact optKeeps_none)
    | dsimp -zeta only

theorem kept_State_setMarch (s₀ : State) (s : State) (m : March)  (hk : Keeps s₀ s) : Keeps s₀ (State.setMarch s m) := by
  unfold State.setMarch
  repeat' first
    | (with_reducible first | assumption | intro _)
    | split
    | (with_reducible first | apply kept_State_setFld)
    | (with_reducible apply keeps_upd; with_reducible first | assumption | apply kept_State_setFld)

theorem kept_mctlWrite (s₀ : State) (b : Nat) (d : Word) (s : State)  (hk : Keeps s₀ s) : Keeps s₀ (mctlWrite b d s) := by
  unfold mctlWrite
  repeat' first
    | (with_reducible first | assumption | intro _)
    | (extract_lets +onlyGivenNames x
       first
       | (refine keeps_let (s₀ := s₀) (s := x) ?_ ?_ <;> first | (intro hx; clear_value x) | subst x)
       | subst x)
    | split
    | (with_reducible first | apply kept_plainWrite | apply kept_State_setFld | apply kept_State_setFlds
                            | apply kept_State_setMarch | apply kept_State_clearResv | apply kept_State_autoFence)
    | (with_reducible apply keeps_upd; with_reducible first | assumption | apply kept_plainWrite | apply kept_State_setFld
                                                             | apply kept_State_setFlds | apply kept_State_setMarch
                                                             | apply kept_State_clearResv | apply kept_State_autoFence)

theorem kept_execMarchStart (s₀ : State) (m : Nat) (b : Nat) (d : Word) (s : State)  (hk : Keeps s₀ s) : OutKeeps s₀ (execMarchStart m b d s) := by
  unfold execMarchStart
  repeat' first
    | (with_reducible first | assumption | intro _)
    | split
    | (with_reducible first | apply kept_regWrite | apply kept_mctlWrite | apply outKeeps_next | exact outKeeps_refused
                            | apply optKeeps_some | exact optKeeps_none)
    | dsimp -zeta only

theorem kept_marchFails (s₀ : State) (b : Nat) (fails : List Nat) (s : State)  (hk : Keeps s₀ s) : Keeps s₀ (marchFails b fails s) := by
  unfold marchFails
  repeat' first
    | (with_reducible first | assumption | intro _)
    | split
    | (with_reducible first | apply kept_raise | apply kept_State_setFld | apply kept_State_first | apply kept_foldl)

theorem kept_bankOff (s₀ : State) (s : State) (b : Nat)  (hk : Keeps s₀ s) : Keeps s₀ (bankOff s b) := by
  unfold bankOff
  repeat' first
    | (with_reducible first | assumption | intro _)
    | (extract_lets +onlyGivenNames x
       first
       | (refine keeps_let (s₀ := s₀) (s := x) ?_ ?_ <;> first | (intro hx; clear_value x) | subst x)
       | subst x)
    | split
    | (with_reducible first | apply kept_State_setFlds | apply kept_State_autoFence | apply outKeeps_next
                            | exact outKeeps_refused | apply optKeeps_some | exact optKeeps_none)
    | dsimp -zeta only
    | (with_reducible apply keeps_upd; with_reducible first | assumption | apply kept_State_setFlds | apply kept_State_autoFence)
  all_goals grind [kept_State_setFlds, kept_State_autoFence, Keeps, held_rset, held_setAt_cores, held_setAt_lanes, held_filter_regs, held_map_cores, held_map_lanes, held_write1, held_write, held_clear, held_filter_mem, held_out, held_free, held_rbcnt]

theorem kept_bootMarch (s₀ : State) (b : Nat) (fails : List Nat) (s : State)  (hk : Keeps s₀ s) : Keeps s₀ (bootMarch b fails s) := by
  unfold bootMarch
  repeat' first
    | (with_reducible first | assumption | intro _)
    | (extract_lets +onlyGivenNames x
       first
       | (refine keeps_let (s₀ := s₀) (s := x) ?_ ?_ <;> first | (intro hx; clear_value x) | subst x)
       | subst x)
    | split
    | (with_reducible first | apply kept_marchFails | apply kept_raise | apply kept_State_wipeBank | apply kept_bankOff
                            | apply outKeeps_next | exact outKeeps_refused | apply optKeeps_some | exact optKeeps_none)
    | dsimp -zeta only
    | (with_reducible apply keeps_upd; with_reducible first | assumption | apply kept_marchFails | apply kept_raise
                                                             | apply kept_State_wipeBank | apply kept_bankOff)
  all_goals grind [kept_marchFails, kept_raise, kept_State_wipeBank, kept_bankOff, Keeps, held_rset, held_setAt_cores, held_setAt_lanes, held_filter_regs, held_map_cores, held_map_lanes, held_write1, held_write, held_clear, held_filter_mem, held_out, held_free, held_rbcnt]

theorem kept_execMarchEnd (s₀ : State) (b : Nat) (fails : List Nat) (s : State)  (hk : Keeps s₀ s) : OutKeeps s₀ (execMarchEnd b fails s) := by
  unfold execMarchEnd
  repeat' first
    | (with_reducible first | assumption | intro _)
    | split
    | (with_reducible first | apply kept_marchFails | apply kept_State_autoFree | apply kept_State_wipeBank | apply kept_raise
                            | apply kept_State_setFld | apply kept_bootMarch | apply outKeeps_next | exact outKeeps_refused
                            | apply optKeeps_some | exact optKeeps_none)
    | dsimp -zeta only
    | (with_reducible apply keeps_upd; with_reducible first | assumption | apply kept_marchFails | apply kept_State_autoFree
                                                             | apply kept_State_wipeBank | apply kept_raise
                                                             | apply kept_State_setFld | apply kept_bootMarch)

theorem kept_rlockWrite (s₀ : State) (d : Word) (s : State)  (hk : Keeps s₀ s) : Keeps s₀ (rlockWrite d s) := by
  unfold rlockWrite
  repeat' first
    | (with_reducible first | assumption | intro _)
    | split
    | (with_reducible first | apply kept_plainWrite)

theorem kept_execHbkRlockWrite (s₀ : State) (m : Nat) (d : Word) (s : State)  (hk : Keeps s₀ s) : OutKeeps s₀ (execHbkRlockWrite m d s) := by
  unfold execHbkRlockWrite
  repeat' first
    | (with_reducible first | assumption | intro _)
    | split
    | (with_reducible first | apply kept_regWrite | apply kept_rlockWrite | apply outKeeps_next | exact outKeeps_refused
                            | apply optKeeps_some | exact optKeeps_none)
    | dsimp -zeta only

theorem kept_camWrite (s₀ : State) (d : Word) (s : State)  (hk : Keeps s₀ s) : Keeps s₀ (camWrite d s) := by
  unfold camWrite
  repeat' first
    | (with_reducible first | assumption | intro _)
    | (extract_lets +onlyGivenNames x
       first
       | (refine keeps_let (s₀ := s₀) (s := x) ?_ ?_ <;> first | (intro hx; clear_value x) | subst x)
       | subst x)
    | split
    | (with_reducible first | apply kept_plainWrite | apply kept_State_create | apply kept_State_setFld | apply outKeeps_next
                            | exact outKeeps_refused | apply optKeeps_some | exact optKeeps_none
                            | refine keeps_opt ?_ (by assumption))
    | dsimp -zeta only
    | (with_reducible apply keeps_upd; with_reducible first | assumption | apply kept_plainWrite | apply kept_State_create
                                                             | apply kept_State_setFld)

theorem kept_execHbkCamCreate (s₀ : State) (m : Nat) (d : Word) (s : State)  (hk : Keeps s₀ s) : OutKeeps s₀ (execHbkCamCreate m d s) := by
  unfold execHbkCamCreate
  repeat' first
    | (with_reducible first | assumption | intro _)
    | split
    | (with_reducible first | apply kept_regWrite | apply kept_camWrite | apply outKeeps_next | exact outKeeps_refused
                            | apply optKeeps_some | exact optKeeps_none)
    | dsimp -zeta only

theorem kept_execHbkCamFree (s₀ : State) (m : Nat) (d : Word) (s : State)  (hk : Keeps s₀ s) : OutKeeps s₀ (execHbkCamFree m d s) := by
  unfold execHbkCamFree
  repeat' first
    | (with_reducible first | assumption | intro _)
    | split
    | (with_reducible first | apply kept_regWrite | apply kept_camWrite | apply outKeeps_next | exact outKeeps_refused
                            | apply optKeeps_some | exact optKeeps_none)
    | dsimp -zeta only

theorem kept_execCamFreeDone (s₀ : State) (s : State)  (hk : Keeps s₀ s) : OutKeeps s₀ (execCamFreeDone s) := by
  unfold execCamFreeDone
  repeat' first
    | (with_reducible first | assumption | intro _)
    | split
    | (with_reducible first | apply kept_State_free | apply outKeeps_next | exact outKeeps_refused | apply optKeeps_some
                            | exact optKeeps_none)
    | dsimp -zeta only
    | (with_reducible apply keeps_upd; with_reducible first | assumption | apply kept_State_free)

theorem kept_rcfgWrite (s₀ : State) (r : Nat) (d : Word) (s : State)  (hk : Keeps s₀ s) : Keeps s₀ (rcfgWrite r d s) := by
  unfold rcfgWrite
  repeat' first
    | (with_reducible first | assumption | intro _)
    | split
    | (with_reducible first | apply kept_State_setFlds | apply kept_State_setFld)

theorem kept_execNocRcfgWrite (s₀ : State) (m : Nat) (r : Nat) (d : Word) (s : State)  (hk : Keeps s₀ s) : OutKeeps s₀ (execNocRcfgWrite m r d s) := by
  unfold execNocRcfgWrite
  repeat' first
    | (with_reducible first | assumption | intro _)
    | split
    | (with_reducible first | apply kept_regWrite | apply kept_rcfgWrite | apply outKeeps_next | exact outKeeps_refused
                            | apply optKeeps_some | exact optKeeps_none)
    | dsimp -zeta only

theorem kept_rtWrite (s₀ : State) (i : Nat) (e : Nat) (d : Word) (s : State)  (hk : Keeps s₀ s) : Keeps s₀ (rtWrite i e d s) := by
  unfold rtWrite
  repeat' first
    | (with_reducible first | assumption | intro _)
    | (extract_lets +onlyGivenNames x
       first
       | (refine keeps_let (s₀ := s₀) (s := x) ?_ ?_ <;> first | (intro hx; clear_value x) | subst x)
       | subst x)
    | split
    | (with_reducible first | apply kept_plainWrite | apply kept_raise | apply kept_State_first)

theorem kept_execNocRtWrite (s₀ : State) (m : Nat) (i : Nat) (e : Nat) (d : Word) (s : State)  (hk : Keeps s₀ s) : OutKeeps s₀ (execNocRtWrite m i e d s) := by
  unfold execNocRtWrite
  repeat' first
    | (with_reducible first | assumption | intro _)
    | split
    | (with_reducible first | apply kept_regWrite | apply kept_rtWrite | apply outKeeps_next | exact outKeeps_refused
                            | apply optKeeps_some | exact optKeeps_none)
    | dsimp -zeta only

end Sys2Proof.Machine
end

