-- ==== Sys2Proof/Laws/KeptPower.lean ====
section
/-! SUPPORT. Power: each operation keeps what `Keeps` says. -/
namespace Sys2Proof.Machine

theorem kept_coreReset (s₀ : State) (test : Bool) (s : State)  (hk : Keeps s₀ s) : Keeps s₀ (coreReset test s) := by
  unfold coreReset
  have hr : rwfFrom resetWord 0 (bootRegs s.fuses s.mgt.settings (leAt (s.mgt.slot s.mgt.runSlot) 8 4 % 65536) s.mgt.runSlot) = true :=
    rwfFrom_foldl _ _ _ rfl
  refine ⟨hk.1, hk.2.1, hk.2.2.1, hk.2.2.2.1, ?_, coresOk_keepMc _ (keeps_sound hk 16), rfl, ?_⟩
  · dsimp only
    split
    · exact rwfFrom_rset _ _ 0 _ _ (rwfFrom_rset _ _ 0 _ _ hr (Nat.zero_le _)) (Nat.zero_le _)
    · exact hr
  · exact Memory.wf_filter _ _ (held_mem hk)

theorem kept_islandReset (s₀ : State) (s : State)  (hk : Keeps s₀ s) : Keeps s₀ (islandReset s) := by
  unfold islandReset
  exact held_foldl_regs _ (held_filter_regs _ hk)

theorem kept_coreOff (s₀ : State) (s : State)  (hk : Keeps s₀ s) : Keeps s₀ (coreOff s) := by
  unfold coreOff
  extract_lets x t
  have ht : Keeps s₀ t := kept_coreReset s₀ false _ (by subst x; with_reducible apply keeps_upd; with_reducible assumption)
  clear_value t
  exact held_foldl_regs _ (held_filter_regs _ ht)

theorem kept_enterBoot (s₀ : State) (test : Bool) (s : State)  (hk : Keeps s₀ s) : Keeps s₀ (enterBoot test s) := by
  unfold enterBoot
  repeat' first
    | (with_reducible first | assumption | intro _)
    | split
    | (with_reducible first | apply kept_setMode | apply kept_coreReset)
    | (with_reducible apply keeps_upd; with_reducible first | assumption | apply kept_setMode | apply kept_coreReset)

theorem kept_toStandby (s₀ : State) (s : State)  (hk : Keeps s₀ s) : Keeps s₀ (toStandby s) := by
  unfold toStandby
  repeat' first
    | (with_reducible first | assumption | intro _)
    | split
    | (with_reducible first | apply kept_setMode | apply kept_coreOff)

theorem kept_afterLoss (s₀ : State) (s : State)  (hk : Keeps s₀ s) : Keeps s₀ (afterLoss s) := by
  unfold afterLoss
  repeat' first
    | (with_reducible first | assumption | intro _)
    | (extract_lets +onlyGivenNames x
       first
       | (refine keeps_let (s₀ := s₀) (s := x) ?_ ?_ <;> first | (intro hx; clear_value x) | subst x)
       | subst x)
    | split
    | (with_reducible first | apply kept_setMode | apply kept_State_log | apply kept_enterBoot)
    | (with_reducible apply keeps_upd; with_reducible first | assumption | apply kept_setMode | apply kept_State_log
                                                             | apply kept_enterBoot)

theorem kept_powerRise (s₀ : State) (s : State)  (hk : Keeps s₀ s) : Keeps s₀ (powerRise s) := by
  unfold powerRise
  repeat' first
    | (with_reducible first | assumption | intro _)
    | (extract_lets +onlyGivenNames x
       first
       | (refine keeps_let (s₀ := s₀) (s := x) ?_ ?_ <;> first | (intro hx; clear_value x) | subst x)
       | subst x)
    | split
    | (with_reducible first | apply kept_setMode | apply kept_islandReset | apply kept_afterLoss)
    | (with_reducible apply keeps_upd; with_reducible first | assumption | apply kept_setMode | apply kept_islandReset
                                                             | apply kept_afterLoss)

theorem kept_execInputPowerRise (s₀ : State) (s : State)  (hk : Keeps s₀ s) : OutKeeps s₀ (execInputPowerRise s) := by
  unfold execInputPowerRise
  repeat' first
    | (with_reducible first | assumption | intro _)
    | split
    | (with_reducible first | apply kept_powerRise | apply outKeeps_next | exact outKeeps_refused | apply optKeeps_some
                            | exact optKeeps_none)
    | dsimp -zeta only

theorem kept_programCopy (s₀ : State) (edit : List Host.Cell) (s : State)  (hk : Keeps s₀ s) : Keeps s₀ (programCopy edit s) := by
  unfold programCopy
  repeat' first
    | (with_reducible first | assumption | intro _)
    | split
    | (with_reducible first | apply kept_State_setFlds | apply kept_State_log | apply kept_raise)
    | (with_reducible apply keeps_upd; with_reducible first | assumption | apply kept_State_setFlds | apply kept_State_log
                                                             | apply kept_raise)

theorem kept_cutErase (s₀ : State) (s : State)  (hk : Keeps s₀ s) : Keeps s₀ (cutErase s) := by
  unfold cutErase
  repeat' first
    | (with_reducible first | assumption | intro _)
    | (extract_lets +onlyGivenNames x
       first
       | (refine keeps_let (s₀ := s₀) (s := x) ?_ ?_ <;> first | (intro hx; clear_value x) | subst x)
       | subst x)
    | split
    | (with_reducible first | apply outKeeps_next | exact outKeeps_refused | apply optKeeps_some | exact optKeeps_none)
    | dsimp -zeta only
    | (with_reducible apply keeps_upd; with_reducible first | assumption)
  all_goals grind [Keeps, held_rset, held_setAt_cores, held_setAt_lanes, held_filter_regs, held_map_cores, held_map_lanes, held_write1, held_write, held_clear, held_filter_mem, held_out, held_free, held_rbcnt]

theorem kept_commitDone (s₀ : State) (s : State)  (hk : Keeps s₀ s) : Keeps s₀ (commitDone s) := by
  unfold commitDone
  repeat' first
    | (with_reducible first | assumption | intro _)
    | split
    | (with_reducible first | apply kept_State_respond | apply kept_programCopy)
    | (with_reducible apply keeps_upd; with_reducible first | assumption | apply kept_State_respond | apply kept_programCopy)

theorem kept_execSettingsCommitDone (s₀ : State) (s : State)  (hk : Keeps s₀ s) : OutKeeps s₀ (execSettingsCommitDone s) := by
  unfold execSettingsCommitDone
  repeat' first
    | (with_reducible first | assumption | intro _)
    | split
    | (with_reducible first | apply kept_commitDone | apply outKeeps_next | exact outKeeps_refused | apply optKeeps_some
                            | exact optKeeps_none)
    | dsimp -zeta only

theorem kept_powerLoss (s₀ : State) (s : State)  (hk : Keeps s₀ s) : Keeps s₀ (powerLoss s) := by
  unfold powerLoss
  repeat' first
    | (with_reducible first | assumption | intro _)
    | (extract_lets +onlyGivenNames x
       first
       | (refine keeps_let (s₀ := s₀) (s := x) ?_ ?_ <;> first | (intro hx; clear_value x) | subst x)
       | subst x)
    | split
    | (with_reducible first | apply kept_raise | apply kept_enterSafe | apply kept_cutErase | apply kept_State_flushLog
                            | apply kept_State_log | apply kept_commitDone)
    | (with_reducible apply keeps_upd; with_reducible first | assumption | apply kept_raise | apply kept_enterSafe
                                                             | apply kept_cutErase | apply kept_State_flushLog
                                                             | apply kept_State_log | apply kept_commitDone)

theorem kept_execInputPowerLoss (s₀ : State) (s : State)  (hk : Keeps s₀ s) : OutKeeps s₀ (execInputPowerLoss s) := by
  unfold execInputPowerLoss
  repeat' first
    | (with_reducible first | assumption | intro _)
    | split
    | (with_reducible first | apply kept_powerLoss | apply outKeeps_next | exact outKeeps_refused | apply optKeeps_some
                            | exact optKeeps_none)
    | dsimp -zeta only

theorem kept_domainOff (s₀ : State) (s : State)  (hk : Keeps s₀ s) : Keeps s₀ (domainOff s) := by
  unfold domainOff
  repeat' first
    | (with_reducible first | assumption | intro _)
    | split
    | (with_reducible first | apply kept_afterLoss | apply kept_coreOff | apply kept_toStandby)

theorem kept_execCoreDomainOff (s₀ : State) (s : State)  (hk : Keeps s₀ s) : OutKeeps s₀ (execCoreDomainOff s) := by
  unfold execCoreDomainOff
  repeat' first
    | (with_reducible first | assumption | intro _)
    | split
    | (with_reducible first | apply kept_domainOff | apply outKeeps_next | exact outKeeps_refused | apply optKeeps_some
                            | exact optKeeps_none)
    | dsimp -zeta only

theorem kept_holdupSpent (s₀ : State) (s : State)  (hk : Keeps s₀ s) : Keeps s₀ (holdupSpent s) := by
  unfold holdupSpent
  split
  · exact hk
  · have ht := kept_islandReset s₀ _ (kept_coreOff s₀ s hk)
    have hc := held_setAt_cores 16 _ (sound_reset 16) ht
    exact ⟨hc.1, hc.2.1, hc.2.2.1, hc.2.2.2.1, hc.2.2.2.2.1, hc.2.2.2.2.2.1, hc.2.2.2.2.2.2.1, Memory.wf_filter _ _ (held_mem ht)⟩

theorem kept_execHoldupSpent (s₀ : State) (s : State)  (hk : Keeps s₀ s) : OutKeeps s₀ (execHoldupSpent s) := by
  unfold execHoldupSpent
  repeat' first
    | (with_reducible first | assumption | intro _)
    | split
    | (with_reducible first | apply kept_holdupSpent | apply outKeeps_next | exact outKeeps_refused | apply optKeeps_some
                            | exact optKeeps_none)
    | dsimp -zeta only

theorem kept_railFault (s₀ : State) (r : Nat) (s : State)  (hk : Keeps s₀ s) : Keeps s₀ (railFault r s) := by
  unfold railFault
  repeat' first
    | (with_reducible first | assumption | intro _)
    | split
    | (with_reducible first | apply kept_coreOff | apply kept_enterSafe)

theorem kept_execRailFault (s₀ : State) (rail : Nat) (s : State)  (hk : Keeps s₀ s) : OutKeeps s₀ (execRailFault rail s) := by
  unfold execRailFault
  repeat' first
    | (with_reducible first | assumption | intro _)
    | split
    | (with_reducible first | apply kept_railFault | apply outKeeps_next | exact outKeeps_refused | apply optKeeps_some
                            | exact optKeeps_none)
    | dsimp -zeta only

theorem kept_clockRecord (s₀ : State) (d : Nat) (s : State)  (hk : Keeps s₀ s) : Keeps s₀ (clockRecord d s) := by
  unfold clockRecord
  repeat' first
    | (with_reducible first | assumption | intro _)
    | (extract_lets +onlyGivenNames x
       first
       | (refine keeps_let (s₀ := s₀) (s := x) ?_ ?_ <;> first | (intro hx; clear_value x) | subst x)
       | subst x)
    | split
    | (with_reducible first | apply kept_State_setFld | apply kept_State_setFlds | apply kept_raise | apply outKeeps_next
                            | exact outKeeps_refused | apply optKeeps_some | exact optKeeps_none)
    | dsimp -zeta only
    | (with_reducible apply keeps_upd; with_reducible first | assumption | apply kept_State_setFld | apply kept_State_setFlds
                                                             | apply kept_raise)
  all_goals grind [kept_State_setFld, kept_State_setFlds, kept_raise, Keeps, held_rset, held_setAt_cores, held_setAt_lanes, held_filter_regs, held_map_cores, held_map_lanes, held_write1, held_write, held_clear, held_filter_mem, held_out, held_free, held_rbcnt]

theorem kept_domainLoss (s₀ : State) (d : Nat) (s : State)  (hk : Keeps s₀ s) : Keeps s₀ (domainLoss d s) := by
  unfold domainLoss
  repeat' first
    | (with_reducible first | assumption | intro _)
    | (extract_lets +onlyGivenNames x
       first
       | (refine keeps_let (s₀ := s₀) (s := x) ?_ ?_ <;> first | (intro hx; clear_value x) | subst x)
       | subst x)
    | split
    | (with_reducible first | apply kept_clockRecord | apply kept_enterSafe | apply kept_State_freshBit | apply outKeeps_next
                            | exact outKeeps_refused | apply optKeeps_some | exact optKeeps_none
                            | refine keeps_pair ?_ (by assumption) | refine keeps_triple ?_ (by assumption))
    | dsimp -zeta only
    | (with_reducible apply keeps_upd; with_reducible first | assumption | apply kept_clockRecord | apply kept_enterSafe
                                                             | apply kept_State_freshBit)
  all_goals grind [kept_clockRecord, kept_enterSafe, kept_State_freshBit, Keeps, held_rset, held_setAt_cores, held_setAt_lanes, held_filter_regs, held_map_cores, held_map_lanes, held_write1, held_write, held_clear, held_filter_mem, held_out, held_free, held_rbcnt]

theorem kept_pllLoss (s₀ : State) (s : State)  (hk : Keeps s₀ s) : Keeps s₀ (pllLoss s) := by
  unfold pllLoss
  repeat' first
    | (with_reducible first | assumption | intro _)
    | (extract_lets +onlyGivenNames x
       first
       | (refine keeps_let (s₀ := s₀) (s := x) ?_ ?_ <;> first | (intro hx; clear_value x) | subst x)
       | subst x)
    | split
    | (with_reducible first | apply kept_clockRecord | apply kept_State_setFld | apply kept_enterSafe | apply kept_raise
                            | apply kept_foldl | apply outKeeps_next | exact outKeeps_refused | apply optKeeps_some
                            | exact optKeeps_none)
    | dsimp -zeta only
    | (with_reducible apply keeps_upd; with_reducible first | assumption | apply kept_clockRecord | apply kept_State_setFld
                                                             | apply kept_enterSafe | apply kept_raise | apply kept_foldl)
  all_goals grind [kept_clockRecord, kept_State_setFld, kept_enterSafe, kept_raise, kept_foldl, Keeps, held_rset, held_setAt_cores, held_setAt_lanes, held_filter_regs, held_map_cores, held_map_lanes, held_write1, held_write, held_clear, held_filter_mem, held_out, held_free, held_rbcnt]

theorem kept_clockLoss (s₀ : State) (d : ClockLost) (s : State)  (hk : Keeps s₀ s) : Keeps s₀ (clockLoss d s) := by
  unfold clockLoss
  repeat' first
    | (with_reducible first | assumption | intro _)
    | (extract_lets +onlyGivenNames x
       first
       | (refine keeps_let (s₀ := s₀) (s := x) ?_ ?_ <;> first | (intro hx; clear_value x) | subst x)
       | subst x)
    | split
    | (with_reducible first | apply kept_domainLoss | apply kept_pllLoss)
    | (with_reducible apply keeps_upd; with_reducible first | assumption | apply kept_domainLoss | apply kept_pllLoss)

theorem kept_execClockLoss (s₀ : State) (dom : ClockLost) (s : State)  (hk : Keeps s₀ s) : OutKeeps s₀ (execClockLoss dom s) := by
  unfold execClockLoss
  repeat' first
    | (with_reducible first | assumption | intro _)
    | split
    | (with_reducible first | apply kept_clockLoss | apply outKeeps_next | exact outKeeps_refused | apply optKeeps_some
                            | exact optKeeps_none)
    | dsimp -zeta only

theorem kept_mgtIdle (s₀ : State) (hubEnd : Bool) (s : State)  (hk : Keeps s₀ s) : Keeps s₀ (mgtIdle hubEnd s) := by
  unfold mgtIdle
  repeat' first
    | (with_reducible first | assumption | intro _)
    | split
    | (with_reducible apply keeps_upd; with_reducible first | assumption)

theorem kept_execMgtIdleFrameSend (s₀ : State) (hubEnd : Bool) (s : State)  (hk : Keeps s₀ s) : OutKeeps s₀ (execMgtIdleFrameSend hubEnd s) := by
  unfold execMgtIdleFrameSend
  repeat' first
    | (with_reducible first | assumption | intro _)
    | split
    | (with_reducible first | apply kept_mgtIdle | apply outKeeps_next | exact outKeeps_refused | apply optKeeps_some
                            | exact optKeeps_none)
    | dsimp -zeta only

theorem kept_crossingDown (s₀ : State) (s : State)  (hk : Keeps s₀ s) : Keeps s₀ (crossingDown s) := by
  unfold crossingDown
  repeat' first
    | (with_reducible first | assumption | intro _)
    | split
    | (with_reducible first | apply kept_raise | apply kept_State_log)
    | (with_reducible apply keeps_upd; with_reducible first | assumption | apply kept_raise | apply kept_State_log)

theorem kept_execMgtCrossingDown (s₀ : State) (s : State)  (hk : Keeps s₀ s) : OutKeeps s₀ (execMgtCrossingDown s) := by
  unfold execMgtCrossingDown
  repeat' first
    | (with_reducible first | assumption | intro _)
    | split
    | (with_reducible first | apply kept_crossingDown | apply outKeeps_next | exact outKeeps_refused | apply optKeeps_some
                            | exact optKeeps_none)
    | dsimp -zeta only

theorem kept_crossingUp (s₀ : State) (s : State)  (hk : Keeps s₀ s) : Keeps s₀ (crossingUp s) := by
  unfold crossingUp
  repeat' first
    | (with_reducible first | assumption | intro _)
    | split
    | (with_reducible first | apply kept_raise)
    | (with_reducible apply keeps_upd; with_reducible first | assumption | apply kept_raise)

theorem kept_execMgtCrossingUp (s₀ : State) (s : State)  (hk : Keeps s₀ s) : OutKeeps s₀ (execMgtCrossingUp s) := by
  unfold execMgtCrossingUp
  repeat' first
    | (with_reducible first | assumption | intro _)
    | split
    | (with_reducible first | apply kept_crossingUp | apply outKeeps_next | exact outKeeps_refused | apply optKeeps_some
                            | exact optKeeps_none)
    | dsimp -zeta only

theorem kept_mcPowerCycle (s₀ : State) (s : State)  (hk : Keeps s₀ s) : Keeps s₀ (mcPowerCycle s) := by
  unfold mcPowerCycle
  repeat' first
    | (with_reducible first | assumption | intro _)
    | split
    | (with_reducible first | apply kept_State_log | apply kept_coreOff | apply kept_refuseLoad | apply kept_raise
                            | apply kept_enterBoot)
    | (with_reducible apply keeps_upd; with_reducible first | assumption | apply kept_State_log | apply kept_coreOff
                                                             | apply kept_refuseLoad | apply kept_raise
                                                             | apply kept_enterBoot)

theorem kept_execMcPowerCycle (s₀ : State) (s : State)  (hk : Keeps s₀ s) : OutKeeps s₀ (execMcPowerCycle s) := by
  unfold execMcPowerCycle
  repeat' first
    | (with_reducible first | assumption | intro _)
    | split
    | (with_reducible first | apply kept_mcPowerCycle | apply outKeeps_next | exact outKeeps_refused | apply optKeeps_some
                            | exact optKeeps_none)
    | dsimp -zeta only

theorem kept_copyFirmware (s₀ : State) (s : State)  (hk : Keeps s₀ s) : Keeps s₀ (copyFirmware s) := by
  unfold copyFirmware
  repeat' first
    | (with_reducible first | assumption | intro _)
    | split
  all_goals grind [Keeps, held_rset, held_setAt_cores, held_setAt_lanes, held_filter_regs, held_map_cores, held_map_lanes, held_write1, held_write, held_clear, held_filter_mem, held_out, held_free, held_rbcnt]

theorem kept_bootStep (s₀ : State) (s : State)  (hk : Keeps s₀ s) : Keeps s₀ (bootStep s) := by
  unfold bootStep
  repeat' first
    | (with_reducible first | assumption | intro _)
    | (extract_lets +onlyGivenNames x
       first
       | (refine keeps_let (s₀ := s₀) (s := x) ?_ ?_ <;> first | (intro hx; clear_value x) | subst x)
       | subst x)
    | split
    | (with_reducible first | apply kept_copyFirmware | apply kept_tccWrite | apply kept_State_setFld)
    | (with_reducible apply keeps_upd; with_reducible first | assumption | apply kept_copyFirmware | apply kept_tccWrite
                                                             | apply kept_State_setFld)

theorem kept_execBootStepDone (s₀ : State) (s : State)  (hk : Keeps s₀ s) : OutKeeps s₀ (execBootStepDone s) := by
  unfold execBootStepDone
  repeat' first
    | (with_reducible first | assumption | intro _)
    | split
    | (with_reducible first | apply kept_bootStep | apply outKeeps_next | exact outKeeps_refused | apply optKeeps_some
                            | exact optKeeps_none)
    | dsimp -zeta only

theorem kept_bootTimeout (s₀ : State) (s : State)  (hk : Keeps s₀ s) : Keeps s₀ (bootTimeout s) := by
  unfold bootTimeout
  repeat' first
    | (with_reducible first | assumption | intro _)
    | split
    | (with_reducible first | apply kept_State_log | apply kept_toStandby | apply kept_enterSafe | apply kept_State_setFld)

theorem kept_execBootStepTimeout (s₀ : State) (s : State)  (hk : Keeps s₀ s) : OutKeeps s₀ (execBootStepTimeout s) := by
  unfold execBootStepTimeout
  repeat' first
    | (with_reducible first | assumption | intro _)
    | split
    | (with_reducible first | apply kept_bootTimeout | apply outKeeps_next | exact outKeeps_refused | apply optKeeps_some
                            | exact optKeeps_none)
    | dsimp -zeta only

theorem kept_bootWrite (s₀ : State) (d : Word) (s : State)  (hk : Keeps s₀ s) : Keeps s₀ (bootWrite d s) := by
  unfold bootWrite
  repeat' first
    | (with_reducible first | assumption | intro _)
    | split
    | (with_reducible first | apply kept_State_setFlds | apply kept_enterIdle | apply kept_bootFormation)

theorem kept_execMgtBootDone (s₀ : State) (m : Nat) (d : Word) (s : State)  (hk : Keeps s₀ s) : OutKeeps s₀ (execMgtBootDone m d s) := by
  unfold execMgtBootDone
  repeat' first
    | (with_reducible first | assumption | intro _)
    | split
    | (with_reducible first | apply kept_regWrite | apply kept_bootWrite | apply outKeeps_next | exact outKeeps_refused
                            | apply optKeeps_some | exact optKeeps_none)
    | dsimp -zeta only

theorem kept_thermalTrip (s₀ : State) (s : State)  (hk : Keeps s₀ s) : Keeps s₀ (thermalTrip s) := by
  unfold thermalTrip
  repeat' first
    | (with_reducible first | assumption | intro _)
    | split
    | (with_reducible first | apply kept_State_setFld | apply kept_State_hubLog | apply kept_State_flushLog | apply kept_raise
                            | apply kept_requestSafe)

theorem kept_coolDown (s₀ : State) (s : State)  (hk : Keeps s₀ s) : Keeps s₀ (coolDown s) := by
  unfold coolDown
  repeat' first
    | (with_reducible first | assumption | intro _)
    | split
    | (with_reducible first | apply kept_updThr | apply kept_State_setFld)
    | (with_reducible apply keeps_upd; with_reducible first | assumption | apply kept_updThr | apply kept_State_setFld)

theorem kept_execThrottleCoolDown (s₀ : State) (s : State)  (hk : Keeps s₀ s) : OutKeeps s₀ (execThrottleCoolDown s) := by
  unfold execThrottleCoolDown
  repeat' first
    | (with_reducible first | assumption | intro _)
    | split
    | (with_reducible first | apply kept_coolDown | apply outKeeps_next | exact outKeeps_refused | apply optKeeps_some
                            | exact optKeeps_none)
    | dsimp -zeta only

theorem kept_takeReadings (s₀ : State) (x : Sensors) (s : State)  (hk : Keeps s₀ s) : Keeps s₀ (takeReadings x s) := by
  unfold takeReadings
  repeat' first
    | (with_reducible first | assumption | intro _)
    | split
    | (with_reducible first | apply kept_State_setFlds | apply kept_State_setReg | apply kept_foldl | apply keeps_getD)

theorem kept_thermalSample (s₀ : State) (x : Sensors) (s : State)  (hk : Keeps s₀ s) : Keeps s₀ (thermalSample x s) := by
  unfold thermalSample
  repeat' first
    | (with_reducible first | assumption | intro _)
    | (extract_lets +onlyGivenNames x
       first
       | (refine keeps_let (s₀ := s₀) (s := x) ?_ ?_ <;> first | (intro hx; clear_value x) | subst x)
       | subst x)
    | split
    | (with_reducible first | apply kept_takeReadings | apply kept_coolDown | apply kept_raiseIf | apply kept_State_setFld
                            | apply kept_updThr | apply kept_thermalTrip)
    | (with_reducible apply keeps_upd; with_reducible first | assumption | apply kept_takeReadings | apply kept_coolDown
                                                             | apply kept_raiseIf | apply kept_State_setFld
                                                             | apply kept_updThr | apply kept_thermalTrip)

theorem kept_execThermalSample (s₀ : State) (x : Sensors) (s : State)  (hk : Keeps s₀ s) : OutKeeps s₀ (execThermalSample x s) := by
  unfold execThermalSample
  repeat' first
    | (with_reducible first | assumption | intro _)
    | split
    | (with_reducible first | apply kept_thermalSample | apply outKeeps_next | exact outKeeps_refused | apply optKeeps_some
                            | exact optKeeps_none)
    | dsimp -zeta only

theorem kept_thermalShutdown (s₀ : State) (s : State)  (hk : Keeps s₀ s) : Keeps s₀ (thermalShutdown s) := by
  unfold thermalShutdown
  repeat' first
    | (with_reducible first | assumption | intro _)
    | (extract_lets +onlyGivenNames x
       first
       | (refine keeps_let (s₀ := s₀) (s := x) ?_ ?_ <;> first | (intro hx; clear_value x) | subst x)
       | subst x)
    | split
    | (with_reducible first | apply kept_coreOff | apply kept_enterSafe)

theorem kept_execThermalShutdown (s₀ : State) (s : State)  (hk : Keeps s₀ s) : OutKeeps s₀ (execThermalShutdown s) := by
  unfold execThermalShutdown
  repeat' first
    | (with_reducible first | assumption | intro _)
    | split
    | (with_reducible first | apply kept_thermalShutdown | apply outKeeps_next | exact outKeeps_refused | apply optKeeps_some
                            | exact optKeeps_none)
    | dsimp -zeta only

theorem kept_clearSafe (s₀ : State) (s : State)  (hk : Keeps s₀ s) : Keeps s₀ (clearSafe s).2.2 := by
  unfold clearSafe
  repeat' first
    | (with_reducible first | assumption | intro _)
    | (extract_lets +onlyGivenNames x
       first
       | (refine keeps_let (s₀ := s₀) (s := x) ?_ ?_ <;> first | (intro hx; clear_value x) | subst x)
       | subst x)
    | split
    | (with_reducible first | apply kept_State_setFld | apply kept_discardImage | apply kept_ok | apply kept_enterIdle
                            | apply kept_enterBoot)
    | (with_reducible apply keeps_upd; with_reducible first | assumption | apply kept_State_setFld | apply kept_discardImage
                                                             | apply kept_ok | apply kept_enterIdle | apply kept_enterBoot)

theorem kept_execClear (s₀ : State) (msg : Msg) (s : State)  (hk : Keeps s₀ s) : OutKeeps s₀ (execClear msg s) := by
  unfold execClear
  repeat' first
    | (with_reducible first | assumption | intro _)
    | split
    | (with_reducible first | apply kept_request | apply kept_clearSafe | apply outKeeps_next | exact outKeeps_refused
                            | apply optKeeps_some | exact optKeeps_none | refine keeps_pair ?_ (by assumption)
                            | refine keeps_triple ?_ (by assumption))
    | dsimp -zeta only

theorem kept_enterTest (s₀ : State) (s : State)  (hk : Keeps s₀ s) : Keeps s₀ (enterTest s) := by
  unfold enterTest
  repeat' first
    | (with_reducible first | assumption | intro _)
    | split
    | (with_reducible first | apply kept_State_setFlds | apply kept_endStaging | apply kept_discardImage | apply kept_endCapture
                            | apply kept_abortSnap | apply kept_emptySlot | apply kept_State_free | apply kept_setMode
                            | apply kept_foldl)
    | (with_reducible apply keeps_upd; with_reducible first | assumption | apply kept_State_setFlds | apply kept_endStaging
                                                             | apply kept_discardImage | apply kept_endCapture
                                                             | apply kept_abortSnap | apply kept_emptySlot
                                                             | apply kept_State_free | apply kept_setMode | apply kept_foldl)

theorem kept_execTestEnter (s₀ : State) (msg : Msg) (s : State)  (hk : Keeps s₀ s) : OutKeeps s₀ (execTestEnter msg s) := by
  unfold execTestEnter
  repeat' first
    | (with_reducible first | assumption | intro _)
    | split
    | (with_reducible first | apply kept_request | apply kept_ok | apply kept_enterTest | apply outKeeps_next
                            | exact outKeeps_refused | apply optKeeps_some | exact optKeeps_none
                            | refine keeps_pair ?_ (by assumption) | refine keeps_triple ?_ (by assumption))
    | dsimp -zeta only

theorem kept_execTestExit (s₀ : State) (msg : Msg) (s : State)  (hk : Keeps s₀ s) : OutKeeps s₀ (execTestExit msg s) := by
  unfold execTestExit
  repeat' first
    | (with_reducible first | assumption | intro _)
    | split
    | (with_reducible first | apply kept_request | apply kept_enterBoot | apply kept_State_respond | apply outKeeps_next
                            | exact outKeeps_refused | apply optKeeps_some | exact optKeeps_none)
    | dsimp -zeta only

theorem kept_power (s₀ : State) (on : Bool) (s : State)  (hk : Keeps s₀ s) : Keeps s₀ (power on s).2.2 := by
  unfold power
  repeat' first
    | (with_reducible first | assumption | intro _)
    | split
    | (with_reducible first | apply kept_ok | apply kept_enterBoot | apply kept_requestSafe | apply kept_toStandby
                            | apply kept_refuseLoad)
    | (with_reducible apply keeps_upd; with_reducible first | assumption | apply kept_ok | apply kept_enterBoot
                                                             | apply kept_requestSafe | apply kept_toStandby
                                                             | apply kept_refuseLoad)

theorem kept_execPower (s₀ : State) (msg : Msg) (s : State)  (hk : Keeps s₀ s) : OutKeeps s₀ (execPower msg s) := by
  unfold execPower
  repeat' first
    | (with_reducible first | assumption | intro _)
    | (extract_lets +onlyGivenNames x
       first
       | (refine keeps_let (s₀ := s₀) (s := x) ?_ ?_ <;> first | (intro hx; clear_value x) | subst x)
       | subst x)
    | split
    | (with_reducible first | apply kept_request | apply kept_power | apply outKeeps_next | exact outKeeps_refused
                            | apply optKeeps_some | exact optKeeps_none | refine keeps_pair ?_ (by assumption)
                            | refine keeps_triple ?_ (by assumption))
    | dsimp -zeta only

theorem kept_execHostLinkChange (s₀ : State) (hport : Nat) (optic : Optic) (s : State)  (hk : Keeps s₀ s) : OutKeeps s₀ (execHostLinkChange hport optic s) := by
  unfold execHostLinkChange
  repeat' first
    | (with_reducible first | assumption | intro _)
    | split
    | (with_reducible first | apply outKeeps_next | exact outKeeps_refused | apply optKeeps_some | exact optKeeps_none)
    | dsimp -zeta only
    | (with_reducible apply keeps_upd; with_reducible first | assumption)

end Sys2Proof.Machine
end

