-- ==== Sys2Proof/Laws/KeptMgmt.lean ====
section
/-! SUPPORT. Mgmt: each operation keeps what `Keeps` says. -/
namespace Sys2Proof.Machine

theorem kept_dropClaim (s₀ : State) (n : Nat) (s : State)  (hk : Keeps s₀ s) : Keeps s₀ (dropClaim n s) := by
  unfold dropClaim
  repeat' first
    | (with_reducible first | assumption | intro _)
    | split
    | (with_reducible first | apply kept_snapshotLoses | apply kept_loaderLoses)
    | (with_reducible apply keeps_upd; with_reducible first | assumption | apply kept_snapshotLoses | apply kept_loaderLoses)

theorem kept_execClaim (s₀ : State) (msg : Msg) (s : State)  (hk : Keeps s₀ s) : OutKeeps s₀ (execClaim msg s) := by
  unfold execClaim
  repeat' first
    | (with_reducible first | assumption | intro _)
    | split
    | (with_reducible first | apply kept_request | apply kept_ok | apply outKeeps_next | exact outKeeps_refused
                            | apply optKeeps_some | exact optKeeps_none | refine keeps_pair ?_ (by assumption)
                            | refine keeps_triple ?_ (by assumption))
    | dsimp -zeta only
    | (with_reducible apply keeps_upd; with_reducible first | assumption | apply kept_request | apply kept_ok)

theorem kept_execUnclaim (s₀ : State) (msg : Msg) (s : State)  (hk : Keeps s₀ s) : OutKeeps s₀ (execUnclaim msg s) := by
  unfold execUnclaim
  repeat' first
    | (with_reducible first | assumption | intro _)
    | split
    | (with_reducible first | apply kept_request | apply kept_ok | apply kept_dropClaim | apply outKeeps_next
                            | exact outKeeps_refused | apply optKeeps_some | exact optKeeps_none
                            | refine keeps_pair ?_ (by assumption) | refine keeps_triple ?_ (by assumption))
    | dsimp -zeta only

theorem kept_execClaimTimeout (s₀ : State) (s : State)  (hk : Keeps s₀ s) : OutKeeps s₀ (execClaimTimeout s) := by
  unfold execClaimTimeout
  repeat' first
    | (with_reducible first | assumption | intro _)
    | split
    | (with_reducible first | apply kept_dropClaim | apply outKeeps_next | exact outKeeps_refused | apply optKeeps_some
                            | exact optKeeps_none)
    | dsimp -zeta only

theorem kept_execModeQuery (s₀ : State) (msg : Msg) (s : State)  (hk : Keeps s₀ s) : OutKeeps s₀ (execModeQuery msg s) := by
  unfold execModeQuery
  repeat' first
    | (with_reducible first | assumption | intro _)
    | split
    | (with_reducible first | apply kept_request | apply outKeeps_next | exact outKeeps_refused | apply optKeeps_some
                            | exact optKeeps_none)
    | dsimp -zeta only

theorem kept_execSensors (s₀ : State) (msg : Msg) (s : State)  (hk : Keeps s₀ s) : OutKeeps s₀ (execSensors msg s) := by
  unfold execSensors
  repeat' first
    | (with_reducible first | assumption | intro _)
    | split
    | (with_reducible first | apply kept_request | apply outKeeps_next | exact outKeeps_refused | apply optKeeps_some
                            | exact optKeeps_none)
    | dsimp -zeta only

theorem kept_execSetRead (s₀ : State) (msg : Msg) (s : State)  (hk : Keeps s₀ s) : OutKeeps s₀ (execSetRead msg s) := by
  unfold execSetRead
  repeat' first
    | (with_reducible first | assumption | intro _)
    | (extract_lets +onlyGivenNames x
       first
       | (refine keeps_let (s₀ := s₀) (s := x) ?_ ?_ <;> first | (intro hx; clear_value x) | subst x)
       | subst x)
    | split
    | (with_reducible first | apply kept_request | apply outKeeps_next | exact outKeeps_refused | apply optKeeps_some
                            | exact optKeeps_none)
    | dsimp -zeta only

theorem kept_execSetStage (s₀ : State) (msg : Msg) (s : State)  (hk : Keeps s₀ s) : OutKeeps s₀ (execSetStage msg s) := by
  unfold execSetStage
  repeat' first
    | (with_reducible first | assumption | intro _)
    | split
    | (with_reducible first | apply kept_request | apply kept_ok | apply outKeeps_next | exact outKeeps_refused
                            | apply optKeeps_some | exact optKeeps_none | refine keeps_pair ?_ (by assumption)
                            | refine keeps_triple ?_ (by assumption))
    | dsimp -zeta only
    | (with_reducible apply keeps_upd; with_reducible first | assumption | apply kept_request | apply kept_ok)

theorem kept_execSetDrop (s₀ : State) (msg : Msg) (s : State)  (hk : Keeps s₀ s) : OutKeeps s₀ (execSetDrop msg s) := by
  unfold execSetDrop
  repeat' first
    | (with_reducible first | assumption | intro _)
    | split
    | (with_reducible first | apply kept_request | apply kept_ok | apply outKeeps_next | exact outKeeps_refused
                            | apply optKeeps_some | exact optKeeps_none | refine keeps_pair ?_ (by assumption)
                            | refine keeps_triple ?_ (by assumption))
    | dsimp -zeta only
    | (with_reducible apply keeps_upd; with_reducible first | assumption | apply kept_request | apply kept_ok)

theorem kept_execSetCommit (s₀ : State) (msg : Msg) (s : State)  (hk : Keeps s₀ s) : OutKeeps s₀ (execSetCommit msg s) := by
  unfold execSetCommit
  repeat' first
    | (with_reducible first | assumption | intro _)
    | (extract_lets +onlyGivenNames x
       first
       | (refine keeps_let (s₀ := s₀) (s := x) ?_ ?_ <;> first | (intro hx; clear_value x) | subst x)
       | subst x)
    | split
    | (with_reducible first | apply kept_request | apply outKeeps_next | exact outKeeps_refused | apply optKeeps_some
                            | exact optKeeps_none)
    | dsimp -zeta only
    | (with_reducible apply keeps_upd; with_reducible first | assumption | apply kept_request)

theorem kept_execSettingsEraseDone (s₀ : State) (s : State)  (hk : Keeps s₀ s) : OutKeeps s₀ (execSettingsEraseDone s) := by
  unfold execSettingsEraseDone
  repeat' first
    | (with_reducible first | assumption | intro _)
    | split
    | (with_reducible first | apply outKeeps_next | exact outKeeps_refused | apply optKeeps_some | exact optKeeps_none)
    | dsimp -zeta only
    | (with_reducible apply keeps_upd; with_reducible first | assumption)

theorem kept_execLogRead (s₀ : State) (msg : Msg) (s : State)  (hk : Keeps s₀ s) : OutKeeps s₀ (execLogRead msg s) := by
  unfold execLogRead
  repeat' first
    | (with_reducible first | assumption | intro _)
    | split
    | (with_reducible first | apply kept_request | apply outKeeps_next | exact outKeeps_refused | apply optKeeps_some
                            | exact optKeeps_none)
    | dsimp -zeta only

theorem kept_execLogFlush (s₀ : State) (s : State)  (hk : Keeps s₀ s) : OutKeeps s₀ (execLogFlush s) := by
  unfold execLogFlush
  repeat' first
    | (with_reducible first | assumption | intro _)
    | split
    | (with_reducible first | apply kept_State_flushLog | apply outKeeps_next | exact outKeeps_refused | apply optKeeps_some
                            | exact optKeeps_none)
    | dsimp -zeta only

theorem kept_execWallTimeToMc (s₀ : State) (s : State)  (hk : Keeps s₀ s) : OutKeeps s₀ (execWallTimeToMc s) := by
  unfold execWallTimeToMc
  repeat' first
    | (with_reducible first | assumption | intro _)
    | split
    | (with_reducible first | apply outKeeps_next | exact outKeeps_refused | apply optKeeps_some | exact optKeeps_none)
    | dsimp -zeta only
    | (with_reducible apply keeps_upd; with_reducible first | assumption)

theorem kept_State_setSlot (s₀ : State) (s : State) (k : Nat) (b : List Byte)  (hk : Keeps s₀ s) : Keeps s₀ (State.setSlot s k b) := by
  unfold State.setSlot
  repeat' first
    | (with_reducible first | assumption | intro _)
    | split
    | (with_reducible apply keeps_upd; with_reducible first | assumption)

theorem kept_updBegin (s₀ : State) (m : Msg) (n : Nat) (len : Nat) (s : State)  (hk : Keeps s₀ s) : Keeps s₀ (updBegin m n len s).2.2 := by
  unfold updBegin
  repeat' first
    | (with_reducible first | assumption | intro _)
    | split
    | (with_reducible first | apply kept_raiseIf | apply kept_State_setSlot | apply kept_State_openIn)
    | (with_reducible apply keeps_upd; with_reducible first | assumption | apply kept_raiseIf | apply kept_State_setSlot
                                                             | apply kept_State_openIn)

theorem kept_execUpdBegin (s₀ : State) (msg : Msg) (s : State)  (hk : Keeps s₀ s) : OutKeeps s₀ (execUpdBegin msg s) := by
  unfold execUpdBegin
  repeat' first
    | (with_reducible first | assumption | intro _)
    | split
    | (with_reducible first | apply kept_request | apply kept_updBegin | apply outKeeps_next | exact outKeeps_refused
                            | apply optKeeps_some | exact optKeeps_none | refine keeps_pair ?_ (by assumption)
                            | refine keeps_triple ?_ (by assumption))
    | dsimp -zeta only

theorem kept_updBytes (s₀ : State) (d : List Byte) (s : State)  (hk : Keeps s₀ s) : Keeps s₀ (updBytes d s) := by
  unfold updBytes
  repeat' first
    | (with_reducible first | assumption | intro _)
    | split
    | (with_reducible apply keeps_upd; with_reducible first | assumption)

theorem kept_updDone (s₀ : State) (s : State)  (hk : Keeps s₀ s) : Keeps s₀ (updDone s) := by
  unfold updDone
  repeat' first
    | (with_reducible first | assumption | intro _)
    | (extract_lets +onlyGivenNames x
       first
       | (refine keeps_let (s₀ := s₀) (s := x) ?_ ?_ <;> first | (intro hx; clear_value x) | subst x)
       | subst x)
    | split
    | (with_reducible first | apply kept_State_respond | apply kept_raise | apply kept_State_setSlot | apply kept_programCopy
                            | apply kept_State_log)
    | (with_reducible apply keeps_upd; with_reducible first | assumption | apply kept_State_respond | apply kept_raise
                                                             | apply kept_State_setSlot | apply kept_programCopy
                                                             | apply kept_State_log)

theorem kept_execUpdWriteDone (s₀ : State) (s : State)  (hk : Keeps s₀ s) : OutKeeps s₀ (execUpdWriteDone s) := by
  unfold execUpdWriteDone
  repeat' first
    | (with_reducible first | assumption | intro _)
    | split
    | (with_reducible first | apply kept_updDone | apply outKeeps_next | exact outKeeps_refused | apply optKeeps_some
                            | exact optKeeps_none)
    | dsimp -zeta only

theorem kept_updConfirm (s₀ : State) (s : State)  (hk : Keeps s₀ s) : Keeps s₀ (updConfirm s).2.2 := by
  unfold updConfirm
  repeat' first
    | (with_reducible first | assumption | intro _)
    | (extract_lets +onlyGivenNames x
       first
       | (refine keeps_let (s₀ := s₀) (s := x) ?_ ?_ <;> first | (intro hx; clear_value x) | subst x)
       | subst x)
    | split
    | (with_reducible first | apply kept_programCopy | apply kept_ok | apply kept_State_log | apply kept_State_setFld)
  all_goals grind [kept_programCopy, kept_ok, kept_State_log, kept_State_setFld, Keeps, held_rset, held_setAt_cores, held_setAt_lanes, held_filter_regs, held_map_cores, held_map_lanes, held_write1, held_write, held_clear, held_filter_mem, held_out, held_free, held_rbcnt]

theorem kept_execUpdConfirm (s₀ : State) (msg : Msg) (s : State)  (hk : Keeps s₀ s) : OutKeeps s₀ (execUpdConfirm msg s) := by
  unfold execUpdConfirm
  repeat' first
    | (with_reducible first | assumption | intro _)
    | split
    | (with_reducible first | apply kept_request | apply kept_updConfirm | apply outKeeps_next | exact outKeeps_refused
                            | apply optKeeps_some | exact optKeeps_none | refine keeps_pair ?_ (by assumption)
                            | refine keeps_triple ?_ (by assumption))
    | dsimp -zeta only

theorem kept_mcDown (s₀ : State) (s : State)  (hk : Keeps s₀ s) : Keeps s₀ (mcDown s) := by
  unfold mcDown
  exact held_setAt_cores 16 _ (sound_reset 16) (kept_cutErase s₀ s hk)

theorem kept_execMcRestart (s₀ : State) (msg : Msg) (s : State)  (hk : Keeps s₀ s) : OutKeeps s₀ (execMcRestart msg s) := by
  unfold execMcRestart
  repeat' first
    | (with_reducible first | assumption | intro _)
    | split
    | (with_reducible first | apply kept_request | apply kept_mcDown | apply kept_State_flushLog | apply kept_State_respond
                            | apply outKeeps_next | exact outKeeps_refused | apply optKeeps_some | exact optKeeps_none)
    | dsimp -zeta only

theorem kept_mcWatchdog (s₀ : State) (s : State)  (hk : Keeps s₀ s) : Keeps s₀ (mcWatchdog s) := by
  unfold mcWatchdog
  repeat' first
    | (with_reducible first | assumption | intro _)
    | split
    | (with_reducible first | apply keeps_setCore_reset | apply keeps_setCore_upd | apply kept_mcDown
                            | apply kept_State_flushLog | apply kept_State_log)
    | (with_reducible apply keeps_upd; with_reducible first | assumption | apply keeps_setCore_reset | apply keeps_setCore_upd
                                                             | apply kept_mcDown | apply kept_State_flushLog
                                                             | apply kept_State_log)

theorem kept_execMcWatchdogExpiry (s₀ : State) (s : State)  (hk : Keeps s₀ s) : OutKeeps s₀ (execMcWatchdogExpiry s) := by
  unfold execMcWatchdogExpiry
  repeat' first
    | (with_reducible first | assumption | intro _)
    | split
    | (with_reducible first | apply kept_mcWatchdog | apply outKeeps_next | exact outKeeps_refused | apply optKeeps_some
                            | exact optKeeps_none)
    | dsimp -zeta only

theorem kept_bootSlot (s₀ : State) (s : State)  (hk : Keeps s₀ s) : Keeps s₀ (bootSlot s) := by
  unfold bootSlot
  repeat' first
    | (with_reducible first | assumption | intro _)
    | (extract_lets +onlyGivenNames x
       first
       | (refine keeps_let (s₀ := s₀) (s := x) ?_ ?_ <;> first | (intro hx; clear_value x) | subst x)
       | subst x)
    | split
    | (with_reducible first | apply kept_programCopy | apply kept_State_log)
    | (with_reducible apply keeps_upd; with_reducible first | assumption | apply kept_programCopy | apply kept_State_log)

theorem kept_mcStart (s₀ : State) (s : State)  (hk : Keeps s₀ s) : Keeps s₀ (mcStart s) := by
  unfold mcStart
  repeat' first
    | (with_reducible first | assumption | intro _)
    | (extract_lets +onlyGivenNames x
       first
       | (refine keeps_let (s₀ := s₀) (s := x) ?_ ?_ <;> first | (intro hx; clear_value x) | subst x)
       | subst x)
    | split
    | (with_reducible first | apply kept_State_log | apply kept_raise | apply kept_bootSlot | apply kept_State_setFlds
                            | apply kept_State_setReg | apply kept_enterBoot | apply kept_foldl)
    | exact held_setAt_cores 16 _ (sound_mc 16) hk
  all_goals grind [kept_State_log, kept_raise, kept_bootSlot, kept_State_setFlds, kept_State_setReg, kept_enterBoot, kept_foldl, Keeps, held_rset, held_setAt_cores, held_setAt_lanes, held_filter_regs, held_map_cores, held_map_lanes, held_write1, held_write, held_clear, held_filter_mem, held_out, held_free, held_rbcnt]

theorem kept_execMcStart (s₀ : State) (s : State)  (hk : Keeps s₀ s) : OutKeeps s₀ (execMcStart s) := by
  unfold execMcStart
  repeat' first
    | (with_reducible first | assumption | intro _)
    | split
    | (with_reducible first | apply kept_mcStart | apply outKeeps_next | exact outKeeps_refused | apply optKeeps_some
                            | exact optKeeps_none)
    | dsimp -zeta only

theorem kept_doorWrite (s₀ : State) (m : Nat) (d : Word) (s : State)  (hk : Keeps s₀ s) : Keeps s₀ (doorWrite m d s) := by
  unfold doorWrite
  repeat' first
    | (with_reducible first | assumption | intro _)
    | (extract_lets +onlyGivenNames x
       first
       | (refine keeps_let (s₀ := s₀) (s := x) ?_ ?_ <;> first | (intro hx; clear_value x) | subst x)
       | subst x)
    | split
    | (with_reducible apply keeps_upd; with_reducible first | assumption)

theorem kept_placeReply (s₀ : State) (b : List Byte) (s : State)  (hk : Keeps s₀ s) : Keeps s₀ (placeReply b s) := by
  unfold placeReply
  repeat' first
    | (with_reducible first | assumption | intro _)
    | split
    | (with_reducible first | apply kept_raise)
  all_goals grind [kept_raise, Keeps, held_rset, held_setAt_cores, held_setAt_lanes, held_filter_regs, held_map_cores, held_map_lanes, held_write1, held_write, held_clear, held_filter_mem, held_out, held_free, held_rbcnt]

theorem kept_execMbxLog (s₀ : State) (s : State)  (hk : Keeps s₀ s) : OutKeeps s₀ (execMbxLog s) := by
  unfold execMbxLog
  repeat' first
    | (with_reducible first | assumption | intro _)
    | split
    | (with_reducible first | apply kept_State_log | apply outKeeps_next | exact outKeeps_refused | apply optKeeps_some
                            | exact optKeeps_none)
    | dsimp -zeta only
    | (with_reducible apply keeps_upd; with_reducible first | assumption | apply kept_State_log)

theorem kept_execMbxSensors (s₀ : State) (s : State)  (hk : Keeps s₀ s) : OutKeeps s₀ (execMbxSensors s) := by
  unfold execMbxSensors
  repeat' first
    | (with_reducible first | assumption | intro _)
    | split
    | (with_reducible first | apply kept_placeReply | apply outKeeps_next | exact outKeeps_refused | apply optKeeps_some
                            | exact optKeeps_none)
    | dsimp -zeta only

theorem kept_execMbxSetread (s₀ : State) (s : State)  (hk : Keeps s₀ s) : OutKeeps s₀ (execMbxSetread s) := by
  unfold execMbxSetread
  repeat' first
    | (with_reducible first | assumption | intro _)
    | split
    | (with_reducible first | apply kept_placeReply | apply outKeeps_next | exact outKeeps_refused | apply optKeeps_some
                            | exact optKeeps_none)
    | dsimp -zeta only

end Sys2Proof.Machine
end

