-- ==== Sys2Proof/Laws/KeptViews.lean ====
section
/-! SUPPORT. Views: each operation keeps what `Keeps` says. -/
namespace Sys2Proof.Machine

theorem kept_readReg (s₀ : State) (a : Nat) (s : State)  (hk : Keeps s₀ s) : Keeps s₀ (readReg a s).2 := by
  unfold readReg
  repeat' first
    | (with_reducible first | assumption | intro _)
    | split
    | (with_reducible first | apply kept_claimRead | apply kept_dispRead | apply kept_State_setReg | apply kept_foldl)
    | (with_reducible apply keeps_upd; with_reducible first | assumption | apply kept_claimRead | apply kept_dispRead
                                                             | apply kept_State_setReg | apply kept_foldl)

end Sys2Proof.Machine
end

