-- ==== Sys2Proof/Laws/KeptTargets.lean ====
section
/-! SUPPORT. Targets: each operation keeps what `Keeps` says. -/
namespace Sys2Proof.Machine

theorem kept_regFetch (s₀ : State) (a : Nat) (n : Nat) (s : State)  (hk : Keeps s₀ s) : Keeps s₀ (regFetch a n s).2.2 := by
  unfold regFetch
  repeat' first
    | (with_reducible first | assumption | intro _)
    | (extract_lets +onlyGivenNames x
       first
       | (refine keeps_let (s₀ := s₀) (s := x) ?_ ?_ <;> first | (intro hx; clear_value x) | subst x)
       | subst x)
    | split
    | (with_reducible first | apply kept_readReg | apply outKeeps_next | exact outKeeps_refused | apply optKeeps_some
                            | exact optKeeps_none | refine keeps_pair ?_ (by assumption)
                            | refine keeps_triple ?_ (by assumption))
    | dsimp -zeta only
    | (with_reducible apply keeps_upd; with_reducible first | assumption | apply kept_readReg)
  all_goals grind [kept_readReg, Keeps, held_rset, held_setAt_cores, held_setAt_lanes, held_filter_regs, held_map_cores, held_map_lanes, held_write1, held_write, held_clear, held_filter_mem, held_out, held_free, held_rbcnt]

theorem kept_denied (s₀ : State) (m : Nat) (off : Nat) (wr : Bool) (s : State)  (hk : Keeps s₀ s) : Keeps s₀ (denied m off wr s) := by
  unfold denied
  repeat' first
    | (with_reducible first | assumption | intro _)
    | split
    | (with_reducible first | apply kept_State_count | apply kept_raise | apply kept_State_first)

theorem kept_ramFails (s₀ : State) (a : Nat) (s : State)  (hk : Keeps s₀ s) : Keeps s₀ (ramFails a s) := by
  unfold ramFails
  repeat' first
    | (with_reducible first | assumption | intro _)
    | split
    | (with_reducible first | apply kept_State_count | apply kept_raise | apply kept_State_first)

theorem kept_ramWrite (s₀ : State) (a : Nat) (d : List Byte) (s : State)  (hk : Keeps s₀ s) : Keeps s₀ (ramWrite a d s) := by
  unfold ramWrite
  repeat' first
    | (with_reducible first | assumption | intro _)
    | (extract_lets +onlyGivenNames x
       first
       | (refine keeps_let (s₀ := s₀) (s := x) ?_ ?_ <;> first | (intro hx; clear_value x) | subst x)
       | subst x)
    | split
    | (with_reducible first | apply kept_State_clearResv)
    | exact held_wf _ hx (Memory.wf_write _ _ _ (held_mem hk))

theorem kept_ramAccess (s₀ : State) (a : Nat) (n : Nat) (wr : Bool) (d : List Byte) (s : State)  (hk : Keeps s₀ s) : Keeps s₀ (ramAccess a n wr d s).2.2 := by
  unfold ramAccess
  repeat' first
    | (with_reducible first | assumption | intro _)
    | split
    | (with_reducible first | apply kept_ramWrite | apply kept_ramFails)

theorem kept_bankAccess (s₀ : State) (m : Nat) (a : Nat) (n : Nat) (wr : Bool) (d : List Byte) (s : State)  (hk : Keeps s₀ s) : Keeps s₀ (bankAccess m a n wr d s).2.2 := by
  unfold bankAccess
  repeat' first
    | (with_reducible first | assumption | intro _)
    | split
    | (with_reducible first | apply kept_denied | apply kept_ramAccess)

theorem kept_aliasAccess (s₀ : State) (m : Nat) (a : Nat) (n : Nat) (wr : Bool) (d : List Byte) (s : State)  (hk : Keeps s₀ s) : Keeps s₀ (aliasAccess m a n wr d s).2.2 := by
  unfold aliasAccess
  repeat' first
    | (with_reducible first | assumption | intro _)
    | (extract_lets +onlyGivenNames x
       first
       | (refine keeps_let (s₀ := s₀) (s := x) ?_ ?_ <;> first | (intro hx; clear_value x) | subst x)
       | subst x)
    | split
    | (with_reducible first | apply kept_denied | apply kept_ramFails | apply kept_ramWrite)

theorem kept_cellWriteAt (s₀ : State) (n : Nat) (w : Nat) (s : State) (a0 : Cell)  (hk : Keeps s₀ s) : Keeps s₀ (cellWriteAt n w s a0) := by
  unfold cellWriteAt
  repeat' first
    | (with_reducible first | assumption | intro _)
    | (extract_lets +onlyGivenNames x
       first
       | (refine keeps_let (s₀ := s₀) (s := x) ?_ ?_ <;> first | (intro hx; clear_value x) | subst x)
       | subst x)
    | split
    | (with_reducible first | apply kept_ramWrite | apply kept_keepWord | apply kept_foldl | apply outKeeps_next
                            | exact outKeeps_refused | apply optKeeps_some | exact optKeeps_none)
    | dsimp -zeta only
    | (with_reducible apply keeps_upd; with_reducible first | assumption | apply kept_ramWrite | apply kept_keepWord
                                                             | apply kept_foldl)
  all_goals grind [kept_ramWrite, kept_keepWord, kept_foldl, Keeps, held_rset, held_setAt_cores, held_setAt_lanes, held_filter_regs, held_map_cores, held_map_lanes, held_write1, held_write, held_clear, held_filter_mem, held_out, held_free, held_rbcnt]

theorem kept_dieAccessNoc (s₀ : State) (m : Nat) (a : Nat) (n : Nat) (wr : Bool) (d : List Byte) (s : State)  (hk : Keeps s₀ s) : Keeps s₀ (dieAccessNoc m a n wr d s).2.2 := by
  unfold dieAccessNoc
  repeat' first
    | (with_reducible first | assumption | intro _)
    | (extract_lets +onlyGivenNames x
       first
       | (refine keeps_let (s₀ := s₀) (s := x) ?_ ?_ <;> first | (intro hx; clear_value x) | subst x)
       | subst x)
    | split
    | (with_reducible first | apply kept_cellWriteAt | apply kept_serviceFails | apply kept_foldl | apply outKeeps_next
                            | exact outKeeps_refused | apply optKeeps_some | exact optKeeps_none | apply optKeeps_map)
    | dsimp -zeta only
    | (with_reducible apply keeps_upd; with_reducible first | assumption | apply kept_cellWriteAt | apply kept_serviceFails
                                                             | apply kept_foldl)
  all_goals grind [kept_cellWriteAt, kept_serviceFails, kept_foldl, Keeps, held_rset, held_setAt_cores, held_setAt_lanes, held_filter_regs, held_map_cores, held_map_lanes, held_write1, held_write, held_clear, held_filter_mem, held_out, held_free, held_rbcnt]

theorem kept_hbmAccess (s₀ : State) (m : Nat) (a : Nat) (n : Nat) (wr : Bool) (d : List Byte) (e : List (Ecc × Ecc)) (s : State)  (hk : Keeps s₀ s) : Keeps s₀ (hbmAccess m a n wr d e s).2.2 := by
  have he : ∀ l, Keeps s₀ (eccReads l e s).2 := fun l => kept_eccReads s₀ l e s hk
  unfold hbmAccess
  dsimp only
  repeat' split
  all_goals first
    | exact hk
    | exact held_write _ _ (he _)
    | exact he _

theorem kept_windowAccess (s₀ : State) (m : Nat) (a : Nat) (n : Nat) (wr : Bool) (d : List Byte) (s : State)  (hk : Keeps s₀ s) : Keeps s₀ (windowAccess m a n wr d s).2.2 := by
  unfold windowAccess
  repeat' first
    | (with_reducible first | assumption | intro _)
    | (extract_lets +onlyGivenNames x
       first
       | (refine keeps_let (s₀ := s₀) (s := x) ?_ ?_ <;> first | (intro hx; clear_value x) | subst x)
       | subst x)
    | split
    | (with_reducible first | apply kept_doorWrite | apply kept_foldl)
    | exact held_write _ _ hk
    | (with_reducible apply keeps_upd; with_reducible first | assumption | apply kept_doorWrite | apply kept_foldl)

theorem kept_serveRead (s₀ : State) (m : Nat) (a : Nat) (n : Nat) (s : State)  (hk : Keeps s₀ s) : Keeps s₀ (serveRead m a n s).2.2 := by
  unfold serveRead
  repeat' first
    | (with_reducible first | assumption | intro _)
    | (extract_lets +onlyGivenNames x
       first
       | (refine keeps_let (s₀ := s₀) (s := x) ?_ ?_ <;> first | (intro hx; clear_value x) | subst x)
       | subst x)
    | split
    | (with_reducible first | apply kept_regFetch | apply kept_bankAccess | apply kept_aliasAccess | apply kept_ramAccess
                            | apply kept_dieAccessNoc | apply kept_hbmAccess | apply kept_windowAccess | apply outKeeps_next
                            | exact outKeeps_refused | apply optKeeps_some | exact optKeeps_none
                            | refine keeps_pair ?_ (by assumption) | refine keeps_triple ?_ (by assumption))
    | dsimp -zeta only
    | (with_reducible apply keeps_upd; with_reducible first | assumption | apply kept_regFetch | apply kept_bankAccess
                                                             | apply kept_aliasAccess | apply kept_ramAccess
                                                             | apply kept_dieAccessNoc | apply kept_hbmAccess
                                                             | apply kept_windowAccess)
  all_goals grind [kept_regFetch, kept_bankAccess, kept_aliasAccess, kept_ramAccess, kept_dieAccessNoc, kept_hbmAccess, kept_windowAccess, Keeps, held_rset, held_setAt_cores, held_setAt_lanes, held_filter_regs, held_map_cores, held_map_lanes, held_write1, held_write, held_clear, held_filter_mem, held_out, held_free, held_rbcnt]

theorem kept_timedOut (s₀ : State) (m : Nat) (t : Nat) (a : Nat) (s : State)  (hk : Keeps s₀ s) : Keeps s₀ (timedOut m t a s) := by
  unfold timedOut
  repeat' first
    | (with_reducible first | assumption | intro _)
    | (extract_lets +onlyGivenNames x
       first
       | (refine keeps_let (s₀ := s₀) (s := x) ?_ ?_ <;> first | (intro hx; clear_value x) | subst x)
       | subst x)
    | split
    | (with_reducible first | apply kept_raise | apply kept_State_first | apply kept_State_count | apply outKeeps_next
                            | exact outKeeps_refused | apply optKeeps_some | exact optKeeps_none)
    | dsimp -zeta only
    | (with_reducible apply keeps_upd; with_reducible first | assumption | apply kept_raise | apply kept_State_first
                                                             | apply kept_State_count)
  all_goals grind [kept_raise, kept_State_first, kept_State_count, Keeps, held_rset, held_setAt_cores, held_setAt_lanes, held_filter_regs, held_map_cores, held_map_lanes, held_write1, held_write, held_clear, held_filter_mem, held_out, held_free, held_rbcnt]

theorem kept_takeRequest (s₀ : State) (p : Flight) (l : List Flight) (f : State → Nat × List Byte × State) (s : State) (h_f : ∀ v0, Keeps s₀ v0 → Keeps s₀ (f v0).2.2) (hk : Keeps s₀ s) : GotKeeps s₀ (takeRequest p l f s) := by
  unfold takeRequest
  repeat' first
    | (with_reducible first | assumption | intro _)
    | (extract_lets +onlyGivenNames x
       first
       | (refine keeps_let (s₀ := s₀) (s := x) ?_ ?_ <;> first | (intro hx; clear_value x) | subst x)
       | subst x)
    | split
    | (with_reducible first | apply kept_timedOut | apply kept_flitLost | apply kept_State_count | apply h_f
                            | apply outKeeps_next | exact outKeeps_refused | apply optKeeps_some | exact optKeeps_none
                            | apply gotKeeps_ans | exact gotKeeps_wait | refine keeps_pair ?_ (by assumption)
                            | refine keeps_triple ?_ (by assumption))
    | dsimp -zeta only
    | (with_reducible apply keeps_upd; with_reducible first | assumption | apply kept_timedOut | apply kept_flitLost
                                                             | apply kept_State_count)
  all_goals grind [kept_timedOut, kept_flitLost, kept_State_count, Keeps, held_rset, held_setAt_cores, held_setAt_lanes, held_filter_regs, held_map_cores, held_map_lanes, held_write1, held_write, held_clear, held_filter_mem, held_out, held_free, held_rbcnt]

theorem kept_coreVia (s₀ : State) (m : Nat) (a : Nat) (n : Nat) (wr : Bool) (f : State → Nat × List Byte × State) (s : State) (h_f : ∀ v0, Keeps s₀ v0 → Keeps s₀ (f v0).2.2) (hk : Keeps s₀ s) : GotKeeps s₀ (coreVia m a n wr f s) := by
  unfold coreVia
  repeat' first
    | (with_reducible first | assumption | intro _)
    | (extract_lets +onlyGivenNames x
       first
       | (refine keeps_let (s₀ := s₀) (s := x) ?_ ?_ <;> first | (intro hx; clear_value x) | subst x)
       | subst x)
    | split
    | (with_reducible first | apply kept_takeRequest | apply kept_State_count | apply h_f | apply outKeeps_next
                            | exact outKeeps_refused | apply optKeeps_some | exact optKeeps_none | apply gotKeeps_ans
                            | exact gotKeeps_wait | refine keeps_ans ?_ (by assumption)
                            | refine keeps_pair ?_ (by assumption) | refine keeps_triple ?_ (by assumption))
    | dsimp -zeta only
    | (with_reducible apply keeps_upd; with_reducible first | assumption | apply kept_takeRequest | apply kept_State_count)
  all_goals grind [kept_takeRequest, kept_State_count, Keeps, held_rset, held_setAt_cores, held_setAt_lanes, held_filter_regs, held_map_cores, held_map_lanes, held_write1, held_write, held_clear, held_filter_mem, held_out, held_free, held_rbcnt]

theorem kept_State_await (s₀ : State) (s : State) (f : Flight)  (hk : Keeps s₀ s) : Keeps s₀ (State.await s f) := by
  unfold State.await
  repeat' first
    | (with_reducible first | assumption | intro _)
    | (extract_lets +onlyGivenNames x
       first
       | (refine keeps_let (s₀ := s₀) (s := x) ?_ ?_ <;> first | (intro hx; clear_value x) | subst x)
       | subst x)
    | split
    | (with_reducible first | apply kept_State_fly | apply outKeeps_next | exact outKeeps_refused | apply optKeeps_some
                            | exact optKeeps_none)
    | dsimp -zeta only
    | (with_reducible apply keeps_upd; with_reducible first | assumption | apply kept_State_fly)
  all_goals grind [kept_State_fly, Keeps, held_rset, held_setAt_cores, held_setAt_lanes, held_filter_regs, held_map_cores, held_map_lanes, held_write1, held_write, held_clear, held_filter_mem, held_out, held_free, held_rbcnt]

end Sys2Proof.Machine
end

