-- ==== Sys2Proof/Laws/KeptArming.lean ====
section
/-! SUPPORT. Arming: each operation keeps what `Keeps` says. -/
namespace Sys2Proof.Machine

theorem kept_tableRead (s₀ : State) (a0 : Nat) (a1 : Nat) (a2 : List (List Byte)) (a3 : State)  (hk : Keeps s₀ a3) : ExcKeeps2 s₀ (tableRead a0 a1 a2 a3) := by
  induction a0 generalizing a1 a2 a3 with
  | zero =>
    unfold tableRead
    repeat' first
      | (with_reducible first | assumption | intro _)
      | (extract_lets +onlyGivenNames x
         first
         | (refine keeps_let (s₀ := s₀) (s := x) ?_ ?_ <;> first | (intro hx; clear_value x) | subst x)
         | subst x)
      | split
      | (with_reducible first | apply kept_coreVia | apply kept_serveRead | apply outKeeps_next | exact outKeeps_refused
                              | apply optKeeps_some | exact optKeeps_none | apply excKeeps2_ok | exact excKeeps2_error
                              | refine keeps_ans ?_ (by assumption) | refine keeps_pair ?_ (by assumption)
                              | refine keeps_triple ?_ (by assumption))
      | dsimp -zeta only
      | (with_reducible apply keeps_upd; with_reducible first | assumption | apply kept_coreVia | apply kept_serveRead)
    all_goals grind [kept_coreVia, kept_serveRead, Keeps, held_rset, held_setAt_cores, held_setAt_lanes, held_filter_regs, held_map_cores, held_map_lanes, held_write1, held_write, held_clear, held_filter_mem, held_out, held_free, held_rbcnt]
  | succ y ih =>
    unfold tableRead
    repeat' first
      | (with_reducible first | assumption | intro _)
      | (extract_lets +onlyGivenNames x
         first
         | (refine keeps_let (s₀ := s₀) (s := x) ?_ ?_ <;> first | (intro hx; clear_value x) | subst x)
         | subst x)
      | with_reducible apply ih
      | split
      | (with_reducible first | apply kept_coreVia | apply kept_serveRead | apply outKeeps_next | exact outKeeps_refused
                              | apply optKeeps_some | exact optKeeps_none | apply excKeeps2_ok | exact excKeeps2_error
                              | refine keeps_ans ?_ (by assumption) | refine keeps_pair ?_ (by assumption)
                              | refine keeps_triple ?_ (by assumption))
      | dsimp -zeta only
      | (with_reducible apply keeps_upd; with_reducible first | assumption | apply kept_coreVia | apply kept_serveRead)
    all_goals grind [kept_coreVia, kept_serveRead, Keeps, held_rset, held_setAt_cores, held_setAt_lanes, held_filter_regs, held_map_cores, held_map_lanes, held_write1, held_write, held_clear, held_filter_mem, held_out, held_free, held_rbcnt]

theorem kept_setRead (s₀ : State) (s : State)  (hk : Keeps s₀ s) : ExcKeeps2 s₀ (setRead s) := by
  unfold setRead
  repeat' first
    | (with_reducible first | assumption | intro _)
    | (extract_lets +onlyGivenNames x
       first
       | (refine keeps_let (s₀ := s₀) (s := x) ?_ ?_ <;> first | (intro hx; clear_value x) | subst x)
       | subst x)
    | split
    | (with_reducible first | apply kept_tableRead | apply outKeeps_next | exact outKeeps_refused | apply optKeeps_some
                            | exact optKeeps_none | apply excKeeps2_ok | exact excKeeps2_error
                            | refine keeps_ok ?_ (by assumption) | refine keeps_ok2 ?_ (by assumption)
                            | refine keeps_ok2' ?_ (by assumption) | refine keeps_pair ?_ (by assumption)
                            | refine keeps_triple ?_ (by assumption))
    | dsimp -zeta only
    | (with_reducible apply keeps_upd; with_reducible first | assumption | apply kept_tableRead)
  all_goals grind [kept_tableRead, Keeps, held_rset, held_setAt_cores, held_setAt_lanes, held_filter_regs, held_map_cores, held_map_lanes, held_write1, held_write, held_clear, held_filter_mem, held_out, held_free, held_rbcnt]

theorem kept_armAccept (s₀ : State) (start : Nat) (es : List CapEntry) (s : State)  (hk : Keeps s₀ s) : Keeps s₀ (armAccept start es s) := by
  unfold armAccept
  repeat' first
    | (with_reducible first | assumption | intro _)
    | (extract_lets +onlyGivenNames x
       first
       | (refine keeps_let (s₀ := s₀) (s := x) ?_ ?_ <;> first | (intro hx; clear_value x) | subst x)
       | subst x)
    | split
    | (with_reducible first | apply kept_State_create | apply kept_State_clearRegs | apply kept_State_setFlds
                            | apply kept_State_setPair | apply keeps_getD)
    | (with_reducible apply keeps_upd; with_reducible first | assumption | apply kept_State_create | apply kept_State_clearRegs
                                                             | apply kept_State_setFlds | apply kept_State_setPair)

theorem kept_arm (s₀ : State) (start : Nat) (m : Option Msg) (s : State)  (hk : Keeps s₀ s) : Keeps s₀ (arm start m s).2 := by
  unfold arm
  repeat' first
    | (with_reducible first | assumption | intro _)
    | (extract_lets +onlyGivenNames x
       first
       | (refine keeps_let (s₀ := s₀) (s := x) ?_ ?_ <;> first | (intro hx; clear_value x) | subst x)
       | subst x)
    | split
    | (with_reducible first | apply kept_State_setFld | apply kept_setRead | apply kept_State_await | apply kept_armAccept
                            | apply outKeeps_next | exact outKeeps_refused | apply optKeeps_some | exact optKeeps_none
                            | refine keeps_ok ?_ (by assumption) | refine keeps_ok2 ?_ (by assumption)
                            | refine keeps_ok2' ?_ (by assumption) | refine keeps_pair ?_ (by assumption)
                            | refine keeps_triple ?_ (by assumption))
    | dsimp -zeta only
    | (with_reducible apply keeps_upd; with_reducible first | assumption | apply kept_State_setFld | apply kept_setRead
                                                             | apply kept_State_await | apply kept_armAccept)
  all_goals grind [kept_State_setFld, kept_setRead, kept_State_await, kept_armAccept, Keeps, held_rset, held_setAt_cores, held_setAt_lanes, held_filter_regs, held_map_cores, held_map_lanes, held_write1, held_write, held_clear, held_filter_mem, held_out, held_free, held_rbcnt]

theorem kept_execAcqArm (s₀ : State) (msg : Msg) (s : State)  (hk : Keeps s₀ s) : OutKeeps s₀ (execAcqArm msg s) := by
  unfold execAcqArm
  refine outKeeps_next (kept_request s₀ msg armSpec _ s (fun _ p t ht => kept_arm s₀ (leAt p 0 8) (some msg) t ht) (fun c t ht => ?_) hk)
  unfold armSpec
  dsimp only
  split
  · exact ht
  · exact kept_State_setFld s₀ t _ _ ht

theorem kept_ctlArm (s₀ : State) (d : Word) (s : State)  (hk : Keeps s₀ s) : Keeps s₀ (ctlArm d s) := by
  unfold ctlArm
  repeat' first
    | (with_reducible first | assumption | intro _)
    | (extract_lets +onlyGivenNames x
       first
       | (refine keeps_let (s₀ := s₀) (s := x) ?_ ?_ <;> first | (intro hx; clear_value x) | subst x)
       | subst x)
    | split
    | (with_reducible first | apply kept_plainWrite | apply kept_arm | apply kept_State_setFld)

theorem kept_armRetry (s₀ : State) (s : State)  (hk : Keeps s₀ s) : Keeps s₀ (armRetry s) := by
  unfold armRetry
  repeat' first
    | (with_reducible first | assumption | intro _)
    | (extract_lets +onlyGivenNames x
       first
       | (refine keeps_let (s₀ := s₀) (s := x) ?_ ?_ <;> first | (intro hx; clear_value x) | subst x)
       | subst x)
    | split
    | (with_reducible first | apply kept_arm | apply kept_State_setFld | apply kept_State_respond | apply kept_foldl
                            | apply outKeeps_next | exact outKeeps_refused | apply optKeeps_some | exact optKeeps_none
                            | refine keeps_pair ?_ (by assumption) | refine keeps_triple ?_ (by assumption))
    | dsimp -zeta only
    | (with_reducible apply keeps_upd; with_reducible first | assumption | apply kept_arm | apply kept_State_setFld
                                                             | apply kept_State_respond | apply kept_foldl)
  all_goals grind [kept_arm, kept_State_setFld, kept_State_respond, kept_foldl, Keeps, held_rset, held_setAt_cores, held_setAt_lanes, held_filter_regs, held_map_cores, held_map_lanes, held_write1, held_write, held_clear, held_filter_mem, held_out, held_free, held_rbcnt]

theorem kept_execAcqCtlArm (s₀ : State) (m : Nat) (d : Word) (s : State)  (hk : Keeps s₀ s) : OutKeeps s₀ (execAcqCtlArm m d s) := by
  unfold execAcqCtlArm
  repeat' first
    | (with_reducible first | assumption | intro _)
    | split
    | (with_reducible first | apply kept_regWrite | apply kept_ctlArm | apply outKeeps_next | exact outKeeps_refused
                            | apply optKeeps_some | exact optKeeps_none)
    | dsimp -zeta only

end Sys2Proof.Machine
end

