-- ==== Sys2Proof/Laws/KeptCounters.lean ====
section
/-! SUPPORT. Counters: each operation keeps what `Keeps` says. -/
namespace Sys2Proof.Machine

theorem kept_sbFree (s₀ : State) (d : Word) (s : State)  (hk : Keeps s₀ s) : Keeps s₀ (sbFree d s) := by
  unfold sbFree
  repeat' first
    | (with_reducible first | assumption | intro _)
    | split
    | (with_reducible first | apply kept_State_setFlds)

theorem kept_execPmcSbfreeWrite (s₀ : State) (m : Nat) (d : Word) (s : State)  (hk : Keeps s₀ s) : OutKeeps s₀ (execPmcSbfreeWrite m d s) := by
  unfold execPmcSbfreeWrite
  repeat' first
    | (with_reducible first | assumption | intro _)
    | split
    | (with_reducible first | apply kept_regWrite | apply kept_sbFree | apply outKeeps_next | exact outKeeps_refused
                            | apply optKeeps_some | exact optKeeps_none)
    | dsimp -zeta only

theorem kept_sbEnable (s₀ : State) (n : Nat) (d : Word) (s : State)  (hk : Keeps s₀ s) : Keeps s₀ (sbEnable n d s) := by
  unfold sbEnable
  repeat' first
    | (with_reducible first | assumption | intro _)
    | (extract_lets +onlyGivenNames x
       first
       | (refine keeps_let (s₀ := s₀) (s := x) ?_ ?_ <;> first | (intro hx; clear_value x) | subst x)
       | subst x)
    | split
    | (with_reducible first | apply kept_raise | apply kept_State_setFlds)
    | (with_reducible apply keeps_upd; with_reducible first | assumption | apply kept_raise | apply kept_State_setFlds)

theorem kept_execPmcSbenWrite (s₀ : State) (m : Nat) (n : Nat) (d : Word) (s : State)  (hk : Keeps s₀ s) : OutKeeps s₀ (execPmcSbenWrite m n d s) := by
  unfold execPmcSbenWrite
  repeat' first
    | (with_reducible first | assumption | intro _)
    | split
    | (with_reducible first | apply kept_regWrite | apply kept_sbEnable | apply outKeeps_next | exact outKeeps_refused
                            | apply optKeeps_some | exact optKeeps_none)
    | dsimp -zeta only

theorem kept_sample (s₀ : State) (x : Sampled) (s : State)  (hk : Keeps s₀ s) : Keeps s₀ (sample x s) := by
  unfold sample
  repeat' first
    | (with_reducible first | assumption | intro _)
    | (extract_lets +onlyGivenNames x
       first
       | (refine keeps_let (s₀ := s₀) (s := x) ?_ ?_ <;> first | (intro hx; clear_value x) | subst x)
       | subst x)
    | split
    | (with_reducible first | apply kept_State_count | apply kept_State_setReg | apply kept_raiseIf | apply kept_State_setFld
                            | apply kept_foldl)
    | (with_reducible apply keeps_upd; with_reducible first | assumption | apply kept_State_count | apply kept_State_setReg
                                                             | apply kept_raiseIf | apply kept_State_setFld
                                                             | apply kept_foldl)

theorem kept_execSampleRecord (s₀ : State) (x : Sampled) (s : State)  (hk : Keeps s₀ s) : OutKeeps s₀ (execSampleRecord x s) := by
  unfold execSampleRecord
  repeat' first
    | (with_reducible first | assumption | intro _)
    | split
    | (with_reducible first | apply kept_sample | apply outKeeps_next | exact outKeeps_refused | apply optKeeps_some
                            | exact optKeeps_none)
    | dsimp -zeta only

theorem kept_dumpSkip (s₀ : State) (s : State)  (hk : Keeps s₀ s) : Keeps s₀ (dumpSkip s) := by
  unfold dumpSkip
  repeat' first
    | (with_reducible first | assumption | intro _)
    | split
    | (with_reducible first | apply kept_raise | apply kept_State_count)
    | (with_reducible apply keeps_upd; with_reducible first | assumption | apply kept_raise | apply kept_State_count)

theorem kept_dumpTake (s₀ : State) (s : State)  (hk : Keeps s₀ s) : Keeps s₀ (dumpTake s) := by
  unfold dumpTake
  repeat' first
    | (with_reducible first | assumption | intro _)
    | split
    | (with_reducible first | apply kept_dumpSkip)
    | (with_reducible apply keeps_upd; with_reducible first | assumption | apply kept_dumpSkip)

theorem kept_dctlWrite (s₀ : State) (d : Word) (s : State)  (hk : Keeps s₀ s) : Keeps s₀ (dctlWrite d s) := by
  unfold dctlWrite
  repeat' first
    | (with_reducible first | assumption | intro _)
    | split
    | (with_reducible first | apply kept_plainWrite | apply kept_dumpTake)

theorem kept_execDumpNow (s₀ : State) (m : Nat) (d : Word) (s : State)  (hk : Keeps s₀ s) : OutKeeps s₀ (execDumpNow m d s) := by
  unfold execDumpNow
  repeat' first
    | (with_reducible first | assumption | intro _)
    | split
    | (with_reducible first | apply kept_regWrite | apply kept_dctlWrite | apply outKeeps_next | exact outKeeps_refused
                            | apply optKeeps_some | exact optKeeps_none)
    | dsimp -zeta only

theorem kept_execDumpDue (s₀ : State) (s : State)  (hk : Keeps s₀ s) : OutKeeps s₀ (execDumpDue s) := by
  unfold execDumpDue
  repeat' first
    | (with_reducible first | assumption | intro _)
    | split
    | (with_reducible first | apply kept_dumpTake | apply outKeeps_next | exact outKeeps_refused | apply optKeeps_some
                            | exact optKeeps_none)
    | dsimp -zeta only

end Sys2Proof.Machine
end

