-- ==== Sys2Proof/Laws/KeptTime.lean ====
section
/-! SUPPORT. Time: each operation keeps what `Keeps` says. -/
namespace Sys2Proof.Machine

theorem kept_State_setWall (s₀ : State) (s : State) (w : Int)  (hk : Keeps s₀ s) : Keeps s₀ (State.setWall s w) := by
  unfold State.setWall
  repeat' first
    | (with_reducible first | assumption | intro _)
    | split
    | (with_reducible apply keeps_upd; with_reducible first | assumption)

theorem kept_firstLock (s₀ : State) (s : State)  (hk : Keeps s₀ s) : Keeps s₀ (firstLock s) := by
  unfold firstLock
  repeat' first
    | (with_reducible first | assumption | intro _)
    | split
    | (with_reducible first | apply kept_raise | apply kept_State_setFld)

theorem kept_offset (s₀ : State) (from_ : Nat) (o : Int) (s : State)  (hk : Keeps s₀ s) : Keeps s₀ (offset from_ o s) := by
  unfold offset
  repeat' first
    | (with_reducible first | assumption | intro _)
    | (extract_lets +onlyGivenNames x
       first
       | (refine keeps_let (s₀ := s₀) (s := x) ?_ ?_ <;> first | (intro hx; clear_value x) | subst x)
       | subst x)
    | split
    | (with_reducible first | apply kept_State_setFlds | apply kept_raise | apply kept_State_setFld | apply kept_firstLock
                            | apply kept_State_setWall | apply kept_updateUncert)
    | (with_reducible apply keeps_upd; with_reducible first | assumption | apply kept_State_setFlds | apply kept_raise
                                                             | apply kept_State_setFld | apply kept_firstLock
                                                             | apply kept_State_setWall | apply kept_updateUncert)

theorem kept_timeSyncSend (s₀ : State) (s : State)  (hk : Keeps s₀ s) : Keeps s₀ (timeSyncSend s) := by
  unfold timeSyncSend
  repeat' first
    | (with_reducible first | assumption | intro _)
    | split
    | (with_reducible first | apply kept_State_setLane | apply kept_foldl)

theorem kept_execTimeSyncSend (s₀ : State) (s : State)  (hk : Keeps s₀ s) : OutKeeps s₀ (execTimeSyncSend s) := by
  unfold execTimeSyncSend
  repeat' first
    | (with_reducible first | assumption | intro _)
    | split
    | (with_reducible first | apply kept_timeSyncSend | apply outKeeps_next | exact outKeeps_refused | apply optKeeps_some
                            | exact optKeeps_none)
    | dsimp -zeta only

theorem kept_timeFollow (s₀ : State) (port : Nat) (f : FollowWord) (s : State)  (hk : Keeps s₀ s) : Keeps s₀ (timeFollow port f s) := by
  unfold timeFollow
  repeat' first
    | (with_reducible first | assumption | intro _)
    | split
    | (with_reducible first | apply kept_updateUncert | apply kept_offset)
    | (with_reducible apply keeps_upd; with_reducible first | assumption | apply kept_updateUncert | apply kept_offset)

theorem kept_execTimeFollow (s₀ : State) (port : Nat) (f : FollowWord) (s : State)  (hk : Keeps s₀ s) : OutKeeps s₀ (execTimeFollow port f s) := by
  unfold execTimeFollow
  repeat' first
    | (with_reducible first | assumption | intro _)
    | split
    | (with_reducible first | apply kept_timeFollow | apply outKeeps_next | exact outKeeps_refused | apply optKeeps_some
                            | exact optKeeps_none)
    | dsimp -zeta only

theorem kept_pathDelay (s₀ : State) (v : Int) (s : State)  (hk : Keeps s₀ s) : Keeps s₀ (pathDelay v s) := by
  unfold pathDelay
  repeat' first
    | (with_reducible first | assumption | intro _)
    | split
    | (with_reducible first | apply kept_updateUncert)
    | (with_reducible apply keeps_upd; with_reducible first | assumption | apply kept_updateUncert)

theorem kept_ptpMessage (s₀ : State) (h : Nat) (p : PtpMsg) (s : State)  (hk : Keeps s₀ s) : Keeps s₀ (ptpMessage h p s) := by
  unfold ptpMessage
  repeat' first
    | (with_reducible first | assumption | intro _)
    | (extract_lets +onlyGivenNames x
       first
       | (refine keeps_let (s₀ := s₀) (s := x) ?_ ?_ <;> first | (intro hx; clear_value x) | subst x)
       | subst x)
    | split
    | (with_reducible first | apply kept_selectSource | apply kept_offset | apply kept_pathDelay | apply outKeeps_next
                            | exact outKeeps_refused | apply optKeeps_some | exact optKeeps_none)
    | dsimp -zeta only
    | (with_reducible apply keeps_upd; with_reducible first | assumption | apply kept_selectSource | apply kept_offset
                                                             | apply kept_pathDelay)
  all_goals grind [kept_selectSource, kept_offset, kept_pathDelay, Keeps, held_rset, held_setAt_cores, held_setAt_lanes, held_filter_regs, held_map_cores, held_map_lanes, held_write1, held_write, held_clear, held_filter_mem, held_out, held_free, held_rbcnt]

theorem kept_execPtpMessage (s₀ : State) (hport : Nat) (p : PtpMsg) (s : State)  (hk : Keeps s₀ s) : OutKeeps s₀ (execPtpMessage hport p s) := by
  unfold execPtpMessage
  repeat' first
    | (with_reducible first | assumption | intro _)
    | split
    | (with_reducible first | apply kept_ptpMessage | apply outKeeps_next | exact outKeeps_refused | apply optKeeps_some
                            | exact optKeeps_none)
    | dsimp -zeta only

theorem kept_ptpDelayReq (s₀ : State) (h : Nat) (s : State)  (hk : Keeps s₀ s) : Keeps s₀ (ptpDelayReq h s) := by
  unfold ptpDelayReq
  repeat' first
    | (with_reducible first | assumption | intro _)
    | split
    | (with_reducible apply keeps_upd; with_reducible first | assumption)

theorem kept_execPtpDelayReq (s₀ : State) (hport : Nat) (s : State)  (hk : Keeps s₀ s) : OutKeeps s₀ (execPtpDelayReq hport s) := by
  unfold execPtpDelayReq
  repeat' first
    | (with_reducible first | assumption | intro _)
    | split
    | (with_reducible first | apply kept_ptpDelayReq | apply outKeeps_next | exact outKeeps_refused | apply optKeeps_some
                            | exact optKeeps_none)
    | dsimp -zeta only

theorem kept_holdover (s₀ : State) (s : State)  (hk : Keeps s₀ s) : Keeps s₀ (holdover s) := by
  unfold holdover
  repeat' first
    | (with_reducible first | assumption | intro _)
    | (extract_lets +onlyGivenNames x
       first
       | (refine keeps_let (s₀ := s₀) (s := x) ?_ ?_ <;> first | (intro hx; clear_value x) | subst x)
       | subst x)
    | split
    | (with_reducible first | apply kept_selectSource | apply kept_raise | apply kept_State_setFld | apply outKeeps_next
                            | exact outKeeps_refused | apply optKeeps_some | exact optKeeps_none)
    | dsimp -zeta only
    | (with_reducible apply keeps_upd; with_reducible first | assumption | apply kept_selectSource | apply kept_raise
                                                             | apply kept_State_setFld)
  all_goals grind [kept_selectSource, kept_raise, kept_State_setFld, Keeps, held_rset, held_setAt_cores, held_setAt_lanes, held_filter_regs, held_map_cores, held_map_lanes, held_write1, held_write, held_clear, held_filter_mem, held_out, held_free, held_rbcnt]

theorem kept_execTimHoldover (s₀ : State) (s : State)  (hk : Keeps s₀ s) : OutKeeps s₀ (execTimHoldover s) := by
  unfold execTimHoldover
  repeat' first
    | (with_reducible first | assumption | intro _)
    | split
    | (with_reducible first | apply kept_holdover | apply outKeeps_next | exact outKeeps_refused | apply optKeeps_some
                            | exact optKeeps_none)
    | dsimp -zeta only

theorem kept_timeSet (s₀ : State) (sec : Nat) (ns : Nat) (s : State)  (hk : Keeps s₀ s) : Keeps s₀ (timeSet sec ns s).2 := by
  unfold timeSet
  repeat' first
    | (with_reducible first | assumption | intro _)
    | (extract_lets +onlyGivenNames x
       first
       | (refine keeps_let (s₀ := s₀) (s := x) ?_ ?_ <;> first | (intro hx; clear_value x) | subst x)
       | subst x)
    | split
    | (with_reducible first | apply kept_State_setFld | apply kept_State_setWall | apply kept_updateUncert
                            | apply kept_firstLock)

theorem kept_execTimSet (s₀ : State) (msg : Msg) (s : State)  (hk : Keeps s₀ s) : OutKeeps s₀ (execTimSet msg s) := by
  unfold execTimSet
  repeat' first
    | (with_reducible first | assumption | intro _)
    | split
    | (with_reducible first | apply kept_request | apply kept_timeSet | apply outKeeps_next | exact outKeeps_refused
                            | apply optKeeps_some | exact optKeeps_none | refine keeps_pair ?_ (by assumption)
                            | refine keeps_triple ?_ (by assumption))
    | dsimp -zeta only

theorem kept_timCtlWrite (s₀ : State) (d : Word) (s : State)  (hk : Keeps s₀ s) : Keeps s₀ (timCtlWrite d s) := by
  unfold timCtlWrite
  repeat' first
    | (with_reducible first | assumption | intro _)
    | (extract_lets +onlyGivenNames x
       first
       | (refine keeps_let (s₀ := s₀) (s := x) ?_ ?_ <;> first | (intro hx; clear_value x) | subst x)
       | subst x)
    | split
    | (with_reducible first | apply kept_selectSource | apply kept_plainWrite | apply kept_timeSet | apply outKeeps_next
                            | exact outKeeps_refused | apply optKeeps_some | exact optKeeps_none
                            | refine keeps_pair ?_ (by assumption) | refine keeps_triple ?_ (by assumption))
    | dsimp -zeta only
    | (with_reducible apply keeps_upd; with_reducible first | assumption | apply kept_selectSource | apply kept_plainWrite
                                                             | apply kept_timeSet)
  all_goals grind [kept_selectSource, kept_plainWrite, kept_timeSet, Keeps, held_rset, held_setAt_cores, held_setAt_lanes, held_filter_regs, held_map_cores, held_map_lanes, held_write1, held_write, held_clear, held_filter_mem, held_out, held_free, held_rbcnt]

theorem kept_execTimCtlSet (s₀ : State) (m : Nat) (d : Word) (s : State)  (hk : Keeps s₀ s) : OutKeeps s₀ (execTimCtlSet m d s) := by
  unfold execTimCtlSet
  repeat' first
    | (with_reducible first | assumption | intro _)
    | split
    | (with_reducible first | apply kept_regWrite | apply kept_timCtlWrite | apply outKeeps_next | exact outKeeps_refused
                            | apply optKeeps_some | exact optKeeps_none)
    | dsimp -zeta only

theorem kept_execTimQuery (s₀ : State) (msg : Msg) (s : State)  (hk : Keeps s₀ s) : OutKeeps s₀ (execTimQuery msg s) := by
  unfold execTimQuery
  repeat' first
    | (with_reducible first | assumption | intro _)
    | split
    | (with_reducible first | apply kept_request | apply outKeeps_next | exact outKeeps_refused | apply optKeeps_some
                            | exact optKeeps_none)
    | dsimp -zeta only

end Sys2Proof.Machine
end

