-- ==== Sys2Proof/Laws/KeptBus.lean ====
section
/-! SUPPORT. Bus: each operation keeps what `Keeps` says. -/
namespace Sys2Proof.Machine

theorem kept_firstOf_nil (s₀ d : State) (hk : Keeps s₀ d) : Keeps s₀ (firstOf [] d) := hk

theorem kept_firstOf_cons (s₀ : State) (o : Option State) (l : List (Option State)) (d : State) (ho : OptKeeps s₀ o)
    (hl : Keeps s₀ (firstOf l d)) : Keeps s₀ (firstOf (o :: l) d) := by
  cases o with
  | none => exact hl
  | some t => exact ho t rfl

theorem kept_mbSend (s₀ : State) (n : Nat) (d : Word) (s : State)  (hk : Keeps s₀ s) : Keeps s₀ (mbSend n d s) := by
  unfold mbSend
  repeat' first
    | (with_reducible first | assumption | intro _)
    | (extract_lets +onlyGivenNames x
       first
       | (refine keeps_let (s₀ := s₀) (s := x) ?_ ?_ <;> first | (intro hx; clear_value x) | subst x)
       | subst x)
    | split
    | (with_reducible first | apply kept_State_setFld)
    | (with_reducible apply keeps_upd; with_reducible first | assumption | apply kept_State_setFld)

theorem kept_writeReg (s₀ : State) (m : Nat) (a : Nat) (d : Word) (s : State)  (hk : Keeps s₀ s) : Keeps s₀ (writeReg m a d s) := by
  unfold writeReg
  repeat' first
    | (with_reducible first | assumption | intro _)
    | (extract_lets +onlyGivenNames x
       first
       | (refine keeps_let (s₀ := s₀) (s := x) ?_ ?_ <;> first | (intro hx; clear_value x) | subst x)
       | subst x)
    | split
    | (with_reducible first | apply kept_plainWrite | apply kept_sfbClkWrite | apply kept_holdReqWrite | apply kept_thrWrite
                            | apply kept_snapRequest | apply kept_ctlArm | apply kept_ctlStop | apply kept_alignWrite
                            | apply kept_autoForm | apply kept_lnkCtlWrite | apply kept_eyeStart | apply kept_lgeCtlWrite
                            | apply kept_timCtlWrite | apply kept_relWrite | apply kept_tccWrite | apply kept_wdctl
                            | apply kept_kick | apply kept_modeWrite | apply kept_tskTake | apply kept_psubWrite
                            | apply kept_fsetWrite | apply kept_fclrWrite | apply kept_entryWrite | apply kept_indexWrite
                            | apply kept_rlockWrite | apply kept_camWrite | apply kept_bpwrWrite | apply kept_mctlWrite
                            | apply kept_fenceWrite | apply kept_rcfgWrite | apply kept_rtWrite | apply kept_mbSend
                            | apply kept_msgWrite | apply kept_outWrite | apply kept_srcWrite | apply kept_gctlWrite
                            | apply kept_sbFree | apply kept_dctlWrite | apply kept_sbEnable | apply kept_bankWrite
                            | apply kept_cellWrite | apply kept_safeReqWrite | apply kept_bootWrite | apply kept_testRaise
                            | apply outKeeps_next | exact outKeeps_refused | apply optKeeps_some | exact optKeeps_none
                            | apply optKeeps_map | apply kept_firstOf_cons | apply kept_firstOf_nil | apply optKeeps_map)
    | dsimp -zeta only
    | (with_reducible apply keeps_upd; with_reducible first | assumption | apply kept_plainWrite | apply kept_sfbClkWrite
                                                             | apply kept_holdReqWrite | apply kept_thrWrite
                                                             | apply kept_snapRequest | apply kept_ctlArm
                                                             | apply kept_ctlStop | apply kept_alignWrite
                                                             | apply kept_autoForm | apply kept_lnkCtlWrite
                                                             | apply kept_eyeStart | apply kept_lgeCtlWrite
                                                             | apply kept_timCtlWrite | apply kept_relWrite
                                                             | apply kept_tccWrite | apply kept_wdctl | apply kept_kick
                                                             | apply kept_modeWrite | apply kept_tskTake
                                                             | apply kept_psubWrite | apply kept_fsetWrite
                                                             | apply kept_fclrWrite | apply kept_entryWrite
                                                             | apply kept_indexWrite | apply kept_rlockWrite
                                                             | apply kept_camWrite | apply kept_bpwrWrite
                                                             | apply kept_mctlWrite | apply kept_fenceWrite
                                                             | apply kept_rcfgWrite | apply kept_rtWrite | apply kept_mbSend
                                                             | apply kept_msgWrite | apply kept_outWrite
                                                             | apply kept_srcWrite | apply kept_gctlWrite
                                                             | apply kept_sbFree | apply kept_dctlWrite
                                                             | apply kept_sbEnable | apply kept_bankWrite
                                                             | apply kept_cellWrite | apply kept_safeReqWrite
                                                             | apply kept_bootWrite | apply kept_testRaise
                                                             | apply kept_firstOf_cons | apply kept_firstOf_nil)
  all_goals grind [kept_plainWrite, kept_sfbClkWrite, kept_holdReqWrite, kept_thrWrite, kept_snapRequest, kept_ctlArm, kept_ctlStop, kept_alignWrite, kept_autoForm, kept_lnkCtlWrite, kept_eyeStart, kept_lgeCtlWrite, kept_timCtlWrite, kept_relWrite, kept_tccWrite, kept_wdctl, kept_kick, kept_modeWrite, kept_tskTake, kept_psubWrite, kept_fsetWrite, kept_fclrWrite, kept_entryWrite, kept_indexWrite, kept_rlockWrite, kept_camWrite, kept_bpwrWrite, kept_mctlWrite, kept_fenceWrite, kept_rcfgWrite, kept_rtWrite, kept_mbSend, kept_msgWrite, kept_outWrite, kept_srcWrite, kept_gctlWrite, kept_sbFree, kept_dctlWrite, kept_sbEnable, kept_bankWrite, kept_cellWrite, kept_safeReqWrite, kept_bootWrite, kept_testRaise, Keeps, held_rset, held_setAt_cores, held_setAt_lanes, held_filter_regs, held_map_cores, held_map_lanes, held_write1, held_write, held_clear, held_filter_mem, held_out, held_free, held_rbcnt]

theorem kept_regAccess (s₀ : State) (m : Nat) (a : Nat) (n : Nat) (wr : Bool) (d : List Byte) (s : State)  (hk : Keeps s₀ s) : Keeps s₀ (regAccess m a n wr d s).2.2 := by
  unfold regAccess
  repeat' first
    | (with_reducible first | assumption | intro _)
    | split
    | (with_reducible first | apply kept_regFetch | apply kept_writeReg)

theorem kept_serve (s₀ : State) (m : Nat) (a : Nat) (n : Nat) (wr : Bool) (d : List Byte) (e : List (Ecc × Ecc)) (s : State)  (hk : Keeps s₀ s) : Keeps s₀ (serve m a n wr d e s).2.2 := by
  unfold serve
  repeat' first
    | (with_reducible first | assumption | intro _)
    | split
    | (with_reducible first | apply kept_regAccess | apply kept_bankAccess | apply kept_aliasAccess | apply kept_ramAccess
                            | apply kept_dieAccessNoc | apply kept_hbmAccess | apply kept_windowAccess)

theorem kept_busAccess (s₀ : State) (m : Nat) (a : Nat) (n : Nat) (wr : Bool) (d : List Byte) (e : List (Ecc × Ecc)) (s : State)  (hk : Keeps s₀ s) : Keeps s₀ (busAccess m a n wr d e s) := by
  unfold busAccess
  repeat' first
    | (with_reducible first | assumption | intro _)
    | (extract_lets +onlyGivenNames x
       first
       | (refine keeps_let (s₀ := s₀) (s := x) ?_ ?_ <;> first | (intro hx; clear_value x) | subst x)
       | subst x)
    | split
    | (with_reducible first | apply kept_State_answer | apply kept_netStop | apply kept_State_fly | apply kept_serve
                            | apply outKeeps_next | exact outKeeps_refused | apply optKeeps_some | exact optKeeps_none
                            | refine keeps_opt ?_ (by assumption) | refine keeps_pair ?_ (by assumption)
                            | refine keeps_triple ?_ (by assumption))
    | dsimp -zeta only
    | (with_reducible apply keeps_upd; with_reducible first | assumption | apply kept_State_answer | apply kept_netStop
                                                             | apply kept_State_fly | apply kept_serve)
  all_goals grind [kept_State_answer, kept_netStop, kept_State_fly, kept_serve, Keeps, held_rset, held_setAt_cores, held_setAt_lanes, held_filter_regs, held_map_cores, held_map_lanes, held_write1, held_write, held_clear, held_filter_mem, held_out, held_free, held_rbcnt]

theorem kept_coreAccess (s₀ : State) (m : Nat) (a : Nat) (n : Nat) (wr : Bool) (d : List Byte) (s : State)  (hk : Keeps s₀ s) : GotKeeps s₀ (coreAccess m a n wr d s) := by
  unfold coreAccess
  repeat' first
    | (with_reducible first | assumption | intro _)
    | (extract_lets +onlyGivenNames x
       first
       | (refine keeps_let (s₀ := s₀) (s := x) ?_ ?_ <;> first | (intro hx; clear_value x) | subst x)
       | subst x)
    | split
    | (with_reducible first | apply kept_coreVia | apply kept_serve | apply outKeeps_next | exact outKeeps_refused
                            | apply optKeeps_some | exact optKeeps_none | apply gotKeeps_ans | exact gotKeeps_wait
                            | refine keeps_ans ?_ (by assumption) | refine keeps_pair ?_ (by assumption)
                            | refine keeps_triple ?_ (by assumption))
    | dsimp -zeta only
    | (with_reducible apply keeps_upd; with_reducible first | assumption | apply kept_coreVia | apply kept_serve)
  all_goals grind [kept_coreVia, kept_serve, Keeps, held_rset, held_setAt_cores, held_setAt_lanes, held_filter_regs, held_map_cores, held_map_lanes, held_write1, held_write, held_clear, held_filter_mem, held_out, held_free, held_rbcnt]

theorem kept_execRegisterWrite (s₀ : State) (m : Nat) (addr : Nat) (size : Nat) (d : Word) (s : State)  (hk : Keeps s₀ s) : OutKeeps s₀ (execRegisterWrite m addr size d s) := by
  unfold execRegisterWrite
  repeat' first
    | (with_reducible first | assumption | intro _)
    | split
    | (with_reducible first | apply kept_busAccess | apply outKeeps_next | exact outKeeps_refused | apply optKeeps_some
                            | exact optKeeps_none)
    | dsimp -zeta only

theorem kept_execRegisterRcRead (s₀ : State) (m : Nat) (addr : Nat) (size : Nat) (s : State)  (hk : Keeps s₀ s) : OutKeeps s₀ (execRegisterRcRead m addr size s) := by
  unfold execRegisterRcRead
  repeat' first
    | (with_reducible first | assumption | intro _)
    | split
    | (with_reducible first | apply kept_busAccess | apply outKeeps_next | exact outKeeps_refused | apply optKeeps_some
                            | exact optKeeps_none)
    | dsimp -zeta only

theorem kept_request_ (s₀ : State) (r : Req) (lo : Nat) (hi : Nat) (e : List (Ecc × Ecc)) (s : State)  (hk : Keeps s₀ s) : Keeps s₀ (request_ r lo hi e s) := by
  unfold request_
  repeat' first
    | (with_reducible first | assumption | intro _)
    | split
    | (with_reducible first | apply kept_busAccess)

theorem kept_execLocalBankAccess (s₀ : State) (r : Req) (s : State)  (hk : Keeps s₀ s) : OutKeeps s₀ (execLocalBankAccess r s) := by
  unfold execLocalBankAccess
  repeat' first
    | (with_reducible first | assumption | intro _)
    | split
    | (with_reducible first | apply kept_request_ | apply outKeeps_next | exact outKeeps_refused | apply optKeeps_some
                            | exact optKeeps_none)
    | dsimp -zeta only

theorem kept_execBitSetAlias (s₀ : State) (m : Nat) (x : Nat) (d : Word) (s : State)  (hk : Keeps s₀ s) : OutKeeps s₀ (execBitSetAlias m x d s) := by
  unfold execBitSetAlias
  repeat' first
    | (with_reducible first | assumption | intro _)
    | split
    | (with_reducible first | apply kept_busAccess | apply outKeeps_next | exact outKeeps_refused | apply optKeeps_some
                            | exact optKeeps_none)
    | dsimp -zeta only

theorem kept_execBitClearAlias (s₀ : State) (m : Nat) (x : Nat) (d : Word) (s : State)  (hk : Keeps s₀ s) : OutKeeps s₀ (execBitClearAlias m x d s) := by
  unfold execBitClearAlias
  repeat' first
    | (with_reducible first | assumption | intro _)
    | split
    | (with_reducible first | apply kept_busAccess | apply outKeeps_next | exact outKeeps_refused | apply optKeeps_some
                            | exact optKeeps_none)
    | dsimp -zeta only

theorem kept_execCoreDieWindowAccess (s₀ : State) (r : Req) (s : State)  (hk : Keeps s₀ s) : OutKeeps s₀ (execCoreDieWindowAccess r s) := by
  unfold execCoreDieWindowAccess
  repeat' first
    | (with_reducible first | assumption | intro _)
    | split
    | (with_reducible first | apply kept_request_ | apply outKeeps_next | exact outKeeps_refused | apply optKeeps_some
                            | exact optKeeps_none)
    | dsimp -zeta only

theorem kept_execHbmNocAccess (s₀ : State) (r : Req) (first : Ecc) (second : Ecc) (s : State)  (hk : Keeps s₀ s) : OutKeeps s₀ (execHbmNocAccess r first second s) := by
  unfold execHbmNocAccess
  repeat' first
    | (with_reducible first | assumption | intro _)
    | split
    | (with_reducible first | apply kept_request_ | apply outKeeps_next | exact outKeeps_refused | apply optKeeps_some
                            | exact optKeeps_none)
    | dsimp -zeta only

theorem kept_execPinImageRead (s₀ : State) (r : Req) (s : State)  (hk : Keeps s₀ s) : OutKeeps s₀ (execPinImageRead r s) := by
  unfold execPinImageRead
  repeat' first
    | (with_reducible first | assumption | intro _)
    | split
    | (with_reducible first | apply kept_request_ | apply outKeeps_next | exact outKeeps_refused | apply optKeeps_some
                            | exact optKeeps_none)
    | dsimp -zeta only

theorem kept_execMbxDoorWrite (s₀ : State) (m : Nat) (d : Word) (s : State)  (hk : Keeps s₀ s) : OutKeeps s₀ (execMbxDoorWrite m d s) := by
  unfold execMbxDoorWrite
  repeat' first
    | (with_reducible first | assumption | intro _)
    | split
    | (with_reducible first | apply kept_busAccess | apply outKeeps_next | exact outKeeps_refused | apply optKeeps_some
                            | exact optKeeps_none)
    | dsimp -zeta only

theorem kept_nocResponse (s₀ : State) (k : Nat) (s : State)  (hk : Keeps s₀ s) : Keeps s₀ (nocResponse k s) := by
  unfold nocResponse
  repeat' first
    | (with_reducible first | assumption | intro _)
    | split
    | (with_reducible first | apply kept_State_count)
    | (with_reducible apply keeps_upd; with_reducible first | assumption | apply kept_State_count)

theorem kept_execNocResponse (s₀ : State) (k : Nat) (s : State)  (hk : Keeps s₀ s) : OutKeeps s₀ (execNocResponse k s) := by
  unfold execNocResponse
  repeat' first
    | (with_reducible first | assumption | intro _)
    | split
    | (with_reducible first | apply kept_nocResponse | apply outKeeps_next | exact outKeeps_refused | apply optKeeps_some
                            | exact optKeeps_none)
    | dsimp -zeta only

theorem kept_nocTimeout (s₀ : State) (k : Nat) (s : State)  (hk : Keeps s₀ s) : Keeps s₀ (nocTimeout k s) := by
  unfold nocTimeout
  repeat' first
    | (with_reducible first | assumption | intro _)
    | split
    | (with_reducible first | apply kept_armRetry | apply kept_timedOut)
    | (with_reducible apply keeps_upd; with_reducible first | assumption | apply kept_armRetry | apply kept_timedOut)

theorem kept_execNocTimeout (s₀ : State) (k : Nat) (s : State)  (hk : Keeps s₀ s) : OutKeeps s₀ (execNocTimeout k s) := by
  unfold execNocTimeout
  repeat' first
    | (with_reducible first | assumption | intro _)
    | split
    | (with_reducible first | apply kept_nocTimeout | apply outKeeps_next | exact outKeeps_refused | apply optKeeps_some
                            | exact optKeeps_none)
    | dsimp -zeta only

theorem kept_serveLate (s₀ : State) (f : Flight) (d : List Byte) (s : State)  (hk : Keeps s₀ s) : Keeps s₀ (serveLate f d s) := by
  unfold serveLate
  repeat' first
    | (with_reducible first | assumption | intro _)
    | (extract_lets +onlyGivenNames x
       first
       | (refine keeps_let (s₀ := s₀) (s := x) ?_ ?_ <;> first | (intro hx; clear_value x) | subst x)
       | subst x)
    | split
    | (with_reducible first | apply kept_serve | apply kept_State_answer | apply outKeeps_next | exact outKeeps_refused
                            | apply optKeeps_some | exact optKeeps_none | refine keeps_pair ?_ (by assumption)
                            | refine keeps_triple ?_ (by assumption))
    | dsimp -zeta only
    | (with_reducible apply keeps_upd; with_reducible first | assumption | apply kept_serve | apply kept_State_answer)
  all_goals grind [kept_serve, kept_State_answer, Keeps, held_rset, held_setAt_cores, held_setAt_lanes, held_filter_regs, held_map_cores, held_map_lanes, held_write1, held_write, held_clear, held_filter_mem, held_out, held_free, held_rbcnt]

theorem kept_arriveLate (s₀ : State) (s : State) (f : Flight)  (hk : Keeps s₀ s) : Keeps s₀ (arriveLate s f) := by
  unfold arriveLate
  repeat' first
    | (with_reducible first | assumption | intro _)
    | split
    | (with_reducible first | apply kept_State_fly | apply kept_State_answer | apply kept_serveLate)

theorem kept_routerReady (s₀ : State) (r : Nat) (s : State)  (hk : Keeps s₀ s) : Keeps s₀ (routerReady r s) := by
  unfold routerReady
  repeat' first
    | (with_reducible first | assumption | intro _)
    | split
    | (with_reducible first | apply kept_State_setFld | apply kept_armRetry | apply kept_arriveLate | apply kept_foldl)
    | (with_reducible apply keeps_upd; with_reducible first | assumption | apply kept_State_setFld | apply kept_armRetry
                                                             | apply kept_arriveLate | apply kept_foldl)

theorem kept_execRouterReady (s₀ : State) (r : Nat) (s : State)  (hk : Keeps s₀ s) : OutKeeps s₀ (execRouterReady r s) := by
  unfold execRouterReady
  repeat' first
    | (with_reducible first | assumption | intro _)
    | split
    | (with_reducible first | apply kept_routerReady | apply outKeeps_next | exact outKeeps_refused | apply optKeeps_some
                            | exact optKeeps_none)
    | dsimp -zeta only

theorem kept_chunkBorrow (s₀ : State) (b : Nat) (fails : List Nat) (s : State)  (hk : Keeps s₀ s) : Keeps s₀ (chunkBorrow b fails s) := by
  unfold chunkBorrow
  repeat' first
    | (with_reducible first | assumption | intro _)
    | (extract_lets +onlyGivenNames x
       first
       | (refine keeps_let (s₀ := s₀) (s := x) ?_ ?_ <;> first | (intro hx; clear_value x) | subst x)
       | subst x)
    | split
    | (with_reducible first | apply kept_State_setMarch | apply kept_marchFails | apply kept_armRetry | apply kept_serveLate
                            | apply kept_foldl | apply outKeeps_next | exact outKeeps_refused | apply optKeeps_some
                            | exact optKeeps_none | apply keeps_getD)
    | dsimp -zeta only
    | (with_reducible apply keeps_upd; with_reducible first | assumption | apply kept_State_setMarch | apply kept_marchFails
                                                             | apply kept_armRetry | apply kept_serveLate | apply kept_foldl)
  all_goals grind [kept_State_setMarch, kept_marchFails, kept_armRetry, kept_serveLate, kept_foldl, Keeps, held_rset, held_setAt_cores, held_setAt_lanes, held_filter_regs, held_map_cores, held_map_lanes, held_write1, held_write, held_clear, held_filter_mem, held_out, held_free, held_rbcnt]

theorem kept_execMarchChunkBorrow (s₀ : State) (b : Nat) (fails : List Nat) (s : State)  (hk : Keeps s₀ s) : OutKeeps s₀ (execMarchChunkBorrow b fails s) := by
  unfold execMarchChunkBorrow
  repeat' first
    | (with_reducible first | assumption | intro _)
    | split
    | (with_reducible first | apply kept_chunkBorrow | apply outKeeps_next | exact outKeeps_refused | apply optKeeps_some
                            | exact optKeeps_none)
    | dsimp -zeta only

theorem kept_dumpWrite (s₀ : State) (a : Nat) (a0 : List (Nat × List Byte)) (a1 : State)  (hk : Keeps s₀ a1) : ExcKeeps2 s₀ (dumpWrite a a0 a1) := by
  induction a0 generalizing a1 with
  | nil =>
    unfold dumpWrite
    repeat' first
      | (with_reducible first | assumption | intro _)
      | split
      | (with_reducible first | apply kept_coreAccess | apply outKeeps_next | exact outKeeps_refused | apply optKeeps_some
                              | exact optKeeps_none | apply excKeeps2_ok | exact excKeeps2_error
                              | refine keeps_ans ?_ (by assumption) | refine keeps_pair ?_ (by assumption)
                              | refine keeps_triple ?_ (by assumption))
      | dsimp -zeta only
  | cons y r ih =>
    unfold dumpWrite
    repeat' first
      | (with_reducible first | assumption | intro _)
      | with_reducible apply ih
      | split
      | (with_reducible first | apply kept_coreAccess | apply outKeeps_next | exact outKeeps_refused | apply optKeeps_some
                              | exact optKeeps_none | apply excKeeps2_ok | exact excKeeps2_error
                              | refine keeps_ans ?_ (by assumption) | refine keeps_pair ?_ (by assumption)
                              | refine keeps_triple ?_ (by assumption))
      | dsimp -zeta only

theorem kept_dumpComplete (s₀ : State) (s : State)  (hk : Keeps s₀ s) : Keeps s₀ (dumpComplete s) := by
  unfold dumpComplete
  repeat' first
    | (with_reducible first | assumption | intro _)
    | (extract_lets +onlyGivenNames x
       first
       | (refine keeps_let (s₀ := s₀) (s := x) ?_ ?_ <;> first | (intro hx; clear_value x) | subst x)
       | subst x)
    | split
    | (with_reducible first | apply kept_dumpWrite | apply kept_State_await | apply kept_raise | apply kept_State_setReg
                            | apply kept_dumpSkip | apply outKeeps_next | exact outKeeps_refused | apply optKeeps_some
                            | exact optKeeps_none | refine keeps_ok ?_ (by assumption) | refine keeps_ok2 ?_ (by assumption)
                            | refine keeps_ok2' ?_ (by assumption) | refine keeps_pair ?_ (by assumption)
                            | refine keeps_triple ?_ (by assumption))
    | dsimp -zeta only
    | (with_reducible apply keeps_upd; with_reducible first | assumption | apply kept_dumpWrite | apply kept_State_await
                                                             | apply kept_raise | apply kept_State_setReg
                                                             | apply kept_dumpSkip | apply outKeeps_next
                                                             | exact outKeeps_refused | apply optKeeps_some
                                                             | exact optKeeps_none | refine keeps_ok ?_ (by assumption)
                                                             | refine keeps_ok2 ?_ (by assumption)
                                                             | refine keeps_ok2' ?_ (by assumption)
                                                             | refine keeps_pair ?_ (by assumption)
                                                             | refine keeps_triple ?_ (by assumption))

theorem kept_execDumpComplete (s₀ : State) (s : State)  (hk : Keeps s₀ s) : OutKeeps s₀ (execDumpComplete s) := by
  unfold execDumpComplete
  repeat' first
    | (with_reducible first | assumption | intro _)
    | split
    | (with_reducible first | apply kept_dumpComplete | apply outKeeps_next | exact outKeeps_refused | apply optKeeps_some
                            | exact optKeeps_none)
    | dsimp -zeta only

end Sys2Proof.Machine
end

