-- ==== Sys2Proof/Laws/KeptOperands.lean ====
section
/-! SUPPORT. Operands: each operation keeps what `Keeps` says. -/
namespace Sys2Proof.Machine

theorem kept_State_setX (s₀ : State) (s : State) (n : Nat) (r : BitVec 5) (w : Word)  (hk : Keeps s₀ s) : Keeps s₀ (State.setX s n r w) := by
  unfold State.setX
  split
  · exact hk
  · next hr =>
    have hp : 1 ≤ r.toNat := Nat.one_le_iff_ne_zero.mpr fun h => hr (BitVec.eq_of_toNat_eq h)
    exact keeps_setCore n _ ⟨SMap.wfFrom_set _ _ _ _ _ (keeps_sound hk n).1 hp, (keeps_sound hk n).2⟩ hk

theorem kept_readSys (s₀ : State) (n : Nat) (k : Nat) (s : State)  (hk : Keeps s₀ s) : Keeps s₀ (readSys n k s).2 := by
  unfold readSys
  repeat' first
    | (with_reducible first | assumption | intro _)
    | split
    | (with_reducible first | apply keeps_setCore_reset | apply keeps_setCore_upd)

theorem kept_writeSys (s₀ : State) (n : Nat) (k : Nat) (w : Word) (s : State)  (hk : Keeps s₀ s) : Keeps s₀ (writeSys n k w s) := by
  unfold writeSys
  repeat' first
    | (with_reducible first | assumption | intro _)
    | split
    | (with_reducible first | apply kept_State_setSys)

end Sys2Proof.Machine
end

