-- ==== Sys2Proof/Laws/KeptAccess.lean ====
section
/-! SUPPORT. Access: each operation keeps what `Keeps` says. -/
namespace Sys2Proof.Machine

theorem kept_State_settle (s₀ : State) (s : State) (n : Nat)  (hk : Keeps s₀ s) : Keeps s₀ (State.settle s n) := by
  unfold State.settle
  repeat' first
    | (with_reducible first | assumption | intro _)
    | (extract_lets +onlyGivenNames x
       first
       | (refine keeps_let (s₀ := s₀) (s := x) ?_ ?_ <;> first | (intro hx; clear_value x) | subst x)
       | subst x)
    | split
    | (with_reducible first | apply outKeeps_next | exact outKeeps_refused | apply optKeeps_some | exact optKeeps_none)
    | dsimp -zeta only
    | (with_reducible apply keeps_upd; with_reducible first | assumption)
  all_goals grind [Keeps, held_rset, held_setAt_cores, held_setAt_lanes, held_filter_regs, held_map_cores, held_map_lanes, held_write1, held_write, held_clear, held_filter_mem, held_out, held_free, held_rbcnt]

theorem kept_writeBack (s₀ : State) (n : Nat) (c : CLine) (s : State)  (hk : Keeps s₀ s) : ExcKeeps s₀ (writeBack n c s) := by
  unfold writeBack
  repeat' first
    | (with_reducible first | assumption | intro _)
    | split
    | (with_reducible first | apply kept_coreAccess | apply kept_pmcCount | apply outKeeps_next | exact outKeeps_refused
                            | apply optKeeps_some | exact optKeeps_none | apply excKeeps_ok | exact excKeeps_error
                            | refine keeps_ans ?_ (by assumption))
    | dsimp -zeta only

theorem kept_State_setDcache (s₀ : State) (s : State) (n : Nat) (l : List CLine)  (hk : Keeps s₀ s) : Keeps s₀ (State.setDcache s n l) := by
  unfold State.setDcache
  repeat' first
    | (with_reducible first | assumption | intro _)
    | split
    | (with_reducible first | apply keeps_setCore_reset | apply keeps_setCore_upd)

theorem kept_dataLine (s₀ : State) (n : Nat) (a : Nat) (x : Nat) (t : Touch) (s : State)  (hk : Keeps s₀ s) : ReachKeeps s₀ (dataLine n a x t s) := by
  unfold dataLine
  repeat' first
    | (with_reducible first | assumption | intro _)
    | (extract_lets +onlyGivenNames x
       first
       | (refine keeps_let (s₀ := s₀) (s := x) ?_ ?_ <;> first | (intro hx; clear_value x) | subst x)
       | subst x)
    | split
    | (with_reducible first | apply kept_coreAccess | apply kept_pmcCount | apply kept_State_setDcache | apply kept_writeBack
                            | apply outKeeps_next | exact outKeeps_refused | apply optKeeps_some | exact optKeeps_none
                            | apply reachKeeps_done | apply reachKeeps_fault | exact reachKeeps_stall
                            | exact reachKeeps_peripheral | refine keeps_ans ?_ (by assumption)
                            | refine keeps_ok ?_ (by assumption) | refine keeps_ok2 ?_ (by assumption)
                            | refine keeps_ok2' ?_ (by assumption))
    | dsimp -zeta only
    | (with_reducible apply keeps_free; with_reducible first | assumption | apply kept_coreAccess | apply kept_pmcCount
                                                             | apply kept_State_setDcache | apply kept_writeBack
                                                             | refine keeps_ans ?_ (by assumption)
                                                             | refine keeps_ok ?_ (by assumption)
                                                             | refine keeps_ok2 ?_ (by assumption)
                                                             | refine keeps_ok2' ?_ (by assumption))

theorem kept_cleanLine (s₀ : State) (n : Nat) (a : Nat) (x : Nat) (drop : Bool) (s : State)  (hk : Keeps s₀ s) : ReachKeeps s₀ (cleanLine n a x drop s) := by
  unfold cleanLine
  repeat' first
    | (with_reducible first | assumption | intro _)
    | split
    | (with_reducible first | apply kept_State_setDcache | apply kept_writeBack | apply outKeeps_next | exact outKeeps_refused
                            | apply optKeeps_some | exact optKeeps_none | apply reachKeeps_done | apply reachKeeps_fault
                            | exact reachKeeps_stall | exact reachKeeps_peripheral | refine keeps_ok ?_ (by assumption)
                            | refine keeps_ok2 ?_ (by assumption) | refine keeps_ok2' ?_ (by assumption))
    | dsimp -zeta only

theorem kept_cachedAccess (s₀ : State) (n : Nat) (a : Nat) (x : Nat) (size : Nat) (t : Touch) (v : Nat) (s : State)  (hk : Keeps s₀ s) : ReachKeeps s₀ (cachedAccess n a x size t v s) := by
  unfold cachedAccess
  repeat' first
    | (with_reducible first | assumption | intro _)
    | split
    | (with_reducible first | apply kept_dataLine | apply kept_State_setDcache | apply outKeeps_next | exact outKeeps_refused
                            | apply optKeeps_some | exact optKeeps_none | apply reachKeeps_done | apply reachKeeps_fault
                            | exact reachKeeps_stall | exact reachKeeps_peripheral | refine keeps_done ?_ (by assumption)
                            | refine keeps_fault ?_ (by assumption))
    | dsimp -zeta only

theorem kept_plainAccess (s₀ : State) (n : Nat) (m : Nat) (a : Nat) (x : Nat) (size : Nat) (t : Touch) (v : Nat) (s : State)  (hk : Keeps s₀ s) : ReachKeeps s₀ (plainAccess n m a x size t v s) := by
  unfold plainAccess
  repeat' first
    | (with_reducible first | assumption | intro _)
    | split
    | (with_reducible first | apply kept_coreAccess | apply kept_pmcCount | apply outKeeps_next | exact outKeeps_refused
                            | apply optKeeps_some | exact optKeeps_none | apply reachKeeps_done | apply reachKeeps_fault
                            | exact reachKeeps_stall | exact reachKeeps_peripheral | refine keeps_ans ?_ (by assumption))
    | dsimp -zeta only

theorem kept_freshWin (s₀ : State) (s : State)  (hk : Keeps s₀ s) : Keeps s₀ (freshWin s) := by
  unfold freshWin
  repeat' first
    | (with_reducible first | assumption | intro _)
    | (extract_lets +onlyGivenNames x
       first
       | (refine keeps_let (s₀ := s₀) (s := x) ?_ ?_ <;> first | (intro hx; clear_value x) | subst x)
       | subst x)
    | split
    | (with_reducible first | apply kept_State_freshNat | apply outKeeps_next | exact outKeeps_refused | apply optKeeps_some
                            | exact optKeeps_none | refine keeps_pair ?_ (by assumption)
                            | refine keeps_triple ?_ (by assumption))
    | dsimp -zeta only
    | (with_reducible apply keeps_upd; with_reducible first | assumption | apply kept_State_freshNat)
  all_goals grind [kept_State_freshNat, Keeps, held_rset, held_setAt_cores, held_setAt_lanes, held_filter_regs, held_map_cores, held_map_lanes, held_write1, held_write, held_clear, held_filter_mem, held_out, held_free, held_rbcnt]

theorem kept_mcAccess (s₀ : State) (a : Nat) (size : Nat) (t : Touch) (v : Nat) (s : State)  (hk : Keeps s₀ s) : ReachKeeps s₀ (mcAccess a size t v s) := by
  have hd : ∀ x, ReachKeeps s₀ (.done x s) := fun _ => hk
  have hf : ∀ x, ReachKeeps s₀ (.fault x a s) := fun _ => hk
  have hw : ∀ x d, ReachKeeps s₀ (.done 0 { s with mem := Mem.write s.mem x d, badMem := s.badMem.filter fun y => !(decide (x ≤ y) && decide (y < x + size)) }) := fun x d => held_write x d hk
  have hp : ∀ x, ReachKeeps s₀ (plainAccess 16 22 a x size t v (freshWin s)) :=
    fun x => kept_plainAccess s₀ 16 22 a x size t v _ (kept_freshWin s₀ s hk)
  unfold mcAccess
  simp only
  repeat' split
  all_goals try with_reducible exact hd _
  all_goals try with_reducible exact hf _
  all_goals try with_reducible exact hp _
  all_goals try with_reducible exact hw _ _
  all_goals trivial

theorem kept_dataAccess (s₀ : State) (n : Nat) (a : Nat) (size : Nat) (t : Touch) (v : Nat) (s : State)  (hk : Keeps s₀ s) : ReachKeeps s₀ (dataAccess n a size t v s) := by
  unfold dataAccess
  repeat' first
    | (with_reducible first | assumption | intro _)
    | split
    | (with_reducible first | apply kept_mcAccess | apply kept_cachedAccess | apply kept_plainAccess | apply outKeeps_next
                            | exact outKeeps_refused | apply optKeeps_some | exact optKeeps_none | apply reachKeeps_done
                            | apply reachKeeps_fault | exact reachKeeps_stall | exact reachKeeps_peripheral
                            | refine keeps_done ?_ (by assumption) | refine keeps_fault ?_ (by assumption))
    | dsimp -zeta only

theorem kept_atomicAccess (s₀ : State) (n : Nat) (a : Nat) (t : Touch) (s : State)  (hk : Keeps s₀ s) : ReachKeeps s₀ (atomicAccess n a t s) := by
  unfold atomicAccess
  repeat' first
    | (with_reducible first | assumption | intro _)
    | (extract_lets +onlyGivenNames x
       first
       | (refine keeps_let (s₀ := s₀) (s := x) ?_ ?_ <;> first | (intro hx; clear_value x) | subst x)
       | subst x)
    | split
    | (with_reducible first | apply kept_freshWin | apply kept_cleanLine | apply outKeeps_next | exact outKeeps_refused
                            | apply optKeeps_some | exact optKeeps_none | apply reachKeeps_done | apply reachKeeps_fault
                            | exact reachKeeps_stall | exact reachKeeps_peripheral | refine keeps_done ?_ (by assumption)
                            | refine keeps_fault ?_ (by assumption))
    | dsimp -zeta only

theorem kept_fetchAccess_fill (s₀ : State) (n : Nat) (a : Nat) (x : Nat) (s : State)  (hk : Keeps s₀ s) : ReachKeeps s₀ (fetchAccess.fill n a x s) := by
  unfold fetchAccess.fill
  repeat' first
    | (with_reducible first | assumption | intro _)
    | split
    | (with_reducible first | apply keeps_setCore_reset | apply keeps_setCore_upd | apply kept_coreAccess | apply kept_pmcCount
                            | apply outKeeps_next | exact outKeeps_refused | apply optKeeps_some | exact optKeeps_none
                            | apply reachKeeps_done | apply reachKeeps_fault | exact reachKeeps_stall
                            | exact reachKeeps_peripheral | refine keeps_ans ?_ (by assumption))
    | dsimp -zeta only
    | (with_reducible apply keeps_free; with_reducible first | assumption | apply keeps_setCore_reset | apply keeps_setCore_upd
                                                             | apply kept_coreAccess | apply kept_pmcCount
                                                             | refine keeps_ans ?_ (by assumption))

theorem kept_fetchAccess (s₀ : State) (n : Nat) (s : State)  (hk : Keeps s₀ s) : ReachKeeps s₀ (fetchAccess n s) := by
  unfold fetchAccess
  repeat' first
    | (with_reducible first | assumption | intro _)
    | (extract_lets +onlyGivenNames x
       first
       | (refine keeps_let (s₀ := s₀) (s := x) ?_ ?_ <;> first | (intro hx; clear_value x) | subst x)
       | subst x)
    | split
    | (with_reducible first | apply keeps_setCore_reset | apply keeps_setCore_upd | apply kept_mcAccess | apply kept_plainAccess
                            | apply kept_fetchAccess_fill | apply outKeeps_next | exact outKeeps_refused
                            | apply optKeeps_some | exact optKeeps_none | apply reachKeeps_done | apply reachKeeps_fault
                            | exact reachKeeps_stall | exact reachKeeps_peripheral | refine keeps_done ?_ (by assumption)
                            | refine keeps_fault ?_ (by assumption))
    | dsimp -zeta only

theorem kept_raised (s₀ : State) (n : Nat) (cause : Nat) (addr : Nat) (s : State)  (hk : Keeps s₀ s) : OutKeeps s₀ (raised n cause addr s) := by
  unfold raised
  repeat' first
    | (with_reducible first | assumption | intro _)
    | split
    | (with_reducible first | apply kept_except | apply kept_State_settle | apply outKeeps_next | exact outKeeps_refused
                            | apply optKeeps_some | exact optKeeps_none)
    | dsimp -zeta only

theorem kept_beginInsn (s₀ : State) (n : Nat) (s : State)  (hk : Keeps s₀ s) : Keeps s₀ (beginInsn n s) := by
  unfold beginInsn
  repeat' first
    | (with_reducible first | assumption | intro _)
    | (extract_lets +onlyGivenNames x
       first
       | (refine keeps_let (s₀ := s₀) (s := x) ?_ ?_ <;> first | (intro hx; clear_value x) | subst x)
       | subst x)
    | split
    | (with_reducible first | apply keeps_setCore_reset | apply keeps_setCore_upd | apply kept_endWait | apply outKeeps_next
                            | exact outKeeps_refused | apply optKeeps_some | exact optKeeps_none)
    | dsimp -zeta only
    | (with_reducible apply keeps_upd; with_reducible first | assumption | apply keeps_setCore_reset | apply keeps_setCore_upd
                                                             | apply kept_endWait)
  all_goals grind [kept_endWait, Keeps, held_rset, held_setAt_cores, held_setAt_lanes, held_filter_regs, held_map_cores, held_map_lanes, held_write1, held_write, held_clear, held_filter_mem, held_out, held_free, held_rbcnt]

theorem kept_uc (s₀ : State) (n : Nat) (w : Nat) (body : State → Host.Outcome State Fault Refusal) (s : State) (h_body : ∀ v0, Keeps s₀ v0 → OutKeeps s₀ (body v0)) (hk : Keeps s₀ s) : OutKeeps s₀ (uc n w body s) := by
  unfold uc
  repeat' first
    | (with_reducible first | assumption | intro _)
    | (extract_lets +onlyGivenNames x
       first
       | (refine keeps_let (s₀ := s₀) (s := x) ?_ ?_ <;> first | (intro hx; clear_value x) | subst x)
       | subst x)
    | split
    | (with_reducible first | apply kept_boundary | apply kept_endWait | apply kept_fetchAccess | apply kept_beginInsn
                            | apply kept_raised | apply kept_State_await | apply h_body | apply outKeeps_next
                            | exact outKeeps_refused | apply optKeeps_some | exact optKeeps_none | apply reachKeeps_done
                            | apply reachKeeps_fault | exact reachKeeps_stall | exact reachKeeps_peripheral
                            | refine keeps_opt ?_ (by assumption) | refine keeps_done ?_ (by assumption)
                            | refine keeps_fault ?_ (by assumption))
    | dsimp -zeta only

theorem kept_complete (s₀ : State) (n : Nat) (pc : Word) (s : State)  (hk : Keeps s₀ s) : Keeps s₀ (complete n pc s) := by
  unfold complete
  repeat' first
    | (with_reducible first | assumption | intro _)
    | split
    | (with_reducible first | apply kept_pmcCount | apply kept_State_setPc | apply kept_State_settle)

theorem kept_retire (s₀ : State) (n : Nat) (s : State)  (hk : Keeps s₀ s) : Keeps s₀ (retire n s) := by
  unfold retire
  repeat' first
    | (with_reducible first | assumption | intro _)
    | split
    | (with_reducible first | apply kept_complete)

theorem kept_result (s₀ : State) (n : Nat) (rd : BitVec 5) (w : Word) (s : State)  (hk : Keeps s₀ s) : OutKeeps s₀ (result n rd w s) := by
  unfold result
  repeat' first
    | (with_reducible first | assumption | intro _)
    | split
    | (with_reducible first | apply kept_retire | apply kept_State_setX | apply outKeeps_next | exact outKeeps_refused
                            | apply optKeeps_some | exact optKeeps_none)
    | dsimp -zeta only

theorem kept_touch (s₀ : State) (n : Nat) (a : Nat) (t : Touch) (sw : State) (s : State) (acc : State → Reach) (k : Nat → State → State) (h_acc : ∀ v0, Keeps s₀ v0 → ReachKeeps s₀ (acc v0)) (h_k : ∀ v0 v1, Keeps s₀ v1 → Keeps s₀ (k v0 v1)) (h_w : Keeps s₀ sw) (hk : Keeps s₀ s) : OutKeeps s₀ (touch n a t sw s acc k) := by
  unfold touch
  repeat' first
    | (with_reducible first | assumption | intro _)
    | split
    | (with_reducible first | apply kept_enterMonitor | apply kept_raised | apply kept_State_await | apply h_acc | apply h_k
                            | apply h_w | apply outKeeps_next | exact outKeeps_refused | apply optKeeps_some
                            | exact optKeeps_none | apply reachKeeps_done | apply reachKeeps_fault | exact reachKeeps_stall
                            | exact reachKeeps_peripheral | refine keeps_done ?_ (by assumption)
                            | refine keeps_fault ?_ (by assumption))
    | dsimp -zeta only

theorem kept_load (s₀ : State) (n : Nat) (op : Nat) (size : Nat) (signed : Bool) (rd : BitVec 5) (ra : BitVec 5) (imm : BitVec 16) (s : State)  (hk : Keeps s₀ s) : OutKeeps s₀ (load n op size signed rd ra imm s) := by
  unfold load
  repeat' first
    | (with_reducible first | assumption | intro _)
    | split
    | (with_reducible first | apply kept_uc | apply kept_touch | apply kept_dataAccess | apply kept_retire
                            | apply kept_State_setX)

theorem kept_store (s₀ : State) (n : Nat) (op : Nat) (size : Nat) (rd : BitVec 5) (ra : BitVec 5) (imm : BitVec 16) (s : State)  (hk : Keeps s₀ s) : OutKeeps s₀ (store n op size rd ra imm s) := by
  unfold store
  repeat' first
    | (with_reducible first | assumption | intro _)
    | split
    | (with_reducible first | apply kept_uc | apply kept_touch | apply kept_dataAccess | apply kept_retire)

theorem kept_takeJump (s₀ : State) (n : Nat) (target : Word) (back : Bool) (s : State)  (hk : Keeps s₀ s) : Keeps s₀ (takeJump n target back s) := by
  unfold takeJump
  repeat' first
    | (with_reducible first | assumption | intro _)
    | split
    | (with_reducible first | apply kept_takeRun | apply kept_endRun | apply kept_complete | apply kept_pmcCount)

theorem kept_branch (s₀ : State) (n : Nat) (op : Nat) (ra : BitVec 5) (rb : BitVec 5) (off : BitVec 16) (c : State → Bool) (s : State)  (hk : Keeps s₀ s) : OutKeeps s₀ (branch n op ra rb off c s) := by
  unfold branch
  repeat' first
    | (with_reducible first | assumption | intro _)
    | split
    | (with_reducible first | apply kept_uc | apply kept_takeJump | apply kept_retire | apply kept_endRun | apply outKeeps_next
                            | exact outKeeps_refused | apply optKeeps_some | exact optKeeps_none)
    | dsimp -zeta only

theorem kept_privileged (s₀ : State) (n : Nat) (body : State → Host.Outcome State Fault Refusal) (s : State) (h_body : ∀ v0, Keeps s₀ v0 → OutKeeps s₀ (body v0)) (hk : Keeps s₀ s) : OutKeeps s₀ (privileged n body s) := by
  unfold privileged
  repeat' first
    | (with_reducible first | assumption | intro _)
    | split
    | (with_reducible first | apply kept_raised | apply h_body)

theorem kept_cacheLine (s₀ : State) (n : Nat) (k : Nat) (user : Bool) (ra : BitVec 5) (imm : BitVec 16) (op : Nat → Nat → State → Reach) (s : State) (h_op : ∀ v0 v1 v2, Keeps s₀ v2 → ReachKeeps s₀ (op v0 v1 v2)) (hk : Keeps s₀ s) : OutKeeps s₀ (cacheLine n k user ra imm op s) := by
  unfold cacheLine
  repeat' first
    | (with_reducible first | assumption | intro _)
    | (extract_lets +onlyGivenNames x
       first
       | (refine keeps_let (s₀ := s₀) (s := x) ?_ ?_ <;> first | (intro hx; clear_value x) | subst x)
       | subst x)
    | split
    | (with_reducible first | apply kept_uc | apply kept_raised | apply kept_retire | apply kept_State_await | apply h_op
                            | apply outKeeps_next | exact outKeeps_refused | apply optKeeps_some | exact optKeeps_none
                            | apply reachKeeps_done | apply reachKeeps_fault | exact reachKeeps_stall
                            | exact reachKeeps_peripheral | refine keeps_done ?_ (by assumption)
                            | refine keeps_fault ?_ (by assumption))
    | dsimp -zeta only

theorem kept_cleanAll (s₀ : State) (n : Nat) (drop : Bool) (a0 : List CLine) (a1 : State)  (hk : Keeps s₀ a1) : ReachKeeps s₀ (cleanAll n drop a0 a1) := by
  induction a0 generalizing a1 with
  | nil =>
    unfold cleanAll
    repeat' first
      | (with_reducible first | assumption | intro _)
      | split
      | (with_reducible first | apply kept_cleanLine | apply outKeeps_next | exact outKeeps_refused | apply optKeeps_some
                              | exact optKeeps_none | apply reachKeeps_done | apply reachKeeps_fault | exact reachKeeps_stall
                              | exact reachKeeps_peripheral | refine keeps_done ?_ (by assumption)
                              | refine keeps_fault ?_ (by assumption))
      | dsimp -zeta only
  | cons y r ih =>
    unfold cleanAll
    repeat' first
      | (with_reducible first | assumption | intro _)
      | with_reducible apply ih
      | split
      | (with_reducible first | apply kept_cleanLine | apply outKeeps_next | exact outKeeps_refused | apply optKeeps_some
                              | exact optKeeps_none | apply reachKeeps_done | apply reachKeeps_fault | exact reachKeeps_stall
                              | exact reachKeeps_peripheral | refine keeps_done ?_ (by assumption)
                              | refine keeps_fault ?_ (by assumption))
      | dsimp -zeta only

theorem kept_cacheAll (s₀ : State) (n : Nat) (k : Nat) (ra : BitVec 5) (imm : BitVec 16) (op : State → Reach) (s : State) (h_op : ∀ v0, Keeps s₀ v0 → ReachKeeps s₀ (op v0)) (hk : Keeps s₀ s) : OutKeeps s₀ (cacheAll n k ra imm op s) := by
  unfold cacheAll
  repeat' first
    | (with_reducible first | assumption | intro _)
    | split
    | (with_reducible first | apply kept_uc | apply kept_privileged | apply kept_retire | apply kept_raised
                            | apply kept_State_await | apply h_op | apply outKeeps_next | exact outKeeps_refused
                            | apply optKeeps_some | exact optKeeps_none | apply reachKeeps_done | apply reachKeeps_fault
                            | exact reachKeeps_stall | exact reachKeeps_peripheral | refine keeps_done ?_ (by assumption)
                            | refine keeps_fault ?_ (by assumption))
    | dsimp -zeta only

end Sys2Proof.Machine
end

