-- ==== Sys2Proof/Laws/KeptDebug.lean ====
section
/-! SUPPORT. Debug: each operation keeps what `Keeps` says. -/
namespace Sys2Proof.Machine

theorem kept_sessionOpen (s₀ : State) (m : Msg) (s : State)  (hk : Keeps s₀ s) : Keeps s₀ (sessionOpen m s) := by
  unfold sessionOpen
  repeat' first
    | (with_reducible first | assumption | intro _)
    | split
    | (with_reducible first | apply kept_State_discard)
  all_goals grind [kept_State_discard, Keeps, held_rset, held_setAt_cores, held_setAt_lanes, held_filter_regs, held_map_cores, held_map_lanes, held_write1, held_write, held_clear, held_filter_mem, held_out, held_free, held_rbcnt]

theorem kept_execSessionOpen (s₀ : State) (msg : Msg) (s : State)  (hk : Keeps s₀ s) : OutKeeps s₀ (execSessionOpen msg s) := by
  unfold execSessionOpen
  repeat' first
    | (with_reducible first | assumption | intro _)
    | split
    | (with_reducible first | apply kept_sessionOpen | apply outKeeps_next | exact outKeeps_refused | apply optKeeps_some
                            | exact optKeeps_none)
    | dsimp -zeta only

theorem kept_debugHold (s₀ : State) (v : Bool) (s : State)  (hk : Keeps s₀ s) : Keeps s₀ (debugHold v s) := by
  unfold debugHold
  repeat' first
    | (with_reducible first | assumption | intro _)
    | split
    | (with_reducible first | apply kept_holdReqWrite)

theorem kept_closeSession (s₀ : State) (n : Nat) (s : State)  (hk : Keeps s₀ s) : Keeps s₀ (closeSession n s) := by
  unfold closeSession
  repeat' first
    | (with_reducible first | assumption | intro _)
    | (extract_lets +onlyGivenNames x
       first
       | (refine keeps_let (s₀ := s₀) (s := x) ?_ ?_ <;> first | (intro hx; clear_value x) | subst x)
       | subst x)
    | split
    | (with_reducible first | apply kept_debugHold | apply kept_State_setFld | apply kept_snapshotLoses | apply kept_loaderLoses
                            | apply kept_dropClaim | apply outKeeps_next | exact outKeeps_refused | apply optKeeps_some
                            | exact optKeeps_none)
    | dsimp -zeta only
    | (with_reducible apply keeps_upd; with_reducible first | assumption | apply kept_debugHold | apply kept_State_setFld
                                                             | apply kept_snapshotLoses | apply kept_loaderLoses
                                                             | apply kept_dropClaim)
  all_goals grind [kept_debugHold, kept_State_setFld, kept_snapshotLoses, kept_loaderLoses, kept_dropClaim, Keeps, held_rset, held_setAt_cores, held_setAt_lanes, held_filter_regs, held_map_cores, held_map_lanes, held_write1, held_write, held_clear, held_filter_mem, held_out, held_free, held_rbcnt]

theorem kept_execSessionClose (s₀ : State) (msg : Msg) (s : State)  (hk : Keeps s₀ s) : OutKeeps s₀ (execSessionClose msg s) := by
  unfold execSessionClose
  repeat' first
    | (with_reducible first | assumption | intro _)
    | split
    | (with_reducible first | apply kept_request | apply kept_closeSession | apply kept_State_respond | apply outKeeps_next
                            | exact outKeeps_refused | apply optKeeps_some | exact optKeeps_none)
    | dsimp -zeta only

theorem kept_execSessionTimeout (s₀ : State) (session : Nat) (s : State)  (hk : Keeps s₀ s) : OutKeeps s₀ (execSessionTimeout session s) := by
  unfold execSessionTimeout
  repeat' first
    | (with_reducible first | assumption | intro _)
    | split
    | (with_reducible first | apply kept_closeSession | apply outKeeps_next | exact outKeeps_refused | apply optKeeps_some
                            | exact optKeeps_none)
    | dsimp -zeta only

theorem kept_challenge (s₀ : State) (x : Session) (s : State)  (hk : Keeps s₀ s) : Keeps s₀ (challenge x s).2.2 := by
  unfold challenge
  repeat' first
    | (with_reducible first | assumption | intro _)
    | split
    | (with_reducible first | apply kept_State_setSession)
    | (with_reducible apply keeps_upd; with_reducible first | assumption | apply kept_State_setSession)

theorem kept_execDbgChallenge (s₀ : State) (msg : Msg) (s : State)  (hk : Keeps s₀ s) : OutKeeps s₀ (execDbgChallenge msg s) := by
  unfold execDbgChallenge
  repeat' first
    | (with_reducible first | assumption | intro _)
    | split
    | (with_reducible first | apply kept_request | apply kept_challenge | apply outKeeps_next | exact outKeeps_refused
                            | apply optKeeps_some | exact optKeeps_none | refine keeps_pair ?_ (by assumption)
                            | refine keeps_triple ?_ (by assumption))
    | dsimp -zeta only

theorem kept_execChallengeExpire (s₀ : State) (session : Nat) (s : State)  (hk : Keeps s₀ s) : OutKeeps s₀ (execChallengeExpire session s) := by
  unfold execChallengeExpire
  repeat' first
    | (with_reducible first | assumption | intro _)
    | split
    | (with_reducible first | apply kept_State_setSession | apply outKeeps_next | exact outKeeps_refused | apply optKeeps_some
                            | exact optKeeps_none)
    | dsimp -zeta only

theorem kept_authorise (s₀ : State) (m : Msg) (x : Session) (c : List Byte) (s : State)  (hk : Keeps s₀ s) : Keeps s₀ (authorise m x c s).2.2 := by
  unfold authorise
  repeat' first
    | (with_reducible first | assumption | intro _)
    | (extract_lets +onlyGivenNames x
       first
       | (refine keeps_let (s₀ := s₀) (s := x) ?_ ?_ <;> first | (intro hx; clear_value x) | subst x)
       | subst x)
    | split
    | (with_reducible first | apply kept_raise | apply kept_State_count | apply kept_State_setSession | apply kept_State_respond)

theorem kept_execDbgAuth (s₀ : State) (msg : Msg) (s : State)  (hk : Keeps s₀ s) : OutKeeps s₀ (execDbgAuth msg s) := by
  unfold execDbgAuth
  repeat' first
    | (with_reducible first | assumption | intro _)
    | split
    | (with_reducible first | apply kept_request | apply kept_authorise | apply outKeeps_next | exact outKeeps_refused
                            | apply optKeeps_some | exact optKeeps_none | refine keeps_pair ?_ (by assumption)
                            | refine keeps_triple ?_ (by assumption))
    | dsimp -zeta only

theorem kept_execDbgHalt (s₀ : State) (msg : Msg) (s : State)  (hk : Keeps s₀ s) : OutKeeps s₀ (execDbgHalt msg s) := by
  unfold execDbgHalt
  repeat' first
    | (with_reducible first | assumption | intro _)
    | split
    | (with_reducible first | apply kept_request | apply kept_ok | apply kept_plainWrite | apply outKeeps_next
                            | exact outKeeps_refused | apply optKeeps_some | exact optKeeps_none
                            | refine keeps_pair ?_ (by assumption) | refine keeps_triple ?_ (by assumption))
    | dsimp -zeta only

theorem kept_execDbgHaltreqWrite (s₀ : State) (m : Nat) (d : Word) (s : State)  (hk : Keeps s₀ s) : OutKeeps s₀ (execDbgHaltreqWrite m d s) := by
  unfold execDbgHaltreqWrite
  repeat' first
    | (with_reducible first | assumption | intro _)
    | split
    | (with_reducible first | apply kept_regWrite | apply kept_plainWrite | apply outKeeps_next | exact outKeeps_refused
                            | apply optKeeps_some | exact optKeeps_none)
    | dsimp -zeta only

theorem kept_trcPriv (s₀ : State) (x : Session) (v : Bool) (s : State)  (hk : Keeps s₀ s) : Keeps s₀ (trcPriv x v s) := by
  unfold trcPriv
  repeat' first
    | (with_reducible first | assumption | intro _)
    | split
    | (with_reducible first | apply kept_State_setSession | apply kept_State_setFld)
    | (with_reducible apply keeps_upd; with_reducible first | assumption | apply kept_State_setSession | apply kept_State_setFld)

theorem kept_execDbgTrcpriv (s₀ : State) (msg : Msg) (s : State)  (hk : Keeps s₀ s) : OutKeeps s₀ (execDbgTrcpriv msg s) := by
  unfold execDbgTrcpriv
  repeat' first
    | (with_reducible first | assumption | intro _)
    | split
    | (with_reducible first | apply kept_request | apply kept_ok | apply kept_trcPriv | apply outKeeps_next
                            | exact outKeeps_refused | apply optKeeps_some | exact optKeeps_none
                            | refine keeps_pair ?_ (by assumption) | refine keeps_triple ?_ (by assumption))
    | dsimp -zeta only

theorem kept_execDbgHold (s₀ : State) (msg : Msg) (s : State)  (hk : Keeps s₀ s) : OutKeeps s₀ (execDbgHold msg s) := by
  unfold execDbgHold
  repeat' first
    | (with_reducible first | assumption | intro _)
    | split
    | (with_reducible first | apply kept_request | apply kept_ok | apply kept_debugHold | apply kept_State_setSession
                            | apply outKeeps_next | exact outKeeps_refused | apply optKeeps_some | exact optKeeps_none
                            | refine keeps_pair ?_ (by assumption) | refine keeps_triple ?_ (by assumption))
    | dsimp -zeta only

theorem kept_fillWords (s₀ : State) (a : Nat) (d : List Byte) (s : State)  (hk : Keeps s₀ s) : Keeps s₀ (fillWords a d s) := by
  unfold fillWords
  repeat' first
    | (with_reducible first | assumption | intro _)
    | split
    | (with_reducible first | apply kept_State_setReg | apply kept_foldl)

theorem kept_dbgMon (s₀ : State) (x : Session) (p : List Byte) (s : State)  (hk : Keeps s₀ s) : Keeps s₀ (dbgMon x p s).2.2 := by
  unfold dbgMon
  repeat' first
    | (with_reducible first | assumption | intro _)
    | (extract_lets +onlyGivenNames x
       first
       | (refine keeps_let (s₀ := s₀) (s := x) ?_ ?_ <;> first | (intro hx; clear_value x) | subst x)
       | subst x)
    | split
    | (with_reducible first | apply kept_fillWords | apply kept_State_setFlds | apply kept_ok | apply kept_raise)
    | (with_reducible apply keeps_upd; with_reducible first | assumption | apply kept_fillWords | apply kept_State_setFlds
                                                             | apply kept_ok | apply kept_raise)

theorem kept_execDbgMon (s₀ : State) (msg : Msg) (s : State)  (hk : Keeps s₀ s) : OutKeeps s₀ (execDbgMon msg s) := by
  unfold execDbgMon
  repeat' first
    | (with_reducible first | assumption | intro _)
    | split
    | (with_reducible first | apply kept_request | apply kept_dbgMon | apply outKeeps_next | exact outKeeps_refused
                            | apply optKeeps_some | exact optKeeps_none | refine keeps_pair ?_ (by assumption)
                            | refine keeps_triple ?_ (by assumption))
    | dsimp -zeta only

theorem kept_execMboxSend (s₀ : State) (m : Nat) (n : Nat) (d : Word) (s : State)  (hk : Keeps s₀ s) : OutKeeps s₀ (execMboxSend m n d s) := by
  unfold execMboxSend
  repeat' first
    | (with_reducible first | assumption | intro _)
    | split
    | (with_reducible first | apply kept_regWrite | apply kept_mbSend | apply outKeeps_next | exact outKeeps_refused
                            | apply optKeeps_some | exact optKeeps_none)
    | dsimp -zeta only

theorem kept_mboxSent (s₀ : State) (n : Nat) (s : State)  (hk : Keeps s₀ s) : Keeps s₀ (mboxSent n s) := by
  unfold mboxSent
  repeat' first
    | (with_reducible first | assumption | intro _)
    | split
    | (with_reducible first | apply kept_State_eventTo | apply kept_State_setFld | apply kept_foldl)
    | (with_reducible apply keeps_upd; with_reducible first | assumption | apply kept_State_eventTo | apply kept_State_setFld
                                                             | apply kept_foldl)

theorem kept_execMboxSent (s₀ : State) (n : Nat) (s : State)  (hk : Keeps s₀ s) : OutKeeps s₀ (execMboxSent n s) := by
  unfold execMboxSent
  repeat' first
    | (with_reducible first | assumption | intro _)
    | split
    | (with_reducible first | apply kept_mboxSent | apply outKeeps_next | exact outKeeps_refused | apply optKeeps_some
                            | exact optKeeps_none)
    | dsimp -zeta only

theorem kept_readRun (s₀ : State) (a0 : Nat) (a1 : DbgRun) (a2 : List (List Byte)) (a3 : State)  (hk : Keeps s₀ a3) : Keeps s₀ (readRun a0 a1 a2 a3).2.2 := by
  induction a0 generalizing a1 a2 a3 with
  | zero =>
    unfold readRun
    repeat' first
      | (with_reducible first | assumption | intro _)
      | (extract_lets +onlyGivenNames x
         first
         | (refine keeps_let (s₀ := s₀) (s := x) ?_ ?_ <;> first | (intro hx; clear_value x) | subst x)
         | subst x)
      | split
      | (with_reducible first | apply kept_coreAccess | apply kept_State_await | refine keeps_ans ?_ (by assumption))
  | succ y ih =>
    unfold readRun
    repeat' first
      | (with_reducible first | assumption | intro _)
      | (extract_lets +onlyGivenNames x
         first
         | (refine keeps_let (s₀ := s₀) (s := x) ?_ ?_ <;> first | (intro hx; clear_value x) | subst x)
         | subst x)
      | with_reducible apply ih
      | split
      | (with_reducible first | apply kept_coreAccess | apply kept_State_await | refine keeps_ans ?_ (by assumption))

theorem kept_writeRun (s₀ : State) (a0 : Nat) (a1 : DbgRun) (a2 : State)  (hk : Keeps s₀ a2) : Keeps s₀ (writeRun a0 a1 a2).2 := by
  induction a0 generalizing a1 a2 with
  | zero =>
    unfold writeRun
    repeat' first
      | (with_reducible first | assumption | intro _)
      | (extract_lets +onlyGivenNames x
         first
         | (refine keeps_let (s₀ := s₀) (s := x) ?_ ?_ <;> first | (intro hx; clear_value x) | subst x)
         | subst x)
      | split
      | (with_reducible first | apply kept_coreAccess | apply kept_State_await | refine keeps_ans ?_ (by assumption))
  | succ y ih =>
    unfold writeRun
    repeat' first
      | (with_reducible first | assumption | intro _)
      | (extract_lets +onlyGivenNames x
         first
         | (refine keeps_let (s₀ := s₀) (s := x) ?_ ?_ <;> first | (intro hx; clear_value x) | subst x)
         | subst x)
      | with_reducible apply ih
      | split
      | (with_reducible first | apply kept_coreAccess | apply kept_State_await | refine keeps_ans ?_ (by assumption))

theorem kept_State_setRun (s₀ : State) (s : State) (r : DbgRun)  (hk : Keeps s₀ s) : Keeps s₀ (State.setRun s r) := by
  unfold State.setRun
  repeat' first
    | (with_reducible first | assumption | intro _)
    | (extract_lets +onlyGivenNames x
       first
       | (refine keeps_let (s₀ := s₀) (s := x) ?_ ?_ <;> first | (intro hx; clear_value x) | subst x)
       | subst x)
    | split
    | (with_reducible first | apply outKeeps_next | exact outKeeps_refused | apply optKeeps_some | exact optKeeps_none)
    | dsimp -zeta only
    | (with_reducible apply keeps_upd; with_reducible first | assumption)
  all_goals grind [Keeps, held_rset, held_setAt_cores, held_setAt_lanes, held_filter_regs, held_map_cores, held_map_lanes, held_write1, held_write, held_clear, held_filter_mem, held_out, held_free, held_rbcnt]

theorem kept_goRead (s₀ : State) (r : DbgRun) (s : State)  (hk : Keeps s₀ s) : Keeps s₀ (goRead r s) := by
  unfold goRead
  repeat' first
    | (with_reducible first | assumption | intro _)
    | (extract_lets +onlyGivenNames x
       first
       | (refine keeps_let (s₀ := s₀) (s := x) ?_ ?_ <;> first | (intro hx; clear_value x) | subst x)
       | subst x)
    | split
    | (with_reducible first | apply kept_readRun | apply kept_State_putStream | apply kept_State_setRun | apply outKeeps_next
                            | exact outKeeps_refused | apply optKeeps_some | exact optKeeps_none
                            | refine keeps_pair ?_ (by assumption) | refine keeps_triple ?_ (by assumption))
    | dsimp -zeta only
    | (with_reducible apply keeps_upd; with_reducible first | assumption | apply kept_readRun | apply kept_State_putStream
                                                             | apply kept_State_setRun)
  all_goals grind [kept_readRun, kept_State_putStream, kept_State_setRun, Keeps, held_rset, held_setAt_cores, held_setAt_lanes, held_filter_regs, held_map_cores, held_map_lanes, held_write1, held_write, held_clear, held_filter_mem, held_out, held_free, held_rbcnt]

theorem kept_memRead (s₀ : State) (x : Session) (p : List Byte) (s : State)  (hk : Keeps s₀ s) : Keeps s₀ (memRead x p s).2.2 := by
  unfold memRead
  repeat' first
    | (with_reducible first | assumption | intro _)
    | split
    | (with_reducible first | apply kept_ok | apply kept_goRead)
    | (with_reducible apply keeps_upd; with_reducible first | assumption | apply kept_ok | apply kept_goRead)

theorem kept_execDbgMemrd (s₀ : State) (msg : Msg) (s : State)  (hk : Keeps s₀ s) : OutKeeps s₀ (execDbgMemrd msg s) := by
  unfold execDbgMemrd
  repeat' first
    | (with_reducible first | assumption | intro _)
    | split
    | (with_reducible first | apply kept_request | apply kept_memRead | apply outKeeps_next | exact outKeeps_refused
                            | apply optKeeps_some | exact optKeeps_none | refine keeps_pair ?_ (by assumption)
                            | refine keeps_triple ?_ (by assumption))
    | dsimp -zeta only

theorem kept_memWrite (s₀ : State) (x : Session) (p : List Byte) (s : State)  (hk : Keeps s₀ s) : Keeps s₀ (memWrite x p s).2.2 := by
  unfold memWrite
  repeat' first
    | (with_reducible first | assumption | intro _)
    | split
    | (with_reducible first | apply kept_ok | apply kept_State_openIn)
    | (with_reducible apply keeps_upd; with_reducible first | assumption | apply kept_ok | apply kept_State_openIn)

theorem kept_execDbgMemwr (s₀ : State) (msg : Msg) (s : State)  (hk : Keeps s₀ s) : OutKeeps s₀ (execDbgMemwr msg s) := by
  unfold execDbgMemwr
  repeat' first
    | (with_reducible first | assumption | intro _)
    | split
    | (with_reducible first | apply kept_request | apply kept_memWrite | apply outKeeps_next | exact outKeeps_refused
                            | apply optKeeps_some | exact optKeeps_none | refine keeps_pair ?_ (by assumption)
                            | refine keeps_triple ?_ (by assumption))
    | dsimp -zeta only

theorem kept_goWrite (s₀ : State) (r : DbgRun) (s : State)  (hk : Keeps s₀ s) : Keeps s₀ (goWrite r s) := by
  unfold goWrite
  repeat' first
    | (with_reducible first | assumption | intro _)
    | (extract_lets +onlyGivenNames x
       first
       | (refine keeps_let (s₀ := s₀) (s := x) ?_ ?_ <;> first | (intro hx; clear_value x) | subst x)
       | subst x)
    | split
    | (with_reducible first | apply kept_writeRun | apply kept_State_setRun | apply outKeeps_next | exact outKeeps_refused
                            | apply optKeeps_some | exact optKeeps_none | refine keeps_pair ?_ (by assumption)
                            | refine keeps_triple ?_ (by assumption))
    | dsimp -zeta only
    | (with_reducible apply keeps_upd; with_reducible first | assumption | apply kept_writeRun | apply kept_State_setRun)
  all_goals grind [kept_writeRun, kept_State_setRun, Keeps, held_rset, held_setAt_cores, held_setAt_lanes, held_filter_regs, held_map_cores, held_map_lanes, held_write1, held_write, held_clear, held_filter_mem, held_out, held_free, held_rbcnt]

theorem kept_memBytes (s₀ : State) (n : Nat) (d : List Byte) (s : State)  (hk : Keeps s₀ s) : Keeps s₀ (memBytes n d s) := by
  unfold memBytes
  repeat' first
    | (with_reducible first | assumption | intro _)
    | split
    | (with_reducible first | apply kept_goWrite)
    | (with_reducible apply keeps_upd; with_reducible first | assumption | apply kept_goWrite)

theorem kept_goRuns (s₀ : State) (s : State)  (hk : Keeps s₀ s) : Keeps s₀ (goRuns s) := by
  unfold goRuns
  repeat' first
    | (with_reducible first | assumption | intro _)
    | (extract_lets +onlyGivenNames x
       first
       | (refine keeps_let (s₀ := s₀) (s := x) ?_ ?_ <;> first | (intro hx; clear_value x) | subst x)
       | subst x)
    | split
    | (with_reducible first | apply kept_goRead | apply kept_goWrite | apply kept_foldl | apply outKeeps_next
                            | exact outKeeps_refused | apply optKeeps_some | exact optKeeps_none)
    | dsimp -zeta only
    | (with_reducible apply keeps_upd; with_reducible first | assumption | apply kept_goRead | apply kept_goWrite
                                                             | apply kept_foldl)
  all_goals grind [kept_goRead, kept_goWrite, kept_foldl, Keeps, held_rset, held_setAt_cores, held_setAt_lanes, held_filter_regs, held_map_cores, held_map_lanes, held_write1, held_write, held_clear, held_filter_mem, held_out, held_free, held_rbcnt]

theorem kept_dbgRunEnd (s₀ : State) (s : State)  (hk : Keeps s₀ s) : Keeps s₀ (dbgRunEnd s) := by
  unfold dbgRunEnd
  repeat' first
    | (with_reducible first | assumption | intro _)
    | (extract_lets +onlyGivenNames x
       first
       | (refine keeps_let (s₀ := s₀) (s := x) ?_ ?_ <;> first | (intro hx; clear_value x) | subst x)
       | subst x)
    | split
    | (with_reducible first | apply kept_goRuns | apply kept_State_eventTo | apply outKeeps_next | exact outKeeps_refused
                            | apply optKeeps_some | exact optKeeps_none)
    | dsimp -zeta only
    | (with_reducible apply keeps_upd; with_reducible first | assumption | apply kept_goRuns | apply kept_State_eventTo)
  all_goals grind [kept_goRuns, kept_State_eventTo, Keeps, held_rset, held_setAt_cores, held_setAt_lanes, held_filter_regs, held_map_cores, held_map_lanes, held_write1, held_write, held_clear, held_filter_mem, held_out, held_free, held_rbcnt]

theorem kept_execDbgRunEnd (s₀ : State) (s : State)  (hk : Keeps s₀ s) : OutKeeps s₀ (execDbgRunEnd s) := by
  unfold execDbgRunEnd
  repeat' first
    | (with_reducible first | assumption | intro _)
    | split
    | (with_reducible first | apply kept_dbgRunEnd | apply outKeeps_next | exact outKeeps_refused | apply optKeeps_some
                            | exact optKeeps_none)
    | dsimp -zeta only

theorem kept_deliverStream (s₀ : State) (n : Nat) (k : InKind) (d : List Byte) (s : State)  (hk : Keeps s₀ s) : Keeps s₀ (deliverStream n k d s) := by
  unfold deliverStream
  repeat' first
    | (with_reducible first | assumption | intro _)
    | split
    | (with_reducible first | apply kept_loadBytes | apply kept_stageBytes | apply kept_restoreBytes | apply kept_updBytes
                            | apply kept_memBytes)
    | (with_reducible apply keeps_upd; with_reducible first | assumption | apply kept_loadBytes | apply kept_stageBytes
                                                             | apply kept_restoreBytes | apply kept_updBytes
                                                             | apply kept_memBytes)

theorem kept_takeMessages (s₀ : State) (a0 : Nat) (a1 : InStream) (a2 : State)  (hk : Keeps s₀ a2) : Keeps s₀ (takeMessages a0 a1 a2).2 := by
  induction a0 generalizing a1 a2 with
  | zero =>
    unfold takeMessages
    repeat' first
      | (with_reducible first | assumption | intro _)
      | split
      | (with_reducible first | apply kept_deliverStream)
  | succ y ih =>
    unfold takeMessages
    repeat' first
      | (with_reducible first | assumption | intro _)
      | with_reducible apply ih
      | split
      | (with_reducible first | apply kept_deliverStream)

theorem kept_streamSession (s₀ : State) (m : Msg) (s : State)  (hk : Keeps s₀ s) : Keeps s₀ (streamSession m s).2 := by
  unfold streamSession
  repeat' first
    | (with_reducible first | assumption | intro _)
    | split
    | (with_reducible first | apply kept_State_discard | apply kept_raise | apply kept_State_count)

theorem kept_streamData (s₀ : State) (m : Msg) (s : State)  (hk : Keeps s₀ s) : Keeps s₀ (streamData m s) := by
  unfold streamData
  repeat' first
    | (with_reducible first | assumption | intro _)
    | (extract_lets +onlyGivenNames x
       first
       | (refine keeps_let (s₀ := s₀) (s := x) ?_ ?_ <;> first | (intro hx; clear_value x) | subst x)
       | subst x)
    | split
    | (with_reducible first | apply kept_State_discard | apply kept_State_reply | apply kept_streamSession
                            | apply kept_takeMessages | apply kept_State_sendTo | apply outKeeps_next
                            | exact outKeeps_refused | apply optKeeps_some | exact optKeeps_none
                            | refine keeps_pair ?_ (by assumption) | refine keeps_triple ?_ (by assumption))
    | dsimp -zeta only
    | (with_reducible apply keeps_upd; with_reducible first | assumption | apply kept_State_discard | apply kept_State_reply
                                                             | apply kept_streamSession | apply kept_takeMessages
                                                             | apply kept_State_sendTo)

theorem kept_execStreamData (s₀ : State) (msg : Msg) (s : State)  (hk : Keeps s₀ s) : OutKeeps s₀ (execStreamData msg s) := by
  unfold execStreamData
  repeat' first
    | (with_reducible first | assumption | intro _)
    | split
    | (with_reducible first | apply kept_streamData | apply outKeeps_next | exact outKeeps_refused | apply optKeeps_some
                            | exact optKeeps_none)
    | dsimp -zeta only

theorem kept_streamAck (s₀ : State) (m : Msg) (s : State)  (hk : Keeps s₀ s) : Keeps s₀ (streamAck m s) := by
  unfold streamAck
  repeat' first
    | (with_reducible first | assumption | intro _)
    | split
    | (with_reducible first | apply kept_State_discard | apply kept_State_reply | apply kept_streamSession | apply kept_ckAcked
                            | apply kept_ckPump | apply kept_State_pump | apply outKeeps_next | exact outKeeps_refused
                            | apply optKeeps_some | exact optKeeps_none | refine keeps_pair ?_ (by assumption)
                            | refine keeps_triple ?_ (by assumption))
    | dsimp -zeta only
    | (with_reducible apply keeps_upd; with_reducible first | assumption | apply kept_State_discard | apply kept_State_reply
                                                             | apply kept_streamSession | apply kept_ckAcked
                                                             | apply kept_ckPump | apply kept_State_pump
                                                             | apply outKeeps_next | exact outKeeps_refused
                                                             | apply optKeeps_some | exact optKeeps_none
                                                             | refine keeps_pair ?_ (by assumption)
                                                             | refine keeps_triple ?_ (by assumption))

theorem kept_execStreamAcknowledge (s₀ : State) (msg : Msg) (s : State)  (hk : Keeps s₀ s) : OutKeeps s₀ (execStreamAcknowledge msg s) := by
  unfold execStreamAcknowledge
  repeat' first
    | (with_reducible first | assumption | intro _)
    | split
    | (with_reducible first | apply kept_streamAck | apply outKeeps_next | exact outKeeps_refused | apply optKeeps_some
                            | exact optKeeps_none)
    | dsimp -zeta only

theorem kept_execStreamResend (s₀ : State) (s : State)  (hk : Keeps s₀ s) : OutKeeps s₀ (execStreamResend s) := by
  unfold execStreamResend
  repeat' first
    | (with_reducible first | assumption | intro _)
    | split
    | (with_reducible first | apply kept_State_pump | apply kept_foldl | apply outKeeps_next | exact outKeeps_refused
                            | apply optKeeps_some | exact optKeeps_none)
    | dsimp -zeta only
    | (with_reducible apply keeps_upd; with_reducible first | assumption | apply kept_State_pump | apply kept_foldl)

end Sys2Proof.Machine
end

