-- ==== Sys2Proof/Laws/KeptGrain.lean ====
section
/-! SUPPORT. Grain: each operation keeps what `Keeps` says. -/
namespace Sys2Proof.Machine

theorem kept_State_addPair (s₀ : State) (s : State) (lo : Nat) (hi : Nat)  (hk : Keeps s₀ s) : Keeps s₀ (State.addPair s lo hi) := by
  unfold State.addPair
  repeat' first
    | (with_reducible first | assumption | intro _)
    | split
    | (with_reducible first | apply kept_State_setPair)

theorem kept_noteVote (s₀ : State) (g : Nat) (s : State)  (hk : Keeps s₀ s) : Keeps s₀ (noteVote g s) := by
  unfold noteVote
  repeat' first
    | (with_reducible first | assumption | intro _)
    | (extract_lets +onlyGivenNames x
       first
       | (refine keeps_let (s₀ := s₀) (s := x) ?_ ?_ <;> first | (intro hx; clear_value x) | subst x)
       | subst x)
    | split
    | (with_reducible first | apply kept_State_setFld | apply kept_State_originate)
    | (with_reducible apply keeps_upd; with_reducible first | assumption | apply kept_State_setFld | apply kept_State_originate)

theorem kept_holdCounts (s₀ : State) (m : Nat) (s : State)  (hk : Keeps s₀ s) : Keeps s₀ (holdCounts m s) := by
  unfold holdCounts
  repeat' first
    | (with_reducible first | assumption | intro _)
    | split
    | (with_reducible first | apply kept_State_addPair | apply kept_foldl)

theorem kept_enterHold (s₀ : State) (s : State)  (hk : Keeps s₀ s) : Keeps s₀ (enterHold s) := by
  unfold enterHold
  repeat' first
    | (with_reducible first | assumption | intro _)
    | split
    | (with_reducible first | apply kept_raise | apply kept_State_count | apply kept_setMode)
    | (with_reducible apply keeps_upd; with_reducible first | assumption | apply kept_raise | apply kept_State_count
                                                             | apply kept_setMode)

theorem kept_leaveHold (s₀ : State) (s : State)  (hk : Keeps s₀ s) : Keeps s₀ (leaveHold s) := by
  unfold leaveHold
  repeat' first
    | (with_reducible first | assumption | intro _)
    | split
    | (with_reducible first | apply kept_raise | apply kept_setMode)
    | (with_reducible apply keeps_upd; with_reducible first | assumption | apply kept_raise | apply kept_setMode)

theorem kept_standingVote (s₀ : State) (s : State)  (hk : Keeps s₀ s) : Keeps s₀ (standingVote s) := by
  unfold standingVote
  repeat' first
    | (with_reducible first | assumption | intro _)
    | split
    | (with_reducible apply keeps_upd; with_reducible first | assumption)

theorem kept_catchUp (s₀ : State) (s : State)  (hk : Keeps s₀ s) : Keeps s₀ (catchUp s) := by
  unfold catchUp
  repeat' first
    | (with_reducible first | assumption | intro _)
    | (extract_lets +onlyGivenNames x
       first
       | (refine keeps_let (s₀ := s₀) (s := x) ?_ ?_ <;> first | (intro hx; clear_value x) | subst x)
       | subst x)
    | split
    | (with_reducible first | apply kept_applyRel | apply kept_stopClock | apply kept_runStart | apply kept_standingVote
                            | apply kept_runField | apply kept_captureStart)
    | (with_reducible apply keeps_upd; with_reducible first | assumption | apply kept_applyRel | apply kept_stopClock
                                                             | apply kept_runStart | apply kept_standingVote
                                                             | apply kept_runField | apply kept_captureStart)

theorem kept_laneTake (s₀ : State) (due : List Dest) (s : State) (i : Nat)  (hk : Keeps s₀ s) : Keeps s₀ (laneTake due s i) := by
  unfold laneTake
  repeat' first
    | (with_reducible first | assumption | intro _)
    | (extract_lets +onlyGivenNames x
       first
       | (refine keeps_let (s₀ := s₀) (s := x) ?_ ?_ <;> first | (intro hx; clear_value x) | subst x)
       | subst x)
    | split
    | (with_reducible first | apply kept_State_setLane)

theorem kept_hubTake (s₀ : State) (p : Nat) (s : State)  (hk : Keeps s₀ s) : Keeps s₀ (hubTake p s) := by
  unfold hubTake
  repeat' first
    | (with_reducible first | assumption | intro _)
    | split
    | (with_reducible first | apply kept_laneTake | apply kept_foldl)
    | (with_reducible apply keeps_upd; with_reducible first | assumption | apply kept_laneTake | apply kept_foldl)

theorem kept_hubPlace (s₀ : State) (t : Nat) (c : Nat) (s : State)  (hk : Keeps s₀ s) : Keeps s₀ (hubPlace t c s) := by
  unfold hubPlace
  repeat' first
    | (with_reducible first | assumption | intro _)
    | split
    | (with_reducible first | apply kept_placeHub | apply kept_foldl)

theorem kept_stepPos (s₀ : State) (p : Nat) (c : Nat) (s : State)  (hk : Keeps s₀ s) : Keeps s₀ (stepPos p c s) := by
  unfold stepPos
  repeat' first
    | (with_reducible first | assumption | intro _)
    | split
    | (with_reducible first | apply kept_hubTake | apply kept_probeReads | apply kept_arrayStep | apply kept_chnSlots
                            | apply kept_hubPlace | apply kept_State_addPair)

theorem kept_tickDomains (s₀ : State) (c : Nat) (s : State)  (hk : Keeps s₀ s) : Keeps s₀ (tickDomains c s) := by
  unfold tickDomains
  repeat' first
    | (with_reducible first | assumption | intro _)
    | split
    | (with_reducible apply keeps_upd; with_reducible first | assumption)

theorem kept_releaseCycle (s₀ : State) (tok : Option CycleTok) (s : State)  (hk : Keeps s₀ s) : Keeps s₀ (releaseCycle tok s) := by
  unfold releaseCycle
  repeat' first
    | (with_reducible first | assumption | intro _)
    | split
    | (with_reducible first | apply kept_State_setFld)
    | (with_reducible apply keeps_upd; with_reducible first | assumption | apply kept_State_setFld)

theorem kept_boundarySnap (s₀ : State) (c : Nat) (s : State)  (hk : Keeps s₀ s) : Keeps s₀ (boundarySnap c s) := by
  unfold boundarySnap
  repeat' first
    | (with_reducible first | assumption | intro _)
    | (extract_lets +onlyGivenNames x
       first
       | (refine keeps_let (s₀ := s₀) (s := x) ?_ ?_ <;> first | (intro hx; clear_value x) | subst x)
       | subst x)
    | split
    | (with_reducible first | apply kept_flashCopy | apply outKeeps_next | exact outKeeps_refused | apply optKeeps_some
                            | exact optKeeps_none | apply optKeeps_map)
    | dsimp -zeta only
    | (with_reducible apply keeps_upd; with_reducible first | assumption | apply kept_flashCopy | apply outKeeps_next
                                                             | exact outKeeps_refused | apply optKeeps_some
                                                             | exact optKeeps_none | apply optKeeps_map)

theorem kept_boundaryGrain (s₀ : State) (s : State)  (hk : Keeps s₀ s) : Keeps s₀ (boundaryGrain s) := by
  unfold boundaryGrain
  repeat' first
    | (with_reducible first | assumption | intro _)
    | split
    | (with_reducible first | apply kept_endRecords | apply kept_chnBoundary | apply kept_writeRecords | apply kept_autoFire
                            | apply kept_goComplete | apply kept_boundarySnap | apply kept_releaseCycle
                            | apply kept_tickDomains | apply kept_dueField | apply kept_boundaryFlags
                            | apply kept_State_addPair)
    | (with_reducible apply keeps_upd; with_reducible first | assumption | apply kept_endRecords | apply kept_chnBoundary
                                                             | apply kept_writeRecords | apply kept_autoFire
                                                             | apply kept_goComplete | apply kept_boundarySnap
                                                             | apply kept_releaseCycle | apply kept_tickDomains
                                                             | apply kept_dueField | apply kept_boundaryFlags
                                                             | apply kept_State_addPair)

theorem kept_tokenGrain (s₀ : State) (s : State)  (hk : Keeps s₀ s) : Keeps s₀ (tokenGrain s) := by
  unfold tokenGrain
  repeat' first
    | (with_reducible first | assumption | intro _)
    | (extract_lets +onlyGivenNames x
       first
       | (refine keeps_let (s₀ := s₀) (s := x) ?_ ?_ <;> first | (intro hx; clear_value x) | subst x)
       | subst x)
    | split
    | (with_reducible first | apply kept_updThr | apply kept_State_relay | apply kept_cymReset | apply kept_cymSend)
    | (with_reducible apply keeps_upd; with_reducible first | assumption | apply kept_updThr | apply kept_State_relay
                                                             | apply kept_cymReset | apply kept_cymSend)

theorem kept_scrupleGrain (s₀ : State) (k : Nat) (s : State)  (hk : Keeps s₀ s) : Keeps s₀ (scrupleGrain k s) := by
  unfold scrupleGrain
  repeat' first
    | (with_reducible first | assumption | intro _)
    | split
    | (with_reducible first | apply kept_State_addPair | apply kept_startOut | apply kept_scrupleClear | apply kept_comparators
                            | apply kept_sequencer | apply kept_boundaryGrain | apply kept_triggerActions
                            | apply kept_tokenGrain)

theorem kept_heldGrain (s₀ : State) (g : Nat) (s : State)  (hk : Keeps s₀ s) : Keeps s₀ (heldGrain g s) := by
  unfold heldGrain
  repeat' first
    | (with_reducible first | assumption | intro _)
    | split
    | (with_reducible first | apply kept_holdCounts | apply kept_enterHold | apply kept_heldRecord | apply kept_chnGrain
                            | apply kept_overrunGrain)
    | (with_reducible apply keeps_upd; with_reducible first | assumption | apply kept_holdCounts | apply kept_enterHold
                                                             | apply kept_heldRecord | apply kept_chnGrain
                                                             | apply kept_overrunGrain)

theorem kept_executeGrain (s₀ : State) (s : State)  (hk : Keeps s₀ s) : Keeps s₀ (executeGrain s) := by
  unfold executeGrain
  repeat' first
    | (with_reducible first | assumption | intro _)
    | (extract_lets +onlyGivenNames x
       first
       | (refine keeps_let (s₀ := s₀) (s := x) ?_ ?_ <;> first | (intro hx; clear_value x) | subst x)
       | subst x)
    | split
    | (with_reducible first | apply kept_leagueLate | apply kept_leaveHold | apply kept_chnGrain | apply kept_duePoints
                            | apply kept_overrunGrain | apply kept_stepPos | apply kept_memAccesses
                            | apply kept_scrupleGrain)
    | (with_reducible apply keeps_upd; with_reducible first | assumption | apply kept_leagueLate | apply kept_leaveHold
                                                             | apply kept_chnGrain | apply kept_duePoints
                                                             | apply kept_overrunGrain | apply kept_stepPos
                                                             | apply kept_memAccesses | apply kept_scrupleGrain)

theorem kept_safeAfter (s₀ : State) (g : Nat) (p : Nat) (held : Bool) (s : State)  (hk : Keeps s₀ s) : Keeps s₀ (safeAfter g p held s) := by
  unfold safeAfter
  repeat' first
    | (with_reducible first | assumption | intro _)
    | (extract_lets +onlyGivenNames x
       first
       | (refine keeps_let (s₀ := s₀) (s := x) ?_ ?_ <;> first | (intro hx; clear_value x) | subst x)
       | subst x)
    | split
    | (with_reducible first | apply kept_enterSafe | apply kept_foldl)
    | (with_reducible apply keeps_upd; with_reducible first | assumption | apply kept_enterSafe | apply kept_foldl)

theorem kept_boundaryDump (s₀ : State) (s : State)  (hk : Keeps s₀ s) : Keeps s₀ (boundaryDump s) := by
  unfold boundaryDump
  repeat' first
    | (with_reducible first | assumption | intro _)
    | split
    | (with_reducible first | apply kept_dumpTake)

theorem kept_grainCount (s₀ : State) (s : State)  (hk : Keeps s₀ s) : Keeps s₀ (grainCount s) := by
  unfold grainCount
  repeat' first
    | (with_reducible first | assumption | intro _)
    | (extract_lets +onlyGivenNames x
       first
       | (refine keeps_let (s₀ := s₀) (s := x) ?_ ?_ <;> first | (intro hx; clear_value x) | subst x)
       | subst x)
    | split
    | (with_reducible first | apply kept_leagueAbort | apply kept_catchUp | apply kept_State_setFld | apply kept_snapGrain
                            | apply kept_heldGrain | apply kept_executeGrain | apply kept_safeAfter | apply kept_flagWork
                            | apply kept_noteVote | apply kept_boundaryDump | apply outKeeps_next | exact outKeeps_refused
                            | apply optKeeps_some | exact optKeeps_none)
    | dsimp -zeta only
    | (with_reducible apply keeps_upd; with_reducible first | assumption | apply kept_leagueAbort | apply kept_catchUp
                                                             | apply kept_State_setFld | apply kept_snapGrain
                                                             | apply kept_heldGrain | apply kept_executeGrain
                                                             | apply kept_safeAfter | apply kept_flagWork
                                                             | apply kept_noteVote | apply kept_boundaryDump)
  all_goals grind [kept_leagueAbort, kept_catchUp, kept_State_setFld, kept_snapGrain, kept_heldGrain, kept_executeGrain, kept_safeAfter, kept_flagWork, kept_noteVote, kept_boundaryDump, Keeps, held_rset, held_setAt_cores, held_setAt_lanes, held_filter_regs, held_map_cores, held_map_lanes, held_write1, held_write, held_clear, held_filter_mem, held_out, held_free, held_rbcnt]

theorem kept_grain (s₀ : State) (ups : List Upset) (s : State)  (hk : Keeps s₀ s) : Keeps s₀ (grain ups s) := by
  unfold grain
  repeat' first
    | (with_reducible first | assumption | intro _)
    | (extract_lets +onlyGivenNames x
       first
       | (refine keeps_let (s₀ := s₀) (s := x) ?_ ?_ <;> first | (intro hx; clear_value x) | subst x)
       | subst x)
    | split
    | (with_reducible first | apply kept_upset | apply kept_applyThr | apply kept_grainCount | apply kept_foldl)
    | (with_reducible apply keeps_upd; with_reducible first | assumption | apply kept_upset | apply kept_applyThr
                                                             | apply kept_grainCount | apply kept_foldl)

theorem kept_execGrain (s₀ : State) (ups : List Upset) (s : State)  (hk : Keeps s₀ s) : OutKeeps s₀ (execGrain ups s) := by
  unfold execGrain
  repeat' first
    | (with_reducible first | assumption | intro _)
    | split
    | (with_reducible first | apply kept_grain | apply outKeeps_next | exact outKeeps_refused | apply optKeeps_some
                            | exact optKeeps_none)
    | dsimp -zeta only

end Sys2Proof.Machine
end

