-- ==== Sys2Proof/Laws/KeptLinkWords.lean ====
section
/-! SUPPORT. LinkWords: each operation keeps what `Keeps` says. -/
namespace Sys2Proof.Machine

theorem kept_stampBody (s₀ : State) (n : Nat) (type : Nat) (body : Nat) (s : State)  (hk : Keeps s₀ s) : Keeps s₀ (stampBody n type body s).2 := by
  unfold stampBody
  repeat' first
    | (with_reducible first | assumption | intro _)
    | (extract_lets +onlyGivenNames x
       first
       | (refine keeps_let (s₀ := s₀) (s := x) ?_ ?_ <;> first | (intro hx; clear_value x) | subst x)
       | subst x)
    | split
    | (with_reducible first | apply kept_State_setLane)

theorem kept_restamp (s₀ : State) (n : Nat) (type : Nat) (body : Nat) (s : State)  (hk : Keeps s₀ s) : Keeps s₀ (restamp n type body s).2 := by
  unfold restamp
  repeat' first
    | (with_reducible first | assumption | intro _)
    | (extract_lets +onlyGivenNames x
       first
       | (refine keeps_let (s₀ := s₀) (s := x) ?_ ?_ <;> first | (intro hx; clear_value x) | subst x)
       | subst x)
    | split
    | (with_reducible first | apply kept_State_setLane | apply outKeeps_next | exact outKeeps_refused | apply optKeeps_some
                            | exact optKeeps_none)
    | dsimp -zeta only
    | (with_reducible apply keeps_upd; with_reducible first | assumption | apply kept_State_setLane)
  all_goals grind [kept_State_setLane, Keeps, held_rset, held_setAt_cores, held_setAt_lanes, held_filter_regs, held_map_cores, held_map_lanes, held_write1, held_write, held_clear, held_filter_mem, held_out, held_free, held_rbcnt]

theorem kept_sendWord (s₀ : State) (n : Nat) (k : Nat) (type : Nat) (seq : Nat) (body : Nat) (s : State)  (hk : Keeps s₀ s) : Keeps s₀ (sendWord n k type seq body s) := by
  unfold sendWord
  repeat' first
    | (with_reducible first | assumption | intro _)
    | split
    | (with_reducible first | apply kept_State_setLane | apply keeps_getD)

theorem kept_issueNew (s₀ : State) (n : Nat) (k : Nat) (type : Nat) (body : Nat) (s : State)  (hk : Keeps s₀ s) : Keeps s₀ (issueNew n k type body s) := by
  unfold issueNew
  repeat' first
    | (with_reducible first | assumption | intro _)
    | split
    | (with_reducible first | apply kept_stampBody | apply kept_State_setLane | apply kept_sendWord)

theorem kept_trainSend (s₀ : State) (n : Nat) (k : Nat) (s : State)  (hk : Keeps s₀ s) : Keeps s₀ (trainSend n k s) := by
  unfold trainSend
  repeat' first
    | (with_reducible first | assumption | intro _)
    | (extract_lets +onlyGivenNames x
       first
       | (refine keeps_let (s₀ := s₀) (s := x) ?_ ?_ <;> first | (intro hx; clear_value x) | subst x)
       | subst x)
    | split
    | (with_reducible first | apply kept_State_setLane | apply outKeeps_next | exact outKeeps_refused | apply optKeeps_some
                            | exact optKeeps_none)
    | dsimp -zeta only
    | (with_reducible apply keeps_upd; with_reducible first | assumption | apply kept_State_setLane)
  all_goals grind [kept_State_setLane, Keeps, held_rset, held_setAt_cores, held_setAt_lanes, held_filter_regs, held_map_cores, held_map_lanes, held_write1, held_write, held_clear, held_filter_mem, held_out, held_free, held_rbcnt]

theorem kept_wordIssue (s₀ : State) (n : Nat) (k : Nat) (s : State)  (hk : Keeps s₀ s) : Keeps s₀ (wordIssue n k s) := by
  unfold wordIssue
  repeat' first
    | (with_reducible first | assumption | intro _)
    | (extract_lets +onlyGivenNames x
       first
       | (refine keeps_let (s₀ := s₀) (s := x) ?_ ?_ <;> first | (intro hx; clear_value x) | subst x)
       | subst x)
    | split
    | (with_reducible first | apply kept_restamp | apply kept_State_setLane | apply kept_sendWord | apply kept_trainSend
                            | apply kept_issueNew)

theorem kept_execLinkWordIssue (s₀ : State) (port : Nat) (group : Nat) (s : State)  (hk : Keeps s₀ s) : OutKeeps s₀ (execLinkWordIssue port group s) := by
  unfold execLinkWordIssue
  repeat' first
    | (with_reducible first | assumption | intro _)
    | split
    | (with_reducible first | apply kept_wordIssue | apply outKeeps_next | exact outKeeps_refused | apply optKeeps_some
                            | exact optKeeps_none)
    | dsimp -zeta only

theorem kept_markerSend (s₀ : State) (n : Nat) (k : Nat) (s : State)  (hk : Keeps s₀ s) : Keeps s₀ (markerSend n k s) := by
  unfold markerSend
  repeat' first
    | (with_reducible first | assumption | intro _)
    | (extract_lets +onlyGivenNames x
       first
       | (refine keeps_let (s₀ := s₀) (s := x) ?_ ?_ <;> first | (intro hx; clear_value x) | subst x)
       | subst x)
    | split
    | (with_reducible first | apply kept_State_setLane)

theorem kept_execAlignMarkerSend (s₀ : State) (port : Nat) (group : Nat) (s : State)  (hk : Keeps s₀ s) : OutKeeps s₀ (execAlignMarkerSend port group s) := by
  unfold execAlignMarkerSend
  repeat' first
    | (with_reducible first | assumption | intro _)
    | split
    | (with_reducible first | apply kept_markerSend | apply outKeeps_next | exact outKeeps_refused | apply optKeeps_some
                            | exact optKeeps_none)
    | dsimp -zeta only

theorem kept_takeNak (s₀ : State) (n : Nat) (k : Nat) (ack : Nat) (nak : Bool) (s : State)  (hk : Keeps s₀ s) : Keeps s₀ (takeNak n k ack nak s) := by
  unfold takeNak
  repeat' first
    | (with_reducible first | assumption | intro _)
    | (extract_lets +onlyGivenNames x
       first
       | (refine keeps_let (s₀ := s₀) (s := x) ?_ ?_ <;> first | (intro hx; clear_value x) | subst x)
       | subst x)
    | split
    | (with_reducible first | apply kept_State_setLane | apply kept_toDetect)

theorem kept_discardWord (s₀ : State) (n : Nat) (k : Nat) (bad : Bool) (s : State)  (hk : Keeps s₀ s) : Keeps s₀ (discardWord n k bad s) := by
  unfold discardWord
  repeat' first
    | (with_reducible first | assumption | intro _)
    | (extract_lets +onlyGivenNames x
       first
       | (refine keeps_let (s₀ := s₀) (s := x) ?_ ?_ <;> first | (intro hx; clear_value x) | subst x)
       | subst x)
    | split
    | (with_reducible first | apply kept_State_count | apply kept_State_setLane | apply kept_State_setFld | apply kept_raiseIf
                            | apply kept_updateLaneHold)

theorem kept_takeCym (s₀ : State) (n : Nat) (k : Nat) (cyc : Nat) (nprev : Nat) (s : State)  (hk : Keeps s₀ s) : Keeps s₀ (takeCym n k cyc nprev s) := by
  unfold takeCym
  repeat' first
    | (with_reducible first | assumption | intro _)
    | (extract_lets +onlyGivenNames x
       first
       | (refine keeps_let (s₀ := s₀) (s := x) ?_ ?_ <;> first | (intro hx; clear_value x) | subst x)
       | subst x)
    | split
    | (with_reducible first | apply kept_State_setLane | apply kept_lockstepError)

theorem kept_takeData (s₀ : State) (n : Nat) (k : Nat) (body : Nat) (s : State)  (hk : Keeps s₀ s) : Keeps s₀ (takeData n k body s) := by
  unfold takeData
  repeat' first
    | (with_reducible first | assumption | intro _)
    | split
    | (with_reducible first | apply kept_State_setLane)

theorem kept_takeCap (s₀ : State) (n : Nat) (k : Nat) (body : Nat) (s : State)  (hk : Keeps s₀ s) : Keeps s₀ (takeCap n k body s) := by
  unfold takeCap
  repeat' first
    | (with_reducible first | assumption | intro _)
    | (extract_lets +onlyGivenNames x
       first
       | (refine keeps_let (s₀ := s₀) (s := x) ?_ ?_ <;> first | (intro hx; clear_value x) | subst x)
       | subst x)
    | split
    | (with_reducible first | apply kept_toDetect | apply kept_State_setLane | apply kept_State_setFlds
                            | apply kept_State_setPair | apply kept_portCheck | apply kept_raise)

theorem kept_takeToken (s₀ : State) (n : Nat) (body : Nat) (s : State)  (hk : Keeps s₀ s) : Keeps s₀ (takeToken n body s) := by
  unfold takeToken
  repeat' first
    | (with_reducible first | assumption | intro _)
    | split
    | (with_reducible first | apply kept_cycleReceive | apply kept_voteReceive | apply kept_startReceive
                            | apply kept_rateReceive | apply kept_tbsyncReceive | apply kept_formReceive
                            | apply kept_formedReceive | apply kept_toDetect)

theorem kept_takeTime (s₀ : State) (n : Nat) (body : Nat) (s : State)  (hk : Keeps s₀ s) : Keeps s₀ (takeTime n body s) := by
  unfold takeTime
  repeat' first
    | (with_reducible first | assumption | intro _)
    | (extract_lets +onlyGivenNames x
       first
       | (refine keeps_let (s₀ := s₀) (s := x) ?_ ?_ <;> first | (intro hx; clear_value x) | subst x)
       | subst x)
    | split
    | (with_reducible first | apply kept_State_setLane | apply kept_timeFollow | apply kept_toDetect)

theorem kept_takeLgs (s₀ : State) (n : Nat) (k : Nat) (lgs : Nat) (s : State)  (hk : Keeps s₀ s) : Keeps s₀ (takeLgs n k lgs s) := by
  unfold takeLgs
  repeat' first
    | (with_reducible first | assumption | intro _)
    | (extract_lets +onlyGivenNames x
       first
       | (refine keeps_let (s₀ := s₀) (s := x) ?_ ?_ <;> first | (intro hx; clear_value x) | subst x)
       | subst x)
    | split
    | (with_reducible first | apply kept_State_setLane | apply kept_leagueLate)

theorem kept_setPlace (s₀ : State) (n : Nat) (k : Nat) (since : Nat) (missed : Nat) (found : Nat) (s : State)  (hk : Keeps s₀ s) : Keeps s₀ (setPlace n k since missed found s) := by
  unfold setPlace
  repeat' first
    | (with_reducible first | assumption | intro _)
    | (extract_lets +onlyGivenNames x
       first
       | (refine keeps_let (s₀ := s₀) (s := x) ?_ ?_ <;> first | (intro hx; clear_value x) | subst x)
       | subst x)
    | split
    | (with_reducible first | apply kept_State_setLane | apply outKeeps_next | exact outKeeps_refused | apply optKeeps_some
                            | exact optKeeps_none)
    | dsimp -zeta only
    | (with_reducible apply keeps_upd; with_reducible first | assumption | apply kept_State_setLane)
  all_goals grind [kept_State_setLane, Keeps, held_rset, held_setAt_cores, held_setAt_lanes, held_filter_regs, held_map_cores, held_map_lanes, held_write1, held_write, held_clear, held_filter_mem, held_out, held_free, held_rbcnt]

theorem kept_markerReceive (s₀ : State) (n : Nat) (k : Nat) (s : State)  (hk : Keeps s₀ s) : Keeps s₀ (markerReceive n k s) := by
  unfold markerReceive
  repeat' first
    | (with_reducible first | assumption | intro _)
    | (extract_lets +onlyGivenNames x
       first
       | (refine keeps_let (s₀ := s₀) (s := x) ?_ ?_ <;> first | (intro hx; clear_value x) | subst x)
       | subst x)
    | split
    | (with_reducible first | apply kept_State_setLane | apply kept_setPlace | apply kept_toDetect | apply outKeeps_next
                            | exact outKeeps_refused | apply optKeeps_some | exact optKeeps_none)
    | dsimp -zeta only
    | (with_reducible apply keeps_upd; with_reducible first | assumption | apply kept_State_setLane | apply kept_setPlace
                                                             | apply kept_toDetect)
  all_goals grind [kept_State_setLane, kept_setPlace, kept_toDetect, Keeps, held_rset, held_setAt_cores, held_setAt_lanes, held_filter_regs, held_map_cores, held_map_lanes, held_write1, held_write, held_clear, held_filter_mem, held_out, held_free, held_rbcnt]

theorem kept_takePlace (s₀ : State) (n : Nat) (k : Nat) (s : State)  (hk : Keeps s₀ s) : Keeps s₀ (takePlace n k s) := by
  unfold takePlace
  repeat' first
    | (with_reducible first | assumption | intro _)
    | (extract_lets +onlyGivenNames x
       first
       | (refine keeps_let (s₀ := s₀) (s := x) ?_ ?_ <;> first | (intro hx; clear_value x) | subst x)
       | subst x)
    | split
    | (with_reducible first | apply kept_setPlace | apply kept_toDetect | apply outKeeps_next | exact outKeeps_refused
                            | apply optKeeps_some | exact optKeeps_none)
    | dsimp -zeta only
    | (with_reducible apply keeps_upd; with_reducible first | assumption | apply kept_setPlace | apply kept_toDetect)
  all_goals grind [kept_setPlace, kept_toDetect, Keeps, held_rset, held_setAt_cores, held_setAt_lanes, held_filter_regs, held_map_cores, held_map_lanes, held_write1, held_write, held_clear, held_filter_mem, held_out, held_free, held_rbcnt]

theorem kept_acceptWord (s₀ : State) (n : Nat) (k : Nat) (type : Nat) (body : Nat) (s : State)  (hk : Keeps s₀ s) : Keeps s₀ (acceptWord n k type body s) := by
  unfold acceptWord
  repeat' first
    | (with_reducible first | assumption | intro _)
    | (extract_lets +onlyGivenNames x
       first
       | (refine keeps_let (s₀ := s₀) (s := x) ?_ ?_ <;> first | (intro hx; clear_value x) | subst x)
       | subst x)
    | split
    | (with_reducible first | apply kept_takeData | apply kept_takeCym | apply kept_takeTime | apply kept_takeCap)

theorem kept_wordReceive (s₀ : State) (n : Nat) (k : Nat) (w : Nat) (stuffErr : Bool) (s : State)  (hk : Keeps s₀ s) : Keeps s₀ (wordReceive n k w stuffErr s) := by
  unfold wordReceive
  repeat' first
    | (with_reducible first | assumption | intro _)
    | (extract_lets +onlyGivenNames x
       first
       | (refine keeps_let (s₀ := s₀) (s := x) ?_ ?_ <;> first | (intro hx; clear_value x) | subst x)
       | subst x)
    | split
    | (with_reducible first | apply kept_discardWord | apply kept_toDetect | apply kept_takeNak | apply kept_takeLgs
                            | apply kept_takeToken | apply kept_State_setLane | apply kept_State_setFld
                            | apply kept_acceptWord | apply kept_updateLaneHold)

theorem kept_lanesReceive (s₀ : State) (n : Nat) (k : Nat) (lanes : List (List Bool)) (s : State)  (hk : Keeps s₀ s) : Keeps s₀ (lanesReceive n k lanes s) := by
  unfold lanesReceive
  repeat' first
    | (with_reducible first | assumption | intro _)
    | (extract_lets +onlyGivenNames x
       first
       | (refine keeps_let (s₀ := s₀) (s := x) ?_ ?_ <;> first | (intro hx; clear_value x) | subst x)
       | subst x)
    | split
    | (with_reducible first | apply kept_markerReceive | apply kept_takePlace | apply kept_State_setLane
                            | apply kept_wordReceive | apply outKeeps_next | exact outKeeps_refused | apply optKeeps_some
                            | exact optKeeps_none)
    | dsimp -zeta only
    | (with_reducible apply keeps_upd; with_reducible first | assumption | apply kept_markerReceive | apply kept_takePlace
                                                             | apply kept_State_setLane | apply kept_wordReceive)
  all_goals grind [kept_markerReceive, kept_takePlace, kept_State_setLane, kept_wordReceive, Keeps, held_rset, held_setAt_cores, held_setAt_lanes, held_filter_regs, held_map_cores, held_map_lanes, held_write1, held_write, held_clear, held_filter_mem, held_out, held_free, held_rbcnt]

theorem kept_execLinkWordReceive (s₀ : State) (port : Nat) (group : Nat) (low : List (List Bool)) (high : List (List Bool)) (clock : Bool) (s : State)  (hk : Keeps s₀ s) : OutKeeps s₀ (execLinkWordReceive port group low high clock s) := by
  unfold execLinkWordReceive
  repeat' first
    | (with_reducible first | assumption | intro _)
    | split
    | (with_reducible first | apply kept_autoForm | apply kept_lanesReceive | apply outKeeps_next | exact outKeeps_refused
                            | apply optKeeps_some | exact optKeeps_none)
    | dsimp -zeta only

end Sys2Proof.Machine
end

