-- ==== Sys2Proof/Laws/KeptTick.lean ====
section
/-! SUPPORT. Tick: each operation keeps what `Keeps` says. -/
namespace Sys2Proof.Machine

theorem kept_coreTick (s₀ : State) (n : Nat) (s : State)  (hk : Keeps s₀ s) : Keeps s₀ (coreTick n s) := by
  unfold coreTick
  repeat' first
    | (with_reducible first | assumption | intro _)
    | (extract_lets +onlyGivenNames x
       first
       | (refine keeps_let (s₀ := s₀) (s := x) ?_ ?_ <;> first | (intro hx; clear_value x) | subst x)
       | subst x)
    | split
    | (with_reducible first | apply keeps_setCore_reset | apply keeps_setCore_upd | apply kept_pmcCount
                            | apply kept_State_setSrc | apply kept_pmcOccupy)

theorem kept_usTick (s₀ : State) (s : State)  (hk : Keeps s₀ s) : Keeps s₀ (usTick s) := by
  unfold usTick
  repeat' first
    | (with_reducible first | assumption | intro _)
    | (extract_lets +onlyGivenNames x
       first
       | (refine keeps_let (s₀ := s₀) (s := x) ?_ ?_ <;> first | (intro hx; clear_value x) | subst x)
       | subst x)
    | split
    | (with_reducible first | apply kept_State_count | apply kept_State_setFld | apply kept_foldl)

theorem kept_coreDomainTick (s₀ : State) (s : State)  (hk : Keeps s₀ s) : Keeps s₀ (coreDomainTick s) := by
  unfold coreDomainTick
  repeat' first
    | (with_reducible first | assumption | intro _)
    | (extract_lets +onlyGivenNames x
       first
       | (refine keeps_let (s₀ := s₀) (s := x) ?_ ?_ <;> first | (intro hx; clear_value x) | subst x)
       | subst x)
    | split
    | (with_reducible first | apply kept_coreTick | apply kept_usTick | apply kept_raise | apply kept_foldl)
    | (with_reducible apply keeps_upd; with_reducible first | assumption | apply kept_coreTick | apply kept_usTick
                                                             | apply kept_raise | apply kept_foldl)

theorem kept_mcSources (s₀ : State) (s : State)  (hk : Keeps s₀ s) : Keeps s₀ (mcSources s) := by
  unfold mcSources
  repeat' first
    | (with_reducible first | assumption | intro _)
    | (extract_lets +onlyGivenNames x
       first
       | (refine keeps_let (s₀ := s₀) (s := x) ?_ ?_ <;> first | (intro hx; clear_value x) | subst x)
       | subst x)
    | split
    | (with_reducible first | apply kept_State_freshNat | apply kept_foldl | apply outKeeps_next | exact outKeeps_refused
                            | apply optKeeps_some | exact optKeeps_none | refine keeps_pair ?_ (by assumption)
                            | refine keeps_triple ?_ (by assumption))
    | dsimp -zeta only
    | (with_reducible apply keeps_upd; with_reducible first | assumption | apply kept_State_freshNat | apply kept_foldl)
  all_goals grind [kept_State_freshNat, kept_foldl, Keeps, held_rset, held_setAt_cores, held_setAt_lanes, held_filter_regs, held_map_cores, held_map_lanes, held_write1, held_write, held_clear, held_filter_mem, held_out, held_free, held_rbcnt]

theorem kept_mcTick (s₀ : State) (s : State)  (hk : Keeps s₀ s) : Keeps s₀ (mcTick s) := by
  unfold mcTick
  repeat' first
    | (with_reducible first | assumption | intro _)
    | (extract_lets +onlyGivenNames x
       first
       | (refine keeps_let (s₀ := s₀) (s := x) ?_ ?_ <;> first | (intro hx; clear_value x) | subst x)
       | subst x)
    | split
    | (with_reducible apply keeps_upd; with_reducible first | assumption)

theorem kept_tick (s₀ : State) (s : State)  (hk : Keeps s₀ s) : Keeps s₀ (tick s) := by
  unfold tick
  repeat' first
    | (with_reducible first | assumption | intro _)
    | (extract_lets +onlyGivenNames x
       first
       | (refine keeps_let (s₀ := s₀) (s := x) ?_ ?_ <;> first | (intro hx; clear_value x) | subst x)
       | subst x)
    | split
    | (with_reducible first | apply kept_coreTick | apply kept_mcTick | apply kept_mcSources | apply kept_coreDomainTick
                            | apply outKeeps_next | exact outKeeps_refused | apply optKeeps_some | exact optKeeps_none)
    | dsimp -zeta only
    | (with_reducible apply keeps_upd; with_reducible first | assumption | apply kept_coreTick | apply kept_mcTick
                                                             | apply kept_mcSources | apply kept_coreDomainTick)
  all_goals grind [kept_coreTick, kept_mcTick, kept_mcSources, kept_coreDomainTick, Keeps, held_rset, held_setAt_cores, held_setAt_lanes, held_filter_regs, held_map_cores, held_map_lanes, held_write1, held_write, held_clear, held_filter_mem, held_out, held_free, held_rbcnt]

end Sys2Proof.Machine
end

