-- ==== Sys2Proof/Laws/KeptUc32.lean ====
section
/-! SUPPORT. Uc32: each operation keeps what `Keeps` says. -/
namespace Sys2Proof.Machine

theorem kept_alu (s₀ : State) (n : Nat) (fn : Nat) (rd : BitVec 5) (ra : BitVec 5) (rb : BitVec 5) (f : Word → Word → Word) (s : State)  (hk : Keeps s₀ s) : OutKeeps s₀ (alu n fn rd ra rb f s) := by
  unfold alu
  repeat' first
    | (with_reducible first | assumption | intro _)
    | (extract_lets +onlyGivenNames x
       first
       | (refine keeps_let (s₀ := s₀) (s := x) ?_ ?_ <;> first | (intro hx; clear_value x) | subst x)
       | subst x)
    | split
    | (with_reducible first | apply kept_uc | apply kept_result | apply outKeeps_next | exact outKeeps_refused
                            | apply optKeeps_some | exact optKeeps_none | apply reachKeeps_done | apply reachKeeps_fault
                            | exact reachKeeps_stall | exact reachKeeps_peripheral)
    | dsimp -zeta only
    | (with_reducible apply keeps_upd; with_reducible first | assumption | apply kept_uc | apply kept_result)
  all_goals grind [kept_uc, kept_result, Keeps, held_rset, held_setAt_cores, held_setAt_lanes, held_filter_regs, held_map_cores, held_map_lanes, held_write1, held_write, held_clear, held_filter_mem, held_out, held_free, held_rbcnt]

theorem kept_aluImm (s₀ : State) (n : Nat) (op : Nat) (rd : BitVec 5) (ra : BitVec 5) (imm : BitVec 16) (f : Word → Word) (s : State)  (hk : Keeps s₀ s) : OutKeeps s₀ (aluImm n op rd ra imm f s) := by
  unfold aluImm
  repeat' first
    | (with_reducible first | assumption | intro _)
    | (extract_lets +onlyGivenNames x
       first
       | (refine keeps_let (s₀ := s₀) (s := x) ?_ ?_ <;> first | (intro hx; clear_value x) | subst x)
       | subst x)
    | split
    | (with_reducible first | apply kept_uc | apply kept_result | apply outKeeps_next | exact outKeeps_refused
                            | apply optKeeps_some | exact optKeeps_none | apply reachKeeps_done | apply reachKeeps_fault
                            | exact reachKeeps_stall | exact reachKeeps_peripheral)
    | dsimp -zeta only
    | (with_reducible apply keeps_upd; with_reducible first | assumption | apply kept_uc | apply kept_result)
  all_goals grind [kept_uc, kept_result, Keeps, held_rset, held_setAt_cores, held_setAt_lanes, held_filter_regs, held_map_cores, held_map_lanes, held_write1, held_write, held_clear, held_filter_mem, held_out, held_free, held_rbcnt]

theorem kept_execUcAdd (s₀ : State) (n : Nat) (rd : BitVec 5) (ra : BitVec 5) (rb : BitVec 5) (s : State)  (hk : Keeps s₀ s) : OutKeeps s₀ (execUcAdd n rd ra rb s) := by
  unfold execUcAdd
  repeat' first
    | (with_reducible first | assumption | intro _)
    | split
    | (with_reducible first | apply kept_alu)

theorem kept_execUcSub (s₀ : State) (n : Nat) (rd : BitVec 5) (ra : BitVec 5) (rb : BitVec 5) (s : State)  (hk : Keeps s₀ s) : OutKeeps s₀ (execUcSub n rd ra rb s) := by
  unfold execUcSub
  repeat' first
    | (with_reducible first | assumption | intro _)
    | split
    | (with_reducible first | apply kept_alu)

theorem kept_execUcAnd (s₀ : State) (n : Nat) (rd : BitVec 5) (ra : BitVec 5) (rb : BitVec 5) (s : State)  (hk : Keeps s₀ s) : OutKeeps s₀ (execUcAnd n rd ra rb s) := by
  unfold execUcAnd
  repeat' first
    | (with_reducible first | assumption | intro _)
    | split
    | (with_reducible first | apply kept_alu)

theorem kept_execUcOr (s₀ : State) (n : Nat) (rd : BitVec 5) (ra : BitVec 5) (rb : BitVec 5) (s : State)  (hk : Keeps s₀ s) : OutKeeps s₀ (execUcOr n rd ra rb s) := by
  unfold execUcOr
  repeat' first
    | (with_reducible first | assumption | intro _)
    | split
    | (with_reducible first | apply kept_alu)

theorem kept_execUcXor (s₀ : State) (n : Nat) (rd : BitVec 5) (ra : BitVec 5) (rb : BitVec 5) (s : State)  (hk : Keeps s₀ s) : OutKeeps s₀ (execUcXor n rd ra rb s) := by
  unfold execUcXor
  repeat' first
    | (with_reducible first | assumption | intro _)
    | split
    | (with_reducible first | apply kept_alu)

theorem kept_execUcSll (s₀ : State) (n : Nat) (rd : BitVec 5) (ra : BitVec 5) (rb : BitVec 5) (s : State)  (hk : Keeps s₀ s) : OutKeeps s₀ (execUcSll n rd ra rb s) := by
  unfold execUcSll
  repeat' first
    | (with_reducible first | assumption | intro _)
    | split
    | (with_reducible first | apply kept_alu)

theorem kept_execUcSrl (s₀ : State) (n : Nat) (rd : BitVec 5) (ra : BitVec 5) (rb : BitVec 5) (s : State)  (hk : Keeps s₀ s) : OutKeeps s₀ (execUcSrl n rd ra rb s) := by
  unfold execUcSrl
  repeat' first
    | (with_reducible first | assumption | intro _)
    | split
    | (with_reducible first | apply kept_alu)

theorem kept_execUcSra (s₀ : State) (n : Nat) (rd : BitVec 5) (ra : BitVec 5) (rb : BitVec 5) (s : State)  (hk : Keeps s₀ s) : OutKeeps s₀ (execUcSra n rd ra rb s) := by
  unfold execUcSra
  repeat' first
    | (with_reducible first | assumption | intro _)
    | split
    | (with_reducible first | apply kept_alu)

theorem kept_execUcSlt (s₀ : State) (n : Nat) (rd : BitVec 5) (ra : BitVec 5) (rb : BitVec 5) (s : State)  (hk : Keeps s₀ s) : OutKeeps s₀ (execUcSlt n rd ra rb s) := by
  unfold execUcSlt
  repeat' first
    | (with_reducible first | assumption | intro _)
    | split
    | (with_reducible first | apply kept_alu)

theorem kept_execUcSltu (s₀ : State) (n : Nat) (rd : BitVec 5) (ra : BitVec 5) (rb : BitVec 5) (s : State)  (hk : Keeps s₀ s) : OutKeeps s₀ (execUcSltu n rd ra rb s) := by
  unfold execUcSltu
  repeat' first
    | (with_reducible first | assumption | intro _)
    | split
    | (with_reducible first | apply kept_alu)

theorem kept_execUcMul (s₀ : State) (n : Nat) (rd : BitVec 5) (ra : BitVec 5) (rb : BitVec 5) (s : State)  (hk : Keeps s₀ s) : OutKeeps s₀ (execUcMul n rd ra rb s) := by
  unfold execUcMul
  repeat' first
    | (with_reducible first | assumption | intro _)
    | split
    | (with_reducible first | apply kept_alu)

theorem kept_execUcMulh (s₀ : State) (n : Nat) (rd : BitVec 5) (ra : BitVec 5) (rb : BitVec 5) (s : State)  (hk : Keeps s₀ s) : OutKeeps s₀ (execUcMulh n rd ra rb s) := by
  unfold execUcMulh
  repeat' first
    | (with_reducible first | assumption | intro _)
    | split
    | (with_reducible first | apply kept_alu)

theorem kept_execUcMulhu (s₀ : State) (n : Nat) (rd : BitVec 5) (ra : BitVec 5) (rb : BitVec 5) (s : State)  (hk : Keeps s₀ s) : OutKeeps s₀ (execUcMulhu n rd ra rb s) := by
  unfold execUcMulhu
  repeat' first
    | (with_reducible first | assumption | intro _)
    | split
    | (with_reducible first | apply kept_alu)

theorem kept_execUcDiv (s₀ : State) (n : Nat) (rd : BitVec 5) (ra : BitVec 5) (rb : BitVec 5) (s : State)  (hk : Keeps s₀ s) : OutKeeps s₀ (execUcDiv n rd ra rb s) := by
  unfold execUcDiv
  repeat' first
    | (with_reducible first | assumption | intro _)
    | split
    | (with_reducible first | apply kept_alu)

theorem kept_execUcDivu (s₀ : State) (n : Nat) (rd : BitVec 5) (ra : BitVec 5) (rb : BitVec 5) (s : State)  (hk : Keeps s₀ s) : OutKeeps s₀ (execUcDivu n rd ra rb s) := by
  unfold execUcDivu
  repeat' first
    | (with_reducible first | assumption | intro _)
    | split
    | (with_reducible first | apply kept_alu)

theorem kept_execUcRem (s₀ : State) (n : Nat) (rd : BitVec 5) (ra : BitVec 5) (rb : BitVec 5) (s : State)  (hk : Keeps s₀ s) : OutKeeps s₀ (execUcRem n rd ra rb s) := by
  unfold execUcRem
  repeat' first
    | (with_reducible first | assumption | intro _)
    | split
    | (with_reducible first | apply kept_alu)

theorem kept_execUcRemu (s₀ : State) (n : Nat) (rd : BitVec 5) (ra : BitVec 5) (rb : BitVec 5) (s : State)  (hk : Keeps s₀ s) : OutKeeps s₀ (execUcRemu n rd ra rb s) := by
  unfold execUcRemu
  repeat' first
    | (with_reducible first | assumption | intro _)
    | split
    | (with_reducible first | apply kept_alu)

theorem kept_execUcAddi (s₀ : State) (n : Nat) (rd : BitVec 5) (ra : BitVec 5) (imm : BitVec 16) (s : State)  (hk : Keeps s₀ s) : OutKeeps s₀ (execUcAddi n rd ra imm s) := by
  unfold execUcAddi
  repeat' first
    | (with_reducible first | assumption | intro _)
    | split
    | (with_reducible first | apply kept_aluImm)

theorem kept_execUcAndi (s₀ : State) (n : Nat) (rd : BitVec 5) (ra : BitVec 5) (imm : BitVec 16) (s : State)  (hk : Keeps s₀ s) : OutKeeps s₀ (execUcAndi n rd ra imm s) := by
  unfold execUcAndi
  repeat' first
    | (with_reducible first | assumption | intro _)
    | split
    | (with_reducible first | apply kept_aluImm)

theorem kept_execUcOri (s₀ : State) (n : Nat) (rd : BitVec 5) (ra : BitVec 5) (imm : BitVec 16) (s : State)  (hk : Keeps s₀ s) : OutKeeps s₀ (execUcOri n rd ra imm s) := by
  unfold execUcOri
  repeat' first
    | (with_reducible first | assumption | intro _)
    | split
    | (with_reducible first | apply kept_aluImm)

theorem kept_execUcXori (s₀ : State) (n : Nat) (rd : BitVec 5) (ra : BitVec 5) (imm : BitVec 16) (s : State)  (hk : Keeps s₀ s) : OutKeeps s₀ (execUcXori n rd ra imm s) := by
  unfold execUcXori
  repeat' first
    | (with_reducible first | assumption | intro _)
    | split
    | (with_reducible first | apply kept_aluImm)

theorem kept_execUcSlti (s₀ : State) (n : Nat) (rd : BitVec 5) (ra : BitVec 5) (imm : BitVec 16) (s : State)  (hk : Keeps s₀ s) : OutKeeps s₀ (execUcSlti n rd ra imm s) := by
  unfold execUcSlti
  repeat' first
    | (with_reducible first | assumption | intro _)
    | split
    | (with_reducible first | apply kept_aluImm)

theorem kept_execUcSltiu (s₀ : State) (n : Nat) (rd : BitVec 5) (ra : BitVec 5) (imm : BitVec 16) (s : State)  (hk : Keeps s₀ s) : OutKeeps s₀ (execUcSltiu n rd ra imm s) := by
  unfold execUcSltiu
  repeat' first
    | (with_reducible first | assumption | intro _)
    | split
    | (with_reducible first | apply kept_aluImm)

theorem kept_execUcSlli (s₀ : State) (n : Nat) (rd : BitVec 5) (ra : BitVec 5) (imm : BitVec 16) (s : State)  (hk : Keeps s₀ s) : OutKeeps s₀ (execUcSlli n rd ra imm s) := by
  unfold execUcSlli
  repeat' first
    | (with_reducible first | assumption | intro _)
    | split
    | (with_reducible first | apply kept_aluImm)

theorem kept_execUcSrli (s₀ : State) (n : Nat) (rd : BitVec 5) (ra : BitVec 5) (imm : BitVec 16) (s : State)  (hk : Keeps s₀ s) : OutKeeps s₀ (execUcSrli n rd ra imm s) := by
  unfold execUcSrli
  repeat' first
    | (with_reducible first | assumption | intro _)
    | split
    | (with_reducible first | apply kept_aluImm)

theorem kept_execUcSrai (s₀ : State) (n : Nat) (rd : BitVec 5) (ra : BitVec 5) (imm : BitVec 16) (s : State)  (hk : Keeps s₀ s) : OutKeeps s₀ (execUcSrai n rd ra imm s) := by
  unfold execUcSrai
  repeat' first
    | (with_reducible first | assumption | intro _)
    | split
    | (with_reducible first | apply kept_aluImm)

theorem kept_execUcLui (s₀ : State) (n : Nat) (rd : BitVec 5) (z : BitVec 5) (imm : BitVec 16) (s : State)  (hk : Keeps s₀ s) : OutKeeps s₀ (execUcLui n rd z imm s) := by
  unfold execUcLui
  repeat' first
    | (with_reducible first | assumption | intro _)
    | (extract_lets +onlyGivenNames x
       first
       | (refine keeps_let (s₀ := s₀) (s := x) ?_ ?_ <;> first | (intro hx; clear_value x) | subst x)
       | subst x)
    | split
    | (with_reducible first | apply kept_uc | apply kept_result | apply outKeeps_next | exact outKeeps_refused
                            | apply optKeeps_some | exact optKeeps_none | apply reachKeeps_done | apply reachKeeps_fault
                            | exact reachKeeps_stall | exact reachKeeps_peripheral)
    | dsimp -zeta only
    | (with_reducible apply keeps_upd; with_reducible first | assumption | apply kept_uc | apply kept_result)
  all_goals grind [kept_uc, kept_result, Keeps, held_rset, held_setAt_cores, held_setAt_lanes, held_filter_regs, held_map_cores, held_map_lanes, held_write1, held_write, held_clear, held_filter_mem, held_out, held_free, held_rbcnt]

theorem kept_execUcAuipc (s₀ : State) (n : Nat) (rd : BitVec 5) (z : BitVec 5) (imm : BitVec 16) (s : State)  (hk : Keeps s₀ s) : OutKeeps s₀ (execUcAuipc n rd z imm s) := by
  unfold execUcAuipc
  repeat' first
    | (with_reducible first | assumption | intro _)
    | (extract_lets +onlyGivenNames x
       first
       | (refine keeps_let (s₀ := s₀) (s := x) ?_ ?_ <;> first | (intro hx; clear_value x) | subst x)
       | subst x)
    | split
    | (with_reducible first | apply kept_uc | apply kept_result | apply outKeeps_next | exact outKeeps_refused
                            | apply optKeeps_some | exact optKeeps_none | apply reachKeeps_done | apply reachKeeps_fault
                            | exact reachKeeps_stall | exact reachKeeps_peripheral)
    | dsimp -zeta only
    | (with_reducible apply keeps_upd; with_reducible first | assumption | apply kept_uc | apply kept_result)
  all_goals grind [kept_uc, kept_result, Keeps, held_rset, held_setAt_cores, held_setAt_lanes, held_filter_regs, held_map_cores, held_map_lanes, held_write1, held_write, held_clear, held_filter_mem, held_out, held_free, held_rbcnt]

theorem kept_execUcLb (s₀ : State) (n : Nat) (rd : BitVec 5) (ra : BitVec 5) (imm : BitVec 16) (s : State)  (hk : Keeps s₀ s) : OutKeeps s₀ (execUcLb n rd ra imm s) := by
  unfold execUcLb
  repeat' first
    | (with_reducible first | assumption | intro _)
    | (extract_lets +onlyGivenNames x
       first
       | (refine keeps_let (s₀ := s₀) (s := x) ?_ ?_ <;> first | (intro hx; clear_value x) | subst x)
       | subst x)
    | split
    | (with_reducible first | apply kept_load | apply outKeeps_next | exact outKeeps_refused | apply optKeeps_some
                            | exact optKeeps_none | apply reachKeeps_done | apply reachKeeps_fault | exact reachKeeps_stall
                            | exact reachKeeps_peripheral)
    | dsimp -zeta only
    | (with_reducible apply keeps_upd; with_reducible first | assumption | apply kept_load)
  all_goals grind [kept_load, Keeps, held_rset, held_setAt_cores, held_setAt_lanes, held_filter_regs, held_map_cores, held_map_lanes, held_write1, held_write, held_clear, held_filter_mem, held_out, held_free, held_rbcnt]

theorem kept_execUcLbu (s₀ : State) (n : Nat) (rd : BitVec 5) (ra : BitVec 5) (imm : BitVec 16) (s : State)  (hk : Keeps s₀ s) : OutKeeps s₀ (execUcLbu n rd ra imm s) := by
  unfold execUcLbu
  repeat' first
    | (with_reducible first | assumption | intro _)
    | (extract_lets +onlyGivenNames x
       first
       | (refine keeps_let (s₀ := s₀) (s := x) ?_ ?_ <;> first | (intro hx; clear_value x) | subst x)
       | subst x)
    | split
    | (with_reducible first | apply kept_load | apply outKeeps_next | exact outKeeps_refused | apply optKeeps_some
                            | exact optKeeps_none | apply reachKeeps_done | apply reachKeeps_fault | exact reachKeeps_stall
                            | exact reachKeeps_peripheral)
    | dsimp -zeta only
    | (with_reducible apply keeps_upd; with_reducible first | assumption | apply kept_load)
  all_goals grind [kept_load, Keeps, held_rset, held_setAt_cores, held_setAt_lanes, held_filter_regs, held_map_cores, held_map_lanes, held_write1, held_write, held_clear, held_filter_mem, held_out, held_free, held_rbcnt]

theorem kept_execUcLh (s₀ : State) (n : Nat) (rd : BitVec 5) (ra : BitVec 5) (imm : BitVec 16) (s : State)  (hk : Keeps s₀ s) : OutKeeps s₀ (execUcLh n rd ra imm s) := by
  unfold execUcLh
  repeat' first
    | (with_reducible first | assumption | intro _)
    | (extract_lets +onlyGivenNames x
       first
       | (refine keeps_let (s₀ := s₀) (s := x) ?_ ?_ <;> first | (intro hx; clear_value x) | subst x)
       | subst x)
    | split
    | (with_reducible first | apply kept_load | apply outKeeps_next | exact outKeeps_refused | apply optKeeps_some
                            | exact optKeeps_none | apply reachKeeps_done | apply reachKeeps_fault | exact reachKeeps_stall
                            | exact reachKeeps_peripheral)
    | dsimp -zeta only
    | (with_reducible apply keeps_upd; with_reducible first | assumption | apply kept_load)
  all_goals grind [kept_load, Keeps, held_rset, held_setAt_cores, held_setAt_lanes, held_filter_regs, held_map_cores, held_map_lanes, held_write1, held_write, held_clear, held_filter_mem, held_out, held_free, held_rbcnt]

theorem kept_execUcLhu (s₀ : State) (n : Nat) (rd : BitVec 5) (ra : BitVec 5) (imm : BitVec 16) (s : State)  (hk : Keeps s₀ s) : OutKeeps s₀ (execUcLhu n rd ra imm s) := by
  unfold execUcLhu
  repeat' first
    | (with_reducible first | assumption | intro _)
    | (extract_lets +onlyGivenNames x
       first
       | (refine keeps_let (s₀ := s₀) (s := x) ?_ ?_ <;> first | (intro hx; clear_value x) | subst x)
       | subst x)
    | split
    | (with_reducible first | apply kept_load | apply outKeeps_next | exact outKeeps_refused | apply optKeeps_some
                            | exact optKeeps_none | apply reachKeeps_done | apply reachKeeps_fault | exact reachKeeps_stall
                            | exact reachKeeps_peripheral)
    | dsimp -zeta only
    | (with_reducible apply keeps_upd; with_reducible first | assumption | apply kept_load)
  all_goals grind [kept_load, Keeps, held_rset, held_setAt_cores, held_setAt_lanes, held_filter_regs, held_map_cores, held_map_lanes, held_write1, held_write, held_clear, held_filter_mem, held_out, held_free, held_rbcnt]

theorem kept_execUcLw (s₀ : State) (n : Nat) (rd : BitVec 5) (ra : BitVec 5) (imm : BitVec 16) (s : State)  (hk : Keeps s₀ s) : OutKeeps s₀ (execUcLw n rd ra imm s) := by
  unfold execUcLw
  repeat' first
    | (with_reducible first | assumption | intro _)
    | (extract_lets +onlyGivenNames x
       first
       | (refine keeps_let (s₀ := s₀) (s := x) ?_ ?_ <;> first | (intro hx; clear_value x) | subst x)
       | subst x)
    | split
    | (with_reducible first | apply kept_load | apply outKeeps_next | exact outKeeps_refused | apply optKeeps_some
                            | exact optKeeps_none | apply reachKeeps_done | apply reachKeeps_fault | exact reachKeeps_stall
                            | exact reachKeeps_peripheral)
    | dsimp -zeta only
    | (with_reducible apply keeps_upd; with_reducible first | assumption | apply kept_load)
  all_goals grind [kept_load, Keeps, held_rset, held_setAt_cores, held_setAt_lanes, held_filter_regs, held_map_cores, held_map_lanes, held_write1, held_write, held_clear, held_filter_mem, held_out, held_free, held_rbcnt]

theorem kept_execUcSb (s₀ : State) (n : Nat) (rd : BitVec 5) (ra : BitVec 5) (imm : BitVec 16) (s : State)  (hk : Keeps s₀ s) : OutKeeps s₀ (execUcSb n rd ra imm s) := by
  unfold execUcSb
  repeat' first
    | (with_reducible first | assumption | intro _)
    | (extract_lets +onlyGivenNames x
       first
       | (refine keeps_let (s₀ := s₀) (s := x) ?_ ?_ <;> first | (intro hx; clear_value x) | subst x)
       | subst x)
    | split
    | (with_reducible first | apply kept_store | apply outKeeps_next | exact outKeeps_refused | apply optKeeps_some
                            | exact optKeeps_none | apply reachKeeps_done | apply reachKeeps_fault | exact reachKeeps_stall
                            | exact reachKeeps_peripheral)
    | dsimp -zeta only
    | (with_reducible apply keeps_upd; with_reducible first | assumption | apply kept_store)
  all_goals grind [kept_store, Keeps, held_rset, held_setAt_cores, held_setAt_lanes, held_filter_regs, held_map_cores, held_map_lanes, held_write1, held_write, held_clear, held_filter_mem, held_out, held_free, held_rbcnt]

theorem kept_execUcSh (s₀ : State) (n : Nat) (rd : BitVec 5) (ra : BitVec 5) (imm : BitVec 16) (s : State)  (hk : Keeps s₀ s) : OutKeeps s₀ (execUcSh n rd ra imm s) := by
  unfold execUcSh
  repeat' first
    | (with_reducible first | assumption | intro _)
    | (extract_lets +onlyGivenNames x
       first
       | (refine keeps_let (s₀ := s₀) (s := x) ?_ ?_ <;> first | (intro hx; clear_value x) | subst x)
       | subst x)
    | split
    | (with_reducible first | apply kept_store | apply outKeeps_next | exact outKeeps_refused | apply optKeeps_some
                            | exact optKeeps_none | apply reachKeeps_done | apply reachKeeps_fault | exact reachKeeps_stall
                            | exact reachKeeps_peripheral)
    | dsimp -zeta only
    | (with_reducible apply keeps_upd; with_reducible first | assumption | apply kept_store)
  all_goals grind [kept_store, Keeps, held_rset, held_setAt_cores, held_setAt_lanes, held_filter_regs, held_map_cores, held_map_lanes, held_write1, held_write, held_clear, held_filter_mem, held_out, held_free, held_rbcnt]

theorem kept_execUcSw (s₀ : State) (n : Nat) (rd : BitVec 5) (ra : BitVec 5) (imm : BitVec 16) (s : State)  (hk : Keeps s₀ s) : OutKeeps s₀ (execUcSw n rd ra imm s) := by
  unfold execUcSw
  repeat' first
    | (with_reducible first | assumption | intro _)
    | (extract_lets +onlyGivenNames x
       first
       | (refine keeps_let (s₀ := s₀) (s := x) ?_ ?_ <;> first | (intro hx; clear_value x) | subst x)
       | subst x)
    | split
    | (with_reducible first | apply kept_store | apply outKeeps_next | exact outKeeps_refused | apply optKeeps_some
                            | exact optKeeps_none | apply reachKeeps_done | apply reachKeeps_fault | exact reachKeeps_stall
                            | exact reachKeeps_peripheral)
    | dsimp -zeta only
    | (with_reducible apply keeps_upd; with_reducible first | assumption | apply kept_store)
  all_goals grind [kept_store, Keeps, held_rset, held_setAt_cores, held_setAt_lanes, held_filter_regs, held_map_cores, held_map_lanes, held_write1, held_write, held_clear, held_filter_mem, held_out, held_free, held_rbcnt]

theorem kept_linkedRead (s₀ : State) (n : Nat) (a : Nat) (s : State)  (hk : Keeps s₀ s) : ReachKeeps s₀ (linkedRead n a s) := by
  unfold linkedRead
  repeat' first
    | (with_reducible first | assumption | intro _)
    | split
    | (with_reducible first | apply keeps_setCore_reset | apply keeps_setCore_upd | apply kept_atomicAccess
                            | apply kept_plainAccess | apply outKeeps_next | exact outKeeps_refused | apply optKeeps_some
                            | exact optKeeps_none | apply reachKeeps_done | apply reachKeeps_fault | exact reachKeeps_stall
                            | exact reachKeeps_peripheral | refine keeps_done ?_ (by assumption)
                            | refine keeps_fault ?_ (by assumption))
    | dsimp -zeta only

theorem kept_execUcLl (s₀ : State) (n : Nat) (rd : BitVec 5) (ra : BitVec 5) (z : BitVec 16) (s : State)  (hk : Keeps s₀ s) : OutKeeps s₀ (execUcLl n rd ra z s) := by
  unfold execUcLl
  repeat' first
    | (with_reducible first | assumption | intro _)
    | (extract_lets +onlyGivenNames x
       first
       | (refine keeps_let (s₀ := s₀) (s := x) ?_ ?_ <;> first | (intro hx; clear_value x) | subst x)
       | subst x)
    | split
    | (with_reducible first | apply kept_uc | apply kept_touch | apply kept_linkedRead | apply kept_retire
                            | apply kept_State_setX | apply outKeeps_next | exact outKeeps_refused | apply optKeeps_some
                            | exact optKeeps_none | apply reachKeeps_done | apply reachKeeps_fault | exact reachKeeps_stall
                            | exact reachKeeps_peripheral | refine keeps_done ?_ (by assumption)
                            | refine keeps_fault ?_ (by assumption))
    | dsimp -zeta only
    | (with_reducible apply keeps_upd; with_reducible first | assumption | apply kept_uc | apply kept_touch
                                                             | apply kept_linkedRead | apply kept_retire
                                                             | apply kept_State_setX)
  all_goals grind [kept_uc, kept_touch, kept_linkedRead, kept_retire, kept_State_setX, Keeps, held_rset, held_setAt_cores, held_setAt_lanes, held_filter_regs, held_map_cores, held_map_lanes, held_write1, held_write, held_clear, held_filter_mem, held_out, held_free, held_rbcnt]

theorem kept_serveCond (s₀ : State) (m : Nat) (x : Nat) (holds : Bool) (v : Word) (s : State)  (hk : Keeps s₀ s) : Keeps s₀ (serveCond m x holds v s).2.2 := by
  unfold serveCond
  repeat' first
    | (with_reducible first | assumption | intro _)
    | (extract_lets +onlyGivenNames x
       first
       | (refine keeps_let (s₀ := s₀) (s := x) ?_ ?_ <;> first | (intro hx; clear_value x) | subst x)
       | subst x)
    | split
    | (with_reducible first | apply kept_serve | apply kept_denied | apply outKeeps_next | exact outKeeps_refused
                            | apply optKeeps_some | exact optKeeps_none | apply reachKeeps_done | apply reachKeeps_fault
                            | exact reachKeeps_stall | exact reachKeeps_peripheral | refine keeps_pair ?_ (by assumption)
                            | refine keeps_triple ?_ (by assumption))
    | dsimp -zeta only
    | (with_reducible apply keeps_upd; with_reducible first | assumption | apply kept_serve | apply kept_denied)
  all_goals grind [kept_serve, kept_denied, Keeps, held_rset, held_setAt_cores, held_setAt_lanes, held_filter_regs, held_map_cores, held_map_lanes, held_write1, held_write, held_clear, held_filter_mem, held_out, held_free, held_rbcnt]

theorem kept_condWrite (s₀ : State) (n : Nat) (a : Nat) (v : Word) (s : State)  (hk : Keeps s₀ s) : ReachKeeps s₀ (condWrite n a v s) := by
  unfold condWrite
  repeat' first
    | (with_reducible first | assumption | intro _)
    | (extract_lets +onlyGivenNames x
       first
       | (refine keeps_let (s₀ := s₀) (s := x) ?_ ?_ <;> first | (intro hx; clear_value x) | subst x)
       | subst x)
    | split
    | (with_reducible first | apply kept_atomicAccess | apply kept_coreVia | apply kept_serveCond | apply kept_pmcCount
                            | apply kept_State_dropResv | apply outKeeps_next | exact outKeeps_refused | apply optKeeps_some
                            | exact optKeeps_none | apply reachKeeps_done | apply reachKeeps_fault | exact reachKeeps_stall
                            | exact reachKeeps_peripheral | refine keeps_done ?_ (by assumption)
                            | refine keeps_fault ?_ (by assumption) | refine keeps_ans ?_ (by assumption)
                            | refine keeps_pair ?_ (by assumption) | refine keeps_triple ?_ (by assumption))
    | dsimp -zeta only
    | (with_reducible apply keeps_upd; with_reducible first | assumption | apply kept_atomicAccess | apply kept_coreVia
                                                             | apply kept_serveCond | apply kept_pmcCount
                                                             | apply kept_State_dropResv)
  all_goals grind [kept_atomicAccess, kept_coreVia, kept_serveCond, kept_pmcCount, kept_State_dropResv, Keeps, held_rset, held_setAt_cores, held_setAt_lanes, held_filter_regs, held_map_cores, held_map_lanes, held_write1, held_write, held_clear, held_filter_mem, held_out, held_free, held_rbcnt]

theorem kept_execUcSc (s₀ : State) (n : Nat) (rd : BitVec 5) (ra : BitVec 5) (rb : BitVec 5) (z : BitVec 11) (s : State)  (hk : Keeps s₀ s) : OutKeeps s₀ (execUcSc n rd ra rb z s) := by
  unfold execUcSc
  repeat' first
    | (with_reducible first | assumption | intro _)
    | (extract_lets +onlyGivenNames x
       first
       | (refine keeps_let (s₀ := s₀) (s := x) ?_ ?_ <;> first | (intro hx; clear_value x) | subst x)
       | subst x)
    | split
    | (with_reducible first | apply kept_uc | apply kept_touch | apply kept_condWrite | apply kept_retire
                            | apply kept_State_setX | apply outKeeps_next | exact outKeeps_refused | apply optKeeps_some
                            | exact optKeeps_none | apply reachKeeps_done | apply reachKeeps_fault | exact reachKeeps_stall
                            | exact reachKeeps_peripheral | refine keeps_done ?_ (by assumption)
                            | refine keeps_fault ?_ (by assumption))
    | dsimp -zeta only
    | (with_reducible apply keeps_upd; with_reducible first | assumption | apply kept_uc | apply kept_touch
                                                             | apply kept_condWrite | apply kept_retire
                                                             | apply kept_State_setX)
  all_goals grind [kept_uc, kept_touch, kept_condWrite, kept_retire, kept_State_setX, Keeps, held_rset, held_setAt_cores, held_setAt_lanes, held_filter_regs, held_map_cores, held_map_lanes, held_write1, held_write, held_clear, held_filter_mem, held_out, held_free, held_rbcnt]

theorem kept_execUcBeq (s₀ : State) (n : Nat) (ra : BitVec 5) (rb : BitVec 5) (off : BitVec 16) (s : State)  (hk : Keeps s₀ s) : OutKeeps s₀ (execUcBeq n ra rb off s) := by
  unfold execUcBeq
  repeat' first
    | (with_reducible first | assumption | intro _)
    | (extract_lets +onlyGivenNames x
       first
       | (refine keeps_let (s₀ := s₀) (s := x) ?_ ?_ <;> first | (intro hx; clear_value x) | subst x)
       | subst x)
    | split
    | (with_reducible first | apply kept_branch | apply outKeeps_next | exact outKeeps_refused | apply optKeeps_some
                            | exact optKeeps_none | apply reachKeeps_done | apply reachKeeps_fault | exact reachKeeps_stall
                            | exact reachKeeps_peripheral)
    | dsimp -zeta only
    | (with_reducible apply keeps_upd; with_reducible first | assumption | apply kept_branch)
  all_goals grind [kept_branch, Keeps, held_rset, held_setAt_cores, held_setAt_lanes, held_filter_regs, held_map_cores, held_map_lanes, held_write1, held_write, held_clear, held_filter_mem, held_out, held_free, held_rbcnt]

theorem kept_execUcBne (s₀ : State) (n : Nat) (ra : BitVec 5) (rb : BitVec 5) (off : BitVec 16) (s : State)  (hk : Keeps s₀ s) : OutKeeps s₀ (execUcBne n ra rb off s) := by
  unfold execUcBne
  repeat' first
    | (with_reducible first | assumption | intro _)
    | (extract_lets +onlyGivenNames x
       first
       | (refine keeps_let (s₀ := s₀) (s := x) ?_ ?_ <;> first | (intro hx; clear_value x) | subst x)
       | subst x)
    | split
    | (with_reducible first | apply kept_branch | apply outKeeps_next | exact outKeeps_refused | apply optKeeps_some
                            | exact optKeeps_none | apply reachKeeps_done | apply reachKeeps_fault | exact reachKeeps_stall
                            | exact reachKeeps_peripheral)
    | dsimp -zeta only
    | (with_reducible apply keeps_upd; with_reducible first | assumption | apply kept_branch)
  all_goals grind [kept_branch, Keeps, held_rset, held_setAt_cores, held_setAt_lanes, held_filter_regs, held_map_cores, held_map_lanes, held_write1, held_write, held_clear, held_filter_mem, held_out, held_free, held_rbcnt]

theorem kept_execUcBlt (s₀ : State) (n : Nat) (ra : BitVec 5) (rb : BitVec 5) (off : BitVec 16) (s : State)  (hk : Keeps s₀ s) : OutKeeps s₀ (execUcBlt n ra rb off s) := by
  unfold execUcBlt
  repeat' first
    | (with_reducible first | assumption | intro _)
    | (extract_lets +onlyGivenNames x
       first
       | (refine keeps_let (s₀ := s₀) (s := x) ?_ ?_ <;> first | (intro hx; clear_value x) | subst x)
       | subst x)
    | split
    | (with_reducible first | apply kept_branch | apply outKeeps_next | exact outKeeps_refused | apply optKeeps_some
                            | exact optKeeps_none | apply reachKeeps_done | apply reachKeeps_fault | exact reachKeeps_stall
                            | exact reachKeeps_peripheral)
    | dsimp -zeta only
    | (with_reducible apply keeps_upd; with_reducible first | assumption | apply kept_branch)
  all_goals grind [kept_branch, Keeps, held_rset, held_setAt_cores, held_setAt_lanes, held_filter_regs, held_map_cores, held_map_lanes, held_write1, held_write, held_clear, held_filter_mem, held_out, held_free, held_rbcnt]

theorem kept_execUcBge (s₀ : State) (n : Nat) (ra : BitVec 5) (rb : BitVec 5) (off : BitVec 16) (s : State)  (hk : Keeps s₀ s) : OutKeeps s₀ (execUcBge n ra rb off s) := by
  unfold execUcBge
  repeat' first
    | (with_reducible first | assumption | intro _)
    | (extract_lets +onlyGivenNames x
       first
       | (refine keeps_let (s₀ := s₀) (s := x) ?_ ?_ <;> first | (intro hx; clear_value x) | subst x)
       | subst x)
    | split
    | (with_reducible first | apply kept_branch | apply outKeeps_next | exact outKeeps_refused | apply optKeeps_some
                            | exact optKeeps_none | apply reachKeeps_done | apply reachKeeps_fault | exact reachKeeps_stall
                            | exact reachKeeps_peripheral)
    | dsimp -zeta only
    | (with_reducible apply keeps_upd; with_reducible first | assumption | apply kept_branch)
  all_goals grind [kept_branch, Keeps, held_rset, held_setAt_cores, held_setAt_lanes, held_filter_regs, held_map_cores, held_map_lanes, held_write1, held_write, held_clear, held_filter_mem, held_out, held_free, held_rbcnt]

theorem kept_execUcBltu (s₀ : State) (n : Nat) (ra : BitVec 5) (rb : BitVec 5) (off : BitVec 16) (s : State)  (hk : Keeps s₀ s) : OutKeeps s₀ (execUcBltu n ra rb off s) := by
  unfold execUcBltu
  repeat' first
    | (with_reducible first | assumption | intro _)
    | (extract_lets +onlyGivenNames x
       first
       | (refine keeps_let (s₀ := s₀) (s := x) ?_ ?_ <;> first | (intro hx; clear_value x) | subst x)
       | subst x)
    | split
    | (with_reducible first | apply kept_branch | apply outKeeps_next | exact outKeeps_refused | apply optKeeps_some
                            | exact optKeeps_none | apply reachKeeps_done | apply reachKeeps_fault | exact reachKeeps_stall
                            | exact reachKeeps_peripheral)
    | dsimp -zeta only
    | (with_reducible apply keeps_upd; with_reducible first | assumption | apply kept_branch)
  all_goals grind [kept_branch, Keeps, held_rset, held_setAt_cores, held_setAt_lanes, held_filter_regs, held_map_cores, held_map_lanes, held_write1, held_write, held_clear, held_filter_mem, held_out, held_free, held_rbcnt]

theorem kept_execUcBgeu (s₀ : State) (n : Nat) (ra : BitVec 5) (rb : BitVec 5) (off : BitVec 16) (s : State)  (hk : Keeps s₀ s) : OutKeeps s₀ (execUcBgeu n ra rb off s) := by
  unfold execUcBgeu
  repeat' first
    | (with_reducible first | assumption | intro _)
    | (extract_lets +onlyGivenNames x
       first
       | (refine keeps_let (s₀ := s₀) (s := x) ?_ ?_ <;> first | (intro hx; clear_value x) | subst x)
       | subst x)
    | split
    | (with_reducible first | apply kept_branch | apply outKeeps_next | exact outKeeps_refused | apply optKeeps_some
                            | exact optKeeps_none | apply reachKeeps_done | apply reachKeeps_fault | exact reachKeeps_stall
                            | exact reachKeeps_peripheral)
    | dsimp -zeta only
    | (with_reducible apply keeps_upd; with_reducible first | assumption | apply kept_branch)
  all_goals grind [kept_branch, Keeps, held_rset, held_setAt_cores, held_setAt_lanes, held_filter_regs, held_map_cores, held_map_lanes, held_write1, held_write, held_clear, held_filter_mem, held_out, held_free, held_rbcnt]

theorem kept_execUcJal (s₀ : State) (n : Nat) (off : BitVec 26) (s : State)  (hk : Keeps s₀ s) : OutKeeps s₀ (execUcJal n off s) := by
  unfold execUcJal
  repeat' first
    | (with_reducible first | assumption | intro _)
    | (extract_lets +onlyGivenNames x
       first
       | (refine keeps_let (s₀ := s₀) (s := x) ?_ ?_ <;> first | (intro hx; clear_value x) | subst x)
       | subst x)
    | split
    | (with_reducible first | apply kept_uc | apply kept_takeJump | apply kept_State_setX | apply outKeeps_next
                            | exact outKeeps_refused | apply optKeeps_some | exact optKeeps_none | apply reachKeeps_done
                            | apply reachKeeps_fault | exact reachKeeps_stall | exact reachKeeps_peripheral)
    | dsimp -zeta only
    | (with_reducible apply keeps_upd; with_reducible first | assumption | apply kept_uc | apply kept_takeJump
                                                             | apply kept_State_setX)
  all_goals grind [kept_uc, kept_takeJump, kept_State_setX, Keeps, held_rset, held_setAt_cores, held_setAt_lanes, held_filter_regs, held_map_cores, held_map_lanes, held_write1, held_write, held_clear, held_filter_mem, held_out, held_free, held_rbcnt]

theorem kept_execUcJalr (s₀ : State) (n : Nat) (rd : BitVec 5) (ra : BitVec 5) (imm : BitVec 16) (s : State)  (hk : Keeps s₀ s) : OutKeeps s₀ (execUcJalr n rd ra imm s) := by
  unfold execUcJalr
  repeat' first
    | (with_reducible first | assumption | intro _)
    | (extract_lets +onlyGivenNames x
       first
       | (refine keeps_let (s₀ := s₀) (s := x) ?_ ?_ <;> first | (intro hx; clear_value x) | subst x)
       | subst x)
    | split
    | (with_reducible first | apply kept_uc | apply kept_takeJump | apply kept_State_setX | apply outKeeps_next
                            | exact outKeeps_refused | apply optKeeps_some | exact optKeeps_none | apply reachKeeps_done
                            | apply reachKeeps_fault | exact reachKeeps_stall | exact reachKeeps_peripheral)
    | dsimp -zeta only
    | (with_reducible apply keeps_upd; with_reducible first | assumption | apply kept_uc | apply kept_takeJump
                                                             | apply kept_State_setX)
  all_goals grind [kept_uc, kept_takeJump, kept_State_setX, Keeps, held_rset, held_setAt_cores, held_setAt_lanes, held_filter_regs, held_map_cores, held_map_lanes, held_write1, held_write, held_clear, held_filter_mem, held_out, held_free, held_rbcnt]

theorem kept_execUcSyscall (s₀ : State) (n : Nat) (z : BitVec 15) (s : State)  (hk : Keeps s₀ s) : OutKeeps s₀ (execUcSyscall n z s) := by
  unfold execUcSyscall
  repeat' first
    | (with_reducible first | assumption | intro _)
    | (extract_lets +onlyGivenNames x
       first
       | (refine keeps_let (s₀ := s₀) (s := x) ?_ ?_ <;> first | (intro hx; clear_value x) | subst x)
       | subst x)
    | split
    | (with_reducible first | apply kept_uc | apply kept_raised | apply outKeeps_next | exact outKeeps_refused
                            | apply optKeeps_some | exact optKeeps_none | apply reachKeeps_done | apply reachKeeps_fault
                            | exact reachKeeps_stall | exact reachKeeps_peripheral)
    | dsimp -zeta only
    | (with_reducible apply keeps_upd; with_reducible first | assumption | apply kept_uc | apply kept_raised)
  all_goals grind [kept_uc, kept_raised, Keeps, held_rset, held_setAt_cores, held_setAt_lanes, held_filter_regs, held_map_cores, held_map_lanes, held_write1, held_write, held_clear, held_filter_mem, held_out, held_free, held_rbcnt]

theorem kept_execUcBreak (s₀ : State) (n : Nat) (z : BitVec 15) (s : State)  (hk : Keeps s₀ s) : OutKeeps s₀ (execUcBreak n z s) := by
  unfold execUcBreak
  repeat' first
    | (with_reducible first | assumption | intro _)
    | (extract_lets +onlyGivenNames x
       first
       | (refine keeps_let (s₀ := s₀) (s := x) ?_ ?_ <;> first | (intro hx; clear_value x) | subst x)
       | subst x)
    | split
    | (with_reducible first | apply kept_uc | apply kept_retire | apply kept_enterMonitor | apply kept_raised
                            | apply outKeeps_next | exact outKeeps_refused | apply optKeeps_some | exact optKeeps_none
                            | apply reachKeeps_done | apply reachKeeps_fault | exact reachKeeps_stall
                            | exact reachKeeps_peripheral)
    | dsimp -zeta only
    | (with_reducible apply keeps_upd; with_reducible first | assumption | apply kept_uc | apply kept_retire
                                                             | apply kept_enterMonitor | apply kept_raised)
  all_goals grind [kept_uc, kept_retire, kept_enterMonitor, kept_raised, Keeps, held_rset, held_setAt_cores, held_setAt_lanes, held_filter_regs, held_map_cores, held_map_lanes, held_write1, held_write, held_clear, held_filter_mem, held_out, held_free, held_rbcnt]

theorem kept_execUcEret (s₀ : State) (n : Nat) (z : BitVec 15) (s : State)  (hk : Keeps s₀ s) : OutKeeps s₀ (execUcEret n z s) := by
  unfold execUcEret
  repeat' first
    | (with_reducible first | assumption | intro _)
    | (extract_lets +onlyGivenNames x
       first
       | (refine keeps_let (s₀ := s₀) (s := x) ?_ ?_ <;> first | (intro hx; clear_value x) | subst x)
       | subst x)
    | split
    | (with_reducible first | apply kept_uc | apply kept_privileged | apply kept_pmcCount | apply kept_returnException
                            | apply outKeeps_next | exact outKeeps_refused | apply optKeeps_some | exact optKeeps_none
                            | apply reachKeeps_done | apply reachKeeps_fault | exact reachKeeps_stall
                            | exact reachKeeps_peripheral)
    | dsimp -zeta only
    | (with_reducible apply keeps_upd; with_reducible first | assumption | apply kept_uc | apply kept_privileged
                                                             | apply kept_pmcCount | apply kept_returnException)
  all_goals grind [kept_uc, kept_privileged, kept_pmcCount, kept_returnException, Keeps, held_rset, held_setAt_cores, held_setAt_lanes, held_filter_regs, held_map_cores, held_map_lanes, held_write1, held_write, held_clear, held_filter_mem, held_out, held_free, held_rbcnt]

theorem kept_execUcMret (s₀ : State) (n : Nat) (z : BitVec 15) (s : State)  (hk : Keeps s₀ s) : OutKeeps s₀ (execUcMret n z s) := by
  unfold execUcMret
  repeat' first
    | (with_reducible first | assumption | intro _)
    | (extract_lets +onlyGivenNames x
       first
       | (refine keeps_let (s₀ := s₀) (s := x) ?_ ?_ <;> first | (intro hx; clear_value x) | subst x)
       | subst x)
    | split
    | (with_reducible first | apply kept_uc | apply kept_raised | apply kept_privileged | apply kept_pmcCount
                            | apply kept_returnMonitor | apply outKeeps_next | exact outKeeps_refused | apply optKeeps_some
                            | exact optKeeps_none | apply reachKeeps_done | apply reachKeeps_fault | exact reachKeeps_stall
                            | exact reachKeeps_peripheral)
    | dsimp -zeta only
    | (with_reducible apply keeps_upd; with_reducible first | assumption | apply kept_uc | apply kept_raised
                                                             | apply kept_privileged | apply kept_pmcCount
                                                             | apply kept_returnMonitor)
  all_goals grind [kept_uc, kept_raised, kept_privileged, kept_pmcCount, kept_returnMonitor, Keeps, held_rset, held_setAt_cores, held_setAt_lanes, held_filter_regs, held_map_cores, held_map_lanes, held_write1, held_write, held_clear, held_filter_mem, held_out, held_free, held_rbcnt]

theorem kept_execUcWfe (s₀ : State) (n : Nat) (z : BitVec 15) (s : State)  (hk : Keeps s₀ s) : OutKeeps s₀ (execUcWfe n z s) := by
  unfold execUcWfe
  repeat' first
    | (with_reducible first | assumption | intro _)
    | (extract_lets +onlyGivenNames x
       first
       | (refine keeps_let (s₀ := s₀) (s := x) ?_ ?_ <;> first | (intro hx; clear_value x) | subst x)
       | subst x)
    | split
    | (with_reducible first | apply keeps_setCore_reset | apply keeps_setCore_upd | apply kept_uc | apply kept_privileged
                            | apply kept_retire | apply outKeeps_next | exact outKeeps_refused | apply optKeeps_some
                            | exact optKeeps_none | apply reachKeeps_done | apply reachKeeps_fault | exact reachKeeps_stall
                            | exact reachKeeps_peripheral)
    | dsimp -zeta only
    | (with_reducible apply keeps_upd; with_reducible first | assumption | apply keeps_setCore_reset | apply keeps_setCore_upd
                                                             | apply kept_uc | apply kept_privileged | apply kept_retire)
  all_goals grind [kept_uc, kept_privileged, kept_retire, Keeps, held_rset, held_setAt_cores, held_setAt_lanes, held_filter_regs, held_map_cores, held_map_lanes, held_write1, held_write, held_clear, held_filter_mem, held_out, held_free, held_rbcnt]

theorem kept_execUcFence (s₀ : State) (n : Nat) (z : BitVec 15) (s : State)  (hk : Keeps s₀ s) : OutKeeps s₀ (execUcFence n z s) := by
  unfold execUcFence
  repeat' first
    | (with_reducible first | assumption | intro _)
    | (extract_lets +onlyGivenNames x
       first
       | (refine keeps_let (s₀ := s₀) (s := x) ?_ ?_ <;> first | (intro hx; clear_value x) | subst x)
       | subst x)
    | split
    | (with_reducible first | apply kept_uc | apply kept_retire | apply outKeeps_next | exact outKeeps_refused
                            | apply optKeeps_some | exact optKeeps_none | apply reachKeeps_done | apply reachKeeps_fault
                            | exact reachKeeps_stall | exact reachKeeps_peripheral)
    | dsimp -zeta only
    | (with_reducible apply keeps_upd; with_reducible first | assumption | apply kept_uc | apply kept_retire)
  all_goals grind [kept_uc, kept_retire, Keeps, held_rset, held_setAt_cores, held_setAt_lanes, held_filter_regs, held_map_cores, held_map_lanes, held_write1, held_write, held_clear, held_filter_mem, held_out, held_free, held_rbcnt]

theorem kept_execUcMfs (s₀ : State) (n : Nat) (rd : BitVec 5) (z : BitVec 5) (imm : BitVec 16) (s : State)  (hk : Keeps s₀ s) : OutKeeps s₀ (execUcMfs n rd z imm s) := by
  unfold execUcMfs
  repeat' first
    | (with_reducible first | assumption | intro _)
    | (extract_lets +onlyGivenNames x
       first
       | (refine keeps_let (s₀ := s₀) (s := x) ?_ ?_ <;> first | (intro hx; clear_value x) | subst x)
       | subst x)
    | split
    | (with_reducible first | apply kept_uc | apply kept_privileged | apply kept_readSys | apply kept_result | apply kept_raised
                            | apply outKeeps_next | exact outKeeps_refused | apply optKeeps_some | exact optKeeps_none
                            | apply reachKeeps_done | apply reachKeeps_fault | exact reachKeeps_stall
                            | exact reachKeeps_peripheral | refine keeps_pair ?_ (by assumption)
                            | refine keeps_triple ?_ (by assumption))
    | dsimp -zeta only
    | (with_reducible apply keeps_upd; with_reducible first | assumption | apply kept_uc | apply kept_privileged
                                                             | apply kept_readSys | apply kept_result | apply kept_raised)
  all_goals grind [kept_uc, kept_privileged, kept_readSys, kept_result, kept_raised, Keeps, held_rset, held_setAt_cores, held_setAt_lanes, held_filter_regs, held_map_cores, held_map_lanes, held_write1, held_write, held_clear, held_filter_mem, held_out, held_free, held_rbcnt]

theorem kept_execUcMts (s₀ : State) (n : Nat) (z : BitVec 5) (ra : BitVec 5) (imm : BitVec 16) (s : State)  (hk : Keeps s₀ s) : OutKeeps s₀ (execUcMts n z ra imm s) := by
  unfold execUcMts
  repeat' first
    | (with_reducible first | assumption | intro _)
    | (extract_lets +onlyGivenNames x
       first
       | (refine keeps_let (s₀ := s₀) (s := x) ?_ ?_ <;> first | (intro hx; clear_value x) | subst x)
       | subst x)
    | split
    | (with_reducible first | apply kept_uc | apply kept_privileged | apply kept_retire | apply kept_writeSys
                            | apply kept_raised | apply outKeeps_next | exact outKeeps_refused | apply optKeeps_some
                            | exact optKeeps_none | apply reachKeeps_done | apply reachKeeps_fault | exact reachKeeps_stall
                            | exact reachKeeps_peripheral)
    | dsimp -zeta only
    | (with_reducible apply keeps_upd; with_reducible first | assumption | apply kept_uc | apply kept_privileged
                                                             | apply kept_retire | apply kept_writeSys | apply kept_raised)
  all_goals grind [kept_uc, kept_privileged, kept_retire, kept_writeSys, kept_raised, Keeps, held_rset, held_setAt_cores, held_setAt_lanes, held_filter_regs, held_map_cores, held_map_lanes, held_write1, held_write, held_clear, held_filter_mem, held_out, held_free, held_rbcnt]

theorem kept_execUcIinv (s₀ : State) (n : Nat) (ra : BitVec 5) (imm : BitVec 16) (s : State)  (hk : Keeps s₀ s) : OutKeeps s₀ (execUcIinv n ra imm s) := by
  unfold execUcIinv
  repeat' first
    | (with_reducible first | assumption | intro _)
    | (extract_lets +onlyGivenNames x
       first
       | (refine keeps_let (s₀ := s₀) (s := x) ?_ ?_ <;> first | (intro hx; clear_value x) | subst x)
       | subst x)
    | split
    | (with_reducible first | apply keeps_setCore_reset | apply keeps_setCore_upd | apply kept_cacheLine | apply outKeeps_next
                            | exact outKeeps_refused | apply optKeeps_some | exact optKeeps_none | apply reachKeeps_done
                            | apply reachKeeps_fault | exact reachKeeps_stall | exact reachKeeps_peripheral)
    | dsimp -zeta only
    | (with_reducible apply keeps_upd; with_reducible first | assumption | apply keeps_setCore_reset | apply keeps_setCore_upd
                                                             | apply kept_cacheLine)
  all_goals grind [kept_cacheLine, Keeps, held_rset, held_setAt_cores, held_setAt_lanes, held_filter_regs, held_map_cores, held_map_lanes, held_write1, held_write, held_clear, held_filter_mem, held_out, held_free, held_rbcnt]

theorem kept_execUcDclean (s₀ : State) (n : Nat) (ra : BitVec 5) (imm : BitVec 16) (s : State)  (hk : Keeps s₀ s) : OutKeeps s₀ (execUcDclean n ra imm s) := by
  unfold execUcDclean
  repeat' first
    | (with_reducible first | assumption | intro _)
    | (extract_lets +onlyGivenNames x
       first
       | (refine keeps_let (s₀ := s₀) (s := x) ?_ ?_ <;> first | (intro hx; clear_value x) | subst x)
       | subst x)
    | split
    | (with_reducible first | apply kept_cacheLine | apply kept_cleanLine | apply outKeeps_next | exact outKeeps_refused
                            | apply optKeeps_some | exact optKeeps_none | apply reachKeeps_done | apply reachKeeps_fault
                            | exact reachKeeps_stall | exact reachKeeps_peripheral | refine keeps_done ?_ (by assumption)
                            | refine keeps_fault ?_ (by assumption))
    | dsimp -zeta only
    | (with_reducible apply keeps_upd; with_reducible first | assumption | apply kept_cacheLine | apply kept_cleanLine)
  all_goals grind [kept_cacheLine, kept_cleanLine, Keeps, held_rset, held_setAt_cores, held_setAt_lanes, held_filter_regs, held_map_cores, held_map_lanes, held_write1, held_write, held_clear, held_filter_mem, held_out, held_free, held_rbcnt]

theorem kept_execUcDinv (s₀ : State) (n : Nat) (ra : BitVec 5) (imm : BitVec 16) (s : State)  (hk : Keeps s₀ s) : OutKeeps s₀ (execUcDinv n ra imm s) := by
  unfold execUcDinv
  repeat' first
    | (with_reducible first | assumption | intro _)
    | (extract_lets +onlyGivenNames x
       first
       | (refine keeps_let (s₀ := s₀) (s := x) ?_ ?_ <;> first | (intro hx; clear_value x) | subst x)
       | subst x)
    | split
    | (with_reducible first | apply kept_cacheLine | apply kept_State_setDcache | apply outKeeps_next | exact outKeeps_refused
                            | apply optKeeps_some | exact optKeeps_none | apply reachKeeps_done | apply reachKeeps_fault
                            | exact reachKeeps_stall | exact reachKeeps_peripheral)
    | dsimp -zeta only
    | (with_reducible apply keeps_upd; with_reducible first | assumption | apply kept_cacheLine | apply kept_State_setDcache)
  all_goals grind [kept_cacheLine, kept_State_setDcache, Keeps, held_rset, held_setAt_cores, held_setAt_lanes, held_filter_regs, held_map_cores, held_map_lanes, held_write1, held_write, held_clear, held_filter_mem, held_out, held_free, held_rbcnt]

theorem kept_execUcDflush (s₀ : State) (n : Nat) (ra : BitVec 5) (imm : BitVec 16) (s : State)  (hk : Keeps s₀ s) : OutKeeps s₀ (execUcDflush n ra imm s) := by
  unfold execUcDflush
  repeat' first
    | (with_reducible first | assumption | intro _)
    | (extract_lets +onlyGivenNames x
       first
       | (refine keeps_let (s₀ := s₀) (s := x) ?_ ?_ <;> first | (intro hx; clear_value x) | subst x)
       | subst x)
    | split
    | (with_reducible first | apply kept_cacheLine | apply kept_cleanLine | apply outKeeps_next | exact outKeeps_refused
                            | apply optKeeps_some | exact optKeeps_none | apply reachKeeps_done | apply reachKeeps_fault
                            | exact reachKeeps_stall | exact reachKeeps_peripheral | refine keeps_done ?_ (by assumption)
                            | refine keeps_fault ?_ (by assumption))
    | dsimp -zeta only
    | (with_reducible apply keeps_upd; with_reducible first | assumption | apply kept_cacheLine | apply kept_cleanLine)
  all_goals grind [kept_cacheLine, kept_cleanLine, Keeps, held_rset, held_setAt_cores, held_setAt_lanes, held_filter_regs, held_map_cores, held_map_lanes, held_write1, held_write, held_clear, held_filter_mem, held_out, held_free, held_rbcnt]

theorem kept_execUcIinvAll (s₀ : State) (n : Nat) (ra : BitVec 5) (imm : BitVec 16) (s : State)  (hk : Keeps s₀ s) : OutKeeps s₀ (execUcIinvAll n ra imm s) := by
  unfold execUcIinvAll
  repeat' first
    | (with_reducible first | assumption | intro _)
    | (extract_lets +onlyGivenNames x
       first
       | (refine keeps_let (s₀ := s₀) (s := x) ?_ ?_ <;> first | (intro hx; clear_value x) | subst x)
       | subst x)
    | split
    | (with_reducible first | apply keeps_setCore_reset | apply keeps_setCore_upd | apply kept_cacheAll | apply outKeeps_next
                            | exact outKeeps_refused | apply optKeeps_some | exact optKeeps_none | apply reachKeeps_done
                            | apply reachKeeps_fault | exact reachKeeps_stall | exact reachKeeps_peripheral)
    | dsimp -zeta only
    | (with_reducible apply keeps_upd; with_reducible first | assumption | apply keeps_setCore_reset | apply keeps_setCore_upd
                                                             | apply kept_cacheAll)
  all_goals grind [kept_cacheAll, Keeps, held_rset, held_setAt_cores, held_setAt_lanes, held_filter_regs, held_map_cores, held_map_lanes, held_write1, held_write, held_clear, held_filter_mem, held_out, held_free, held_rbcnt]

theorem kept_execUcDcleanAll (s₀ : State) (n : Nat) (ra : BitVec 5) (imm : BitVec 16) (s : State)  (hk : Keeps s₀ s) : OutKeeps s₀ (execUcDcleanAll n ra imm s) := by
  unfold execUcDcleanAll
  repeat' first
    | (with_reducible first | assumption | intro _)
    | (extract_lets +onlyGivenNames x
       first
       | (refine keeps_let (s₀ := s₀) (s := x) ?_ ?_ <;> first | (intro hx; clear_value x) | subst x)
       | subst x)
    | split
    | (with_reducible first | apply kept_cacheAll | apply kept_cleanAll | apply outKeeps_next | exact outKeeps_refused
                            | apply optKeeps_some | exact optKeeps_none | apply reachKeeps_done | apply reachKeeps_fault
                            | exact reachKeeps_stall | exact reachKeeps_peripheral | refine keeps_done ?_ (by assumption)
                            | refine keeps_fault ?_ (by assumption))
    | dsimp -zeta only
    | (with_reducible apply keeps_upd; with_reducible first | assumption | apply kept_cacheAll | apply kept_cleanAll)
  all_goals grind [kept_cacheAll, kept_cleanAll, Keeps, held_rset, held_setAt_cores, held_setAt_lanes, held_filter_regs, held_map_cores, held_map_lanes, held_write1, held_write, held_clear, held_filter_mem, held_out, held_free, held_rbcnt]

theorem kept_execUcDinvAll (s₀ : State) (n : Nat) (ra : BitVec 5) (imm : BitVec 16) (s : State)  (hk : Keeps s₀ s) : OutKeeps s₀ (execUcDinvAll n ra imm s) := by
  unfold execUcDinvAll
  repeat' first
    | (with_reducible first | assumption | intro _)
    | (extract_lets +onlyGivenNames x
       first
       | (refine keeps_let (s₀ := s₀) (s := x) ?_ ?_ <;> first | (intro hx; clear_value x) | subst x)
       | subst x)
    | split
    | (with_reducible first | apply kept_cacheAll | apply kept_State_setDcache | apply outKeeps_next | exact outKeeps_refused
                            | apply optKeeps_some | exact optKeeps_none | apply reachKeeps_done | apply reachKeeps_fault
                            | exact reachKeeps_stall | exact reachKeeps_peripheral)
    | dsimp -zeta only
    | (with_reducible apply keeps_upd; with_reducible first | assumption | apply kept_cacheAll | apply kept_State_setDcache)
  all_goals grind [kept_cacheAll, kept_State_setDcache, Keeps, held_rset, held_setAt_cores, held_setAt_lanes, held_filter_regs, held_map_cores, held_map_lanes, held_write1, held_write, held_clear, held_filter_mem, held_out, held_free, held_rbcnt]

theorem kept_execUcDflushAll (s₀ : State) (n : Nat) (ra : BitVec 5) (imm : BitVec 16) (s : State)  (hk : Keeps s₀ s) : OutKeeps s₀ (execUcDflushAll n ra imm s) := by
  unfold execUcDflushAll
  repeat' first
    | (with_reducible first | assumption | intro _)
    | (extract_lets +onlyGivenNames x
       first
       | (refine keeps_let (s₀ := s₀) (s := x) ?_ ?_ <;> first | (intro hx; clear_value x) | subst x)
       | subst x)
    | split
    | (with_reducible first | apply kept_cacheAll | apply kept_cleanAll | apply outKeeps_next | exact outKeeps_refused
                            | apply optKeeps_some | exact optKeeps_none | apply reachKeeps_done | apply reachKeeps_fault
                            | exact reachKeeps_stall | exact reachKeeps_peripheral | refine keeps_done ?_ (by assumption)
                            | refine keeps_fault ?_ (by assumption))
    | dsimp -zeta only
    | (with_reducible apply keeps_upd; with_reducible first | assumption | apply kept_cacheAll | apply kept_cleanAll)
  all_goals grind [kept_cacheAll, kept_cleanAll, Keeps, held_rset, held_setAt_cores, held_setAt_lanes, held_filter_regs, held_map_cores, held_map_lanes, held_write1, held_write, held_clear, held_filter_mem, held_out, held_free, held_rbcnt]

end Sys2Proof.Machine
end

