-- ==== Sys2Proof/Laws/Regs.lean ====
section
/-! SUPPORT. What a write of a register field shows to a read of the same field, of another field, and of another register. -/
namespace Sys2Proof.Machine

/-- The register file is in its canonical form. -/
def RegsOk (s : State) : Prop := rwfFrom resetWord 0 s.regs = true

theorem State.Inv.regsOk {s : State} (h : s.Inv) : RegsOk s := h.1

theorem Keeps.regsOk {s₀ s : State} (h : Keeps s₀ s) : RegsOk s := h.2.2.2.2.1

theorem Keeps.inv {s₀ s : State} (h : Keeps s₀ s) : s.Inv := h.2.2.2.2

/-! ### Fields of a number -/

theorem split3 (n lo w : Nat) : n = n / 2 ^ (lo + w) * 2 ^ (lo + w) + bits n lo w * 2 ^ lo + n % 2 ^ lo := by
  have h1 := Nat.div_add_mod n (2 ^ lo)
  have h2 := Nat.div_add_mod (n / 2 ^ lo) (2 ^ w)
  have h3 : n / 2 ^ lo / 2 ^ w = n / 2 ^ (lo + w) := by rw [Nat.div_div_eq_div_mul, Nat.pow_add]
  unfold bits
  rw [h3] at h2
  generalize n / 2 ^ lo = q at *
  generalize n / 2 ^ (lo + w) = a at *
  generalize q % 2 ^ w = b at *
  generalize n % 2 ^ lo = c at *
  rw [← h1, ← h2, Nat.pow_add]
  generalize 2 ^ lo = x
  generalize 2 ^ w = y
  rw [Nat.mul_add, Nat.mul_comm x b, Nat.mul_left_comm x y a, Nat.mul_comm x (a), Nat.mul_left_comm y a x,
    Nat.mul_comm y x]

theorem putBits_eq (n lo w v : Nat) :
    putBits n lo w v = n / 2 ^ (lo + w) * 2 ^ (lo + w) + v % 2 ^ w * 2 ^ lo + n % 2 ^ lo := by
  have h := split3 n lo w
  unfold putBits
  generalize n / 2 ^ (lo + w) * 2 ^ (lo + w) = a at *
  generalize n % 2 ^ lo = c at *
  generalize bits n lo w * 2 ^ lo = b at *
  omega

theorem bits_lt (n lo w : Nat) : bits n lo w < 2 ^ w := Nat.mod_lt _ (Nat.two_pow_pos w)

theorem shape_div (a b c lo w : Nat) (_hb : b < 2 ^ w) (hc : c < 2 ^ lo) :
    (a * 2 ^ (lo + w) + b * 2 ^ lo + c) / 2 ^ lo = a * 2 ^ w + b := by
  rw [Nat.pow_add, show a * (2 ^ lo * 2 ^ w) + b * 2 ^ lo + c = c + (a * 2 ^ w + b) * 2 ^ lo by
    rw [Nat.add_mul]; rw [Nat.mul_comm (2 ^ lo) (2 ^ w), ← Nat.mul_assoc]; omega,
    Nat.add_mul_div_right _ _ (Nat.two_pow_pos lo), Nat.div_eq_of_lt hc, Nat.zero_add]

/-- A field written reads back. -/
theorem bits_putBits_same (n lo w v : Nat) : bits (putBits n lo w v) lo w = v % 2 ^ w := by
  rw [putBits_eq, bits, shape_div _ _ _ _ w (Nat.mod_lt _ (Nat.two_pow_pos w)) (Nat.mod_lt _ (Nat.two_pow_pos lo)),
    Nat.mul_comm, Nat.mul_add_mod, Nat.mod_mod]

/-- A field below the one written. -/
theorem bits_putBits_below (n lo w v lo' w' : Nat) (h : lo' + w' ≤ lo) : bits (putBits n lo w v) lo' w' = bits n lo' w' := by
  have key : ∀ m, bits m lo' w' = (m % 2 ^ lo) / 2 ^ lo' % 2 ^ w' := by
    intro m
    have e : 2 ^ lo = 2 ^ lo' * (2 ^ w' * 2 ^ (lo - lo' - w')) := by
      rw [← Nat.pow_add, ← Nat.pow_add]; congr 1; omega
    rw [bits, e, Nat.mod_mul_right_div_self, Nat.mod_mul_right_mod]
  rw [key, key n, putBits_eq]
  congr 2
  have e2 : 2 ^ (lo + w) = 2 ^ w * 2 ^ lo := by rw [Nat.pow_add, Nat.mul_comm]
  rw [e2, ← Nat.mul_assoc, ← Nat.add_mul, Nat.mul_comm, Nat.mul_add_mod, Nat.mod_mod]

/-- A field above the one written. -/
theorem bits_putBits_above (n lo w v lo' w' : Nat) (h : lo + w ≤ lo') : bits (putBits n lo w v) lo' w' = bits n lo' w' := by
  have key : ∀ m, bits m lo' w' = (m / 2 ^ (lo + w)) / 2 ^ (lo' - (lo + w)) % 2 ^ w' := by
    intro m; rw [Nat.div_div_eq_div_mul, ← Nat.pow_add, bits, Nat.add_sub_cancel' h]
  rw [key, key n]
  congr 2
  rw [putBits_eq]
  have hv : v % 2 ^ w < 2 ^ w := Nat.mod_lt _ (Nat.two_pow_pos w)
  have hc : n % 2 ^ lo < 2 ^ lo := Nat.mod_lt _ (Nat.two_pow_pos lo)
  have : v % 2 ^ w * 2 ^ lo + n % 2 ^ lo < 2 ^ (lo + w) := by
    rw [Nat.pow_add, Nat.mul_comm (2 ^ lo)]
    calc v % 2 ^ w * 2 ^ lo + n % 2 ^ lo < v % 2 ^ w * 2 ^ lo + 2 ^ lo := by omega
      _ = (v % 2 ^ w + 1) * 2 ^ lo := by rw [Nat.add_mul, Nat.one_mul]
      _ ≤ 2 ^ w * 2 ^ lo := Nat.mul_le_mul_right _ hv
  rw [Nat.add_assoc, Nat.add_comm, Nat.add_mul_div_right _ _ (Nat.two_pow_pos _), Nat.div_eq_of_lt this, Nat.zero_add]

theorem putBits_lt (n lo w v : Nat) (hn : n < 2 ^ 32) (h : lo + w ≤ 32) : putBits n lo w v < 2 ^ 32 := by
  rw [putBits_eq]
  have hv : v % 2 ^ w < 2 ^ w := Nat.mod_lt _ (Nat.two_pow_pos w)
  have hc : n % 2 ^ lo < 2 ^ lo := Nat.mod_lt _ (Nat.two_pow_pos lo)
  have hs : v % 2 ^ w * 2 ^ lo + n % 2 ^ lo < 2 ^ (lo + w) := by
    rw [Nat.pow_add, Nat.mul_comm (2 ^ lo)]
    calc v % 2 ^ w * 2 ^ lo + n % 2 ^ lo < v % 2 ^ w * 2 ^ lo + 2 ^ lo := by omega
      _ = (v % 2 ^ w + 1) * 2 ^ lo := by rw [Nat.add_mul, Nat.one_mul]
      _ ≤ 2 ^ w * 2 ^ lo := Nat.mul_le_mul_right _ hv
  have e : 2 ^ 32 = 2 ^ (32 - (lo + w)) * 2 ^ (lo + w) := by rw [← Nat.pow_add]; congr 1; omega
  have ha : n / 2 ^ (lo + w) < 2 ^ (32 - (lo + w)) := by
    rw [Nat.div_lt_iff_lt_mul (Nat.two_pow_pos _), ← e]; exact hn
  rw [e]
  calc n / 2 ^ (lo + w) * 2 ^ (lo + w) + v % 2 ^ w * 2 ^ lo + n % 2 ^ lo
      < n / 2 ^ (lo + w) * 2 ^ (lo + w) + 2 ^ (lo + w) := by omega
    _ = (n / 2 ^ (lo + w) + 1) * 2 ^ (lo + w) := by rw [Nat.add_mul, Nat.one_mul]
    _ ≤ 2 ^ (32 - (lo + w)) * 2 ^ (lo + w) := Nat.mul_le_mul_right _ ha

/-! ### Registers -/

theorem reg_setReg_same (s : State) (a : Nat) (w : Word) (h : RegsOk s) : (s.setReg a w).reg a = w :=
  rget_rset_same resetWord s.regs 0 a w h

theorem reg_setReg_other (s : State) (a b : Nat) (w : Word) (h : RegsOk s) (hab : b ≠ a) : (s.setReg a w).reg b = s.reg b :=
  rget_rset_other resetWord s.regs 0 a b w h hab

theorem reg_setFld_other (s : State) (f : Fld) (v b : Nat) (h : RegsOk s) (hb : b ≠ f.addr) : (s.setFld f v).reg b = s.reg b :=
  reg_setReg_other s _ _ _ h hb

/-- A field written reads back, cut to its width. -/
theorem fld_setFld_same (s : State) (f : Fld) (v : Nat) (h : RegsOk s) (hf : f.lo + f.w ≤ 32) : (s.setFld f v).fld f = v % 2 ^ f.w := by
  unfold State.fld State.setFld
  rw [reg_setReg_same _ _ _ h, BitVec.toNat_ofNat, Nat.mod_eq_of_lt (putBits_lt _ _ _ _ (BitVec.isLt _) hf), bits_putBits_same]

/-- A field of another register. -/
theorem fld_setFld_addr (s : State) (f g : Fld) (v : Nat) (h : RegsOk s) (hg : g.addr ≠ f.addr) : (s.setFld f v).fld g = s.fld g := by
  unfold State.fld; rw [reg_setFld_other s f v g.addr h hg]

/-- Another field of the same register. -/
theorem fld_setFld_bits (s : State) (f g : Fld) (v : Nat) (h : RegsOk s) (hf : f.lo + f.w ≤ 32)
    (hg : g.lo + g.w ≤ f.lo ∨ f.lo + f.w ≤ g.lo) : (s.setFld f v).fld g = s.fld g := by
  by_cases ha : g.addr = f.addr
  · unfold State.fld State.setFld
    rw [ha, reg_setReg_same _ _ _ h, BitVec.toNat_ofNat, Nat.mod_eq_of_lt (putBits_lt _ _ _ _ (BitVec.isLt _) hf)]
    rcases hg with hg | hg
    · exact bits_putBits_below _ _ _ _ _ _ hg
    · exact bits_putBits_above _ _ _ _ _ _ hg
  · exact fld_setFld_addr s f g v h ha

theorem regsOk_setReg {s : State} (a : Nat) (w : Word) (h : RegsOk s) : RegsOk (s.setReg a w) :=
  rwfFrom_rset _ _ _ _ _ h (Nat.zero_le _)

theorem regsOk_setFld {s : State} (f : Fld) (v : Nat) (h : RegsOk s) : RegsOk (s.setFld f v) := regsOk_setReg _ _ h

theorem regsOk_setFlds {s : State} (l : List (Fld × Nat)) (h : RegsOk s) : RegsOk (s.setFlds l) := by
  unfold State.setFlds
  induction l generalizing s with
  | nil => exact h
  | cons x r ih => exact ih (regsOk_setFld _ _ h)

end Sys2Proof.Machine
end

