-- ==== Sys2Proof/WellFormed.lean ====
section
/-! DEFINITION. Well-formed commands: operands that name something the manual gives (ports, cores, channels, masters, fields of their
width). exec is total; a command that is not well formed names nothing and changes nothing that the manual gives a meaning. -/
namespace Sys2Proof

/-- A message's fields as R30 and R31 lay them out: the payload fits a frame of its port. -/
def Msg.wf (m : Msg) : Bool :=
  m.version < 256 && m.kind < 256 && m.length < 2 ^ 32 &&
    m.payload.length ≤ (match m.port with | .mgmt => 1400 | _ => 8192)

/-- The sizes of a request (R494, R519): up to 64 bytes. -/
def accessSize (n : Nat) : Bool := [1, 2, 4, 8, 16, 32, 64].contains n

/-- A request: a master of R494, a 48-bit address, and as many bytes as its size when it writes. -/
def Req.wf (r : Req) : Bool :=
  r.master < 25 && r.addr < 2 ^ 48 && 0 < r.size && r.size ≤ 64 && r.data.length == (if r.write then r.size else 0)

/-- The fields of a CYCLE token (R367). -/
def CycleTok.wf (t : CycleTok) : Bool := t.cycle < 2 ^ 64 && t.thr ≤ 8 && t.snapid < 2 ^ 32 && t.rel < 4

/-- The fields of a FOLLOW word (R376). -/
def FollowWord.wf (f : FollowWord) : Bool :=
  f.tseq < 256 && f.sec < 2 ^ 48 && f.ns < 1000000000 && f.frac < 65536 && f.rxSec < 2 ^ 48 && f.rxNs < 1000000000 && f.rxFrac < 65536

/-- The skews of 16 data lanes (R302, R322). -/
def Training.wf (x : Training) : Bool := x.skews.length == 16

/-- A thermal sample names at most 48 sensors and 15 rails (R641). -/
def Sensors.wf (x : Sensors) : Bool := x.temps.length ≤ 48 && x.rails.length ≤ 15

/-- Pins name cells 0 to 511 (R596). -/
def Pins.wf (p : Pins) : Bool := p.filtered.all (· < 512) && p.raw.all (· < 512) && p.steady.all (·.1 < 512)

/-- An upset names a place that exists. -/
def Upset.wf : Upset → Bool
  | .instr k v => k < 0xC0000000 && v < 256
  | .ds k v => k < 0x3000000 && v < 256
  | .dict k v => k < 0x300000 && v < 65536
  | .emit k v => k < 0x600000000 && v < 2 ^ 40
  | .hubEmit k v => k < 0x1800000 && v < 2 ^ 32
  | .bank a v => 0x1000000000 ≤ a && a < 0x1600000000 && v < 256
  | .ram a v => 0x1000000 ≤ a && a < 0x10000000 && v < 256
  | .dcache n l => n < 16 && l < 2 ^ 48
  | .icache n l => n < 16 && l < 2 ^ 48
  | .oldRead c _ => c < 4
  | .hbmRead _ _ => true
  | .flit => true
  | .answer => true

/-- A command is well formed. -/
def Instr.wf : Instr → Bool
  | .registerWrite m addr size _ => m < 25 && addr < 0x1000000000000 && accessSize size
  | .registerRcRead m addr size => m < 25 && addr < 0x1000000000000 && accessSize size
  | .inputPowerRise => true
  | .inputPowerLoss => true
  | .coreDomainOff => true
  | .holdupSpent => true
  | .railFault rail => rail < 15
  | .clockLoss (.domain d) => d < 25
  | .clockLoss .stepPll => true
  | .stepPllLock => true
  | .mgtIdleFrameSend _ => true
  | .mgtCrossingDown => true
  | .mgtCrossingUp => true
  | .mcPowerCycle => true
  | .streamData msg => msg.wf
  | .streamAcknowledge msg => msg.wf
  | .streamResend => true
  | .claimTimeout => true
  | .grain ups => ups.all Upset.wf
  | .hbmReadDataArrive mem port _ => mem < 4096 && port < 4
  | .hbmEccRetry mem port _ => mem < 4096 && port < 4
  | .hbmWriteDrain ctl _ => ctl < 4
  | .hbmRefresh ctl _ => ctl < 4
  | .hbmTempRead _ _ _ _ => true
  | .scrubRead stack offset _ => stack < 4 && offset < 0x600000000
  | .scrubPassEnd stack => stack < 4
  | .sfbClkWrite m _ => m < 25
  | .holdReqHost m _ => m < 25
  | .holdReqDebug m _ => m < 25
  | .holdClearDesign m _ => m < 25
  | .holdClearTrigger m _ => m < 25
  | .holdLimitExceeded => true
  | .throttleChange => true
  | .thermalSample x => x.wf
  | .throttleCoolDown => true
  | .thermalShutdown => true
  | .loadBegin msg => msg.wf
  | .loadStaged msg => msg.wf
  | .loadAbort msg => msg.wf
  | .unload msg => msg.wf
  | .stageBegin msg => msg.wf
  | .stageDelete msg => msg.wf
  | .loadQuery msg => msg.wf
  | .loadComplete => true
  | .loadRefuse => true
  | .loadStall => true
  | .stageComplete => true
  | .releaseStage => true
  | .snap msg => msg.wf
  | .snapDiscard msg => msg.wf
  | .checkpoint msg => msg.wf
  | .restoreBegin msg => msg.wf
  | .snapQuery msg => msg.wf
  | .snpReq m _ => m < 25
  | .priorityCopy _ _ => true
  | .undoBufferGuardClear ctl => ctl < 4
  | .snapshotKept => true
  | .checkpointStall => true
  | .restoreComplete => true
  | .restoreRefuse => true
  | .restoreStall => true
  | .acqArm msg => msg.wf
  | .acqStop msg => msg.wf
  | .acqSetload msg => msg.wf
  | .tunRead msg => msg.wf
  | .acqQuery msg => msg.wf
  | .acqCal msg => msg.wf
  | .tunFree msg => msg.wf
  | .acqCtlArm m _ => m < 25
  | .acqCtlStop m _ => m < 25
  | .captureStart => true
  | .seqGoComplete => true
  | .trgAutoFire => true
  | .leagueTriggerApply => true
  | .acqStopCycle => true
  | .calComplete _ _ => true
  | .alignWrite m k _ => m < 25 && k < 7
  | .laneDetectPoll port _ => port < 6
  | .trainComplete port x trips => port < 6 && x.wf && trips.1.length == 64 && trips.2.length == 64
  | .lockComplete port => port < 6
  | .stageTimeout port => port < 6
  | .laneLost port => port < 6
  | .linkWordIssue port group => port < 6 && group < 2
  | .alignMarkerSend port group => port < 6 && group < 2
  | .linkWordReceive port group low high _ => port < 6 && group < 2 && low.length == 4 && high.length == 4
  | .lnkRetrain m port _ => m < 25 && port < 6
  | .lnkEnable m port _ => m < 25 && port < 6
  | .eyeScanStart m port _ => m < 25 && port < 6
  | .eyeScanEnd port _ => port < 6
  | .laneErrInterval port => port < 6
  | .lgeForm msg => msg.wf
  | .lgeCtlForm m _ => m < 25
  | .formTokenSend => true
  | .tokenForm port _ _ _ => port < 6
  | .tokenFormed port h mhz => port < 6 && h < 65536 && mhz < 4096
  | .tbsyncSend => true
  | .tokenTbsync port _ => port < 6
  | .formationTimeout => true
  | .reflock => true
  | .tokenVote port vseq slots => port < 6 && vseq < 256 && slots.length ≤ 5
  | .tokenCycle port tok => port < 6 && tok.wf
  | .tokenStart port _ _ => port < 6
  | .runStart => true
  | .tokenRate port mhz => port < 6 && mhz < 4096
  | .timeSyncSend => true
  | .timeFollow port f => port < 6 && f.wf
  | .ptpMessage hport _ => hport < 2
  | .ptpDelayReq hport => hport < 2
  | .timHoldover => true
  | .timSet msg => msg.wf
  | .timCtlSet m _ => m < 25
  | .lgeQuery msg => msg.wf
  | .timQuery msg => msg.wf
  | .ucAdd n _ _ _ => n < 17
  | .ucSub n _ _ _ => n < 17
  | .ucAnd n _ _ _ => n < 17
  | .ucOr n _ _ _ => n < 17
  | .ucXor n _ _ _ => n < 17
  | .ucSll n _ _ _ => n < 17
  | .ucSrl n _ _ _ => n < 17
  | .ucSra n _ _ _ => n < 17
  | .ucSlt n _ _ _ => n < 17
  | .ucSltu n _ _ _ => n < 17
  | .ucMul n _ _ _ => n < 17
  | .ucMulh n _ _ _ => n < 17
  | .ucMulhu n _ _ _ => n < 17
  | .ucDiv n _ _ _ => n < 17
  | .ucDivu n _ _ _ => n < 17
  | .ucRem n _ _ _ => n < 17
  | .ucRemu n _ _ _ => n < 17
  | .ucAddi n _ _ _ => n < 17
  | .ucAndi n _ _ _ => n < 17
  | .ucOri n _ _ _ => n < 17
  | .ucXori n _ _ _ => n < 17
  | .ucSlti n _ _ _ => n < 17
  | .ucSltiu n _ _ _ => n < 17
  | .ucSlli n _ _ _ => n < 17
  | .ucSrli n _ _ _ => n < 17
  | .ucSrai n _ _ _ => n < 17
  | .ucLui n _ _ _ => n < 17
  | .ucAuipc n _ _ _ => n < 17
  | .ucLb n _ _ _ => n < 17
  | .ucLbu n _ _ _ => n < 17
  | .ucLh n _ _ _ => n < 17
  | .ucLhu n _ _ _ => n < 17
  | .ucLw n _ _ _ => n < 17
  | .ucSb n _ _ _ => n < 17
  | .ucSh n _ _ _ => n < 17
  | .ucSw n _ _ _ => n < 17
  | .ucLl n _ _ _ => n < 17
  | .ucSc n _ _ _ _ => n < 17
  | .ucBeq n _ _ _ => n < 17
  | .ucBne n _ _ _ => n < 17
  | .ucBlt n _ _ _ => n < 17
  | .ucBge n _ _ _ => n < 17
  | .ucBltu n _ _ _ => n < 17
  | .ucBgeu n _ _ _ => n < 17
  | .ucJal n _ => n < 17
  | .ucJalr n _ _ _ => n < 17
  | .ucSyscall n _ => n < 17
  | .ucBreak n _ => n < 17
  | .ucEret n _ => n < 17
  | .ucMret n _ => n < 17
  | .ucWfe n _ => n < 17
  | .ucFence n _ => n < 17
  | .ucMfs n _ _ _ => n < 17
  | .ucMts n _ _ _ => n < 17
  | .ucIinv n _ _ => n < 17
  | .ucDclean n _ _ => n < 17
  | .ucDinv n _ _ => n < 17
  | .ucDflush n _ _ => n < 17
  | .ucIinvAll n _ _ => n < 17
  | .ucDcleanAll n _ _ => n < 17
  | .ucDinvAll n _ _ => n < 17
  | .ucDflushAll n _ _ => n < 17
  | .interruptEntry n => n < 17
  | .monitorEntry n => n < 17
  | .evtClaim m n => m < 25 && n < 16
  | .evtTest m _ => m < 25
  | .eventHostMessage k => k < 320
  | .watchdogKick m n _ => m < 25 && n < 16
  | .wdctlWrite m n _ => m < 25 && n < 16
  | .watchdogExpiry n => n < 16
  | .tccRunWrite m n _ => m < 25 && n < 16
  | .tskReady c n id => c.m < 25 && n < 16 && id < 512
  | .tskBlock c n id flag _ => c.m < 25 && n < 16 && id < 512 && flag < 4096
  | .tskYield c n id => c.m < 25 && n < 16 && id < 512
  | .tskCancel m n id _ => m < 25 && n < 16 && id < 512
  | .tskSetpri c n id pri => c.m < 25 && n < 16 && id < 512 && pri < 32
  | .tskDone c n id => c.m < 25 && n < 16 && id < 512
  | .tskDispatch c n => c.m < 25 && n < 16
  | .tskModeWrite m _ => m < 25
  | .poolSubmit c n _ => c.m < 25 && n < 16
  | .flagSet m n _ => m < 25 && n < 128
  | .channelPublish n => n < 1024
  | .chnIndexWrite m n _ _ => m < 25 && n < 1024
  | .spillRefill n _ => n < 1024
  | .localBankAccess r => r.wf
  | .bitSetAlias m _ _ => m < 25
  | .bitClearAlias m _ _ => m < 25
  | .coreDieWindowAccess r => r.wf
  | .hbmNocAccess r _ _ => r.wf
  | .pinImageRead r => r.wf
  | .nocResponse _ => true
  | .nocTimeout _ => true
  | .nocFenceWrite m t _ => m < 25 && t < 64
  | .fenceDrained t => t < 64
  | .nocRcfgWrite m r _ => m < 25 && r < 32
  | .routerReady r => r < 32
  | .nocRtWrite m k e _ => m < 25 && k < 25 && e < 64
  | .hbkBpwrWrite m b _ => m < 25 && b < 16
  | .bankPowerDone b => b < 16
  | .marchStart m b _ => m < 25 && b < 16
  | .marchChunkBorrow b _ => b < 16
  | .marchEnd b _ => b < 16
  | .hbkRlockWrite m _ => m < 25
  | .hbkCamCreate m _ => m < 25
  | .hbkCamFree m _ => m < 25
  | .camFreeDone => true
  | .sessionOpen msg => msg.wf
  | .sessionClose msg => msg.wf
  | .sessionTimeout _ => true
  | .dbgChallenge msg => msg.wf
  | .challengeExpire _ => true
  | .dbgAuth msg => msg.wf
  | .dbgHalt msg => msg.wf
  | .dbgHaltreqWrite m _ => m < 25
  | .dbgMon msg => msg.wf
  | .dbgMemrd msg => msg.wf
  | .dbgMemwr msg => msg.wf
  | .dbgRunEnd => true
  | .dbgTrcpriv msg => msg.wf
  | .dbgHold msg => msg.wf
  | .mboxSend m n _ => m < 25 && n < 16
  | .mboxSent n => n < 16
  | .trcMsgWrite m _ => m < 25
  | .trcSrcWrite m n _ => m < 25 && n < 16
  | .trcOutWrite m _ => m < 25
  | .coreSleep n => n < 16
  | .coreWake n => n < 16
  | .traceSyncEmit n => n < 16
  | .traceOvfEmit => true
  | .pmcWrap n k => n < 16 && k < 8
  | .pmcClear m _ => m < 25
  | .sampleRecord _ => true
  | .pmcSbfreeWrite m _ => m < 25
  | .pmcSbenWrite m n _ => m < 25 && n < 16
  | .dumpNow m _ => m < 25
  | .dumpDue => true
  | .dumpComplete => true
  | .fioBankWrite m n _ => m < 25 && n < 16
  | .fioCellWrite m n _ => m < 25 && n < 512
  | .bankFault n => n < 16
  | .configSend n => n < 16
  | .fieldIdleSend _ => true
  | .fbOut _ pins => pins.wf
  | .fbPrime _ pins => pins.wf
  | .fbConfig _ => true
  | .fbInert => true
  | .fbResend => true
  | .fbIdle => true
  | .fieldIn _ => true
  | .fieldIdleFromFb => true
  | .fieldNak => true
  | .fieldBad => true
  | .fieldTimeout => true
  | .fieldCrossingDown => true
  | .fbWatchdog => true
  | .claim msg => msg.wf
  | .unclaim msg => msg.wf
  | .modeQuery msg => msg.wf
  | .run msg => msg.wf
  | .step msg => msg.wf
  | .stepBurstEnd => true
  | .stop msg => msg.wf
  | .safe msg => msg.wf
  | .mgtSafeReq m _ => m < 25
  | .clear msg => msg.wf
  | .discard msg => msg.wf
  | .testEnter msg => msg.wf
  | .testExit msg => msg.wf
  | .power msg => msg.wf
  | .sensors msg => msg.wf
  | .setRead msg => msg.wf
  | .setStage msg => msg.wf
  | .setCommit msg => msg.wf
  | .settingsCommitDone => true
  | .settingsEraseDone => true
  | .setDrop msg => msg.wf
  | .logRead msg => msg.wf
  | .updBegin msg => msg.wf
  | .updWriteDone => true
  | .updConfirm msg => msg.wf
  | .mcRestart msg => msg.wf
  | .mcStart => true
  | .mcWatchdogExpiry => true
  | .bootStepDone => true
  | .bootStepTimeout => true
  | .mgtBootDone m _ => m < 25
  | .mbxDoorWrite m _ => m < 25
  | .mbxLog => true
  | .mbxSensors => true
  | .mbxSetread => true
  | .logFlush => true
  | .wallTimeToMc => true
  | .bankSupplyGood n => n < 16
  | .hostLinkChange hport _ => hport < 2
  | .shadowPlaneDrain die _ => die < 6
  | .acqBufferWrite => true
  | .traceFifoDrain _ => true

end Sys2Proof
end

