-- ==== Sys2Proof/Tests/Slice0.lean ====
section
/-! SUPPORT. Tests: the manual's worked examples, well-formedness, and for every obligation with hypotheses concrete states and operands
that meet them together (witness_<name>, over the hypotheses of its clauses, written out as Meets.<name><clause>). -/

namespace Sys2Proof.Machine

/-! ### Builders of small states -/

/-- A session with every right. -/
def sess5 : Session := ⟨5, .opt0, 7, 1, some 1, [], true, true, none, none, false, 0⟩
/-- Reset, with session 5 open and holding the claim. -/
def State.host (s : State) : State := { s with hmp := { s.hmp with sessions := [sess5], claim := some 5, nextNum := 6 } }
/-- In a mode. -/
def State.inMode (s : State) (m : Mode) : State := { (setMode m s) with ctl := { (setMode m s).ctl with mode := m } }
/-- With `c` waiting. -/
def State.queued (s : State) (c : Instr) : State := { s with pending := [c] }
/-- Core `n` in a state. -/
def State.withCore (s : State) (n : Nat) (f : Core → Core) : State := s.setCore n (f (s.core n))
def State.flying (s : State) (l : List Flight) : State := { s with noc := { s.noc with flights := l } }
def State.withGrp (s : State) (n : Nat) (f : Grp → Grp) : State := s.setLane n { s.lane n with a := f (s.lane n).a, b := f (s.lane n).b }
def State.withSession (s : State) (f : Session → Session) : State := { s with hmp := { s.hmp with sessions := s.hmp.sessions.map f } }
def State.starting (s : State) (n : Nat) : State := { s with fio := { s.fio with start := [n] } }
def State.unlinked (s : State) : State := { s with hmp := { s.hmp with link0 := false, link1 := false } }
def State.traced (s : State) (l : List Byte) : State := { s with trc := { s.trc with fifo := l } }
def State.settings (s : State) (f : Mgt → Mgt) : State := { s with mgt := f s.mgt }

end Sys2Proof.Machine

namespace Sys2Proof.Tests
open Sys2Proof Sys2Proof.Machine

set_option Elab.async false

/-- A sound request of opcode `op`: its length and its check fit (R30, R31). -/
def msgOn (port : HPort) (op seq sess : Nat) (p : List Byte) (kind : Nat := 1) : Msg :=
  let m : Msg := ⟨port, 7, 1, kind, BitVec.ofNat 16 op, BitVec.ofNat 32 seq, BitVec.ofNat 32 sess, p.length, 0, 0, p⟩
  { m with check := BitVec.ofNat 32 (crc32 (leBytes 1 1 ++ leBytes 1 kind ++ leBytes 2 (BitVec.ofNat 16 op).toNat ++ leBytes 4 seq ++ leBytes 4 sess ++
      leBytes 4 p.length ++ leBytes 4 0 ++ leBytes 4 0 ++ p)) }
/-- On session 5 of host port 0. -/
def msg (op : Nat) (p : List Byte := []) : Msg := msgOn .opt0 op 2 5 p
/-- What the fetch of core `n` leaves. -/
def after (n : Nat) (s : State) : State := match fetchAccess n (beginInsn n s) with | .done _ u => u | _ => s
/-- An instruction word at the pc of core `n`. -/
def put (n w : Nat) (s : State) : State :=
  let a := (s.core n).pc.toNat
  { s with mem := Mem.write s.mem (if n = 16 then mcMem a else a) (leBytes 4 w) }
/-- The management controller about to load from its peripherals. -/
def mcAt : State := State.reset.withCore 16 fun c => { c with x := [(1, 0x30000000)] }
/-- A byte of bank 0 fails parity. -/
def badBank : State := { State.reset with badMem := [0x1000003] }
/-- Requests. -/
def rd (m a n : Nat) : Req := ⟨m, a, n, false, []⟩
def wr (m a : Nat) (d : List Byte) : Req := ⟨m, a, d.length, true, d⟩
/-- ARMED, SAFE -/
def inSafe : State := State.reset.inMode .safe
/-- Three core dies and two stacks. -/
def threeDies : State := { State.reset with fuses := { Fuses.reset with grade := .u6120 } }
/-- Regions 1, 6 and 9 exist. -/
def regions : State := State.reset.setFlds [(F.HBK_HRGN_VALID 0, 1), (F.HBK_HRGN_PSIZE 0, 2), (F.HBK_HRGN_VALID 5, 1), (F.HBK_HRGN_PSIZE 5, 1), (F.HBK_HRGN_PBASE 5, 2),
  (F.HBK_HRGN_VALID 8, 1), (F.HBK_HRGN_PSIZE 8, 1), (F.HBK_HRGN_PBASE 8, 3)]
/-- A request of master `m` for target `g`, answered. -/
def fl (m g a n : Nat) : Flight := ⟨m, g, a, n, false, State.reset.reg (A.NOC_RT m g), 0, 0, [], false, none, false, false, false, false⟩
def flown : State := State.reset.flying [{ fl 0 17 0x10000 4 with data := [1, 2, 3, 4] }, { fl 3 16 0x4000000 4 with waits := some [], stalled := true },
  { fl 3 16 0x4000000 4 with timedOut := true }, { fl 3 16 0x4000000 4 with lost := true }, { fl 3 16 0x4000000 4 with lost := true, asks := true }]
def nxt (c : Instr) (s : State) : State := match exec c s with | .next t => t | _ => s
def rowAt (a : Nat) : RegRow := (findRow a).getD ⟨0, 1, 1, 1, 1, 0, 0, 0, 0, 0, 0⟩
def offBank : State := { (State.reset.setFlds [(F.HBK_BPWR_BUSY 1, 1), (F.NOC_FENCE_AUTO 1, 1), (F.NOC_FENCE_DRAINED 1, 1), (F.HBK_BPWR_STATE 2, 2), (F.HBK_BPWR_BUSY 2, 1)]).withCore 3 (fun c => { c with resv := some (0x1100040 / 64) }) with
  hub := { Hub.reset with power := [(1, 2), (2, 0)] }, mem := [(0x1100000, 7), (0x1200000, 8), (0x1300000, 9)] }
def marching : State := { State.reset.setFlds [(F.HBK_MCTL_BUSY 1, 1), (F.HBK_MCTL_BUSY 2, 1), (F.NOC_FENCE_AUTO 2, 1), (F.HBK_MCTL_BUSY 3, 1)] with
  hub := { Hub.reset with marches := [⟨1, true, 0, 0, false, [(1, 3)]⟩, ⟨2, false, 0, 0, true, []⟩, ⟨3, true, 0, 4, true, []⟩, ⟨4, true, 255, 3, true, []⟩] }, mem := [(0x1200000, 5), (0x1300000, 6)] }
def header : Header := ⟨0x6220, 8, 1, 8, 0, 0, 0, [], 1, [], 256, 0, 0⟩
def inIdle : State := (State.reset.inMode .idle).host
def inArmed : State := let s := (State.reset.inMode .armed).host
  { s.setFlds [(F.SFB_SCHED_L, 8), (F.SFB_SCHED_S, 1), (F.SFB_HORIZON_H, 8)] with ldr := { s.ldr with img := some header } }
def loadingA (t : Intake) (slot : Option Nat) : State := let s := (State.reset.inMode .load).host
  { s with ldr := { s.ldr with loading := some ⟨5, slot, t⟩ } }
def slotted : State := let s := inIdle.setFlds [(F.LDR_SLOT_VALID 3, 1), (F.LDR_SLOT_VERIFIED 3, 1), (F.HBK_HRGN_VALID 4, 1), (F.HBK_HRGN_PSIZE 4, 1)]
  { s with ldr := { s.ldr with staged := [(3, 16)] } }
def stagingA (t : Intake) : State := { inIdle with ldr := { inIdle.ldr with stagings := [⟨3, 5, t⟩] } }
def snap0 : Snap := ⟨3, [1, 70], [], [], 0, 0, [], [], [], false, [9], [], [127, 128, 128, 128, 128, 128], [], [], [], some []⟩
def inRun : State := let s := (State.reset.inMode .run).host
  { (s.setFlds [(F.SFB_SCHED_L, 8), (F.SFB_SCHED_S, 1), (F.SFB_HORIZON_H, 8), (F.HBK_HRGN_VALID 5, 1), (F.HBK_HRGN_PSIZE 5, 4)]) with
    ldr := { s.ldr with img := some header }, ctl := { s.ctl with clock := true } }
def inHold : State := let s := inRun.inMode .hold; { s with ctl := { s.ctl with clock := false } }
def snapped (x : Snap) : State := { inRun.setFld F.SNP_STAT_STATE 2 with snp := { Snp.reset with snap := some x } }
def streaming : State := let s := snapped snap0
  { s with snp := { s.snp with stream := some ⟨5, 0, 0, false⟩ }, hmp := { s.hmp with outs := [⟨5, 0x0602, [[1]], 0, 0⟩] } }
def restoringA (b : List Byte) (n : Nat) : State := let s := inArmed.inMode .restore
  { s with snp := { s.snp with restoring := some ⟨5, n, b, false⟩ } }
def acq1 (f : Acq → Acq) : State := { inRun with acq := f Acq.reset }
/-- The probe table in the unit's own buffer. -/
def own (s : State) : State := { s with acq := { s.acq with ownSet := true } }
/-- Armable with one probe word in the unit's buffer, or in bank 0. -/
def armable1 (own : Bool) : State := { (inRun.setFlds [(F.ACQ_TUN_SIZE, 1), (F.ACQ_TUN_RAWP, 1), (F.ACQ_SETN_NB, 1), (⟨A.ACQ_SETLO, 0, 32⟩, 0x1000000)]) with
  acq := { Acq.reset with probes := [(5, some ⟨3, 0, 7⟩)], ownSet := own, setBuf := [0, 0, 0, 0, 7] }, mem := [(0x1000000, 5)] }
def armable : State := inRun.setFlds [(F.ACQ_TUN_SIZE, 1), (F.ACQ_TUN_RAWP, 1)]
def ltrig : State := let s := inRun.setFlds [(F.TRG_LG_ACT, 1), (F.TRG_LG_D, 0)]
  { s with acq := { s.acq with lgs := [(5, 1), (6, 2), (5, 3)] }, lge := { s.lge with cycle := 7 }, arr := { s.arr with pos := 17 } }
def stopping (rep : Nat) : State := let s := inRun.setFlds [(F.ACQ_CTL_CAPT, 1), (F.ACQ_CTL_REPEAT, rep)]
  { s with acq := { s.acq with stopCycle := some 3 }, lge := { s.lge with cycle := 4 } }
def ckf (b : List Byte) (n : Nat) : Nat × Nat := ((restoringA b n).ckFault ⟨5, n, b, false⟩).getD (0, 0)
def stageAt (n k : Nat) : State := State.reset.setFlds [(F.LNK_STAT_STAGE n, k), (F.LNK_CTL_EN n, 1)]
/-- A data word of SEQ `q`. -/
def lword (t q : Nat) : Nat := linkWord t q 0 false 0 0
/-- A word on the lanes of group `k`, from a scrambler just restarted. -/
def wire (k w : Nat) : List (List Bool) := (Grp.reset.send k w).line
/-- What a group receives from the lanes. -/
def heard (s : State) (n k : Nat) (l : List (List Bool)) : Nat × Bool × Grp := ((s.lane n).grp k).receive k l
def training : Training := ⟨List.replicate 16 0, true, 8⟩
/-- Entry `x` of the scheduler in a state, on every core's list. -/
def thrAt (x st : Nat) : State := let s := State.reset.setFlds [(F.TSK_MODE_POOL, 0), (F.TSK_THR_STATE x, st), (F.TSK_THR_PRI x, 7), (F.TSK_THR_CORE x, 3), (F.TSK_AFF_AFF x, 0xFFFF)]
  if st = 1 then { s with tsk := { s.tsk with ready := [x] } } else if st = 2 then s.setFlds [(F.TSK_RUN_VALID 3, 1), (F.TSK_RUN_ID 3, x)] else s
/-- The status of an arm at cycle `f` with a probe table. -/
def armSt (f : Nat) (tab : List Byte) (s : State) : Nat := if armStatus f s ≠ 0 then armStatus f s else if s.capTable tab = none then 0x784 else 0
def pooled (s : State) : State := s.setFld F.TSK_MODE_POOL 1
/-- Channel `n` with a ring of `d` entries of 8 bytes. -/
def chanAt (n dir d : Nat) : State := State.reset.setFlds [(F.CHN_CFG_VALID n, 1), (F.CHN_CFG_DIR n, dir), (F.CHN_CFG_DEPTHM1 n, d - 1), (F.CHN_QINFO_ESZ n, 1), (F.CHN_QINFO_OFF n, 64)]
def tunned : State := let s := inRun.setFlds [(F.HBK_HRGN_VALID 6, 1), (F.HBK_HRGN_PSIZE 6, 8), (F.HBK_HRGN_PBASE 6, 4)]
  { s with acq := { s.acq with streams := [⟨4, 0, 16, 6, 4, 0⟩, ⟨4, 64, 16, 0, 0, 0⟩, ⟨4, 128, 16, 0, 0, 0⟩, ⟨4, 192, 16, 0, 0, 0⟩] } }
def poolFull : State := let r := (State.reset.setReg (A.TSK_PAFF 0) 0x0500FFFF).regs
  { State.reset with regs := r.filter (fun x => x.1 < A.TSK_THR 0) ++ (List.range 512).map (fun x => (A.TSK_THR x, 0x20000000)) ++ r.filter (fun x => A.TSK_THR 512 ≤ x.1) }
/-- Core `n` released, its pc in bank `n`. -/
def runAt (n : Nat) (f : Core → Core := id) : State := State.reset.withCore n fun c => f { c with running := true, pc := BitVec.ofNat 32 (if n = 16 then 0x10000000 else 0x1000000 + n * 0x100000) }
def withX (l : SMap Word) (sys : SMap Word := []) (c : Core) : Core := { c with x := l, sys := sys }
def pAdd : (Nat → BitVec 5 → BitVec 5 → BitVec 5 → Instr) × Nat × (Word → Word → Word) := (Instr.ucAdd, 0, fun a b => a + b)
def pAddi : (Nat → BitVec 5 → BitVec 5 → BitVec 16 → Instr) × Nat × (Word → BitVec 16 → Word) := (Instr.ucAddi, 1, fun a i => a + i.signExtend 32)
def pSlli : (Nat → BitVec 5 → BitVec 5 → BitVec 16 → Instr) × Nat × (Word → Nat → Word) := (Instr.ucSlli, 7, fun a k => a <<< k)
def pBeq : (Nat → BitVec 5 → BitVec 5 → BitVec 16 → Instr) × Nat × (Word → Word → Prop) := (Instr.ucBeq, 0x20, fun a b => a = b)
def pLw : (Nat → BitVec 5 → BitVec 5 → BitVec 16 → Instr) × Nat × Nat × (Nat → Word) := (Instr.ucLw, 0x14, 4, fun v => BitVec.ofNat 32 v)
def pSw : (Nat → BitVec 5 → BitVec 5 → BitVec 16 → Instr) × Nat × Nat := (Instr.ucSw, 0x1A, 4)
/-- A line of a cache, clean. -/
def cline (a : Nat) : CLine := ⟨a, List.replicate 64 3, false, false⟩
def inMon (c : Core) : Core := { c with sys := [(0, 0x104), (0x10, 0x1000403), (0x12, 0x2000)], monPrv := false }
def user (c : Core) : Core := { c with sys := [(0, 0), (0x20, 0x1F)] }
def irqAt : State := ((runAt 0 (withX [] [(0, 5), (4, 0x1000800)])).setFlds [(F.EVT_CFG_EN 5, 1), (F.EVT_CFG_PRI 5, 1), (F.EVT_CFG_CORE 5, 0)]).setReg (A.EVT_PEND 0) 0x20
def wdAt (f : Core → Core) : State := (runAt 15 f).setFlds [(F.TCC_WDCTL_EN 15, 1), (F.TCC_WDCTL_US 15, 0)]
def sleepy (b : Bool) : State := (runAt 15 fun c => { c with wfe := true, asleep := b, wdog := b }).setFld (F.TRC_SRC_EN 15) 1
/-- Events 5, 70 and 319 pending for core 2, with PRI 3, 4 and 4. -/
def events3 : State := (((State.reset.setFlds [(F.EVT_CFG_EN 5, 1), (F.EVT_CFG_EN 70, 1), (F.EVT_CFG_EN 319, 1), (F.EVT_CFG_PRI 5, 3), (F.EVT_CFG_PRI 70, 4), (F.EVT_CFG_PRI 319, 4),
  (F.EVT_CFG_CORE 5, 2), (F.EVT_CFG_CORE 70, 2), (F.EVT_CFG_CORE 319, 2)]).setReg (A.EVT_PEND 0) 0x20).setReg (A.EVT_PEND 2) 0x40).setReg (A.EVT_PEND 9) 0x80000000
def events0 : State := (State.reset.setFlds [(F.EVT_CFG_EN 5, 1), (F.EVT_CFG_CORE 5, 2)]).setReg (A.EVT_PEND 0) 0x20
def reporting : State := State.host (State.reset.setFlds [(F.EVT_CFG_EN 319, 1), (F.EVT_CFG_HOST 319, 1), (F.EVT_CFG_LOG 319, 1)])
def tracing (n : Nat) (x : TrcSrc) : State := let s := State.reset.setFld (F.TRC_SRC_EN n) 1
  { s with trc := { s.trc with srcs := setAt s.trc.srcs n x, fifo := [9] } }
def sampling (e : Nat) : State := let s := State.reset.setFlds [(F.PMC_SBOWN_VALID, 1), (F.PMC_SBOWN_CORE, 3), (F.PMC_SBCTL_PERIOD, 2), (F.TRC_AUTH_PRIV, 1), (F.PMC_SBWM_WM, 1)]
  { s with pmc := { s.pmc with eligible := e } }
def sampled0 : Sampled := ⟨0x100, 0x200, 0x300, 5, true, false, false, false, false⟩
def dumping : State := let s := State.reset.setFlds [(F.PMC_DCTL_MODE, 1), (F.PMC_DBASELO_ADDR, 0x4000000 / 64), (F.PMC_DNUM_N, 2)]
  { s with pmc := { s.pmc with dump := some (1, List.replicate 128 5) } }
def full32 : State := { inIdle with hmp := { inIdle.hmp with sessions := List.replicate 32 sess5 } }
def capIn : InStream := ⟨5, .capset, 0x0702, 3, [], 0, 64⟩
def listening (i : InStream) : State := { inRun with hmp := { inRun.hmp with ins := [i] } }
def sending (o : OutStream) : State := { inRun with hmp := { inRun.hmp with outs := [o] } }
def streamMsg (op seq : Nat) (kind : Nat := 4) : Msg := msgOn .opt0 op seq 5 (if kind = 4 then [1, 2, 3, 4] else []) kind
def busyRun : DbgRun := ⟨5, 0x0D06, 0x4000000, 16, [], 0, 16, false⟩
/-- A read run of session 5 before its last word, whose access waits in the network. -/
def waitRun : DbgRun := ⟨5, 0x0D06, 0x4000000, 16, [], 0, 12, false⟩
def waitFl : Flight := { fl 16 16 0x400000C 4 with asks := true, waits := some [] }
/-- A frame on its way, as it was written and not again. -/
def hw (f : HubFrame) (again : Bool := false) : Wire := ⟨f.bytes, again⟩
def fw (f : FbFrame) (again : Bool := false) : Wire := ⟨f.bytes, again⟩
/-- Frames of a bad form: a reserved byte of an OUT and of an IN is not 0; a TYPE that R603 does not list. -/
def badOut : Wire := ⟨sealFrame (leBytes 4 0x01000501 ++ List.replicate 140 0), false⟩
def badIn : Wire := ⟨sealFrame (leBytes 4 0x511 ++ List.replicate 4 0 ++ [1] ++ List.replicate 135 0), false⟩
def noType : Wire := ⟨sealFrame [9, 3, 0, 0], false⟩
def fbAt (l : List Wire) (f : Fb → Fb := id) : State := { inRun with fio := { Fio.reset with toFb := l }, fb := f Fb.reset }
def hubAt (l : List Wire) (f : Fio → Fio := id) : State := { inRun.setFld F.FIO_STAT_UP 1 with fio := f { Fio.reset with toHub := l } }
def pins0 : Pins := ⟨[0, 33, 511], [0], []⟩
def unans (q c : Nat) : Unanswered := ⟨q, c, some (.out false q true c 0 0 [1] [2]), false⟩
def inOff : State := { State.reset with ctl := { Ctl.reset with mode := .off, corePower := false, fieldPower := false, inputGood := false }, mgt := { Mgt.reset with mcUp := false } }
def dark (m : Mode) : State := { State.host State.reset with ctl := { Ctl.reset with mode := m, corePower := false, fieldPower := false } }
def setAuto : Mgt → Mgt := fun m => { m with copy0 := [(8, 1)], active := some 0 }
def bootAt (k : Nat) : State := { State.reset with mgt := { Mgt.reset with stage := k } }
def mmsg (op : Nat) (p : List Byte := []) : Msg := msgOn .mgmt op 2 5 p
def safeHost : State := (inSafe.host).setFlds [(F.PWR_LIM_THROT, 100), (F.PWR_THM_TJMAX, 1519), (F.SFB_HOLD_STAT_FAULT, 1)]
def sensors0 (t : Int) : Sensors := ⟨List.replicate 44 (some t), 320, 4800, 1000, 5000, List.replicate 15 (800, 10)⟩
/-- Step clock locked at 1000 MHz, L 8 and S 16. -/
def clocked (s : State) : State := s.setFlds [(F.SFB_CLK_MHZ, 1000), (F.SFB_CLK_LOCK, 1), (F.SFB_SCHED_L, 8), (F.SFB_SCHED_S, 16)]
def ready : State := clocked inArmed
def grainAt (pos : Nat) : State := { clocked inRun with arr := { inRun.arr with pos := pos }, tim := { inRun.tim with league := 100 } }
def imaged (s : State) : State := { s with ldr := { s.ldr with img := some { header with flags := 1 } } }
/-- A member of a league: the plan word, LGE_STAT.STATE, every port of the topology OK. -/
def member (plan st : Nat) (s : State := inRun) : State :=
  let t : State := { s with lge := { s.lge with plan := plan } }
  (t.setFlds [(F.LGE_STAT_SIZE, planCount plan), (F.LGE_STAT_STATE, st), (F.LGE_STAT_MASTER, if bits plan 13 6 = 0 then 1 else 0),
    (F.LGE_STAT_UPPORT, upstream plan (bits plan 13 6)), (F.LGE_STAT_DIAM, diameter plan),
    (F.LGE_PSTAT_CODE, t.topoPorts.foldl (fun m n => m + 2 * 8 ^ n) 0)])
/-- Ring of 2 at position 1; cube of 64 at position 63; ring of 2 at position 0. -/
def ring1 : Nat := 0x41002000
def ring0 : Nat := 0x41000000
def cube63 : Nat := 0xC0000000 + 3 * 2 ^ 24 + 3 * 2 ^ 21 + 3 * 2 ^ 19 + 63 * 8192
def tok0 : CycleTok := ⟨0, false, 0, false, 0, 0⟩
def voteW (k o g : Nat) : BitVec 32 := BitVec.ofNat 32 (k * 2 ^ 29 + o * 2 ^ 23 + g)
def ptp (s : State) : State := s.setFlds [(F.TIM_CTL_SRC, 3), (F.TIM_CTL_DOMAIN, 24)]
def best1 : PtpMaster := ⟨1, 77, [1, 2], 24, 0⟩
def withBest (s : State) : State := let s := ptp s; { s with tim := { s.tim with best := some best1, masters := [best1] } }
def hread (r : Bool) : HbmRead := ⟨5, 1, 100, false, 3, 42, false, none, false, r⟩
/-- A merge read. -/
def mread : HbmRead := ⟨5, 1, 100, true, 3, 0, false, none, false, false⟩
def reading (r : Bool) : State := { inRun with dm := { Dm.reset with
  descs := [⟨5, 8, 0, 64, 1023, 0, [⟨0, 0, 0, 0, 0⟩, ⟨0, 0, 0, 0, 0⟩]⟩], acc := [⟨5, 1, 100, 0, 0, none⟩], reads := [hread r] } }
def scrubbing : State := inRun.setFlds [(F.HBK_SCRUB_EN, 1), (F.HBK_HRGN_VALID 0, 1), (F.HBK_HRGN_PSIZE 0, 12288), (F.HBK_SCRUB_CEEV, 1)]
def scrub1 : State := inRun.setFlds [(F.HBK_SCRUB_EN, 1), (F.HBK_HRGN_VALID 5, 0), (F.HBK_HRGN_VALID 8, 1), (F.HBK_HRGN_PSIZE 8, 8)]
/-- The MC's mailbox filled with a request. -/
def boxed (b : List Byte) : State := { State.reset with mem := Mem.write State.reset.mem tomcBase b }

/-! ### Worked examples and check values of the manual, each one step or one value -/

/-- R9: the check value of CRC-32. -/
theorem test_crc32_check : crc32 [0x31, 0x32, 0x33, 0x34, 0x35, 0x36, 0x37, 0x38, 0x39] = 0xCBF43926 := by decide +kernel

/-- R10: the check value of CRC-16. -/
theorem test_crc16_check : crc16 [0x31, 0x32, 0x33, 0x34, 0x35, 0x36, 0x37, 0x38, 0x39] = 0x29B1 := by decide +kernel

/-- Boolean Processor, the rod of 32 BPs at step 300: BP `i`'s word. -/
def rodWord (i : Nat) : Nat :=
  (if i = 0 then 0x2210648000A00000 else if i = 31 then 0x4210648000A00000 else 0x3210648000A00000) + i * 2 ^ 28 + 0x648 - 0xA00000 + 0xA000000
def rod : State := { grainAt 300 with
  regs := ((clocked inRun).setFlds [(F.SFB_SCHED_L, 1000)]).regs
  arr := { Arr.reset with
    pos := 300
    instr := (List.range 32).map fun i => (i * 2048 + 300, rodWord i)
    dict := [(0x21, 0x6666)]
    ds := ((List.range 32).filter fun i => bit 0xC3F01A7E i).map (· * 2048 + 100)
    wires := ((List.range 32).filter fun i => bit 0x5E21F0C4 i).map fun i => (300, .win 0 0 0 i) } }

/-- The words of the example's table. -/
theorem test_rod_words : [rodWord 0, rodWord 5, rodWord 31] = [0x221064800A000648, 0x321064805A000648, 0x42106481FA000648] := by decide +kernel

/-- The rod's sum 0xC3F0_1A7E + 0x5E21_F0C4 stands in DS[300] of its BPs. -/
theorem test_rod_adds : ((List.range 32).all fun i => NSet.has (nxt (.grain []) rod).arr.ds (i * 2048 + 300) == bit (0xC3F01A7E + 0x5E21F0C4) i) = true := by
  decide +kernel

/-- The Step Fabric, the route from bushel 13 of CD2 to peck 11 of bushel 8 of CD3. -/
theorem test_route :
    (bushelEmit 6 2 13 100 0x0000011028).map (fun d => (d.step, d.dest)) = [(101, .ingress 2 14 0x4028)] ∧
    (bushelEmit 6 2 14 101 0x0000011028).map (fun d => (d.step, d.dest)) = [(102, .ingress 2 15 0x4028)] ∧
    (bushelEmit 6 2 15 102 0x0000015058).map (fun d => (d.step, d.dest)) = [(105, .ingress 3 8 0x5258)] ∧
    (bushelEmit 6 3 8 105 0xA210000000).map (fun d => (d.step, d.dest)) = [(106, .win 3 8 11 17)] := by decide +kernel

/-- Ifemet Lanes, the hub emit entry of the example: slot of port P0, j = 5, group A, at p = 304. -/
theorem test_hub_entry : (hubEmits 6 303 0xB0000005).map (fun d => (d.step, d.dest)) = [(304, .slot 3 5)] := by decide +kernel

/-- Ifemet Lanes, the LANEMAP record of the example. -/
theorem test_lanemap_record : (laneRec 0x0000002411A82609).1 = ⟨1, 0, 36, 424, 4 * 2048 + 1545⟩ := by decide +kernel

/-- Hub Memory, the NoC address of word 5 of the example's memory. -/
theorem test_hbm_address : regionAddr 0x20000000 0x80000000 (0x02200000 * 64 + 20) = 0x010628000014 := by decide +kernel

/-- Trace, the MSG packet of the example, 150 cycles after the SYNC. -/
theorem test_trace_msg :
    (nxt (.trcMsgWrite 3 0xCAFE0001) { tracing 3 ⟨150, 0, 0, false⟩ with trc := { (tracing 3 ⟨150, 0, 0, false⟩).trc with fifo := [] } }).trc.fifo =
      [0x13, 0x96, 0x01, 0x01, 0x00, 0xFE, 0xCA] := by decide +kernel

/-- Trace, the SYNC packet of the example at TB_LOCAL 1,000,000,000. -/
theorem test_trace_sync :
    (nxt (.trcSrcWrite 0 3 0xC0000002) { State.reset with tim := { Tim.reset with loc := 1000000000 } }).trc.fifo =
      [0x53, 0x00, 0xCA, 0x9A, 0x3B, 0x00, 0x00, 0x00, 0x00] := by decide +kernel

/-- Transactor Cores, the counting loop: TC0 with x4 at the counter, which holds 41, and the example's word `w` at the pc. -/
def counting (pc : Word) (w : Nat) (x5 : Word) (resv : Option Nat) : State :=
  put 0 w { runAt 0 (fun c => { c with pc := pc, x := [(4, 0x01002040), (5, x5)], resv := resv }) with mem := [(0x1002040, 41)] }

/-- LL x5, 0(x4): x5 is 41 and the granule 0x0100_2040 is reserved. -/
theorem test_ll :
    let c := (nxt (.ucLl 0 5 4 0) (counting 0x01000200 0x70A40000 7 none)).core 0
    (c.x, c.pc, c.resv) = ([(4, 0x01002040), (5, 41)], 0x01000204, some (0x01002040 / 64)) := by decide +kernel

/-- ADDI x5, x5, 1. -/
theorem test_addi : ((nxt (.ucAddi 0 5 5 1) (counting 0x01000204 0x04A50001 41 none)).core 0).x = [(4, 0x01002040), (5, 42)] := by decide +kernel

/-- SC x6, x4, x5 without the reservation: x6 is 1 and the word still 41. -/
theorem test_sc_fails :
    let t := nxt (.ucSc 0 6 4 5 0) (counting 0x01000208 0x74C42800 42 none)
    (t.x 0 6, Mem.read t.mem 0x1002040 1) = (1, [41]) := by decide +kernel

/-- SC with the reservation: x6 is 0 and the word 42. -/
theorem test_sc_stores :
    let t := nxt (.ucSc 0 6 4 5 0) (counting 0x01000208 0x74C42800 42 (some (0x01002040 / 64)))
    (t.x 0 6, Mem.read t.mem 0x1002040 1) = (0, [42]) := by decide +kernel

/-- BNE x6, x0, −3 from 0x0100_020C goes to 0x0100_0200. -/
theorem test_bne : ((nxt (.ucBne 0 6 0 0xFFFD) (put 0 0x84C0FFFD (runAt 0 fun c => { c with pc := 0x0100020C, x := [(6, 1)] }))).core 0).pc = 0x01000200 := by
  decide +kernel

/-- Leagues and Time, the ring of 3: position 1's upstream port is P1, position 2's is P0, and every pair is at distance 1. -/
theorem test_ring_of_3 : (upstream 0x42000000 1, upstream 0x42000000 2, distance 0x42000000 0 2, distance 0x42000000 1 2) = (1, 0, 1, 1) := by
  decide +kernel

/-- Leagues and Time, the RISE and FALL words of the example. -/
theorem test_vote_words : [VoteEv.slot ⟨1, 2, 5000000⟩, VoteEv.slot ⟨1, 1, 5000020⟩, VoteEv.slot ⟨2, 2, 5000030⟩, VoteEv.slot ⟨2, 1, 5000100⟩] =
    [0x214C4B40, 0x20CC4B54, 0x414C4B5E, 0x40CC4BA4] := by decide +kernel

/-- Channels, the descriptor of the example: ESZ 1, so 2,048 bytes. -/
theorem test_channel_descriptor :
    let c := chanRec (0x03300020 + 0x000000FF * 2 ^ 32 + 0x00640000 * 2 ^ 96)
    (c.recbits, c.depth, c.due, c.esz, c.room) = (33, 256, 100, 1, 2048) := by decide +kernel

/-- Channels, the output-slot record of the example: channel 12, bit 5, step 110, line 1800. -/
theorem test_channel_record : (outRec 0x00000300506E0708).1 = ⟨12, 5, 110, 1800⟩ := by decide +kernel

/-- Field I/O, OUT 502 of the example: HELD 517 and PERIOD 758 ns after 1,517 grains at 2.0 GHz. -/
theorem test_field_period :
    (startOut 502 { inRun.setFld F.SFB_CLK_MHZ 2000 with fio := { Fio.reset with held := 517, edges := some 1517 } }).fio.toFb =
      [hw (.out false 1 false 502 517 758 [] [])] := by decide +kernel

/-- The word at the pc is what runs: ADDI's command over BNE's word takes no effect, since that instruction does not stand there (R406). -/
theorem test_addi_elsewhere : ((nxt (.ucAddi 0 5 5 1) (counting 0x01000204 0x84C0FFFD 41 none)).core 0).x = [(4, 0x01002040), (5, 41)] := by decide +kernel

/-! ### Well-formedness: an ill-formed term for each check, which the check refuses -/

def follow0 : FollowWord := ⟨0, 0, 0, 0, false, false, 0, 0, 0⟩
/-- A payload longer than a frame. -/
def badMsg : Msg := { msg 0 with version := 256 }

/-- The checks of Msg.wf. -/
theorem test_wf_msg : (msg 0).wf = true ∧ ({ msg 0 with version := 256 } : Msg).wf = false ∧ ({ msg 0 with kind := 256 } : Msg).wf = false ∧
    ({ msg 0 with length := 2 ^ 32 } : Msg).wf = false ∧ ({ mmsg 0 with payload := List.replicate 1401 0 } : Msg).wf = false := by decide +kernel
/-- The checks of Req.wf and of a size. -/
theorem test_wf_req : (rd 24 0 4).wf = true ∧ (rd 25 0 4).wf = false ∧ (rd 0 (2 ^ 48) 4).wf = false ∧ (rd 0 0 0).wf = false ∧ (rd 0 0 65).wf = false ∧
    ({ rd 0 0 4 with write := true } : Req).wf = false ∧ accessSize 64 = true ∧ accessSize 3 = false := by decide +kernel
/-- The checks of the tokens, of a FOLLOW word, of a thermal sample and of the pins. -/
theorem test_wf_parts : tok0.wf = true ∧ ({ tok0 with cycle := 2 ^ 64 } : CycleTok).wf = false ∧ ({ tok0 with thr := 9 } : CycleTok).wf = false ∧
    ({ tok0 with snapid := 2 ^ 32 } : CycleTok).wf = false ∧ ({ tok0 with rel := 4 } : CycleTok).wf = false ∧ follow0.wf = true ∧
    ({ follow0 with tseq := 256 } : FollowWord).wf = false ∧ ({ follow0 with sec := 2 ^ 48 } : FollowWord).wf = false ∧
    ({ follow0 with ns := 1000000000 } : FollowWord).wf = false ∧ ({ follow0 with frac := 65536 } : FollowWord).wf = false ∧
    ({ follow0 with rxSec := 2 ^ 48 } : FollowWord).wf = false ∧ ({ follow0 with rxNs := 1000000000 } : FollowWord).wf = false ∧
    ({ follow0 with rxFrac := 65536 } : FollowWord).wf = false ∧ training.wf = true ∧ ({ training with skews := [] } : Training).wf = false ∧
    (sensors0 0).wf = true ∧ ({ sensors0 0 with temps := List.replicate 49 none } : Sensors).wf = false ∧
    ({ sensors0 0 with rails := List.replicate 16 (0, 0) } : Sensors).wf = false ∧ pins0.wf = true ∧
    (⟨[512], [], []⟩ : Pins).wf = false ∧ (⟨[], [512], []⟩ : Pins).wf = false ∧
    (⟨[], [], [(512, 0)]⟩ : Pins).wf = false := by decide +kernel
/-- The checks of an upset. -/
theorem test_wf_upset : ([.instr 0xC0000000 0, .instr 0 256, .ds 0x3000000 0, .ds 0 256, .dict 0x300000 0, .dict 0 65536, .emit 0x600000000 0,
    .emit 0 (2 ^ 40), .hubEmit 0x1800000 0, .hubEmit 0 (2 ^ 32), .bank 0xFFFFFFFFF 0, .bank 0x1600000000 0, .bank 0x1000000000 256, .ram 0xFFFFFF 0,
    .ram 0x10000000 0, .ram 0x1000000 256, .dcache 16 0, .dcache 0 (2 ^ 48), .icache 16 0, .icache 0 (2 ^ 48), .oldRead 4 .clean] : List Upset).all
    (fun u => !u.wf) = true := by decide +kernel
theorem test_wf_refuses_0 : ([.registerWrite 25 0 4 0, .registerWrite 0 0x1000000000000 4 0, .registerWrite 0 0 3 0, .registerRcRead 25 0 4, .registerRcRead 0 0x1000000000000 4, .registerRcRead 0 0 3, .railFault 15, .streamData badMsg, .streamAcknowledge badMsg, .grain [.ds 0 256], .hbmReadDataArrive 4096 0 .clean, .hbmReadDataArrive 0 4 .clean, .hbmEccRetry 4096 0 .clean, .hbmEccRetry 0 4 .clean, .hbmWriteDrain 4 0, .hbmRefresh 4 0, .scrubRead 4 0 .clean, .scrubRead 0 0x600000000 .clean, .scrubPassEnd 4, .sfbClkWrite 25 0, .holdReqHost 25 0, .holdReqDebug 25 0, .holdClearDesign 25 0, .holdClearTrigger 25 0, .thermalSample { sensors0 0 with rails := List.replicate 16 (0, 0) }, .loadBegin badMsg, .loadStaged badMsg, .loadAbort badMsg, .unload badMsg, .stageBegin badMsg, .stageDelete badMsg, .loadQuery badMsg, .snap badMsg, .snapDiscard badMsg, .checkpoint badMsg, .restoreBegin badMsg, .snapQuery badMsg, .snpReq 25 0, .undoBufferGuardClear 4, .acqArm badMsg] : List Instr).all (fun c => !c.wf) = true := by decide +kernel
theorem test_wf_refuses_1 : ([.acqStop badMsg, .acqSetload badMsg, .tunRead badMsg, .acqQuery badMsg, .acqCal badMsg, .tunFree badMsg, .acqCtlArm 25 0, .acqCtlStop 25 0, .alignWrite 25 0 0, .alignWrite 0 7 0, .laneDetectPoll 6 .sensed, .trainComplete 6 training (List.replicate 64 (0, 0), List.replicate 64 (0, 0)), .trainComplete 0 { training with skews := [] } (List.replicate 64 (0, 0), List.replicate 64 (0, 0)), .trainComplete 0 training ([], List.replicate 64 (0, 0)), .trainComplete 0 training (List.replicate 64 (0, 0), []), .lockComplete 6, .stageTimeout 6, .laneLost 6, .linkWordIssue 6 0, .linkWordIssue 0 2, .alignMarkerSend 6 0, .alignMarkerSend 0 2, .linkWordReceive 6 0 (List.replicate 4 []) (List.replicate 4 []) false, .linkWordReceive 0 2 (List.replicate 4 []) (List.replicate 4 []) false, .linkWordReceive 0 0 [] (List.replicate 4 []) false, .linkWordReceive 0 0 (List.replicate 4 []) [] false, .lnkRetrain 25 0 0, .lnkRetrain 0 6 0, .lnkEnable 25 0 0, .lnkEnable 0 6 0, .eyeScanStart 25 0 0, .eyeScanStart 0 6 0, .eyeScanEnd 6 0, .laneErrInterval 6, .lgeForm badMsg, .lgeCtlForm 25 0, .tokenForm 6 0 0 0, .tokenFormed 6 0 0, .tokenFormed 0 65536 0, .tokenFormed 0 0 4096] : List Instr).all (fun c => !c.wf) = true := by decide +kernel
theorem test_wf_refuses_2 : ([.tokenTbsync 6 0, .tokenVote 6 0 [], .tokenVote 0 256 [], .tokenVote 0 0 [0, 0, 0, 0, 0, 0], .tokenCycle 6 tok0, .tokenCycle 0 { tok0 with thr := 9 }, .tokenStart 6 0 0, .tokenRate 6 0, .tokenRate 0 4096, .timeFollow 6 follow0, .timeFollow 0 { follow0 with ns := 1000000000 }, .ptpMessage 2 (.announce 0 [] 0), .ptpDelayReq 2, .timSet badMsg, .timCtlSet 25 0, .lgeQuery badMsg, .timQuery badMsg, .ucAdd 17 0 0 0, .ucSub 17 0 0 0, .ucAnd 17 0 0 0, .ucOr 17 0 0 0, .ucXor 17 0 0 0, .ucSll 17 0 0 0, .ucSrl 17 0 0 0, .ucSra 17 0 0 0, .ucSlt 17 0 0 0, .ucSltu 17 0 0 0, .ucMul 17 0 0 0, .ucMulh 17 0 0 0, .ucMulhu 17 0 0 0, .ucDiv 17 0 0 0, .ucDivu 17 0 0 0, .ucRem 17 0 0 0, .ucRemu 17 0 0 0, .ucAddi 17 0 0 0, .ucAndi 17 0 0 0, .ucOri 17 0 0 0, .ucXori 17 0 0 0, .ucSlti 17 0 0 0, .ucSltiu 17 0 0 0] : List Instr).all (fun c => !c.wf) = true := by decide +kernel
theorem test_wf_refuses_3 : ([.ucSlli 17 0 0 0, .ucSrli 17 0 0 0, .ucSrai 17 0 0 0, .ucLui 17 0 0 0, .ucAuipc 17 0 0 0, .ucLb 17 0 0 0, .ucLbu 17 0 0 0, .ucLh 17 0 0 0, .ucLhu 17 0 0 0, .ucLw 17 0 0 0, .ucSb 17 0 0 0, .ucSh 17 0 0 0, .ucSw 17 0 0 0, .ucLl 17 0 0 0, .ucSc 17 0 0 0 0, .ucBeq 17 0 0 0, .ucBne 17 0 0 0, .ucBlt 17 0 0 0, .ucBge 17 0 0 0, .ucBltu 17 0 0 0, .ucBgeu 17 0 0 0, .ucJal 17 0, .ucJalr 17 0 0 0, .ucSyscall 17 0, .ucBreak 17 0, .ucEret 17 0, .ucMret 17 0, .ucWfe 17 0, .ucFence 17 0, .ucMfs 17 0 0 0, .ucMts 17 0 0 0, .ucIinv 17 0 0, .ucDclean 17 0 0, .ucDinv 17 0 0, .ucDflush 17 0 0, .ucIinvAll 17 0 0, .ucDcleanAll 17 0 0, .ucDinvAll 17 0 0, .ucDflushAll 17 0 0, .interruptEntry 17] : List Instr).all (fun c => !c.wf) = true := by decide +kernel
theorem test_wf_refuses_4 : ([.monitorEntry 17, .evtClaim 25 0, .evtClaim 0 16, .evtTest 25 0, .eventHostMessage 320, .watchdogKick 25 0 0, .watchdogKick 0 16 0, .wdctlWrite 25 0 0, .wdctlWrite 0 16 0, .watchdogExpiry 16, .tccRunWrite 25 0 0, .tccRunWrite 0 16 0, .tskReady ⟨25, false⟩ 0 0, .tskReady ⟨0, false⟩ 16 0, .tskReady ⟨0, false⟩ 0 512, .tskBlock ⟨25, false⟩ 0 0 0 false, .tskBlock ⟨0, false⟩ 16 0 0 false, .tskBlock ⟨0, false⟩ 0 512 0 false, .tskBlock ⟨0, false⟩ 0 0 4096 false, .tskYield ⟨25, false⟩ 0 0, .tskYield ⟨0, false⟩ 16 0, .tskYield ⟨0, false⟩ 0 512, .tskCancel 25 0 0 false, .tskCancel 0 16 0 false, .tskCancel 0 0 512 false, .tskSetpri ⟨25, false⟩ 0 0 0, .tskSetpri ⟨0, false⟩ 16 0 0, .tskSetpri ⟨0, false⟩ 0 512 0, .tskSetpri ⟨0, false⟩ 0 0 32, .tskDone ⟨25, false⟩ 0 0, .tskDone ⟨0, false⟩ 16 0, .tskDone ⟨0, false⟩ 0 512, .tskDispatch ⟨25, false⟩ 0, .tskDispatch ⟨0, false⟩ 16, .tskModeWrite 25 0, .poolSubmit ⟨25, false⟩ 0 0, .poolSubmit ⟨0, false⟩ 16 0, .flagSet 25 0 0, .flagSet 0 128 0, .channelPublish 1024] : List Instr).all (fun c => !c.wf) = true := by decide +kernel
theorem test_wf_refuses_5 : ([.chnIndexWrite 25 0 false 0, .chnIndexWrite 0 1024 false 0, .spillRefill 1024 .clean, .localBankAccess (rd 25 0 4), .bitSetAlias 25 0 0, .bitClearAlias 25 0 0, .coreDieWindowAccess (rd 25 0 4), .hbmNocAccess (rd 25 0 4) .clean .clean, .pinImageRead (rd 25 0 4), .nocFenceWrite 25 0 0, .nocFenceWrite 0 64 0, .fenceDrained 64, .nocRcfgWrite 25 0 0, .nocRcfgWrite 0 32 0, .routerReady 32, .nocRtWrite 25 0 0 0, .nocRtWrite 0 25 0 0, .nocRtWrite 0 0 64 0, .hbkBpwrWrite 25 0 0, .hbkBpwrWrite 0 16 0, .bankPowerDone 16, .marchStart 25 0 0, .marchStart 0 16 0, .marchChunkBorrow 16 [], .marchEnd 16 [], .hbkRlockWrite 25 0, .hbkCamCreate 25 0, .hbkCamFree 25 0, .sessionOpen badMsg, .sessionClose badMsg, .dbgChallenge badMsg, .dbgAuth badMsg, .dbgHalt badMsg, .dbgHaltreqWrite 25 0, .dbgMon badMsg, .dbgMemrd badMsg, .dbgMemwr badMsg, .dbgTrcpriv badMsg, .dbgHold badMsg, .mboxSend 25 0 0] : List Instr).all (fun c => !c.wf) = true := by decide +kernel
theorem test_wf_refuses_6 : ([.mboxSend 0 16 0, .mboxSent 16, .trcMsgWrite 25 0, .trcSrcWrite 25 0 0, .trcSrcWrite 0 16 0, .trcOutWrite 25 0, .coreSleep 16, .coreWake 16, .traceSyncEmit 16, .pmcWrap 16 0, .pmcWrap 0 8, .pmcClear 25 0, .pmcSbfreeWrite 25 0, .pmcSbenWrite 25 0 0, .pmcSbenWrite 0 16 0, .dumpNow 25 0, .fioBankWrite 25 0 0, .fioBankWrite 0 16 0, .fioCellWrite 25 0 0, .fioCellWrite 0 512 0, .bankFault 16, .configSend 16, .fbOut false ⟨[512], [], []⟩, .fbPrime false ⟨[512], [], []⟩, .claim badMsg, .unclaim badMsg, .modeQuery badMsg, .run badMsg, .step badMsg, .stop badMsg, .safe badMsg, .mgtSafeReq 25 0, .clear badMsg, .discard badMsg, .testEnter badMsg, .testExit badMsg, .power badMsg, .sensors badMsg, .setRead badMsg, .setStage badMsg] : List Instr).all (fun c => !c.wf) = true := by decide +kernel
theorem test_wf_refuses_7 : ([.setCommit badMsg, .setDrop badMsg, .logRead badMsg, .updBegin badMsg, .updConfirm badMsg, .mcRestart badMsg, .mgtBootDone 25 0, .mbxDoorWrite 25 0, .bankSupplyGood 16, .hostLinkChange 2 ⟨true, 0⟩, .shadowPlaneDrain 6 false, .clockLoss (.domain 25)] : List Instr).all (fun c => !c.wf) = true := by decide +kernel
theorem test_wf_takes_0 : ([.registerWrite 0 0 4 0, .registerRcRead 0 0 4, .railFault 0, .streamData (msg 0), .streamAcknowledge (msg 0), .grain [], .hbmReadDataArrive 0 0 .clean, .hbmEccRetry 0 0 .clean, .hbmWriteDrain 0 0, .hbmRefresh 0 0, .scrubRead 0 0 .clean, .scrubPassEnd 0, .sfbClkWrite 0 0, .holdReqHost 0 0, .holdReqDebug 0 0, .holdClearDesign 0 0, .holdClearTrigger 0 0, .thermalSample (sensors0 0), .loadBegin (msg 0), .loadStaged (msg 0), .loadAbort (msg 0), .unload (msg 0), .stageBegin (msg 0), .stageDelete (msg 0), .loadQuery (msg 0), .snap (msg 0), .snapDiscard (msg 0), .checkpoint (msg 0), .restoreBegin (msg 0), .snapQuery (msg 0), .snpReq 0 0, .undoBufferGuardClear 0, .acqArm (msg 0), .acqStop (msg 0), .acqSetload (msg 0), .tunRead (msg 0), .acqQuery (msg 0), .acqCal (msg 0), .tunFree (msg 0), .acqCtlArm 0 0, .acqCtlStop 0 0, .alignWrite 0 0 0, .laneDetectPoll 0 .sensed, .trainComplete 0 training (List.replicate 64 (0, 0), List.replicate 64 (0, 0)), .lockComplete 0, .stageTimeout 0, .laneLost 0, .linkWordIssue 0 0, .alignMarkerSend 0 0, .linkWordReceive 0 0 (List.replicate 4 []) (List.replicate 4 []) false, .lnkRetrain 0 0 0, .lnkEnable 0 0 0, .eyeScanStart 0 0 0, .eyeScanEnd 0 0, .laneErrInterval 0, .lgeForm (msg 0), .lgeCtlForm 0 0, .tokenForm 0 0 0 0, .tokenFormed 0 0 0, .tokenTbsync 0 0] : List Instr).all Instr.wf = true := by decide +kernel
theorem test_wf_takes_1 : ([.tokenVote 0 0 [], .tokenCycle 0 tok0, .tokenStart 0 0 0, .tokenRate 0 0, .timeFollow 0 follow0, .ptpMessage 0 (.announce 0 [] 0), .ptpDelayReq 0, .timSet (msg 0), .timCtlSet 0 0, .lgeQuery (msg 0), .timQuery (msg 0), .ucAdd 0 0 0 0, .ucSub 0 0 0 0, .ucAnd 0 0 0 0, .ucOr 0 0 0 0, .ucXor 0 0 0 0, .ucSll 0 0 0 0, .ucSrl 0 0 0 0, .ucSra 0 0 0 0, .ucSlt 0 0 0 0, .ucSltu 0 0 0 0, .ucMul 0 0 0 0, .ucMulh 0 0 0 0, .ucMulhu 0 0 0 0, .ucDiv 0 0 0 0, .ucDivu 0 0 0 0, .ucRem 0 0 0 0, .ucRemu 0 0 0 0, .ucAddi 0 0 0 0, .ucAndi 0 0 0 0, .ucOri 0 0 0 0, .ucXori 0 0 0 0, .ucSlti 0 0 0 0, .ucSltiu 0 0 0 0, .ucSlli 0 0 0 0, .ucSrli 0 0 0 0, .ucSrai 0 0 0 0, .ucLui 0 0 0 0, .ucAuipc 0 0 0 0, .ucLb 0 0 0 0, .ucLbu 0 0 0 0, .ucLh 0 0 0 0, .ucLhu 0 0 0 0, .ucLw 0 0 0 0, .ucSb 0 0 0 0, .ucSh 0 0 0 0, .ucSw 0 0 0 0, .ucLl 0 0 0 0, .ucSc 0 0 0 0 0, .ucBeq 0 0 0 0, .ucBne 0 0 0 0, .ucBlt 0 0 0 0, .ucBge 0 0 0 0, .ucBltu 0 0 0 0, .ucBgeu 0 0 0 0, .ucJal 0 0, .ucJalr 0 0 0 0, .ucSyscall 0 0, .ucBreak 0 0, .ucEret 0 0] : List Instr).all Instr.wf = true := by decide +kernel
theorem test_wf_takes_2 : ([.ucMret 0 0, .ucWfe 0 0, .ucFence 0 0, .ucMfs 0 0 0 0, .ucMts 0 0 0 0, .ucIinv 0 0 0, .ucDclean 0 0 0, .ucDinv 0 0 0, .ucDflush 0 0 0, .ucIinvAll 0 0 0, .ucDcleanAll 0 0 0, .ucDinvAll 0 0 0, .ucDflushAll 0 0 0, .interruptEntry 0, .monitorEntry 0, .evtClaim 0 0, .evtTest 0 0, .eventHostMessage 0, .watchdogKick 0 0 0, .wdctlWrite 0 0 0, .watchdogExpiry 0, .tccRunWrite 0 0 0, .tskReady ⟨0, false⟩ 0 0, .tskBlock ⟨0, false⟩ 0 0 0 false, .tskYield ⟨0, false⟩ 0 0, .tskCancel 0 0 0 false, .tskSetpri ⟨0, false⟩ 0 0 0, .tskDone ⟨0, false⟩ 0 0, .tskDispatch ⟨0, false⟩ 0, .tskModeWrite 0 0, .poolSubmit ⟨0, false⟩ 0 0, .flagSet 0 0 0, .channelPublish 0, .chnIndexWrite 0 0 false 0, .spillRefill 0 .clean, .localBankAccess (rd 0 0 4), .bitSetAlias 0 0 0, .bitClearAlias 0 0 0, .coreDieWindowAccess (rd 0 0 4), .hbmNocAccess (rd 0 0 4) .clean .clean, .pinImageRead (rd 0 0 4), .nocFenceWrite 0 0 0, .fenceDrained 0, .nocRcfgWrite 0 0 0, .routerReady 0, .nocRtWrite 0 0 0 0, .hbkBpwrWrite 0 0 0, .bankPowerDone 0, .marchStart 0 0 0, .marchChunkBorrow 0 [], .marchEnd 0 [], .hbkRlockWrite 0 0, .hbkCamCreate 0 0, .hbkCamFree 0 0, .sessionOpen (msg 0), .sessionClose (msg 0), .dbgChallenge (msg 0), .dbgAuth (msg 0), .dbgHalt (msg 0), .dbgHaltreqWrite 0 0] : List Instr).all Instr.wf = true := by decide +kernel
theorem test_wf_takes_3 : ([.dbgMon (msg 0), .dbgMemrd (msg 0), .dbgMemwr (msg 0), .dbgTrcpriv (msg 0), .dbgHold (msg 0), .mboxSend 0 0 0, .mboxSent 0, .trcMsgWrite 0 0, .trcSrcWrite 0 0 0, .trcOutWrite 0 0, .coreSleep 0, .coreWake 0, .traceSyncEmit 0, .pmcWrap 0 0, .pmcClear 0 0, .pmcSbfreeWrite 0 0, .pmcSbenWrite 0 0 0, .dumpNow 0 0, .fioBankWrite 0 0 0, .fioCellWrite 0 0 0, .bankFault 0, .configSend 0, .fbOut false ⟨[], [], []⟩, .fbPrime false ⟨[], [], []⟩, .claim (msg 0), .unclaim (msg 0), .modeQuery (msg 0), .run (msg 0), .step (msg 0), .stop (msg 0), .safe (msg 0), .mgtSafeReq 0 0, .clear (msg 0), .discard (msg 0), .testEnter (msg 0), .testExit (msg 0), .power (msg 0), .sensors (msg 0), .setRead (msg 0), .setStage (msg 0), .setCommit (msg 0), .setDrop (msg 0), .logRead (msg 0), .updBegin (msg 0), .updConfirm (msg 0), .mcRestart (msg 0), .mgtBootDone 0 0, .mbxDoorWrite 0 0, .bankSupplyGood 0, .hostLinkChange 0 ⟨true, 0⟩, .shadowPlaneDrain 0 false, .clockLoss (.domain 24), .clockLoss .stepPll] : List Instr).all Instr.wf = true := by decide +kernel

/-! ### Deciding what the hypotheses say -/

def soundFrom (n : Nat) : List Core → Bool
  | [] => true
  | c :: r => SMap.wfFrom 0 1 c.x && rwfFrom (sysReset n) 0 c.sys && soundFrom (n + 1) r

def invB (s : State) : Bool :=
  rwfFrom resetWord 0 s.regs && s.cores.length == 17 && soundFrom 0 s.cores && s.lanes.length == 6 && Memory.wf s.mem

theorem sound_reset (n : Nat) : Core.sound n Core.reset := ⟨rfl, rfl⟩

theorem soundFrom_getD (l : List Core) (k n : Nat) (h : soundFrom k l = true) : Core.sound (k + n) (l.getD n Core.reset) := by
  induction l generalizing k n with
  | nil => exact sound_reset _
  | cons c r ih =>
    simp only [soundFrom, Bool.and_eq_true] at h
    cases n with
    | zero => exact ⟨h.1.1, h.1.2⟩
    | succ n => have := ih (k + 1) n h.2; rwa [show k + 1 + n = k + (n + 1) by omega] at this

theorem inv_of {s : State} (h : invB s = true) : s.Inv := by
  simp only [invB, Bool.and_eq_true, beq_iff_eq] at h
  exact ⟨h.1.1.1.1, ⟨h.1.1.1.2, fun n => by simpa using soundFrom_getD s.cores 0 n h.1.1.2⟩, h.1.2, h.2⟩

def takesB (s : State) (m : Msg) (op : Nat) (x : Session) : Bool :=
  s.portUp m.port && s.carries m.port op && decide (m.opcode.toNat = op) && msgSound m 1 && decide (m.version = 1) && decide (s.mgt.recovery = false ∨ m.port ≠ .mgmt) &&
    decide (s.session m.session.toNat = some x) && (match x.key with | some k => msgTagOk m k | none => true) &&
    decide ((x.kept.find? fun k => k.seq == m.seq.toNat) = none) && !tooOld x.high m.seq.toNat

theorem takes_of {s : State} {m : Msg} {op : Nat} {x : Session} (h : takesB s m op x = true) : s.takes m op x := by
  simp only [takesB, Bool.and_eq_true, decide_eq_true_eq, Bool.not_eq_true'] at h
  obtain ⟨⟨⟨⟨⟨⟨⟨⟨⟨a, j⟩, l⟩, b⟩, c⟩, d⟩, e⟩, f⟩, g⟩, i⟩ := h
  exact ⟨a, j, l, b, c, d, e, fun k hk => by simpa [hk] using f, g, i⟩

theorem crcBit_lt {c : Nat} (h : c < 2 ^ 32) : crcBit c < 2 ^ 32 := by
  unfold crcBit
  split
  · exact Nat.xor_lt_two_pow (by omega) (by decide)
  · omega

theorem crcReg_lt {c : Nat} (l : List Byte) (h : c < 2 ^ 32) : crcReg c l < 2 ^ 32 := by
  induction l generalizing c with
  | nil => exact h
  | cons b r ih =>
    refine ih (c := crcBit (crcBit (crcBit (crcBit (crcBit (crcBit (crcBit (crcBit (c ^^^ b.toNat)))))))))
      (crcBit_lt (crcBit_lt (crcBit_lt (crcBit_lt (crcBit_lt (crcBit_lt (crcBit_lt (crcBit_lt ?_))))))))
    exact Nat.xor_lt_two_pow h (by have := b.isLt; omega)

theorem crc32_lt (l : List Byte) : crc32 l < 2 ^ 32 := Nat.xor_lt_two_pow (crcReg_lt l (by decide)) (by decide)

theorem crc32_lt32 (l : List Byte) : crc32 l < 4294967296 := crc32_lt l

/-- The messages that msgOn builds are sound, whatever their payload. -/
theorem sound_msgOn (port : HPort) (op : Nat) (p : List Byte) (h : p.length ≤ portMax port) : msgSound (msgOn port op 2 5 p) 1 = true := by
  simp [msgSound, msgOn, h, crc32_lt32]

def takesRest (s : State) (m : Msg) (op : Nat) (x : Session) : Bool :=
  s.portUp m.port && s.carries m.port op && decide (m.opcode.toNat = op) && decide (m.version = 1) && decide (s.mgt.recovery = false ∨ m.port ≠ .mgmt) &&
    decide (s.session m.session.toNat = some x) && decide (x.key = none) &&
    decide ((x.kept.find? fun k => k.seq == m.seq.toNat) = none) && !tooOld x.high m.seq.toNat

theorem takes_on {s : State} {port : HPort} {op : Nat} {p : List Byte} {x : Session} (hp : p.length ≤ portMax port)
    (h : takesRest s (msgOn port op 2 5 p) op x = true) : s.takes (msgOn port op 2 5 p) op x := by
  simp only [takesRest, Bool.and_eq_true, decide_eq_true_eq, Bool.not_eq_true'] at h
  obtain ⟨⟨⟨⟨⟨⟨⟨⟨a, j⟩, l⟩, c⟩, d⟩, e⟩, f⟩, g⟩, i⟩ := h
  exact ⟨a, j, l, sound_msgOn port op p hp, c, d, e, fun k hk => by simp [f] at hk, g, i⟩

theorem takes_msg {s : State} {op : Nat} {p : List Byte} {x : Session} (hp : p.length ≤ 8192)
    (h : takesRest s (msg op p) op x = true) : s.takes (msg op p) op x := takes_on hp h

theorem takes_mmsg {s : State} {op : Nat} {p : List Byte} {x : Session} (hp : p.length ≤ 1400)
    (h : takesRest s (mmsg op p) op x = true) : s.takes (mmsg op p) op x := takes_on hp h

def fetchesB (s : State) (n w : Nat) : Bool :=
  decide (n ≤ 16) && s.executes n && (boundary n (endWait n s)).isNone &&
    match fetchAccess n (beginInsn n s) with | .done v _ => v == w | _ => false

theorem fetches_of {s : State} {n w : Nat} (h : fetchesB s n w = true) : s.fetches n w (after n s) := by
  simp only [fetchesB, Bool.and_eq_true, decide_eq_true_eq, Option.isNone_iff_eq_none] at h
  obtain ⟨⟨⟨a, b⟩, c⟩, d⟩ := h
  refine ⟨a, b, c, ?_⟩
  unfold after
  split at d <;> simp_all

def isNext (o : Host.Outcome State Fault Refusal) : Bool := match o with | .next _ => true | _ => false

theorem next_of {c : Instr} {s : State} (h : isNext (exec c s) = true) : exec c s = .next (nxt c s) := by
  unfold nxt
  unfold isNext at h
  split at h <;> simp_all

def isRefused (o : Host.Outcome State Fault Refusal) (r : Refusal) : Bool := match o with | .refused q => q == r | _ => false

theorem refused_of {c : Instr} {s : State} {r : Refusal} (h : isRefused (exec c s) r = true) : exec c s = .refused r := by
  unfold isRefused at h
  split at h <;> simp_all

def readsB (s : State) (bp f : Nat) (b : Bool) : Bool :=
  match opnd f with | .const x => x == b | .ds a => b == NSet.has s.arr.ds (bp * 2048 + a) | _ => false

theorem reads_of {s : State} {bp f : Nat} {b : Bool} (h : readsB s bp f b = true) : s.reads bp f b := by
  unfold readsB at h
  unfold State.reads
  split at h <;> simp_all

def reachesB (s : State) (m t : Nat) : Bool :=
  s.ctl.corePower && bit (s.reg (A.NOC_RT m t)).toNat 31 && !s.noc.flit && !s.noc.answer &&
    !s.blocked false s.noc.flights m (s.reg (A.NOC_RT m t)) && !s.fenced t

theorem reaches_of {s : State} {m t : Nat} (h : reachesB s m t = true) : s.reaches m t := by
  simp only [reachesB, Bool.and_eq_true, Bool.not_eq_true'] at h
  exact ⟨h.1.1.1.1.1, h.1.1.1.1.2, h.1.1.1.2, h.1.1.2, h.1.2, h.2⟩

theorem reaches_all {s : State} {m n : Nat} (h : (List.range n).all (reachesB s m) = true) : ∀ k < n, s.reaches m k :=
  fun k hk => reaches_of (List.all_eq_true.1 h k (List.mem_range.2 hk))

def ramB (s u : State) (n a size : Nat) (t : Touch) : Bool :=
  decide (n < 16) && a % size == 0 && (s.apertureFault n a t).isNone && !s.cacheable n a && (u.badByte (s.nocAddr n a) size).isNone &&
    !u.borrowed (s.nocAddr n a) && u.noc.flights.all (fun f => !(f.asks && f.master == n)) &&
    (decide (0x1000000 ≤ s.nocAddr n a) && decide (s.nocAddr n a < 0x2000000) &&
        u.permitted n (s.nocAddr n a % 0x1000000) (t == .store) && reachesB u n (s.nocAddr n a % 0x1000000 / 0x100000) ||
      decide (0x4000000 ≤ s.nocAddr n a) && decide (s.nocAddr n a < 0x4200000) && reachesB u n 16)

theorem ram_of {s u : State} {n a size : Nat} {t : Touch} (h : ramB s u n a size t = true) : plainRam s u n a size t := by
  simp only [ramB, Bool.and_eq_true, Bool.or_eq_true, decide_eq_true_eq, Bool.not_eq_true', Option.isNone_iff_eq_none, beq_iff_eq] at h
  obtain ⟨⟨⟨⟨⟨⟨⟨h1, h2⟩, h3⟩, h4⟩, h5⟩, h7⟩, h8⟩, h6⟩ := h
  refine ⟨h1, h2, h3, h4, h5, h7, fun f hf ha hm => ?_, ?_⟩
  · have := List.all_eq_true.1 h8 f hf
    simp [ha, hm] at this
  rcases h6 with ⟨⟨⟨a1, a2⟩, a3⟩, a4⟩ | ⟨⟨b1, b2⟩, b3⟩
  · exact .inl ⟨a1, a2, a3, reaches_of a4⟩
  · exact .inr ⟨b1, b2, reaches_of b3⟩

def pendsB (s : State) (n k : Nat) : Bool :=
  s.flag ⟨A.EVT_PEND (k / 32), k % 32, 1⟩ && s.flag (F.EVT_CFG_EN k) && s.fld (F.EVT_CFG_CORE k) == n

theorem pends_iff {s : State} {n k : Nat} : pendsAt s n k ↔ k < 320 ∧ pendsB s n k = true := by
  simp [pendsAt, pendsB, and_assoc]

theorem pends_of {s : State} {n k : Nat} (h : (decide (k < 320) && pendsB s n k) = true) : pendsAt s n k :=
  pends_iff.2 (by simpa using h)

theorem pends_all {s : State} {n : Nat} {p : Nat → Prop} (h : ∀ k < 320, pendsB s n k = true → p k) : ∀ k, pendsAt s n k → p k :=
  fun k hk => h k (pends_iff.1 hk).1 (pends_iff.1 hk).2


/-! ### A whole checkpoint of three core dies, for RESTORE_COMPLETE -/

def ckImage : Header := { header with grade := 0x6120, dims := [1, 1, 1], hash := List.replicate 32 0 }
/-- The header of a checkpoint of cycle 6, snapshot 9. -/
def ckHead : List Byte :=
  let b := leBytes 4 0x4B434855 ++ leBytes 2 1 ++ leBytes 2 0x6120 ++ [0, 0, 1, 1, 1, 0, 0, 0] ++ leBytes 8 1 ++ List.replicate 32 0 ++
    leBytes 4 9 ++ leBytes 4 0 ++ leBytes 8 6 ++ leBytes 8 0xFFFFFFFFFFFFFFFF ++ List.replicate 172 0
  b ++ leBytes 4 (crc32 b)
/-- The zero bytes of the sections and of the trailer before its CRC. -/
def ckZeros : Nat := 176160972
def ckBody : List Byte := ckHead ++ List.replicate ckZeros 0
/-- All of it, the CRC last. -/
def ckAll : List Byte := ckBody ++ leBytes 4 (crc32 ckBody)
def ckRun : Restoring := ⟨5, 176161232, ckAll, true⟩
def ckState : State :=
  let s := inArmed.inMode .restore
  { s with fuses := { Fuses.reset with grade := .u6120 }, ldr := { s.ldr with img := some ckImage }, snp := { s.snp with restoring := some ckRun } }

theorem slice_before {a b : List Byte} {o n : Nat} (h : o + n ≤ a.length) : slice (a ++ b) o n = slice a o n := by
  unfold slice
  rw [List.drop_append_of_le_length (by omega), List.take_append_of_le_length (by simp; omega)]

theorem slice_after {a b : List Byte} {o n : Nat} (h : a.length ≤ o) : slice (a ++ b) o n = slice b (o - a.length) n := by
  unfold slice
  rw [List.drop_append, List.drop_eq_nil_of_le h, List.nil_append]

theorem leNat_zeros (n : Nat) : leNat (List.replicate n 0) = 0 := by
  induction n with
  | zero => rfl
  | succ n ih => rw [List.replicate_succ, leNat, ih]; rfl

theorem leNat_leBytes (n v : Nat) : leNat (leBytes n v) = v % 256 ^ n := by
  induction n generalizing v with
  | zero => simp [leBytes, leNat, Nat.mod_one]
  | succ n ih =>
    rw [leBytes, leNat, ih, BitVec.toNat_ofNat, show (2 : Nat) ^ 8 = 256 from rfl, Nat.pow_succ', Nat.mod_mul]

theorem length_leBytes (n v : Nat) : (leBytes n v).length = n := by
  induction n generalizing v with
  | zero => rfl
  | succ n ih => simp [leBytes, ih]

theorem ckHead_length : ckHead.length = 256 := by decide +kernel
theorem ckBody_length : ckBody.length = 176161228 := by
  rw [ckBody, List.length_append, ckHead_length, List.length_replicate]; rfl
theorem ckAll_length : ckAll.length = 176161232 := by
  rw [ckAll, List.length_append, ckBody_length, length_leBytes]

/-- A number in the header. -/
theorem ckAll_head {o n : Nat} (h : o + n ≤ 256) : slice ckAll o n = slice ckHead o n := by
  unfold ckAll
  rw [slice_before (by rw [ckBody_length]; omega), ckBody, slice_before (by rw [ckHead_length]; omega)]

/-- A number among the zeros. -/
theorem ckAll_zero {o n : Nat} (h : 256 ≤ o) (h' : o + n ≤ 176161228) : leAt ckAll o n = 0 := by
  unfold leAt ckAll
  rw [slice_before (by rw [ckBody_length]; omega), ckBody, slice_after (by rw [ckHead_length]; omega), ckHead_length]
  unfold slice ckZeros
  rw [List.drop_replicate, List.take_replicate]
  exact leNat_zeros _

theorem ckAll_crc : leAt ckAll 176161228 4 = crc32 ckBody := by
  unfold leAt ckAll
  rw [slice_after (Nat.le_of_eq ckBody_length), ckBody_length]
  unfold slice
  rw [Nat.sub_self, List.drop_zero, List.take_of_length_le (Nat.le_of_eq (length_leBytes _ _)), leNat_leBytes]
  exact Nat.mod_eq_of_lt (crc32_lt _)

theorem getD_head {i : Nat} (h : i < 256) : ckAll.getD i 0 = ckHead.getD i 0 := by
  unfold ckAll ckBody
  have := ckHead_length
  simp only [List.getD_eq_getElem?_getD]
  rw [List.getElem?_append_left (by simp [this]; omega), List.getElem?_append_left (by omega)]

theorem find_head (l : List Nat) (h : l.all (fun i => decide (i < 256)) = true) :
    l.find? (fun i => ckAll.getD i 0 != 0) = l.find? (fun i => ckHead.getD i 0 != 0) := by
  induction l with
  | nil => rw [List.find?_nil, List.find?_nil]
  | cons a r ih =>
    simp only [List.all_cons, Bool.and_eq_true, decide_eq_true_eq] at h
    rw [List.find?_cons, List.find?_cons, getD_head h.1, ih h.2]

theorem nonzero_head : firstNonzero ckAll [(13, 3), (60, 4), (203, 1), (212, 40)] = firstNonzero ckHead [(13, 3), (60, 4), (203, 1), (212, 40)] :=
  find_head ([(13, 3), (60, 4), (203, 1), (212, 40)].flatMap fun (r : Nat × Nat) => (List.range r.2).map (r.1 + ·)) (by decide +kernel)

theorem leAt_head {o n : Nat} (h : o + n ≤ 256) : leAt ckAll o n = leAt ckHead o n := by rw [leAt, ckAll_head h]; rfl

theorem ckHeader_eq (n : Nat) : ckState.ckHeaderFault n ckAll = ckState.ckHeaderFault n ckHead := by
  have ht : ckAll.take 252 = ckHead.take 252 := ckAll_head (o := 0) (n := 252) (by decide)
  have hd : ∀ i ∈ List.range 3, leAt ckAll (10 + i) 1 = leAt ckHead (10 + i) 1 := fun i hi =>
    leAt_head (by have := List.mem_range.1 hi; omega)
  unfold State.ckHeaderFault
  rw [nonzero_head, ht, List.map_congr_left hd, leAt_head (o := 0) (n := 4) (by decide), leAt_head (o := 4) (n := 2) (by decide),
    leAt_head (o := 252) (n := 4) (by decide), leAt_head (o := 6) (n := 2) (by decide), leAt_head (o := 8) (n := 1) (by decide),
    leAt_head (o := 9) (n := 1) (by decide), leAt_head (o := 16) (n := 8) (by decide), ckAll_head (o := 24) (n := 32) (by decide),
    leAt_head (o := 204) (n := 8) (by decide)]

theorem ckHeader_ok : ckState.ckHeaderFault 176161232 ckHead = none := by decide +kernel

theorem ckState_2 : ckState.sectionAt 2 = 25166080 := by decide +kernel
theorem ckState_3 : ckState.sectionAt 3 = 176161024 := by decide +kernel
theorem ckState_4 : ckState.sectionAt 4 = 176161216 := by decide +kernel
theorem ckState_5 : ckState.sectionAt 5 = 176161216 := by decide +kernel

theorem ckContent_ok : ckState.ckContent 176161232 ckAll = none := by
  unfold State.ckContent
  rw [ckState_2, ckState_3, ckState_4, ckState_5, ckAll_length]
  dsimp only
  rw [Option.map_eq_none_iff, Option.or_eq_none_iff, Option.or_eq_none_iff]
  refine ⟨?_, ?_, ?_⟩
  · rw [List.find?_eq_none]
    intro o h
    rw [List.mem_map] at h
    obtain ⟨i, hi, rfl⟩ := h
    rw [List.mem_range, show Nat.min 176161024 176161232 = 176161024 from rfl] at hi
    have hz := ckAll_zero (o := 25166080 + 4 * i) (n := 4) (by omega) (by omega)
    simp only [hz, Nat.le_zero, decide_eq_true_eq]
    exact Nat.pos_iff_ne_zero.1 (Nat.two_pow_pos _)
  · rfl
  · rfl

theorem ckTrailer_ok : ckState.ckTrailer 176161232 ckAll = none := by
  unfold State.ckTrailer
  dsimp only
  have h : ckAll.take (176161232 - 4) = ckBody := by
    unfold ckAll
    rw [List.take_append_of_le_length (by rw [ckBody_length] <;> decide), List.take_of_length_le (by rw [ckBody_length] <;> decide)]
  rw [h, show 176161232 - 16 + 12 = 176161228 from rfl, ckAll_crc, ckState_5, ckAll_zero (by omega) (by omega), ckAll_zero (by omega) (by omega),
    if_neg (fun h => h rfl), if_neg (by decide), if_neg (fun h => h rfl)]

theorem ckFault_of {s : State} {r : Restoring} (h1 : ¬ r.bytes.length < 256) (h2 : s.ckHeaderFault r.length r.bytes = none)
    (h3 : s.ckContent r.length r.bytes = none) (h4 : ¬ r.bytes.length < r.length) (h5 : s.ckTrailer r.length r.bytes = none) :
    s.ckFault r = none := by
  unfold State.ckFault
  simp only [h1, h2, h3, h4, h5, if_false]

theorem ckRun_length : ckRun.length = 176161232 := rfl
theorem ckRun_bytes : ckRun.bytes = ckAll := rfl

theorem ckFault_none : ckState.ckFault ckRun = none := by
  apply ckFault_of
  · rw [ckRun_bytes, ckAll_length]; decide
  · rw [ckRun_length, ckRun_bytes, ckHeader_eq, ckHeader_ok]
  · rw [ckRun_length, ckRun_bytes, ckContent_ok]
  · rw [ckRun_length, ckRun_bytes, ckAll_length]; exact Nat.lt_irrefl _
  · rw [ckRun_length, ckRun_bytes, ckTrailer_ok]

abbrev Meets.CheckpointAndRestore3 := fun (s : State) (r : Restoring) =>
  s.Inv ∧ s.snp.restoring = some r ∧ r.length ≤ r.bytes.length ∧ s.ckFault r = none

theorem witness_restoreComplete : Meets.CheckpointAndRestore3 ckState ckRun :=
  ⟨inv_of (by decide +kernel), rfl, Nat.le_of_eq ckAll_length.symm, ckFault_none⟩

/-! ### The hypotheses of the obligations are met -/

abbrev Meets.StepRunsTheFrontCommand0 := fun (c : Instr) (r : List Instr) (s : State) =>
  s.pending = c :: r

/-- What the hypotheses of StepRunsTheFrontCommand ask, met together. -/
theorem witness_StepRunsTheFrontCommand :
    Meets.StepRunsTheFrontCommand0 Instr.loadComplete [] (State.reset.queued Instr.loadComplete) :=
  by refine ?_ <;> decide +kernel

abbrev Meets.StepWithNothingWaitingLetsTimePass0 := fun (s : State) =>
  s.Inv ∧ s.pending = []

/-- What the hypotheses of StepWithNothingWaitingLetsTimePass ask, met together. -/
theorem witness_StepWithNothingWaitingLetsTimePass :
    Meets.StepWithNothingWaitingLetsTimePass0 State.reset ∧
    Meets.StepWithNothingWaitingLetsTimePass0 inSafe :=
  ⟨by refine ⟨inv_of ?_, ?_⟩ <;> decide +kernel,
    by refine ⟨inv_of ?_, ?_⟩ <;> decide +kernel⟩

abbrev Meets.ResetIsEntryToBoot0 := fun n =>
  n < 16
abbrev Meets.ResetIsEntryToBoot1 := fun a =>
  a ∉ (fuseRegs Fuses.reset 0 0 0 0 ++ settingsRegs factorySettings).map (·.1)

/-- What the hypotheses of ResetIsEntryToBoot ask, met together. -/
theorem witness_ResetIsEntryToBoot :
    Meets.ResetIsEntryToBoot0 0 ∧
    Meets.ResetIsEntryToBoot0 15 ∧
    Meets.ResetIsEntryToBoot1 (A.HBK_RGN 0 0) :=
  ⟨by refine ?_ <;> decide +kernel,
    by refine ?_ <;> decide +kernel,
    by refine ?_ <;> decide +kernel⟩

abbrev Meets.StepKeepsTheInvariant0 := fun (s t : State) =>
  s.Inv ∧ step s = .next t

/-- What the hypotheses of StepKeepsTheInvariant ask, met together. -/
theorem witness_StepKeepsTheInvariant :
    Meets.StepKeepsTheInvariant0 State.reset (tick State.reset) :=
  by refine ⟨inv_of ?_, rfl⟩ <;> decide +kernel

abbrev Meets.NoCommandUndoesWhatIsFixed0 := fun (c : Instr) (s t : State) =>
  s.Inv ∧ exec c s = .next t

/-- What the hypotheses of NoCommandUndoesWhatIsFixed ask, met together. -/
theorem witness_NoCommandUndoesWhatIsFixed :
    Meets.NoCommandUndoesWhatIsFixed0 Instr.loadComplete State.reset (nxt Instr.loadComplete State.reset) :=
  by refine ⟨inv_of ?_, next_of ?_⟩ <;> decide +kernel

abbrev Meets.OnlyMcPeripheralsStopACommand0 := fun (c : Instr) (s : State) (r : Refusal) =>
  exec c s = .refused r
abbrev Meets.OnlyMcPeripheralsStopACommand1 := fun (n : Nat) (rd ra : BitVec 5) (imm : BitVec 16) (s u : State) =>
  n = 16 ∧ s.Inv ∧ (s.ea n ra imm).toNat % 4 = 0 ∧ 0x30000000 ≤ (s.ea n ra imm).toNat ∧ (s.ea n ra imm).toNat < 0x30010000 ∧ s.fetches n (wordI 0x14 rd ra imm) u
abbrev Meets.OnlyMcPeripheralsStopACommand2 := fun (n : Nat) (rd ra : BitVec 5) (imm : BitVec 16) (s u : State) =>
  n = 16 ∧ s.Inv ∧ (s.ea n ra imm).toNat % 4 = 0 ∧ 0x30000000 ≤ (s.ea n ra imm).toNat ∧ (s.ea n ra imm).toNat < 0x30010000 ∧ s.fetches n (wordI 0x1A rd ra imm) u

/-- What the hypotheses of OnlyMcPeripheralsStopACommand ask, met together. -/
theorem witness_OnlyMcPeripheralsStopACommand :
    Meets.OnlyMcPeripheralsStopACommand0 (.ucLw 16 2 1 0) (put 16 (wordI 0x14 2 1 0) mcAt) .mcPeripheral ∧
    Meets.OnlyMcPeripheralsStopACommand1 16 2 1 0 (put 16 (wordI 0x14 2 1 0) mcAt) (after 16 (put 16 (wordI 0x14 2 1 0) mcAt)) ∧
    Meets.OnlyMcPeripheralsStopACommand1 16 2 1 0xFFFC (put 16 (wordI 0x14 2 1 0xFFFC) (State.reset.withCore 16 fun c => { c with x := [(1, 0x30010000)] })) (after 16 (put 16 (wordI 0x14 2 1 0xFFFC) (State.reset.withCore 16 fun c => { c with x := [(1, 0x30010000)] }))) ∧
    Meets.OnlyMcPeripheralsStopACommand2 16 2 1 0 (put 16 (wordI 0x1A 2 1 0) mcAt) (after 16 (put 16 (wordI 0x1A 2 1 0) mcAt)) ∧
    Meets.OnlyMcPeripheralsStopACommand2 16 2 1 0xFFFC (put 16 (wordI 0x1A 2 1 0xFFFC) (State.reset.withCore 16 fun c => { c with x := [(1, 0x30010000)] })) (after 16 (put 16 (wordI 0x1A 2 1 0xFFFC) (State.reset.withCore 16 fun c => { c with x := [(1, 0x30010000)] }))) :=
  ⟨by refine refused_of ?_ <;> decide +kernel,
    by refine ⟨?_, inv_of ?_, ?_, ?_, ?_, fetches_of ?_⟩ <;> decide +kernel,
    by refine ⟨?_, inv_of ?_, ?_, ?_, ?_, fetches_of ?_⟩ <;> decide +kernel,
    by refine ⟨?_, inv_of ?_, ?_, ?_, ?_, fetches_of ?_⟩ <;> decide +kernel,
    by refine ⟨?_, inv_of ?_, ?_, ?_, ?_, fetches_of ?_⟩ <;> decide +kernel⟩

abbrev Meets.RegisterAccessesFollowTheirCodes0 := fun (m a : Nat) (r : RegRow) (s : State) =>
  s.Inv ∧ s.reaches m 17 ∧ a % 4 = 0 ∧ findRow a = some r ∧ (a / 0x10000 ∈ [0, 2, 4, 20] ∨ a / 0x10000 = 21 ∧ a ≠ A.EVT_TEST)
abbrev Meets.RegisterAccessesFollowTheirCodes1 := fun (m a : Nat) (r : RegRow) (s : State) =>
  s.Inv ∧ s.reaches m 17 ∧ a % 4 = 0 ∧ findRow a = some r ∧ (∀ n < 16, a ≠ A.EVT_CLAIM n ∧ a ≠ A.TSK_DISP n) ∧ SMap.wf 0 s.latches = true

/-- What the hypotheses of RegisterAccessesFollowTheirCodes ask, met together. -/
theorem witness_RegisterAccessesFollowTheirCodes :
    Meets.RegisterAccessesFollowTheirCodes0 0 0 (rowAt 0) State.reset ∧
    Meets.RegisterAccessesFollowTheirCodes0 21 A.PWR_LIM (rowAt A.PWR_LIM) State.reset ∧
    Meets.RegisterAccessesFollowTheirCodes0 21 (A.EVT_CFG 0) (rowAt (A.EVT_CFG 0)) State.reset ∧
    Meets.RegisterAccessesFollowTheirCodes0 21 (A.EVT_PEND 0) (rowAt (A.EVT_PEND 0)) (State.reset.setReg (A.EVT_PEND 0) 0xFFFFFFFF) ∧
    Meets.RegisterAccessesFollowTheirCodes0 0 (A.EVT_CFG 319) (rowAt (A.EVT_CFG 319)) State.reset ∧
    Meets.RegisterAccessesFollowTheirCodes0 0 A.TRG_SEQ (rowAt (A.TRG_SEQ)) State.reset ∧
    Meets.RegisterAccessesFollowTheirCodes1 0 A.TIM_LOCLO (rowAt A.TIM_LOCLO) { State.reset with tim := { Tim.reset with loc := 0x500000007 } } ∧
    Meets.RegisterAccessesFollowTheirCodes1 0 A.MGT_ID (rowAt A.MGT_ID) State.reset ∧
    Meets.RegisterAccessesFollowTheirCodes1 0 (A.TSK_FLAG 0) (rowAt (A.TSK_FLAG 0)) State.reset :=
  ⟨by refine ⟨inv_of ?_, reaches_of ?_, ?_, ?_, ?_⟩ <;> decide +kernel,
    by refine ⟨inv_of ?_, reaches_of ?_, ?_, ?_, ?_⟩ <;> decide +kernel,
    by refine ⟨inv_of ?_, reaches_of ?_, ?_, ?_, ?_⟩ <;> decide +kernel,
    by refine ⟨inv_of ?_, reaches_of ?_, ?_, ?_, ?_⟩ <;> decide +kernel,
    by refine ⟨inv_of ?_, reaches_of ?_, ?_, ?_, ?_⟩ <;> decide +kernel,
    by refine ⟨inv_of ?_, reaches_of ?_, ?_, ?_, ?_⟩ <;> decide +kernel,
    by refine ⟨inv_of ?_, reaches_of ?_, ?_, ?_, ?_, ?_⟩ <;> decide +kernel,
    by refine ⟨inv_of ?_, reaches_of ?_, ?_, ?_, ?_, ?_⟩ <;> decide +kernel,
    by refine ⟨inv_of ?_, reaches_of ?_, ?_, ?_, ?_, ?_⟩ <;> decide +kernel⟩

abbrev Meets.OtherRegisterAccessesHaveNoEffect0 := fun (m a : Nat) (s : State) =>
  s.Inv ∧ s.reaches m 17 ∧ a < 0x160000 ∧ a % 4 = 0
abbrev Meets.OtherRegisterAccessesHaveNoEffect1 := fun (m a : Nat) (s : State) (size : Nat) =>
  s.Inv ∧ s.reaches m 17 ∧ a < 0x160000 ∧ (size ≠ 4 ∨ a % 4 ≠ 0)

/-- What the hypotheses of OtherRegisterAccessesHaveNoEffect ask, met together. -/
theorem witness_OtherRegisterAccessesHaveNoEffect :
    Meets.OtherRegisterAccessesHaveNoEffect0 0 0 State.reset ∧
    Meets.OtherRegisterAccessesHaveNoEffect0 0 0x15FFFC State.reset ∧
    Meets.OtherRegisterAccessesHaveNoEffect0 0 (A.EVT_CLAIM 3) State.reset ∧
    Meets.OtherRegisterAccessesHaveNoEffect0 0 (A.TSK_DISP 3) State.reset ∧
    Meets.OtherRegisterAccessesHaveNoEffect1 0 0 State.reset 2 ∧
    Meets.OtherRegisterAccessesHaveNoEffect1 0 0x15FFFE State.reset 4 ∧
    Meets.OtherRegisterAccessesHaveNoEffect1 0 0x15FFFE State.reset 8 :=
  ⟨by refine ⟨inv_of ?_, reaches_of ?_, ?_, ?_⟩ <;> decide +kernel,
    by refine ⟨inv_of ?_, reaches_of ?_, ?_, ?_⟩ <;> decide +kernel,
    by refine ⟨inv_of ?_, reaches_of ?_, ?_, ?_⟩ <;> decide +kernel,
    by refine ⟨inv_of ?_, reaches_of ?_, ?_, ?_⟩ <;> decide +kernel,
    by refine ⟨inv_of ?_, reaches_of ?_, ?_, ?_⟩ <;> decide +kernel,
    by refine ⟨inv_of ?_, reaches_of ?_, ?_, ?_⟩ <;> decide +kernel,
    by refine ⟨inv_of ?_, reaches_of ?_, ?_, ?_⟩ <;> decide +kernel⟩

abbrev Meets.PeekAliasAndEmptyOffsets0 := fun (a : Nat) (r : RegRow) =>
  findRow a = some r
abbrev Meets.PeekAliasAndEmptyOffsets1 := fun (m a : Nat) (r : RegRow) (s : State) =>
  s.Inv ∧ s.reaches m 17 ∧ a % 4 = 0 ∧ findRow a = some r
abbrev Meets.PeekAliasAndEmptyOffsets2 := fun (m a : Nat) (s : State) =>
  s.Inv ∧ s.reaches m 17 ∧ a % 4 = 0 ∧ a < 0x160000 ∧ 0x8000 ≤ a % 0x10000
abbrev Meets.PeekAliasAndEmptyOffsets3 := fun (m a : Nat) (s : State) =>
  s.Inv ∧ s.reaches m 17 ∧ a % 4 = 0 ∧ a < 0x160000 ∧ a % 0x10000 < 0x8000 ∧ findRow a = none

/-- What the hypotheses of PeekAliasAndEmptyOffsets ask, met together. -/
theorem witness_PeekAliasAndEmptyOffsets :
    Meets.PeekAliasAndEmptyOffsets0 A.MGT_ID (rowAt A.MGT_ID) ∧
    Meets.PeekAliasAndEmptyOffsets1 0 A.MGT_ID (rowAt A.MGT_ID) State.reset ∧
    Meets.PeekAliasAndEmptyOffsets1 0 (A.EVT_CLAIM 0) (rowAt (A.EVT_CLAIM 0)) State.reset ∧
    Meets.PeekAliasAndEmptyOffsets1 0 A.TIM_LOCLO (rowAt A.TIM_LOCLO) { State.reset with tim := { Tim.reset with loc := 0x500000007 } } ∧
    Meets.PeekAliasAndEmptyOffsets2 0 0x8000 State.reset ∧
    Meets.PeekAliasAndEmptyOffsets2 0 (0x8000 + A.SFB_CLK) State.reset ∧
    Meets.PeekAliasAndEmptyOffsets2 0 0x15FFFC State.reset ∧
    Meets.PeekAliasAndEmptyOffsets3 0 0x157FFC State.reset ∧
    Meets.PeekAliasAndEmptyOffsets3 0 0xF7FFC State.reset :=
  ⟨by refine ?_ <;> decide +kernel,
    by refine ⟨inv_of ?_, reaches_of ?_, ?_, ?_⟩ <;> decide +kernel,
    by refine ⟨inv_of ?_, reaches_of ?_, ?_, ?_⟩ <;> decide +kernel,
    by refine ⟨inv_of ?_, reaches_of ?_, ?_, ?_⟩ <;> decide +kernel,
    by refine ⟨inv_of ?_, reaches_of ?_, ?_, ?_, ?_⟩ <;> decide +kernel,
    by refine ⟨inv_of ?_, reaches_of ?_, ?_, ?_, ?_⟩ <;> decide +kernel,
    by refine ⟨inv_of ?_, reaches_of ?_, ?_, ?_, ?_⟩ <;> decide +kernel,
    by refine ⟨inv_of ?_, reaches_of ?_, ?_, ?_, ?_, ?_⟩ <;> decide +kernel,
    by refine ⟨inv_of ?_, reaches_of ?_, ?_, ?_, ?_, ?_⟩ <;> decide +kernel⟩

abbrev Meets.LocalBanksRegionsAndAliases0 := fun (r : Req) (s : State) (g : Nat) =>
  s.Inv ∧ targetOf r.addr = some g ∧ (0x1000000 ≤ r.addr ∧ r.addr < 0x2000000 ∨ 0x4000000 ≤ r.addr ∧ r.addr < 0x4200000) ∧ s.reaches r.master g ∧ s.borrowed r.addr = true
abbrev Meets.LocalBanksRegionsAndAliases1 := fun (r : Req) (s : State) (g : Nat) =>
  s.Inv ∧ targetOf r.addr = some g ∧ (0x1000000 ≤ r.addr ∧ r.addr < 0x2000000 ∨ 0x4000000 ≤ r.addr ∧ r.addr < 0x4200000) ∧ s.reaches r.master g ∧ s.borrowed r.addr = false ∧ natural r.addr r.size = true ∧ (r.addr < 0x2000000 → s.permitted r.master (r.addr % 0x1000000) r.write = true) ∧ r.write = true ∧ r.data.length = r.size
abbrev Meets.LocalBanksRegionsAndAliases2 := fun (r : Req) (s : State) (g : Nat) =>
  s.Inv ∧ targetOf r.addr = some g ∧ (0x1000000 ≤ r.addr ∧ r.addr < 0x2000000 ∨ 0x4000000 ≤ r.addr ∧ r.addr < 0x4200000) ∧ s.reaches r.master g ∧ s.borrowed r.addr = false ∧ natural r.addr r.size = true ∧ (r.addr < 0x2000000 → s.permitted r.master (r.addr % 0x1000000) r.write = true) ∧ r.write = false ∧ s.badByte r.addr r.size = none
abbrev Meets.LocalBanksRegionsAndAliases3 := fun (r : Req) (s : State) (g : Nat) =>
  s.Inv ∧ targetOf r.addr = some g ∧ (0x1000000 ≤ r.addr ∧ r.addr < 0x2000000 ∨ 0x4000000 ≤ r.addr ∧ r.addr < 0x4200000) ∧ s.reaches r.master g ∧ s.borrowed r.addr = false ∧ natural r.addr r.size = true ∧ (r.addr < 0x2000000 → s.permitted r.master (r.addr % 0x1000000) r.write = true) ∧ r.write = false ∧ s.badByte r.addr r.size ≠ none
abbrev Meets.LocalBanksRegionsAndAliases4 := fun (r : Req) (s : State) (g : Nat) =>
  s.Inv ∧ targetOf r.addr = some g ∧ (0x1000000 ≤ r.addr ∧ r.addr < 0x2000000 ∨ 0x4000000 ≤ r.addr ∧ r.addr < 0x4200000) ∧ s.reaches r.master g ∧ s.borrowed r.addr = false ∧ natural r.addr r.size = true ∧ r.addr < 0x2000000 ∧ s.permitted r.master (r.addr % 0x1000000) r.write = false
abbrev Meets.LocalBanksRegionsAndAliases5 := fun (r : Req) (s : State) (g : Nat) =>
  s.Inv ∧ targetOf r.addr = some g ∧ (0x1000000 ≤ r.addr ∧ r.addr < 0x2000000 ∨ 0x4000000 ≤ r.addr ∧ r.addr < 0x4200000) ∧ s.reaches r.master g ∧ s.borrowed r.addr = false ∧ natural r.addr r.size = false
abbrev Meets.LocalBanksRegionsAndAliases6 := fun (m : Nat) =>
  16 ≤ m
abbrev Meets.LocalBanksRegionsAndAliases7 := fun (m : Nat) =>
  m < 16
abbrev Meets.LocalBanksRegionsAndAliases8 := fun (m off : Nat) =>
  m < 16 ∧ off < 0x1000000
abbrev Meets.LocalBanksRegionsAndAliases9 := fun (m x : Nat) (s : State) =>
  s.Inv ∧ x < 0x1000000 ∧ x % 4 = 0 ∧ s.reaches m (x / 0x100000) ∧ s.borrowed (0x2000000 + x) = false ∧ s.permitted m x true = true ∧ s.badByte (0x1000000 + x) 4 = none
abbrev Meets.LocalBanksRegionsAndAliases10 := fun (m x : Nat) (s : State) =>
  s.Inv ∧ x < 0x1000000 ∧ x % 4 = 0 ∧ s.reaches m (x / 0x100000) ∧ s.borrowed (0x2000000 + x) = false ∧ s.permitted m x true = false

/-- What the hypotheses of LocalBanksRegionsAndAliases ask, met together. -/
theorem witness_LocalBanksRegionsAndAliases :
    Meets.LocalBanksRegionsAndAliases0 (rd 0 0x1300000 4) marching 3 ∧
    Meets.LocalBanksRegionsAndAliases1 (wr 0 0x1000000 [1, 2, 3, 4]) (badBank.withCore 2 fun c => { c with resv := some 0x40000 }) 0 ∧
    Meets.LocalBanksRegionsAndAliases1 (wr 15 0x1FFFFC0 (List.replicate 64 7)) State.reset 15 ∧
    Meets.LocalBanksRegionsAndAliases1 (wr 3 0x4000000 [9]) State.reset 16 ∧
    Meets.LocalBanksRegionsAndAliases2 (rd 0 0x10FFFFE 2) { State.reset with mem := [(0x10FFFFF, 5)] } 0 ∧
    Meets.LocalBanksRegionsAndAliases2 (rd 3 0x41FFFFF 1) State.reset 16 ∧
    Meets.LocalBanksRegionsAndAliases3 (rd 0 0x1000000 4) badBank 0 ∧
    Meets.LocalBanksRegionsAndAliases3 (rd 16 0x1000000 64) badBank 0 ∧
    Meets.LocalBanksRegionsAndAliases4 (rd 1 0x1000000 4) badBank 0 ∧
    Meets.LocalBanksRegionsAndAliases4 (wr 0 0x1100000 [1]) State.reset 1 ∧
    Meets.LocalBanksRegionsAndAliases5 (rd 0 0x1000001 2) State.reset 0 ∧
    Meets.LocalBanksRegionsAndAliases5 (rd 0 0x4000000 3) State.reset 16 ∧
    Meets.LocalBanksRegionsAndAliases6 16 ∧
    Meets.LocalBanksRegionsAndAliases7 15 ∧
    Meets.LocalBanksRegionsAndAliases7 15 ∧
    Meets.LocalBanksRegionsAndAliases8 15 0xFFFFFF ∧
    Meets.LocalBanksRegionsAndAliases8 0 0x100000 ∧
    Meets.LocalBanksRegionsAndAliases9 0 0 (State.reset.withCore 2 fun c => { c with resv := some 0x40000 }) ∧
    Meets.LocalBanksRegionsAndAliases9 15 0xFFFFFC { State.reset with mem := [(0x1FFFFFC, 0xFF), (0x1FFFFFD, 0xFF)] } ∧
    Meets.LocalBanksRegionsAndAliases10 1 0 State.reset :=
  ⟨by refine ⟨inv_of ?_, ?_, ?_, reaches_of ?_, ?_⟩ <;> decide +kernel,
    by refine ⟨inv_of ?_, ?_, ?_, reaches_of ?_, ?_, ?_, ?_, ?_, ?_⟩ <;> decide +kernel,
    by refine ⟨inv_of ?_, ?_, ?_, reaches_of ?_, ?_, ?_, ?_, ?_, ?_⟩ <;> decide +kernel,
    by refine ⟨inv_of ?_, ?_, ?_, reaches_of ?_, ?_, ?_, ?_, ?_, ?_⟩ <;> decide +kernel,
    by refine ⟨inv_of ?_, ?_, ?_, reaches_of ?_, ?_, ?_, ?_, ?_, ?_⟩ <;> decide +kernel,
    by refine ⟨inv_of ?_, ?_, ?_, reaches_of ?_, ?_, ?_, ?_, ?_, ?_⟩ <;> decide +kernel,
    by refine ⟨inv_of ?_, ?_, ?_, reaches_of ?_, ?_, ?_, ?_, ?_, ?_⟩ <;> decide +kernel,
    by refine ⟨inv_of ?_, ?_, ?_, reaches_of ?_, ?_, ?_, ?_, ?_, ?_⟩ <;> decide +kernel,
    by refine ⟨inv_of ?_, ?_, ?_, reaches_of ?_, ?_, ?_, ?_, ?_⟩ <;> decide +kernel,
    by refine ⟨inv_of ?_, ?_, ?_, reaches_of ?_, ?_, ?_, ?_, ?_⟩ <;> decide +kernel,
    by refine ⟨inv_of ?_, ?_, ?_, reaches_of ?_, ?_, ?_⟩ <;> decide +kernel,
    by refine ⟨inv_of ?_, ?_, ?_, reaches_of ?_, ?_, ?_⟩ <;> decide +kernel,
    by refine ?_ <;> decide +kernel,
    by refine ?_ <;> decide +kernel,
    by refine ?_ <;> decide +kernel,
    by refine ⟨?_, ?_⟩ <;> decide +kernel,
    by refine ⟨?_, ?_⟩ <;> decide +kernel,
    by refine ⟨inv_of ?_, ?_, ?_, reaches_of ?_, ?_, ?_, ?_⟩ <;> decide +kernel,
    by refine ⟨inv_of ?_, ?_, ?_, reaches_of ?_, ?_, ?_, ?_⟩ <;> decide +kernel,
    by refine ⟨inv_of ?_, ?_, ?_, reaches_of ?_, ?_, ?_⟩ <;> decide +kernel⟩

abbrev Meets.CoreDiesAndHbmAnswerRequests0 := fun (r : Req) (s : State) (g n o : Nat) c =>
  s.Inv ∧ targetOf r.addr = some g ∧ n < 6 ∧ o < 0x100000000 ∧ r.addr = 0x1000000000 + n * 0x100000000 + o ∧ r.size = 4 ∧ s.reaches r.master g ∧ n < s.dies ∧ o % 4 = 0 ∧ s.cell n o = some c ∧ r.write = false ∧ (s.cellRead n c).2 = false
abbrev Meets.CoreDiesAndHbmAnswerRequests1 := fun (r : Req) (s : State) (g n o : Nat) c =>
  s.Inv ∧ targetOf r.addr = some g ∧ n < 6 ∧ o < 0x100000000 ∧ r.addr = 0x1000000000 + n * 0x100000000 + o ∧ r.size = 4 ∧ s.reaches r.master g ∧ n < s.dies ∧ o % 4 = 0 ∧ s.cell n o = some c ∧ r.write = true ∧ s.windowWrites r.master = true ∧ r.data.length = 4 ∧ SMap.wf 0 s.arr.instr = true ∧ SMap.wf 0 s.arr.dict = true
abbrev Meets.CoreDiesAndHbmAnswerRequests2 := fun (r : Req) (s : State) (g n o : Nat) c =>
  s.Inv ∧ targetOf r.addr = some g ∧ n < 6 ∧ o < 0x100000000 ∧ r.addr = 0x1000000000 + n * 0x100000000 + o ∧ r.size = 4 ∧ s.reaches r.master g ∧ n < s.dies ∧ o % 4 = 0 ∧ s.cell n o = some c ∧ r.write = true ∧ s.windowWrites r.master = false
abbrev Meets.CoreDiesAndHbmAnswerRequests3 := fun (r : Req) (s : State) (g n o : Nat) =>
  s.Inv ∧ targetOf r.addr = some g ∧ n < 6 ∧ o < 0x100000000 ∧ r.addr = 0x1000000000 + n * 0x100000000 + o ∧ r.size = 4 ∧ s.reaches r.master g ∧ n < s.dies ∧ s.cell n o = none
abbrev Meets.CoreDiesAndHbmAnswerRequests4 := fun (r : Req) (s : State) (g n o : Nat) =>
  s.Inv ∧ targetOf r.addr = some g ∧ n < 6 ∧ o < 0x100000000 ∧ r.addr = 0x1000000000 + n * 0x100000000 + o ∧ r.size = 4 ∧ s.ctl.corePower = true ∧ s.dies ≤ n
abbrev Meets.CoreDiesAndHbmAnswerRequests5 := fun (r : Req) (s : State) (g : Nat) k =>
  s.Inv ∧ targetOf r.addr = some g ∧ 0x10000000000 ≤ r.addr ∧ r.addr < 0x11800000000 ∧ s.reaches r.master g ∧ (r.addr - 0x10000000000) / 0x600000000 < s.fuses.grade.stacks ∧ s.regionOf r.addr = some k ∧ natural r.addr r.size = true ∧ r.write = false ∧ 8 < r.size ∧ s.noc.eccs = [(.uncorrectable, .uncorrectable)]
abbrev Meets.CoreDiesAndHbmAnswerRequests6 := fun (r : Req) (s : State) (g : Nat) k =>
  s.Inv ∧ targetOf r.addr = some g ∧ 0x10000000000 ≤ r.addr ∧ r.addr < 0x11800000000 ∧ s.reaches r.master g ∧ (r.addr - 0x10000000000) / 0x600000000 < s.fuses.grade.stacks ∧ s.regionOf r.addr = some k ∧ natural r.addr r.size = true ∧ r.write = false ∧ (r.size ≤ 8 ∨ s.noc.eccs = [])
abbrev Meets.CoreDiesAndHbmAnswerRequests7 := fun (r : Req) (s : State) (g : Nat) k =>
  s.Inv ∧ targetOf r.addr = some g ∧ 0x10000000000 ≤ r.addr ∧ r.addr < 0x11800000000 ∧ s.reaches r.master g ∧ (r.addr - 0x10000000000) / 0x600000000 < s.fuses.grade.stacks ∧ s.regionOf r.addr = some k ∧ natural r.addr r.size = true ∧ r.write = true ∧ s.hbmWriteErr r.master k = 0 ∧ r.size < 8
abbrev Meets.CoreDiesAndHbmAnswerRequests8 := fun (r : Req) (s : State) (g : Nat) k (e : Ecc) =>
  s.Inv ∧ targetOf r.addr = some g ∧ 0x10000000000 ≤ r.addr ∧ r.addr < 0x11800000000 ∧ s.reaches r.master g ∧ (r.addr - 0x10000000000) / 0x600000000 < s.fuses.grade.stacks ∧ s.regionOf r.addr = some k ∧ natural r.addr r.size = true ∧ r.write = true ∧ s.hbmWriteErr r.master k = 0 ∧ r.data.length = r.size ∧ (8 ≤ r.size ∨ e = .clean)
abbrev Meets.CoreDiesAndHbmAnswerRequests9 := fun (r : Req) (s : State) (g : Nat) k =>
  s.Inv ∧ targetOf r.addr = some g ∧ 0x10000000000 ≤ r.addr ∧ r.addr < 0x11800000000 ∧ s.reaches r.master g ∧ (r.addr - 0x10000000000) / 0x600000000 < s.fuses.grade.stacks ∧ s.regionOf r.addr = some k ∧ natural r.addr r.size = true ∧ r.write = true ∧ s.hbmWriteErr r.master k ≠ 0
abbrev Meets.CoreDiesAndHbmAnswerRequests10 := fun (r : Req) (s : State) (g : Nat) =>
  s.Inv ∧ targetOf r.addr = some g ∧ 0x10000000000 ≤ r.addr ∧ r.addr < 0x11800000000 ∧ s.reaches r.master g ∧ (r.addr - 0x10000000000) / 0x600000000 < s.fuses.grade.stacks ∧ s.regionOf r.addr = none
abbrev Meets.CoreDiesAndHbmAnswerRequests11 := fun (r : Req) (s : State) (g : Nat) =>
  s.Inv ∧ targetOf r.addr = some g ∧ 0x10000000000 ≤ r.addr ∧ r.addr < 0x11800000000 ∧ s.reaches r.master g ∧ s.fuses.grade.stacks ≤ (r.addr - 0x10000000000) / 0x600000000

/-- What the hypotheses of CoreDiesAndHbmAnswerRequests ask, met together. -/
theorem witness_CoreDiesAndHbmAnswerRequests :
    Meets.CoreDiesAndHbmAnswerRequests0 (rd 0 0x1000000000 4) State.reset 22 0 0 (Cell.instr 0 0) ∧
    Meets.CoreDiesAndHbmAnswerRequests0 (rd 0 0x1582FFFFFC 4) State.reset 33 5 0x82FFFFFC (Cell.bank 0xBFFFFF) ∧
    Meets.CoreDiesAndHbmAnswerRequests1 (wr 0 0x1000000004 [1, 2, 3, 4]) inSafe 22 0 4 (Cell.instr 0 1) ∧
    Meets.CoreDiesAndHbmAnswerRequests1 (wr 0 0x1040000000 [1, 2, 3, 4]) inSafe 22 0 0x40000000 (Cell.ds 0) ∧
    Meets.CoreDiesAndHbmAnswerRequests1 (wr 0 0x1041000000 [1, 2, 3, 4]) inSafe 22 0 0x41000000 (Cell.dict 0) ∧
    Meets.CoreDiesAndHbmAnswerRequests1 (wr 0 0x1080000000 [1, 2, 3, 4]) (inSafe.withCore 1 fun c => { c with resv := some (0x1080000000 / 64) }) 23 0 0x80000000 (Cell.bank 0) ∧
    Meets.CoreDiesAndHbmAnswerRequests2 (wr 0 0x1000000000 [1, 2, 3, 4]) State.reset 22 0 0 (Cell.instr 0 0) ∧
    Meets.CoreDiesAndHbmAnswerRequests3 (rd 0 0x1083000000 4) State.reset 23 0 0x83000000 ∧
    Meets.CoreDiesAndHbmAnswerRequests3 (wr 0 0x1041080000 [1, 2, 3, 4]) State.reset 22 0 0x41080000 ∧
    Meets.CoreDiesAndHbmAnswerRequests3 (rd 0 0x1020000000 4) State.reset 22 0 0x20000000 ∧
    Meets.CoreDiesAndHbmAnswerRequests4 (rd 0 0x1300000000 4) threeDies 28 3 0 ∧
    Meets.CoreDiesAndHbmAnswerRequests5 (rd 0 0x10000000000 64) { regions with noc := ⟨[], false, false, [(.uncorrectable, .uncorrectable)]⟩ } 18 1 ∧
    Meets.CoreDiesAndHbmAnswerRequests6 (rd 0 0x10000000000 64) regions 18 1 ∧
    Meets.CoreDiesAndHbmAnswerRequests6 (rd 0 0x11200600000 1) regions 21 9 ∧
    Meets.CoreDiesAndHbmAnswerRequests7 (wr 19 0x10000400000 [1, 2]) regions 18 6 ∧
    Meets.CoreDiesAndHbmAnswerRequests8 (wr 0 0x10000600000 (List.replicate 64 1)) regions 18 9 Ecc.uncorrectable ∧
    Meets.CoreDiesAndHbmAnswerRequests8 (wr 0 0x10000000000 [1, 2]) (regions.inMode .safe) 18 1 Ecc.clean ∧
    Meets.CoreDiesAndHbmAnswerRequests8 (wr 19 0x10000400000 [1, 2]) regions 18 6 Ecc.clean ∧
    Meets.CoreDiesAndHbmAnswerRequests9 (wr 0 0x10000400000 [1, 2]) regions 18 6 ∧
    Meets.CoreDiesAndHbmAnswerRequests9 (wr 0 0x10000000000 [1, 2]) regions 18 1 ∧
    Meets.CoreDiesAndHbmAnswerRequests10 (rd 0 0x10000800000 4) regions 18 ∧
    Meets.CoreDiesAndHbmAnswerRequests11 (rd 0 0x117FFFFFFFF 1) threeDies 21 :=
  ⟨by refine ⟨inv_of ?_, ?_, ?_, ?_, ?_, ?_, reaches_of ?_, ?_, ?_, ?_, ?_, ?_⟩ <;> decide +kernel,
    by refine ⟨inv_of ?_, ?_, ?_, ?_, ?_, ?_, reaches_of ?_, ?_, ?_, ?_, ?_, ?_⟩ <;> decide +kernel,
    by refine ⟨inv_of ?_, ?_, ?_, ?_, ?_, ?_, reaches_of ?_, ?_, ?_, ?_, ?_, ?_, ?_, ?_, ?_⟩ <;> decide +kernel,
    by refine ⟨inv_of ?_, ?_, ?_, ?_, ?_, ?_, reaches_of ?_, ?_, ?_, ?_, ?_, ?_, ?_, ?_, ?_⟩ <;> decide +kernel,
    by refine ⟨inv_of ?_, ?_, ?_, ?_, ?_, ?_, reaches_of ?_, ?_, ?_, ?_, ?_, ?_, ?_, ?_, ?_⟩ <;> decide +kernel,
    by refine ⟨inv_of ?_, ?_, ?_, ?_, ?_, ?_, reaches_of ?_, ?_, ?_, ?_, ?_, ?_, ?_, ?_, ?_⟩ <;> decide +kernel,
    by refine ⟨inv_of ?_, ?_, ?_, ?_, ?_, ?_, reaches_of ?_, ?_, ?_, ?_, ?_, ?_⟩ <;> decide +kernel,
    by refine ⟨inv_of ?_, ?_, ?_, ?_, ?_, ?_, reaches_of ?_, ?_, ?_⟩ <;> decide +kernel,
    by refine ⟨inv_of ?_, ?_, ?_, ?_, ?_, ?_, reaches_of ?_, ?_, ?_⟩ <;> decide +kernel,
    by refine ⟨inv_of ?_, ?_, ?_, ?_, ?_, ?_, reaches_of ?_, ?_, ?_⟩ <;> decide +kernel,
    by refine ⟨inv_of ?_, ?_, ?_, ?_, ?_, ?_, ?_, ?_⟩ <;> decide +kernel,
    by refine ⟨inv_of ?_, ?_, ?_, ?_, reaches_of ?_, ?_, ?_, ?_, ?_, ?_, ?_⟩ <;> decide +kernel,
    by refine ⟨inv_of ?_, ?_, ?_, ?_, reaches_of ?_, ?_, ?_, ?_, ?_, ?_⟩ <;> decide +kernel,
    by refine ⟨inv_of ?_, ?_, ?_, ?_, reaches_of ?_, ?_, ?_, ?_, ?_, ?_⟩ <;> decide +kernel,
    by refine ⟨inv_of ?_, ?_, ?_, ?_, reaches_of ?_, ?_, ?_, ?_, ?_, ?_, ?_⟩ <;> decide +kernel,
    by refine ⟨inv_of ?_, ?_, ?_, ?_, reaches_of ?_, ?_, ?_, ?_, ?_, ?_, ?_, ?_⟩ <;> decide +kernel,
    by refine ⟨inv_of ?_, ?_, ?_, ?_, reaches_of ?_, ?_, ?_, ?_, ?_, ?_, ?_, ?_⟩ <;> decide +kernel,
    by refine ⟨inv_of ?_, ?_, ?_, ?_, reaches_of ?_, ?_, ?_, ?_, ?_, ?_, ?_, ?_⟩ <;> decide +kernel,
    by refine ⟨inv_of ?_, ?_, ?_, ?_, reaches_of ?_, ?_, ?_, ?_, ?_, ?_⟩ <;> decide +kernel,
    by refine ⟨inv_of ?_, ?_, ?_, ?_, reaches_of ?_, ?_, ?_, ?_, ?_, ?_⟩ <;> decide +kernel,
    by refine ⟨inv_of ?_, ?_, ?_, ?_, reaches_of ?_, ?_, ?_⟩ <;> decide +kernel,
    by refine ⟨inv_of ?_, ?_, ?_, ?_, reaches_of ?_, ?_⟩ <;> decide +kernel⟩

abbrev Meets.PinImageAndResponses0 := fun (r : Req) (s : State) (i : Nat) =>
  s.Inv ∧ i < 4 ∧ r.addr = 0x20000000000 + 64 * i ∧ r.size = 64 ∧ s.reaches r.master 34 ∧ r.write = false
abbrev Meets.PinImageAndResponses1 := fun (r : Req) (s : State) (i : Nat) =>
  s.Inv ∧ i < 4 ∧ r.addr = 0x20000000000 + 64 * i ∧ r.size = 64 ∧ s.reaches r.master 34 ∧ r.write = true
abbrev Meets.PinImageAndResponses2 := fun (k : Nat) (f : Flight) (s : State) =>
  s.Inv ∧ s.noc.flights[k]? = some f ∧ f.waits = none ∧ f.lost = false ∧ s.blocked true (s.noc.flights.take k) f.master f.route = true
abbrev Meets.PinImageAndResponses3 := fun (k : Nat) (f : Flight) (s : State) =>
  s.Inv ∧ s.noc.flights[k]? = some f ∧ f.waits = none ∧ f.lost = false ∧ s.blocked true (s.noc.flights.take k) f.master f.route = false
abbrev Meets.PinImageAndResponses4 := fun (k : Nat) (f : Flight) (s : State) =>
  s.Inv ∧ s.noc.flights[k]? = some f ∧ f.stalled = true
abbrev Meets.PinImageAndResponses5 := fun (k : Nat) (f : Flight) (s : State) =>
  s.Inv ∧ s.noc.flights[k]? = some f ∧ f.timedOut = false ∧ f.stalled = false ∧ s.acq.arming = []

/-- What the hypotheses of PinImageAndResponses ask, met together. -/
theorem witness_PinImageAndResponses :
    Meets.PinImageAndResponses0 (rd 0 0x20000000000 64) { State.reset with fio := { Fio.reset with lastIn := [0, 9] } } 0 ∧
    Meets.PinImageAndResponses0 (rd 0 0x200000000C0 64) { State.reset with fio := { Fio.reset with lastCont := [511] } } 3 ∧
    Meets.PinImageAndResponses1 (wr 0 0x20000000040 (List.replicate 64 1)) State.reset 1 ∧
    Meets.PinImageAndResponses2 0 { fl 0 17 0x10000 4 with data := [1, 2, 3, 4] } (flown.setFlds ((List.range 32).map fun r => (F.NOC_RCFG_READY r, 0))) ∧
    Meets.PinImageAndResponses3 0 { fl 0 17 0x10000 4 with data := [1, 2, 3, 4] } flown ∧
    Meets.PinImageAndResponses3 2 { fl 3 16 0x4000000 4 with timedOut := true } flown ∧
    Meets.PinImageAndResponses4 1 { fl 3 16 0x4000000 4 with waits := some [], stalled := true } flown ∧
    Meets.PinImageAndResponses5 0 { fl 0 17 0x10000 4 with data := [1, 2, 3, 4] } flown ∧
    Meets.PinImageAndResponses5 3 { fl 3 16 0x4000000 4 with lost := true } flown ∧
    Meets.PinImageAndResponses5 4 { fl 3 16 0x4000000 4 with lost := true, asks := true } flown :=
  ⟨by refine ⟨inv_of ?_, ?_, ?_, ?_, reaches_of ?_, ?_⟩ <;> decide +kernel,
    by refine ⟨inv_of ?_, ?_, ?_, ?_, reaches_of ?_, ?_⟩ <;> decide +kernel,
    by refine ⟨inv_of ?_, ?_, ?_, ?_, reaches_of ?_, ?_⟩ <;> decide +kernel,
    by refine ⟨inv_of ?_, ?_, ?_, ?_, ?_⟩ <;> decide +kernel,
    by refine ⟨inv_of ?_, ?_, ?_, ?_, ?_⟩ <;> decide +kernel,
    by refine ⟨inv_of ?_, ?_, ?_, ?_, ?_⟩ <;> decide +kernel,
    by refine ⟨inv_of ?_, ?_, ?_⟩ <;> decide +kernel,
    by refine ⟨inv_of ?_, ?_, ?_, ?_, ?_⟩ <;> decide +kernel,
    by refine ⟨inv_of ?_, ?_, ?_, ?_, ?_⟩ <;> decide +kernel,
    by refine ⟨inv_of ?_, ?_, ?_, ?_, ?_⟩ <;> decide +kernel⟩

abbrev Meets.TheHubsMemoriesAndNetworkAreManaged0 := fun (m b : Nat) (d : Word) (s : State) =>
  s.Inv ∧ b < 16 ∧ s.reaches m 17 ∧ s.flag (F.HBK_BPWR_BUSY b) = false ∧ s.flag (F.HBK_MCTL_BUSY b) = false ∧ s.flag (F.HBK_BPWR_FAIL b) = false ∧ bits d.toNat 0 2 ≠ 3 ∧ bits d.toNat 0 2 ≠ s.fld (F.HBK_BPWR_STATE b)
abbrev Meets.TheHubsMemoriesAndNetworkAreManaged1 := fun (m b : Nat) (d : Word) (s : State) =>
  s.Inv ∧ b < 16 ∧ s.reaches m 17 ∧ (s.flag (F.HBK_BPWR_BUSY b) = true ∨ s.flag (F.HBK_MCTL_BUSY b) = true ∨ s.flag (F.HBK_BPWR_FAIL b) = true ∨ bits d.toNat 0 2 = 3)
abbrev Meets.TheHubsMemoriesAndNetworkAreManaged2 := fun (b : Nat) (s : State) want =>
  s.Inv ∧ b < 16 ∧ (s.hub.power.find? fun x => x.1 == b) = some (b, want) ∧ want < 3 ∧ (s.fld (F.HBK_BPWR_STATE b) ≠ 0 ∨ s.flag (F.NOC_FENCE_DRAINED b) = true)
abbrev Meets.TheHubsMemoriesAndNetworkAreManaged3 := fun (m b : Nat) (d : Word) (s : State) =>
  s.Inv ∧ b < 16 ∧ s.reaches m 17 ∧ bit d.toNat 31 = true ∧ s.flag (F.HBK_MCTL_BUSY b) = false ∧ s.fld (F.HBK_BPWR_STATE b) = 0 ∧ s.flag (F.HBK_BPWR_BUSY b) = false
abbrev Meets.TheHubsMemoriesAndNetworkAreManaged4 := fun (m b : Nat) (d : Word) (s : State) =>
  s.Inv ∧ b < 16 ∧ s.reaches m 17 ∧ bit d.toNat 31 = true ∧ (s.flag (F.HBK_MCTL_BUSY b) = true ∨ s.fld (F.HBK_BPWR_STATE b) ≠ 0 ∨ s.flag (F.HBK_BPWR_BUSY b) = true)
abbrev Meets.TheHubsMemoriesAndNetworkAreManaged5 := fun (b : Nat) (s : State) x =>
  s.Inv ∧ b < 16 ∧ s.march b = some x ∧ x.preserve = true ∧ x.ground < 4 ∧ (∀ f ∈ s.noc.flights, f.stalled = true → f.target ≠ b) ∧ s.acq.arming = []
abbrev Meets.TheHubsMemoriesAndNetworkAreManaged6 := fun (b : Nat) (s : State) x f =>
  s.Inv ∧ b < 16 ∧ s.march b = some x ∧ x.preserve = true ∧ x.ground < 4 ∧ x.borrowed = true ∧ s.noc.flights = [f] ∧ s.acq.arming = [] ∧ s.noc.answer = false ∧ f.stalled = true ∧ f.target = b ∧ f.timedOut = false ∧ f.asks = false ∧ f.fetch = false ∧ f.lost = false ∧ f.write = false ∧ f.waits = some [] ∧ f.addr / 0x100000 = 16 + b ∧ f.addr % 0x100000 / 4096 = x.chunk ∧ natural f.addr f.size = true ∧ s.permitted f.master (f.addr % 0x1000000) false = true ∧ s.badByte f.addr f.size = none
abbrev Meets.TheHubsMemoriesAndNetworkAreManaged7 := fun (b : Nat) (s : State) x =>
  s.Inv ∧ b < 16 ∧ s.march b = some x ∧ (x.preserve = false ∨ 4 ≤ x.ground)
abbrev Meets.TheHubsMemoriesAndNetworkAreManaged8 := fun (m : Nat) (s : State) =>
  s.Inv ∧ s.reaches m 17
abbrev Meets.TheHubsMemoriesAndNetworkAreManaged9 := fun (m : Nat) (s : State) n k =>
  s.Inv ∧ s.reaches m 17 ∧ s.flag F.HBK_RLOCK_LOCK = true ∧ n < 16 ∧ k < 8
abbrev Meets.TheHubsMemoriesAndNetworkAreManaged10 := fun (m : Nat) (d : Word) (s : State) b =>
  s.Inv ∧ s.reaches m 17 ∧ bit d.toNat 30 = false ∧ s.flag (F.HBK_HRGN_VALID 8) = false ∧ bits d.toNat 0 14 ≠ 0 ∧ s.place (bits d.toNat 0 14) = some b
abbrev Meets.TheHubsMemoriesAndNetworkAreManaged11 := fun (m : Nat) (d : Word) (s : State) =>
  s.Inv ∧ s.reaches m 17 ∧ bit d.toNat 30 = false ∧ (s.flag (F.HBK_HRGN_VALID 8) = true ∨ bits d.toNat 0 14 = 0 ∨ s.place (bits d.toNat 0 14) = none)
abbrev Meets.TheHubsMemoriesAndNetworkAreManaged12 := fun (m : Nat) (d : Word) (s : State) =>
  s.Inv ∧ s.reaches m 17 ∧ bit d.toNat 31 = false ∧ s.flag (F.HBK_HRGN_VALID 8) = true
abbrev Meets.TheHubsMemoriesAndNetworkAreManaged13 := fun (m : Nat) (s : State) =>
  s.Inv ∧ s.reaches m 17 ∧ s.hub.camFreeing = true
abbrev Meets.TheHubsMemoriesAndNetworkAreManaged14 := fun (m : Nat) (s : State) t₀ =>
  s.Inv ∧ t₀ < 64 ∧ s.reaches m 17 ∧ s.flag (F.NOC_FENCE_AUTO t₀) = false
abbrev Meets.TheHubsMemoriesAndNetworkAreManaged15 := fun (m : Nat) (s : State) t₀ =>
  s.Inv ∧ t₀ < 64 ∧ s.reaches m 17 ∧ s.flag (F.NOC_FENCE_AUTO t₀) = true
abbrev Meets.TheHubsMemoriesAndNetworkAreManaged16 := fun (s : State) t₀ =>
  s.Inv ∧ t₀ < 64 ∧ s.fenced t₀ = true ∧ s.flag (F.NOC_FENCE_DRAINED t₀) = false ∧ (∀ f ∈ s.noc.flights, f.stalled = true → f.target ≠ t₀)
abbrev Meets.TheHubsMemoriesAndNetworkAreManaged17 := fun (m : Nat) (s : State) r =>
  s.Inv ∧ r < 32 ∧ s.reaches m 17
abbrev Meets.TheHubsMemoriesAndNetworkAreManaged18 := fun (s : State) r =>
  s.Inv ∧ r < 32 ∧ s.flag (F.NOC_RCFG_RECONF r) = false ∧ s.flag (F.NOC_RCFG_READY r) = false ∧ s.flag (F.NOC_RCFG_ABSENT r) = false ∧ (∀ f ∈ s.noc.flights, f.waits = none) ∧ s.acq.arming = []
abbrev Meets.TheHubsMemoriesAndNetworkAreManaged19 := fun (m : Nat) (d : Word) (s : State) i e =>
  s.Inv ∧ i < 25 ∧ e < 64 ∧ s.reaches m 17 ∧ s.routeCode i e d = 0
abbrev Meets.TheHubsMemoriesAndNetworkAreManaged20 := fun (m : Nat) (d : Word) (s : State) i e =>
  s.Inv ∧ i < 25 ∧ e < 64 ∧ s.reaches m 17 ∧ s.routeCode i e d ≠ 0
abbrev Meets.TheHubsMemoriesAndNetworkAreManaged21 := fun (d : Word) (s : State) =>
  s.Inv ∧ bit d.toNat 31 = false
abbrev Meets.TheHubsMemoriesAndNetworkAreManaged22 := fun (d : Word) (s : State) e =>
  s.Inv ∧ bit d.toNat 31 = true ∧ 35 ≤ e
abbrev Meets.TheHubsMemoriesAndNetworkAreManaged23 := fun (d : Word) (s : State) i e =>
  s.Inv ∧ bit d.toNat 31 = true ∧ bits d.toNat 0 23 = 0 ∧ (routePath (masterRouter i) d).getLast? ≠ targetRouter e

/-- What the hypotheses of TheHubsMemoriesAndNetworkAreManaged ask, met together. -/
theorem witness_TheHubsMemoriesAndNetworkAreManaged :
    Meets.TheHubsMemoriesAndNetworkAreManaged0 0 0 1 State.reset ∧
    Meets.TheHubsMemoriesAndNetworkAreManaged0 0 15 0 (State.reset.setFld (F.HBK_BPWR_STATE 15) 2) ∧
    Meets.TheHubsMemoriesAndNetworkAreManaged1 0 1 3 State.reset ∧
    Meets.TheHubsMemoriesAndNetworkAreManaged1 0 1 2 offBank ∧
    Meets.TheHubsMemoriesAndNetworkAreManaged2 1 offBank 2 ∧
    Meets.TheHubsMemoriesAndNetworkAreManaged2 2 offBank 0 ∧
    Meets.TheHubsMemoriesAndNetworkAreManaged3 0 0 0x80000100 (State.reset.setFlds [(F.HBK_NB_EN 0 0, 1), (F.HBK_NB_LENM1 0 0, 7)]) ∧
    Meets.TheHubsMemoriesAndNetworkAreManaged3 0 15 0x80000000 State.reset ∧
    Meets.TheHubsMemoriesAndNetworkAreManaged4 0 1 0x80000000 offBank ∧
    Meets.TheHubsMemoriesAndNetworkAreManaged5 1 marching (⟨1, true, 0, 0, false, [(1, 3)]⟩ : March) ∧
    Meets.TheHubsMemoriesAndNetworkAreManaged5 4 marching (⟨4, true, 255, 3, true, []⟩ : March) ∧
    Meets.TheHubsMemoriesAndNetworkAreManaged6 4 (marching.flying [{ fl 4 4 0x14FF000 4 with waits := some [], stalled := true }]) (⟨4, true, 255, 3, true, []⟩ : March) { fl 4 4 0x14FF000 4 with waits := some [], stalled := true } ∧
    Meets.TheHubsMemoriesAndNetworkAreManaged7 2 marching (⟨2, false, 0, 0, true, []⟩ : March) ∧
    Meets.TheHubsMemoriesAndNetworkAreManaged7 3 marching (⟨3, true, 0, 4, true, []⟩ : March) ∧
    Meets.TheHubsMemoriesAndNetworkAreManaged8 0 State.reset ∧
    Meets.TheHubsMemoriesAndNetworkAreManaged8 0 (State.reset.setFld F.HBK_RLOCK_LOCK 1) ∧
    Meets.TheHubsMemoriesAndNetworkAreManaged9 0 (State.reset.setFld F.HBK_RLOCK_LOCK 1) 15 7 ∧
    Meets.TheHubsMemoriesAndNetworkAreManaged10 0 0x3000 State.reset 0 ∧
    Meets.TheHubsMemoriesAndNetworkAreManaged10 0 1 inRun 4 ∧
    Meets.TheHubsMemoriesAndNetworkAreManaged11 0 0 State.reset ∧
    Meets.TheHubsMemoriesAndNetworkAreManaged11 0 0x3FFF State.reset ∧
    Meets.TheHubsMemoriesAndNetworkAreManaged11 0 1 regions ∧
    Meets.TheHubsMemoriesAndNetworkAreManaged12 0 0 regions ∧
    Meets.TheHubsMemoriesAndNetworkAreManaged13 0 { regions with hub := { Hub.reset with camFreeing := true } } ∧
    Meets.TheHubsMemoriesAndNetworkAreManaged14 0 State.reset 63 ∧
    Meets.TheHubsMemoriesAndNetworkAreManaged14 0 (State.reset.setFlds [(F.NOC_FENCE_FENCE 0, 1), (F.NOC_FENCE_DRAINED 0, 1)]) 0 ∧
    Meets.TheHubsMemoriesAndNetworkAreManaged15 0 offBank 1 ∧
    Meets.TheHubsMemoriesAndNetworkAreManaged16 marching 2 ∧
    Meets.TheHubsMemoriesAndNetworkAreManaged17 0 State.reset 31 ∧
    Meets.TheHubsMemoriesAndNetworkAreManaged17 0 (State.reset.setFlds [(F.NOC_RCFG_RECONF 0, 1), (F.NOC_RCFG_READY 0, 0)]) 0 ∧
    Meets.TheHubsMemoriesAndNetworkAreManaged18 (State.reset.setFld (F.NOC_RCFG_READY 0) 0) 0 ∧
    Meets.TheHubsMemoriesAndNetworkAreManaged19 0 0x0 State.reset 24 63 ∧
    Meets.TheHubsMemoriesAndNetworkAreManaged19 0 0x80000000 State.reset 0 0 ∧
    Meets.TheHubsMemoriesAndNetworkAreManaged20 0 0x80000000 State.reset 0 35 ∧
    Meets.TheHubsMemoriesAndNetworkAreManaged20 0 0x80000000 State.reset 24 1 ∧
    Meets.TheHubsMemoriesAndNetworkAreManaged21 0 State.reset ∧
    Meets.TheHubsMemoriesAndNetworkAreManaged22 0x80000000 State.reset 35 ∧
    Meets.TheHubsMemoriesAndNetworkAreManaged23 0x80000000 State.reset 1 0 :=
  ⟨by refine ⟨inv_of ?_, ?_, reaches_of ?_, ?_, ?_, ?_, ?_, ?_⟩ <;> decide +kernel,
    by refine ⟨inv_of ?_, ?_, reaches_of ?_, ?_, ?_, ?_, ?_, ?_⟩ <;> decide +kernel,
    by refine ⟨inv_of ?_, ?_, reaches_of ?_, ?_⟩ <;> decide +kernel,
    by refine ⟨inv_of ?_, ?_, reaches_of ?_, ?_⟩ <;> decide +kernel,
    by refine ⟨inv_of ?_, ?_, ?_, ?_, ?_⟩ <;> decide +kernel,
    by refine ⟨inv_of ?_, ?_, ?_, ?_, ?_⟩ <;> decide +kernel,
    by refine ⟨inv_of ?_, ?_, reaches_of ?_, ?_, ?_, ?_, ?_⟩ <;> decide +kernel,
    by refine ⟨inv_of ?_, ?_, reaches_of ?_, ?_, ?_, ?_, ?_⟩ <;> decide +kernel,
    by refine ⟨inv_of ?_, ?_, reaches_of ?_, ?_, ?_⟩ <;> decide +kernel,
    by refine ⟨inv_of ?_, ?_, ?_, ?_, ?_, ?_, ?_⟩ <;> decide +kernel,
    by refine ⟨inv_of ?_, ?_, ?_, ?_, ?_, ?_, ?_⟩ <;> decide +kernel,
    by refine ⟨inv_of ?_, ?_, ?_, ?_, ?_, ?_, ?_, ?_, ?_, ?_, ?_, ?_, ?_, ?_, ?_, ?_, ?_, ?_, ?_, ?_, ?_, ?_⟩ <;> decide +kernel,
    by refine ⟨inv_of ?_, ?_, ?_, ?_⟩ <;> decide +kernel,
    by refine ⟨inv_of ?_, ?_, ?_, ?_⟩ <;> decide +kernel,
    by refine ⟨inv_of ?_, reaches_of ?_⟩ <;> decide +kernel,
    by refine ⟨inv_of ?_, reaches_of ?_⟩ <;> decide +kernel,
    by refine ⟨inv_of ?_, reaches_of ?_, ?_, ?_, ?_⟩ <;> decide +kernel,
    by refine ⟨inv_of ?_, reaches_of ?_, ?_, ?_, ?_, ?_⟩ <;> decide +kernel,
    by refine ⟨inv_of ?_, reaches_of ?_, ?_, ?_, ?_, ?_⟩ <;> decide +kernel,
    by refine ⟨inv_of ?_, reaches_of ?_, ?_, ?_⟩ <;> decide +kernel,
    by refine ⟨inv_of ?_, reaches_of ?_, ?_, ?_⟩ <;> decide +kernel,
    by refine ⟨inv_of ?_, reaches_of ?_, ?_, ?_⟩ <;> decide +kernel,
    by refine ⟨inv_of ?_, reaches_of ?_, ?_, ?_⟩ <;> decide +kernel,
    by refine ⟨inv_of ?_, reaches_of ?_, ?_⟩ <;> decide +kernel,
    by refine ⟨inv_of ?_, ?_, reaches_of ?_, ?_⟩ <;> decide +kernel,
    by refine ⟨inv_of ?_, ?_, reaches_of ?_, ?_⟩ <;> decide +kernel,
    by refine ⟨inv_of ?_, ?_, reaches_of ?_, ?_⟩ <;> decide +kernel,
    by refine ⟨inv_of ?_, ?_, ?_, ?_, ?_⟩ <;> decide +kernel,
    by refine ⟨inv_of ?_, ?_, reaches_of ?_⟩ <;> decide +kernel,
    by refine ⟨inv_of ?_, ?_, reaches_of ?_⟩ <;> decide +kernel,
    by refine ⟨inv_of ?_, ?_, ?_, ?_, ?_, ?_, ?_⟩ <;> decide +kernel,
    by refine ⟨inv_of ?_, ?_, ?_, reaches_of ?_, ?_⟩ <;> decide +kernel,
    by refine ⟨inv_of ?_, ?_, ?_, reaches_of ?_, ?_⟩ <;> decide +kernel,
    by refine ⟨inv_of ?_, ?_, ?_, reaches_of ?_, ?_⟩ <;> decide +kernel,
    by refine ⟨inv_of ?_, ?_, ?_, reaches_of ?_, ?_⟩ <;> decide +kernel,
    by refine ⟨inv_of ?_, ?_⟩ <;> decide +kernel,
    by refine ⟨inv_of ?_, ?_, ?_⟩ <;> decide +kernel,
    by refine ⟨inv_of ?_, ?_, ?_, ?_⟩ <;> decide +kernel⟩

abbrev Meets.LoadAndStagingRequests0 := fun (msg : Msg) (x : Session) (s : State) =>
  s.Inv ∧ msg.port ≠ .mgmt ∧ s.hmp.claim = some x.num ∧ s.takes msg 0x0500 x ∧ (s.ctl.mode = .idle ∨ s.ctl.mode = .armed) ∧ (msgBody msg x).length = 8
abbrev Meets.LoadAndStagingRequests1 := fun (msg : Msg) (x : Session) (s : State) =>
  s.Inv ∧ msg.port ≠ .mgmt ∧ s.hmp.claim = some x.num ∧ s.takes msg 0x0501 x ∧ (s.ctl.mode = .idle ∨ s.ctl.mode = .armed) ∧ (msgBody msg x).length = 1 ∧ leAt (msgBody msg x) 0 1 ≤ 3 ∧ (∀ y ∈ s.ldr.stagings, y.slot ≠ leAt (msgBody msg x) 0 1) ∧ s.flag (F.LDR_SLOT_VALID (leAt (msgBody msg x) 0 1)) = true ∧ s.flag (F.LDR_SLOT_VERIFIED (leAt (msgBody msg x) 0 1)) = true
abbrev Meets.LoadAndStagingRequests2 := fun (msg : Msg) (x : Session) (s : State) =>
  s.Inv ∧ msg.port ≠ .mgmt ∧ s.hmp.claim = some x.num ∧ s.takes msg 0x0502 x ∧ s.ctl.mode = .load ∧ s.ldr.loading ≠ none ∧ msgBody msg x = []
abbrev Meets.LoadAndStagingRequests3 := fun (msg : Msg) (x : Session) (s : State) =>
  s.Inv ∧ msg.port ≠ .mgmt ∧ s.hmp.claim = some x.num ∧ s.takes msg 0x0503 x ∧ s.ctl.mode = .armed ∧ msgBody msg x = []
abbrev Meets.LoadAndStagingRequests4 := fun (msg : Msg) (x : Session) (s : State) =>
  s.Inv ∧ msg.port ≠ .mgmt ∧ s.takes msg 0x0504 x ∧ s.hmp.claim = some x.num ∧ stageModes s = true ∧ (msgBody msg x).length = 16 ∧ leAt (msgBody msg x) 0 1 ≤ 3 ∧ leAt (msgBody msg x) 1 7 = 0 ∧ s.slotBusy (leAt (msgBody msg x) 0 1) = false ∧ (emptySlot (leAt (msgBody msg x) 0 1) s).create (2 + leAt (msgBody msg x) 0 1) (s.partFor (leAt (msgBody msg x) 8 8)) ≠ none
abbrev Meets.LoadAndStagingRequests5 := fun (msg : Msg) (x : Session) (s : State) =>
  s.Inv ∧ msg.port ≠ .mgmt ∧ s.takes msg 0x0505 x ∧ s.hmp.claim = some x.num ∧ stageModes s = true ∧ (msgBody msg x).length = 1 ∧ leAt (msgBody msg x) 0 1 ≤ 3 ∧ s.slotBusy (leAt (msgBody msg x) 0 1) = false
abbrev Meets.LoadAndStagingRequests6 := fun (msg : Msg) (x : Session) (s : State) =>
  s.Inv ∧ msg.port ≠ .mgmt ∧ s.takes msg 0x0506 x ∧ s.ctl.corePower = true ∧ msgBody msg x = []

/-- What the hypotheses of LoadAndStagingRequests ask, met together. -/
theorem witness_LoadAndStagingRequests :
    Meets.LoadAndStagingRequests0 (msg 0x0500 (leBytes 8 4096)) sess5 inIdle ∧
    Meets.LoadAndStagingRequests0 (msg 0x0500 (leBytes 8 4096)) sess5 inArmed ∧
    Meets.LoadAndStagingRequests1 (msg 0x0501 [3]) sess5 slotted ∧
    Meets.LoadAndStagingRequests2 (msg 0x0502) sess5 (loadingA ⟨4096, [], 0, none, false⟩ none) ∧
    Meets.LoadAndStagingRequests3 (msg 0x0503) sess5 inArmed ∧
    Meets.LoadAndStagingRequests4 (msg 0x0504 ([3] ++ leBytes 7 0 ++ leBytes 8 4096)) sess5 slotted ∧
    Meets.LoadAndStagingRequests5 (msg 0x0505 [3]) sess5 slotted ∧
    Meets.LoadAndStagingRequests6 (msg 0x0506) sess5 inArmed :=
  ⟨by refine ⟨inv_of ?_, ?_, ?_, takes_msg ?_ ?_, ?_, ?_⟩ <;> decide +kernel,
    by refine ⟨inv_of ?_, ?_, ?_, takes_msg ?_ ?_, ?_, ?_⟩ <;> decide +kernel,
    by refine ⟨inv_of ?_, ?_, ?_, takes_msg ?_ ?_, ?_, ?_, ?_, ?_, ?_, ?_⟩ <;> decide +kernel,
    by refine ⟨inv_of ?_, ?_, ?_, takes_msg ?_ ?_, ?_, ?_, ?_⟩ <;> decide +kernel,
    by refine ⟨inv_of ?_, ?_, ?_, takes_msg ?_ ?_, ?_, ?_⟩ <;> decide +kernel,
    by refine ⟨inv_of ?_, ?_, takes_msg ?_ ?_, ?_, ?_, ?_, ?_, ?_, ?_, ?_⟩ <;> decide +kernel,
    by refine ⟨inv_of ?_, ?_, takes_msg ?_ ?_, ?_, ?_, ?_, ?_, ?_⟩ <;> decide +kernel,
    by refine ⟨inv_of ?_, ?_, takes_msg ?_ ?_, ?_, ?_⟩ <;> decide +kernel⟩

abbrev Meets.LoadsAndStagingsEnd0 := fun (s : State) x =>
  s.Inv ∧ s.ldr.loading = some x ∧ x.take.ready = true
abbrev Meets.LoadsAndStagingsEnd1 := fun (s : State) x r =>
  s.Inv ∧ s.ldr.loading = some x ∧ x.take.fault = some r
abbrev Meets.LoadsAndStagingsEnd2 := fun (s : State) x =>
  s.Inv ∧ s.ldr.loading = some x ∧ x.take.fault = none ∧ (x.take.bytes.length < x.take.length ∨ x.take.length = 0)
abbrev Meets.LoadsAndStagingsEnd3 := fun (s : State) x =>
  s.Inv ∧ (s.ldr.stagings.find? fun y => y.take.ready || y.take.fault.isSome) = some x ∧ x.slot ≤ 3
abbrev Meets.LoadsAndStagingsEnd4 := fun (s : State) =>
  s.Inv ∧ s.lge.relDue ≠ 0

/-- What the hypotheses of LoadsAndStagingsEnd ask, met together. -/
theorem witness_LoadsAndStagingsEnd :
    Meets.LoadsAndStagingsEnd0 (loadingA ⟨0, [], 1, none, true⟩ none) (⟨5, none, ⟨0, [], 1, none, true⟩⟩ : Loading) ∧
    Meets.LoadsAndStagingsEnd0 (loadingA ⟨0, [], 1, none, true⟩ (some 3)) (⟨5, some 3, ⟨0, [], 1, none, true⟩⟩ : Loading) ∧
    Meets.LoadsAndStagingsEnd1 (loadingA ⟨0, [], 1, some (rep 0x0505 2), false⟩ none) (⟨5, none, ⟨0, [], 1, some (rep 0x0505 2), false⟩⟩ : Loading) (rep 0x0505 2) ∧
    Meets.LoadsAndStagingsEnd2 (loadingA ⟨0, [], 0, none, false⟩ none) (⟨5, none, ⟨0, [], 0, none, false⟩⟩ : Loading) ∧
    Meets.LoadsAndStagingsEnd2 (loadingA ⟨4096, [], 0, none, false⟩ none) (⟨5, none, ⟨4096, [], 0, none, false⟩⟩ : Loading) ∧
    Meets.LoadsAndStagingsEnd3 (stagingA ⟨0, [], 1, none, true⟩) (⟨3, 5, ⟨0, [], 1, none, true⟩⟩ : Staging) ∧
    Meets.LoadsAndStagingsEnd3 (stagingA ⟨0, [], 1, some (rep 0x0505 2), false⟩) (⟨3, 5, ⟨0, [], 1, some (rep 0x0505 2), false⟩⟩ : Staging) ∧
    Meets.LoadsAndStagingsEnd4 { inRun with lge := { Lge.reset with relDue := 3 } } :=
  ⟨by refine ⟨inv_of ?_, ?_, ?_⟩ <;> decide +kernel,
    by refine ⟨inv_of ?_, ?_, ?_⟩ <;> decide +kernel,
    by refine ⟨inv_of ?_, ?_, ?_⟩ <;> decide +kernel,
    by refine ⟨inv_of ?_, ?_, ?_, ?_⟩ <;> decide +kernel,
    by refine ⟨inv_of ?_, ?_, ?_, ?_⟩ <;> decide +kernel,
    by refine ⟨inv_of ?_, ?_, ?_⟩ <;> decide +kernel,
    by refine ⟨inv_of ?_, ?_, ?_⟩ <;> decide +kernel,
    by refine ⟨inv_of ?_, ?_⟩ <;> decide +kernel⟩

abbrev Meets.SnapshotsAreTakenAndDrained0 := fun (msg : Msg) (x : Session) (s : State) =>
  s.Inv ∧ s.takes msg 0x0600 x ∧ s.hmp.claim = some x.num ∧ snapModes s = true ∧ s.isMaster = true ∧ (msgBody msg x).length = 16 ∧ leAt (msgBody msg x) 1 7 = 0 ∧ s.snp.snap = none ∧ s.snp.pend = none ∧ s.region 6 ≠ none ∧ leAt (msgBody msg x) 0 1 = 0
abbrev Meets.SnapshotsAreTakenAndDrained1 := fun (msg : Msg) (x : Session) (s : State) =>
  s.Inv ∧ s.takes msg 0x0600 x ∧ s.hmp.claim = some x.num ∧ snapModes s = true ∧ s.isMaster = true ∧ (msgBody msg x).length = 16 ∧ leAt (msgBody msg x) 1 7 = 0 ∧ s.snp.snap = none ∧ s.snp.pend = none ∧ s.region 6 ≠ none ∧ leAt (msgBody msg x) 0 1 = 1 ∧ s.atBoundary = false ∧ s.nextBoundary ≤ leAt (msgBody msg x) 8 8
abbrev Meets.SnapshotsAreTakenAndDrained2 := fun (msg : Msg) (x : Session) (s : State) =>
  s.Inv ∧ s.takes msg 0x0601 x ∧ s.hmp.claim = some x.num ∧ s.ldr.img ≠ none ∧ s.isMaster = true ∧ msgBody msg x = [] ∧ (s.snp.snap ≠ none ∨ s.snp.pend ≠ none)
abbrev Meets.SnapshotsAreTakenAndDrained3 := fun (msg : Msg) (x : Session) (s : State) =>
  s.Inv ∧ s.takes msg 0x0604 x ∧ s.ctl.corePower = true ∧ msgBody msg x = []
abbrev Meets.SnapshotsAreTakenAndDrained4 := fun (s : State) (m : Nat) (d : Word) =>
  s.Inv ∧ s.reaches m 17 ∧ bit d.toNat 0 = true ∧ s.isMaster = true ∧ s.ctl.clock = true ∧ (s.ctl.mode = .run ∨ s.ctl.mode = .hold) ∧ s.snp.snap = none ∧ s.snp.pend = none ∧ s.region 6 ≠ none
abbrev Meets.SnapshotsAreTakenAndDrained5 := fun (s : State) x l =>
  s.Inv ∧ s.snp.snap = some x ∧ x.buffers.contains l = true ∧ 4 ≤ SMap.get 0 x.moved l ∧ s.badMem = []
abbrev Meets.SnapshotsAreTakenAndDrained6 := fun (s : State) x l =>
  s.Inv ∧ s.snp.snap = some x ∧ SMap.get 0 x.moved l < 4
abbrev Meets.SnapshotsAreTakenAndDrained7 := fun (s : State) x die =>
  s.Inv ∧ s.noc.eccs = [] ∧ s.snp.snap = some x ∧ x.badShadow = [] ∧ (x.drained.getD die 128) < 128
abbrev Meets.SnapshotsAreTakenAndDrained8 := fun (s : State) x =>
  s.Inv ∧ s.noc.eccs = [] ∧ s.snp.snap = some x ∧ s.fld F.SNP_STAT_STATE = 2 ∧ x.allSwept = false ∧ x.inp ≠ none ∧ x.buffers = [] ∧ (∀ n ∈ x.drained, 128 ≤ n) ∧ (∀ n ∈ x.sweep, 32768 ≤ n)
abbrev Meets.SnapshotsAreTakenAndDrained9 := fun (s : State) c =>
  s.Inv ∧ (∀ n ∈ setAt s.snp.staged c 0, n + 4 * (s.H + 8) ≤ 16384)

/-- What the hypotheses of SnapshotsAreTakenAndDrained ask, met together. -/
theorem witness_SnapshotsAreTakenAndDrained :
    Meets.SnapshotsAreTakenAndDrained0 (msg 0x0600 (leBytes 16 0)) sess5 inRun ∧
    Meets.SnapshotsAreTakenAndDrained0 (msg 0x0600 (leBytes 16 0)) sess5 inHold ∧
    Meets.SnapshotsAreTakenAndDrained0 (msg 0x0600 (leBytes 16 0)) sess5 (inRun.inMode .step) ∧
    Meets.SnapshotsAreTakenAndDrained1 (msg 0x0600 ([1] ++ leBytes 7 0 ++ leBytes 8 1000)) sess5 inRun ∧
    Meets.SnapshotsAreTakenAndDrained2 (msg 0x0601) sess5 (snapped snap0) ∧
    Meets.SnapshotsAreTakenAndDrained2 (msg 0x0601) sess5 { inRun with snp := { Snp.reset with pend := some none } } ∧
    Meets.SnapshotsAreTakenAndDrained3 (msg 0x0604) sess5 (snapped snap0) ∧
    Meets.SnapshotsAreTakenAndDrained4 inRun 0 1 ∧
    Meets.SnapshotsAreTakenAndDrained4 { inHold with ctl := { inHold.ctl with clock := true } } 0 1 ∧
    Meets.SnapshotsAreTakenAndDrained5 (snapped { snap0 with moved := [(9, 4)] }) { snap0 with moved := [(9, 4)] } 9 ∧
    Meets.SnapshotsAreTakenAndDrained6 (snapped snap0) snap0 9 ∧
    Meets.SnapshotsAreTakenAndDrained7 (snapped snap0) snap0 0 ∧
    Meets.SnapshotsAreTakenAndDrained8 (snapped { snap0 with buffers := [], drained := [128, 128, 128, 128, 128, 128] }) { snap0 with buffers := [], drained := [128, 128, 128, 128, 128, 128] } ∧
    Meets.SnapshotsAreTakenAndDrained9 { (snapped snap0).setFld F.SFB_HOLD_STAT_SNAPSHOT 1 with snp := { Snp.reset with snap := some snap0, staged := [16320, 0, 0, 16384] } } 3 :=
  ⟨by refine ⟨inv_of ?_, takes_msg ?_ ?_, ?_, ?_, ?_, ?_, ?_, ?_, ?_, ?_, ?_⟩ <;> decide +kernel,
    by refine ⟨inv_of ?_, takes_msg ?_ ?_, ?_, ?_, ?_, ?_, ?_, ?_, ?_, ?_, ?_⟩ <;> decide +kernel,
    by refine ⟨inv_of ?_, takes_msg ?_ ?_, ?_, ?_, ?_, ?_, ?_, ?_, ?_, ?_, ?_⟩ <;> decide +kernel,
    by refine ⟨inv_of ?_, takes_msg ?_ ?_, ?_, ?_, ?_, ?_, ?_, ?_, ?_, ?_, ?_, ?_, ?_⟩ <;> decide +kernel,
    by refine ⟨inv_of ?_, takes_msg ?_ ?_, ?_, ?_, ?_, ?_, ?_⟩ <;> decide +kernel,
    by refine ⟨inv_of ?_, takes_msg ?_ ?_, ?_, ?_, ?_, ?_, ?_⟩ <;> decide +kernel,
    by refine ⟨inv_of ?_, takes_msg ?_ ?_, ?_, ?_⟩ <;> decide +kernel,
    by refine ⟨inv_of ?_, reaches_of ?_, ?_, ?_, ?_, ?_, ?_, ?_, ?_⟩ <;> decide +kernel,
    by refine ⟨inv_of ?_, reaches_of ?_, ?_, ?_, ?_, ?_, ?_, ?_, ?_⟩ <;> decide +kernel,
    by refine ⟨inv_of ?_, ?_, ?_, ?_, ?_⟩ <;> decide +kernel,
    by refine ⟨inv_of ?_, ?_, ?_⟩ <;> decide +kernel,
    by refine ⟨inv_of ?_, ?_, ?_, ?_, ?_⟩ <;> decide +kernel,
    by refine ⟨inv_of ?_, ?_, ?_, ?_, ?_, ?_, ?_, ?_, ?_⟩ <;> decide +kernel,
    by refine ⟨inv_of ?_, ?_⟩ <;> decide +kernel⟩

abbrev Meets.CheckpointAndRestore0 := fun (msg : Msg) (x : Session) (s : State) =>
  s.Inv ∧ msg.port ≠ .mgmt ∧ s.hmp.claim = some x.num ∧ s.takes msg 0x0602 x ∧ ckModes s = true ∧ msgBody msg x = [] ∧ s.snp.snap ≠ none ∧ s.snp.stream = none ∧ s.noc.eccs = []
abbrev Meets.CheckpointAndRestore1 := fun (msg : Msg) (x : Session) (s : State) =>
  s.Inv ∧ msg.port ≠ .mgmt ∧ s.hmp.claim = some x.num ∧ s.takes msg 0x0603 x ∧ s.ctl.mode = .armed ∧ (msgBody msg x).length = 8
abbrev Meets.CheckpointAndRestore2 := fun (s : State) c o =>
  s.Inv ∧ s.snp.stream = some c ∧ s.snp.snap ≠ none ∧ o ∈ s.hmp.outs ∧ o.session = c.session ∧ o.opcode = 0x0602 ∧ o.data ≠ []
abbrev Meets.CheckpointAndRestore4 := fun (s : State) r f =>
  s.Inv ∧ s.snp.restoring = some r ∧ s.ckFault r = some f
abbrev Meets.CheckpointAndRestore5 := fun (s : State) r =>
  s.Inv ∧ s.snp.restoring = some r ∧ s.ckFault r = none ∧ r.bytes.length < r.length

/-- What the hypotheses of CheckpointAndRestore ask, met together. -/
theorem witness_CheckpointAndRestore :
    Meets.CheckpointAndRestore0 (msg 0x0602) sess5 (snapped snap0) ∧
    Meets.CheckpointAndRestore1 (msg 0x0603 (leBytes 8 4096)) sess5 inArmed ∧
    Meets.CheckpointAndRestore2 streaming (⟨5, 0, 0, false⟩ : CkStream) (⟨5, 0x0602, [[1]], 0, 0⟩ : OutStream) ∧
    Meets.CheckpointAndRestore4 (restoringA (leBytes 24 0) 24) (⟨5, 24, leBytes 24 0, false⟩ : Restoring) (ckf (leBytes 24 0) 24) ∧
    Meets.CheckpointAndRestore5 (restoringA [] 4096) (⟨5, 4096, [], false⟩ : Restoring) :=
  ⟨by refine ⟨inv_of ?_, ?_, ?_, takes_msg ?_ ?_, ?_, ?_, ?_, ?_, ?_⟩ <;> decide +kernel,
    by refine ⟨inv_of ?_, ?_, ?_, takes_msg ?_ ?_, ?_, ?_⟩ <;> decide +kernel,
    by refine ⟨inv_of ?_, ?_, ?_, ?_, ?_, ?_, ?_⟩ <;> decide +kernel,
    by refine ⟨inv_of ?_, ?_, ?_⟩ <;> decide +kernel,
    by refine ⟨inv_of ?_, ?_, ?_, ?_⟩ <;> decide +kernel⟩

abbrev Meets.AcquisitionRunsFromArmToStop0 := fun (s : State) (n a : Nat) (tab : List Byte) (msg : Msg) (x : Session) (st : Nat) =>
  s.Inv ∧ n = s.fld F.ACQ_SETN_NB + s.fld F.ACQ_SETN_NW ∧ a = (s.fld F.ACQ_SETLO_ADDR + 2 ^ 32 * s.fld F.ACQ_SETHI_ADDR) / 4 * 4 ∧ (s.acq.ownSet = true ∧ tab = s.acq.setBuf.take (4 * n) ∨ s.acq.ownSet = false ∧ 0x1000000 ≤ a ∧ a + 4 * n ≤ 0x2000000 ∧ (∀ k < 16, s.reaches 20 k) ∧ s.badMem = [] ∧ (∀ y ∈ s.hub.marches, y.borrowed = false) ∧ (∀ f ∈ s.noc.flights, f.asks = true → f.master ≠ 20) ∧ tab = Mem.read s.mem a (4 * n)) ∧ s.takes msg 0x0700 x ∧ s.hmp.claim = some x.num ∧ armModes s = true ∧ (msgBody msg x).length = 8 ∧ st = (if armStatus (leAt (msgBody msg x) 0 8) s ≠ 0 then armStatus (leAt (msgBody msg x) 0 8) s else if s.capTable tab = none then 0x784 else 0)
abbrev Meets.AcquisitionRunsFromArmToStop1 := fun (s : State) (n a : Nat) (tab : List Byte) (m : Nat) (d : Word) =>
  s.Inv ∧ n = s.fld F.ACQ_SETN_NB + s.fld F.ACQ_SETN_NW ∧ a = (s.fld F.ACQ_SETLO_ADDR + 2 ^ 32 * s.fld F.ACQ_SETHI_ADDR) / 4 * 4 ∧ (s.acq.ownSet = true ∧ tab = s.acq.setBuf.take (4 * n) ∨ s.acq.ownSet = false ∧ 0x1000000 ≤ a ∧ a + 4 * n ≤ 0x2000000 ∧ (∀ k < 16, s.reaches 20 k) ∧ s.badMem = [] ∧ (∀ y ∈ s.hub.marches, y.borrowed = false) ∧ (∀ f ∈ s.noc.flights, f.asks = true → f.master ≠ 20) ∧ tab = Mem.read s.mem a (4 * n)) ∧ s.reaches m 17 ∧ bit d.toNat 0 = true ∧ armModes s = true ∧ armStatus 0 s = 0 ∧ s.capTable tab ≠ none
abbrev Meets.AcquisitionRunsFromArmToStop2 := fun (s : State) (msg : Msg) (x : Session) =>
  s.Inv ∧ s.takes msg 0x0700 x ∧ s.hmp.claim = some x.num ∧ armModes s = false ∧ (msgBody msg x).length = 8
abbrev Meets.AcquisitionRunsFromArmToStop3 := fun (s : State) (msg : Msg) (x : Session) =>
  s.Inv ∧ s.takes msg 0x0701 x ∧ s.hmp.claim = some x.num ∧ s.ldr.img ≠ none ∧ msgBody msg x = []
abbrev Meets.AcquisitionRunsFromArmToStop4 := fun (s : State) (m : Nat) (d : Word) =>
  s.Inv ∧ s.reaches m 17 ∧ bit d.toNat 1 = true ∧ s.acq.armed = true
abbrev Meets.AcquisitionRunsFromArmToStop5 := fun (s : State) =>
  s.Inv ∧ s.acq.armed = true ∧ s.lge.cycle = s.acq.f ∧ s.arr.pos < s.L + 9
abbrev Meets.AcquisitionRunsFromArmToStop6 := fun (s : State) =>
  s.Inv ∧ s.acq.goDone = true
abbrev Meets.AcquisitionRunsFromArmToStop7 := fun (s : State) =>
  s.Inv ∧ s.acq.autoDue = true ∧ s.acq.goDone = false ∧ bit s.acq.acts 0 = false
abbrev Meets.AcquisitionRunsFromArmToStop8 := fun (s : State) x r =>
  s.Inv ∧ s.arr.pos = s.L + 9 ∧ s.lgDue s.cycleNow = x :: r
abbrev Meets.AcquisitionRunsFromArmToStop9 := fun (s : State) c =>
  s.Inv ∧ s.acq.stopCycle = some c ∧ s.flag F.ACQ_CTL_CAPT = true ∧ c < s.lge.cycle
abbrev Meets.AcquisitionRunsFromArmToStop10 := fun (s : State) m (rs : List (Nat × Int × Nat)) =>
  s.Inv ∧ s.acq.calibrating = some m ∧ s.portUp m.port = true ∧ (rs.map (·.1)).Nodup
abbrev Meets.AcquisitionRunsFromArmToStop11 := fun (s : State) i r rest =>
  s.Inv ∧ s.acq.buffer = (i, r) :: rest ∧ (s.ctl.clock = false ∨ s.arr.pos < s.L + 9 ∨ s.acq.fresh ≤ rest.length)
abbrev Meets.AcquisitionRunsFromArmToStop12 := fun (s : State) (m k : Nat) =>
  s.Inv ∧ s.reaches m 17 ∧ k < 6
abbrev Meets.AcquisitionRunsFromArmToStop13 := fun (s : State) (m k : Nat) =>
  s.Inv ∧ s.reaches m 17 ∧ k = 6

/-- What the hypotheses of AcquisitionRunsFromArmToStop ask, met together. -/
theorem witness_AcquisitionRunsFromArmToStop :
    Meets.AcquisitionRunsFromArmToStop0 (own inRun) 0 0 [] (msg 0x0700 (leBytes 8 0)) sess5 (armSt 0 [] (own inRun)) ∧
    Meets.AcquisitionRunsFromArmToStop0 (armable1 true) 1 0x1000000 [0, 0, 0, 0] (msg 0x0700 (leBytes 8 1)) sess5 (armSt 1 [0, 0, 0, 0] (armable1 true)) ∧
    Meets.AcquisitionRunsFromArmToStop0 (armable1 false) 1 0x1000000 [5, 0, 0, 0] (msg 0x0700 (leBytes 8 0)) sess5 (armSt 0 [5, 0, 0, 0] (armable1 false)) ∧
    Meets.AcquisitionRunsFromArmToStop0 (own armable) 0 0 [] (msg 0x0700 (leBytes 8 0)) sess5 (armSt 0 [] (own armable)) ∧
    Meets.AcquisitionRunsFromArmToStop1 (own armable) 0 0 [] 0 1 ∧
    Meets.AcquisitionRunsFromArmToStop1 (armable1 false) 1 0x1000000 [5, 0, 0, 0] 0 1 ∧
    Meets.AcquisitionRunsFromArmToStop2 inIdle (msg 0x0700 (leBytes 8 0)) sess5 ∧
    Meets.AcquisitionRunsFromArmToStop3 (acq1 fun a => { a with armed := true }) (msg 0x0701) sess5 ∧
    Meets.AcquisitionRunsFromArmToStop3 inRun (msg 0x0701) sess5 ∧
    Meets.AcquisitionRunsFromArmToStop4 (acq1 fun a => { a with armed := true }) 0 2 ∧
    Meets.AcquisitionRunsFromArmToStop5 (acq1 fun a => { a with armed := true }) ∧
    Meets.AcquisitionRunsFromArmToStop6 (acq1 fun a => { a with goDone := true }) ∧
    Meets.AcquisitionRunsFromArmToStop7 (acq1 fun a => { a with autoDue := true }) ∧
    Meets.AcquisitionRunsFromArmToStop8 ltrig (5, 1) [(5, 3)] ∧
    Meets.AcquisitionRunsFromArmToStop9 (stopping 0) 3 ∧
    Meets.AcquisitionRunsFromArmToStop9 (stopping 1) 3 ∧
    Meets.AcquisitionRunsFromArmToStop10 (acq1 fun a => { a with calibrating := some (msg 0x0705) }) (msg 0x0705) [(0, 3, 5), (5, -4, 9)] ∧
    Meets.AcquisitionRunsFromArmToStop11 (acq1 fun a => { a with buffer := [(0, [1, 2])] }) 0 [1, 2] ([] : List (Nat × List Byte)) ∧
    Meets.AcquisitionRunsFromArmToStop12 State.reset 0 5 ∧
    Meets.AcquisitionRunsFromArmToStop13 State.reset 0 6 :=
  ⟨by refine ⟨inv_of ?_, ?_, ?_, .inl ⟨?_, ?_⟩, takes_msg ?_ ?_, ?_, ?_, ?_, ?_⟩ <;> decide +kernel,
    by refine ⟨inv_of ?_, ?_, ?_, .inl ⟨?_, ?_⟩, takes_msg ?_ ?_, ?_, ?_, ?_, ?_⟩ <;> decide +kernel,
    by refine ⟨inv_of ?_, ?_, ?_, .inr ⟨?_, ?_, ?_, reaches_all ?_, ?_, ?_⟩, takes_msg ?_ ?_, ?_, ?_, ?_, ?_⟩ <;> decide +kernel,
    by refine ⟨inv_of ?_, ?_, ?_, .inl ⟨?_, ?_⟩, takes_msg ?_ ?_, ?_, ?_, ?_, ?_⟩ <;> decide +kernel,
    by refine ⟨inv_of ?_, ?_, ?_, .inl ⟨?_, ?_⟩, reaches_of ?_, ?_, ?_, ?_, ?_⟩ <;> decide +kernel,
    by refine ⟨inv_of ?_, ?_, ?_, .inr ⟨?_, ?_, ?_, reaches_all ?_, ?_, ?_⟩, reaches_of ?_, ?_, ?_, ?_, ?_⟩ <;> decide +kernel,
    by refine ⟨inv_of ?_, takes_msg ?_ ?_, ?_, ?_, ?_⟩ <;> decide +kernel,
    by refine ⟨inv_of ?_, takes_msg ?_ ?_, ?_, ?_, ?_⟩ <;> decide +kernel,
    by refine ⟨inv_of ?_, takes_msg ?_ ?_, ?_, ?_, ?_⟩ <;> decide +kernel,
    by refine ⟨inv_of ?_, reaches_of ?_, ?_, ?_⟩ <;> decide +kernel,
    by refine ⟨inv_of ?_, ?_, ?_, ?_⟩ <;> decide +kernel,
    by refine ⟨inv_of ?_, ?_⟩ <;> decide +kernel,
    by refine ⟨inv_of ?_, ?_, ?_, ?_⟩ <;> decide +kernel,
    by refine ⟨inv_of ?_, ?_, ?_⟩ <;> decide +kernel,
    by refine ⟨inv_of ?_, ?_, ?_, ?_⟩ <;> decide +kernel,
    by refine ⟨inv_of ?_, ?_, ?_, ?_⟩ <;> decide +kernel,
    by refine ⟨inv_of ?_, ?_, ?_, ?_⟩ <;> decide +kernel,
    by refine ⟨inv_of ?_, ?_, ?_⟩ <;> decide +kernel,
    by refine ⟨inv_of ?_, reaches_of ?_, ?_⟩ <;> decide +kernel,
    by refine ⟨inv_of ?_, reaches_of ?_, ?_⟩ <;> decide +kernel⟩

abbrev Meets.AcquisitionReadoutRequests0 := fun (msg : Msg) (x : Session) (s : State) =>
  s.Inv ∧ s.ctl.corePower = true ∧ s.takes msg 0x0702 x ∧ msg.port ≠ .mgmt ∧ s.hmp.claim = some x.num ∧ (msgBody msg x).length = 4
abbrev Meets.AcquisitionReadoutRequests1 := fun (msg : Msg) (x : Session) (s : State) =>
  s.Inv ∧ s.ctl.corePower = true ∧ s.takes msg 0x0703 x ∧ msg.port ≠ .mgmt ∧ s.hmp.claim = some x.num ∧ (msgBody msg x).length = 16 ∧ leAt (msgBody msg x) 1 7 = 0 ∧ s.flag F.ACQ_CTL_CAPT = false ∧ (∀ o ∈ s.hmp.outs, o.opcode ≠ 0x0703) ∧ s.noc.eccs = []
abbrev Meets.AcquisitionReadoutRequests2 := fun (msg : Msg) (x : Session) (s : State) =>
  s.Inv ∧ s.ctl.corePower = true ∧ s.takes msg 0x0704 x ∧ msgBody msg x = []
abbrev Meets.AcquisitionReadoutRequests3 := fun (msg : Msg) (x : Session) (s : State) =>
  s.Inv ∧ s.ctl.corePower = true ∧ s.takes msg 0x0705 x ∧ s.hmp.claim = some x.num ∧ (s.ctl.mode = .idle ∨ s.ctl.mode = .armed) ∧ s.isMaster = true ∧ 1 < s.leagueSize ∧ s.formed = true ∧ msgBody msg x = []
abbrev Meets.AcquisitionReadoutRequests4 := fun (msg : Msg) (x : Session) (s : State) =>
  s.Inv ∧ s.ctl.corePower = true ∧ s.takes msg 0x0706 x ∧ s.hmp.claim = some x.num ∧ s.flag F.ACQ_CTL_CAPT = false ∧ msgBody msg x = []

/-- What the hypotheses of AcquisitionReadoutRequests ask, met together. -/
theorem witness_AcquisitionReadoutRequests :
    Meets.AcquisitionReadoutRequests0 (msg 0x0702 (leBytes 4 64)) sess5 inRun ∧
    Meets.AcquisitionReadoutRequests1 (msg 0x0703 (leBytes 8 0 ++ leBytes 8 0)) sess5 tunned ∧
    Meets.AcquisitionReadoutRequests2 (msg 0x0704) sess5 tunned ∧
    Meets.AcquisitionReadoutRequests3 (msg 0x0705) sess5 (inArmed.setFlds [(F.LGE_STAT_SIZE, 2), (F.LGE_STAT_MASTER, 1), (F.LGE_STAT_STATE, 1)]) ∧
    Meets.AcquisitionReadoutRequests4 (msg 0x0706) sess5 tunned :=
  ⟨by refine ⟨inv_of ?_, ?_, takes_msg ?_ ?_, ?_, ?_, ?_⟩ <;> decide +kernel,
    by refine ⟨inv_of ?_, ?_, takes_msg ?_ ?_, ?_, ?_, ?_, ?_, ?_, ?_, ?_⟩ <;> decide +kernel,
    by refine ⟨inv_of ?_, ?_, takes_msg ?_ ?_, ?_⟩ <;> decide +kernel,
    by refine ⟨inv_of ?_, ?_, takes_msg ?_ ?_, ?_, ?_, ?_, ?_, ?_, ?_⟩ <;> decide +kernel,
    by refine ⟨inv_of ?_, ?_, takes_msg ?_ ?_, ?_, ?_, ?_⟩ <;> decide +kernel⟩

abbrev Meets.PortsComeUpAndAreScanned0 := fun (n : Nat) (s : State) =>
  s.Inv ∧ n < 6 ∧ s.ctl.corePower = true ∧ s.stage n = 0 ∧ (n ≠ 5 ∨ s.fld F.LNK_SHARE_OWNER ≠ 2)
abbrev Meets.PortsComeUpAndAreScanned1 := fun (n : Nat) (s : State) =>
  s.Inv ∧ n < 6 ∧ s.ctl.corePower = true ∧ s.stage n = 0 ∧ (n ≠ 5 ∨ s.fld F.LNK_SHARE_OWNER ≠ 2) ∧ s.flag (F.LNK_CTL_EN n) = true ∧ n ∈ s.topoPorts
abbrev Meets.PortsComeUpAndAreScanned2 := fun (n : Nat) (s : State) =>
  s.Inv ∧ n < 6 ∧ s.ctl.corePower = true ∧ s.stage n = 0
abbrev Meets.PortsComeUpAndAreScanned3 := fun (n : Nat) (s : State) (x : Training) (a b : List (Nat × Nat)) =>
  s.Inv ∧ n < 6 ∧ s.stage n = 1 ∧ trained x (a, b) = true
abbrev Meets.PortsComeUpAndAreScanned4 := fun (n : Nat) (s : State) (x : Training) (a b : List (Nat × Nat)) =>
  s.Inv ∧ n < 6 ∧ s.stage n = 1 ∧ trained x (a, b) = false
abbrev Meets.PortsComeUpAndAreScanned5 := fun (n : Nat) (s : State) =>
  s.Inv ∧ n < 6 ∧ s.stage n = 2 ∧ (s.lane n).a.locked = true ∧ (s.lane n).b.locked = true
abbrev Meets.PortsComeUpAndAreScanned6 := fun (n : Nat) (s : State) =>
  s.Inv ∧ n < 6 ∧ s.stage n = 2 ∧ ((s.lane n).a.locked = false ∨ (s.lane n).b.locked = false)
abbrev Meets.PortsComeUpAndAreScanned7 := fun (n : Nat) (s : State) =>
  s.Inv ∧ n < 6 ∧ 1 ≤ s.stage n ∧ s.stage n ≤ 3
abbrev Meets.PortsComeUpAndAreScanned8 := fun (n : Nat) (s : State) =>
  s.Inv ∧ n < 6 ∧ s.stage n ≠ 0
abbrev Meets.PortsComeUpAndAreScanned9 := fun (n : Nat) (s : State) (m : Nat) (d : Word) =>
  s.Inv ∧ n < 6 ∧ s.reaches m 17 ∧ bit d.toNat 8 = true ∧ s.stage n ≠ 0
abbrev Meets.PortsComeUpAndAreScanned10 := fun (n : Nat) (s : State) (m : Nat) (d : Word) =>
  s.Inv ∧ n < 6 ∧ s.reaches m 17 ∧ bit d.toNat 31 = true ∧ bit d.toNat 8 = false ∧ (n ≠ 5 ∨ s.fld F.LNK_SHARE_OWNER ≠ 2) ∧ s.flag F.LGE_CTL_AUTO = false
abbrev Meets.PortsComeUpAndAreScanned11 := fun (n : Nat) (s : State) (m : Nat) (d : Word) =>
  s.Inv ∧ n < 6 ∧ s.reaches m 17 ∧ bit d.toNat 31 = true ∧ s.stage n = 4 ∧ s.flag (F.LNK_ESCTL_BUSY n) = false
abbrev Meets.PortsComeUpAndAreScanned12 := fun (n : Nat) (s : State) =>
  s.Inv ∧ n < 6 ∧ s.flag (F.LNK_ESCTL_BUSY n) = true
abbrev Meets.PortsComeUpAndAreScanned13 := fun (n : Nat) (s : State) =>
  s.Inv ∧ n < 6

/-- What the hypotheses of PortsComeUpAndAreScanned ask, met together. -/
theorem witness_PortsComeUpAndAreScanned :
    Meets.PortsComeUpAndAreScanned0 5 (stageAt 5 0) ∧
    Meets.PortsComeUpAndAreScanned0 0 State.reset ∧
    Meets.PortsComeUpAndAreScanned1 5 ((member cube63 1).setFlds [(F.LNK_STAT_STAGE 5, 0), (F.LNK_CTL_EN 5, 1)]) ∧
    Meets.PortsComeUpAndAreScanned2 5 (stageAt 5 0) ∧
    Meets.PortsComeUpAndAreScanned3 0 (stageAt 0 1) training (List.replicate 64 (7168, 0)) (List.replicate 64 (0, 0)) ∧
    Meets.PortsComeUpAndAreScanned3 5 (stageAt 5 1) training (List.replicate 64 (7169, 0)) (List.replicate 64 (0, 0)) ∧
    Meets.PortsComeUpAndAreScanned4 5 (stageAt 5 1) { training with ready := 7 } (List.replicate 64 (0, 0)) (List.replicate 64 (0, 0)) ∧
    Meets.PortsComeUpAndAreScanned5 5 ((stageAt 5 2).withGrp 5 fun g => { g with found := 2, good := 32 }) ∧
    Meets.PortsComeUpAndAreScanned6 5 (stageAt 5 2) ∧
    Meets.PortsComeUpAndAreScanned7 0 (stageAt 0 1) ∧
    Meets.PortsComeUpAndAreScanned7 5 (stageAt 5 3) ∧
    Meets.PortsComeUpAndAreScanned8 5 (stageAt 5 4) ∧
    Meets.PortsComeUpAndAreScanned8 5 (stageAt 5 1) ∧
    Meets.PortsComeUpAndAreScanned9 0 (stageAt 0 4) 0 0x100 ∧
    Meets.PortsComeUpAndAreScanned10 0 State.reset 0 0x80000000 ∧
    Meets.PortsComeUpAndAreScanned10 5 (stageAt 5 3) 0 0x80000000 ∧
    Meets.PortsComeUpAndAreScanned11 5 (stageAt 5 4) 0 0x80000000 ∧
    Meets.PortsComeUpAndAreScanned12 5 ((stageAt 5 4).setFld (F.LNK_ESCTL_BUSY 5) 1) ∧
    Meets.PortsComeUpAndAreScanned13 5 { (stageAt 5 4) with lanes := List.replicate 6 { LanePort.reset with errs := 7 } } :=
  ⟨by refine ⟨inv_of ?_, ?_, ?_, ?_, ?_⟩ <;> decide +kernel,
    by refine ⟨inv_of ?_, ?_, ?_, ?_, ?_⟩ <;> decide +kernel,
    by refine ⟨inv_of ?_, ?_, ?_, ?_, ?_, ?_, ?_⟩ <;> decide +kernel,
    by refine ⟨inv_of ?_, ?_, ?_, ?_⟩ <;> decide +kernel,
    by refine ⟨inv_of ?_, ?_, ?_, ?_⟩ <;> decide +kernel,
    by refine ⟨inv_of ?_, ?_, ?_, ?_⟩ <;> decide +kernel,
    by refine ⟨inv_of ?_, ?_, ?_, ?_⟩ <;> decide +kernel,
    by refine ⟨inv_of ?_, ?_, ?_, ?_, ?_⟩ <;> decide +kernel,
    by refine ⟨inv_of ?_, ?_, ?_, ?_⟩ <;> decide +kernel,
    by refine ⟨inv_of ?_, ?_, ?_, ?_⟩ <;> decide +kernel,
    by refine ⟨inv_of ?_, ?_, ?_, ?_⟩ <;> decide +kernel,
    by refine ⟨inv_of ?_, ?_, ?_⟩ <;> decide +kernel,
    by refine ⟨inv_of ?_, ?_, ?_⟩ <;> decide +kernel,
    by refine ⟨inv_of ?_, ?_, reaches_of ?_, ?_, ?_⟩ <;> decide +kernel,
    by refine ⟨inv_of ?_, ?_, reaches_of ?_, ?_, ?_, ?_, ?_⟩ <;> decide +kernel,
    by refine ⟨inv_of ?_, ?_, reaches_of ?_, ?_, ?_, ?_, ?_⟩ <;> decide +kernel,
    by refine ⟨inv_of ?_, ?_, reaches_of ?_, ?_, ?_, ?_⟩ <;> decide +kernel,
    by refine ⟨inv_of ?_, ?_, ?_⟩ <;> decide +kernel,
    by refine ⟨inv_of ?_, ?_⟩ <;> decide +kernel⟩

abbrev Meets.LinkWordsAreSequencedAndReplayed0 := fun (n k : Nat) (s : State) =>
  s.Inv ∧ n < 6 ∧ k < 2 ∧ s.ctl.corePower = true ∧ 2 ≤ s.stage n ∧ s.stage n ≤ 4 ∧ ((s.lane n).grp k).resend = [] ∧ ((s.lane n).grp k).sinceMark < 16384
abbrev Meets.LinkWordsAreSequencedAndReplayed1 := fun (n k : Nat) (s : State) =>
  s.Inv ∧ n < 6 ∧ k < 2 ∧ s.ctl.corePower = true ∧ s.stage n = 1 ∧ ((s.lane n).grp k).resend = [] ∧ ((s.lane n).grp k).sinceMark < 16384
abbrev Meets.LinkWordsAreSequencedAndReplayed2 := fun (n k : Nat) (s : State) =>
  s.Inv ∧ n < 6 ∧ k < 2 ∧ 16384 ≤ ((s.lane n).grp k).sinceMark
abbrev Meets.LinkWordsAreSequencedAndReplayed3 := fun (n k : Nat) (s : State) w r =>
  s.Inv ∧ n < 6 ∧ k < 2 ∧ s.ctl.corePower = true ∧ ((s.lane n).grp k).resend = w :: r ∧ ((s.lane n).grp k).sinceMark < 16384
abbrev Meets.LinkWordsAreSequencedAndReplayed4 := fun (n k : Nat) (s : State) =>
  s.Inv ∧ n < 6 ∧ k < 2 ∧ 2 ≤ s.stage n ∧ 16384 ≤ ((s.lane n).grp k).sinceMark
abbrev Meets.LinkWordsAreSequencedAndReplayed5 := fun (n k : Nat) (s : State) lanes =>
  s.Inv ∧ n < 6 ∧ k < 2 ∧ s.stage n = 4 ∧ isMarker k lanes = true ∧ ((s.lane n).grp k).rxSince = 16384
abbrev Meets.LinkWordsAreSequencedAndReplayed6 := fun (n k : Nat) (s : State) (lanes : List (List Bool)) (w : Nat) (bad : Bool) (g : Grp) =>
  s.Inv ∧ n < 6 ∧ k < 2 ∧ isMarker k lanes = false ∧ ((s.lane n).grp k).receive k lanes = (w, bad, g) ∧ s.stage n = 4 ∧ s.fld F.LGE_STAT_STATE ≠ 2 ∧ ((s.lane n).grp k).rxSince < 16384 ∧ bad = false ∧ wordCrc w = w % 65536 ∧ w / 2 ^ 252 = 0 ∧ bit w 235 = false ∧ s.portCode n ≠ 2 ∧ (∀ q, ((s.lane n).grp k).rxSeq = some q → bits w 244 8 = (q + 1) % 256)
abbrev Meets.LinkWordsAreSequencedAndReplayed7 := fun (n k : Nat) (s : State) (lanes : List (List Bool)) (w : Nat) (bad : Bool) (g : Grp) =>
  s.Inv ∧ n < 6 ∧ k < 2 ∧ isMarker k lanes = false ∧ ((s.lane n).grp k).receive k lanes = (w, bad, g) ∧ s.stage n = 4 ∧ s.fld F.LGE_STAT_STATE ≠ 2 ∧ ((s.lane n).grp k).rxSince < 16384 ∧ (bad = true ∨ wordCrc w ≠ w % 65536) ∧ ((s.lane n).grp k).await = false

/-- What the hypotheses of LinkWordsAreSequencedAndReplayed ask, met together. -/
theorem witness_LinkWordsAreSequencedAndReplayed :
    Meets.LinkWordsAreSequencedAndReplayed0 0 0 (stageAt 0 2) ∧
    Meets.LinkWordsAreSequencedAndReplayed0 5 1 ((stageAt 5 4).withGrp 5 fun g => { g with txSeq := 255, held := List.replicate 64 0 }) ∧
    Meets.LinkWordsAreSequencedAndReplayed1 5 1 (stageAt 5 1) ∧
    Meets.LinkWordsAreSequencedAndReplayed1 0 0 ((stageAt 0 1).withGrp 0 fun g => { g with sinceMark := 128 }) ∧
    Meets.LinkWordsAreSequencedAndReplayed2 5 1 ((stageAt 5 2).withGrp 5 fun g => { g with sinceMark := 16384 }) ∧
    Meets.LinkWordsAreSequencedAndReplayed3 5 1 ((stageAt 5 4).withGrp 5 fun g => { g with resend := [3] }) 3 [] ∧
    Meets.LinkWordsAreSequencedAndReplayed4 5 1 ((stageAt 5 2).withGrp 5 fun g => { g with sinceMark := 16384 }) ∧
    Meets.LinkWordsAreSequencedAndReplayed5 5 1 ((stageAt 5 4).withGrp 5 fun g => { g with rxSince := 16384 }) ((List.range 8).map fun i => markerBits (8 + i)) ∧
    Meets.LinkWordsAreSequencedAndReplayed6 5 1 (stageAt 5 4) (wire 1 (lword 0 9)) (lword 0 9) false ((heard (stageAt 5 4) 5 1 (wire 1 (lword 0 9))).2.2) ∧
    Meets.LinkWordsAreSequencedAndReplayed6 0 0 ((stageAt 0 4).withGrp 0 fun g => { g with rxSeq := some 255, await := true }) (wire 0 (lword 0 0)) (lword 0 0) false ((heard ((stageAt 0 4).withGrp 0 fun g => { g with rxSeq := some 255, await := true }) 0 0 (wire 0 (lword 0 0))).2.2) ∧
    Meets.LinkWordsAreSequencedAndReplayed7 0 0 (stageAt 0 4) (wire 0 1) 1 false ((heard (stageAt 0 4) 0 0 (wire 0 1)).2.2) ∧
    Meets.LinkWordsAreSequencedAndReplayed7 5 1 (stageAt 5 4) [] 0 true ((heard (stageAt 5 4) 5 1 []).2.2) :=
  ⟨by refine ⟨inv_of ?_, ?_, ?_, ?_, ?_, ?_, ?_, ?_⟩ <;> decide +kernel,
    by refine ⟨inv_of ?_, ?_, ?_, ?_, ?_, ?_, ?_, ?_⟩ <;> decide +kernel,
    by refine ⟨inv_of ?_, ?_, ?_, ?_, ?_, ?_, ?_⟩ <;> decide +kernel,
    by refine ⟨inv_of ?_, ?_, ?_, ?_, ?_, ?_, ?_⟩ <;> decide +kernel,
    by refine ⟨inv_of ?_, ?_, ?_, ?_⟩ <;> decide +kernel,
    by refine ⟨inv_of ?_, ?_, ?_, ?_, ?_, ?_⟩ <;> decide +kernel,
    by refine ⟨inv_of ?_, ?_, ?_, ?_, ?_⟩ <;> decide +kernel,
    by refine ⟨inv_of ?_, ?_, ?_, ?_, ?_, ?_⟩ <;> decide +kernel,
    by refine ⟨inv_of ?_, ?_, ?_, ?_, ?_, ?_, ?_, ?_, ?_, ?_, ?_, ?_, ?_, ?_⟩ <;> decide +kernel,
    by refine ⟨inv_of ?_, ?_, ?_, ?_, ?_, ?_, ?_, ?_, ?_, ?_, ?_, ?_, ?_, ?_⟩ <;> decide +kernel,
    by refine ⟨inv_of ?_, ?_, ?_, ?_, ?_, ?_, ?_, ?_, ?_, ?_⟩ <;> decide +kernel,
    by refine ⟨inv_of ?_, ?_, ?_, ?_, ?_, ?_, ?_, ?_, ?_, ?_⟩ <;> decide +kernel⟩

abbrev Meets.SchedulerCommandsChangeTheirEntry0 := fun (m x : Nat) (s : State) =>
  s.Inv ∧ s.reaches m 17 ∧ s.tsk.batch = [] ∧ x < 512 ∧ s.poolMode = false ∧ (s.thr x = 0 ∨ s.thr x = 3) ∧ s.fld (F.TSK_AFF_AFF x) ≠ 0
abbrev Meets.SchedulerCommandsChangeTheirEntry1 := fun (m x : Nat) (s : State) f =>
  s.Inv ∧ s.reaches m 17 ∧ s.tsk.batch = [] ∧ x < 512 ∧ f < 4096 ∧ s.poolMode = false ∧ (s.thr x = 1 ∨ s.thr x = 2)
abbrev Meets.SchedulerCommandsChangeTheirEntry2 := fun (m x : Nat) (s : State) =>
  s.Inv ∧ s.reaches m 17 ∧ s.tsk.batch = [] ∧ x < 512 ∧ s.poolMode = false ∧ s.thr x = 2
abbrev Meets.SchedulerCommandsChangeTheirEntry3 := fun (m x : Nat) (s : State) =>
  s.Inv ∧ s.reaches m 17 ∧ s.tsk.batch = [] ∧ x < 512 ∧ (if s.poolMode then s.thr x = 1 ∨ s.thr x = 2 else s.thr x ≠ 0)
abbrev Meets.SchedulerCommandsChangeTheirEntry4 := fun (m x : Nat) (s : State) p =>
  s.Inv ∧ s.reaches m 17 ∧ s.tsk.batch = [] ∧ x < 512 ∧ p < 32 ∧ (s.poolMode = false ∨ s.thr x = 1 ∨ s.thr x = 2)
abbrev Meets.SchedulerCommandsChangeTheirEntry5 := fun (m x : Nat) (s : State) =>
  s.Inv ∧ s.reaches m 17 ∧ s.tsk.batch = [] ∧ x < 512 ∧ s.poolMode = true ∧ s.thr x = 2
abbrev Meets.SchedulerCommandsChangeTheirEntry6 := fun (m n x p : Nat) (s : State) c =>
  (c ∈ (if s.poolMode = false ∧ (s.thr x = 0 ∨ s.thr x = 3) ∧ s.fld (F.TSK_AFF_AFF x) ≠ 0 then [] else [Instr.tskReady ⟨m, false⟩ n x]) ++ (if s.poolMode = false ∧ (s.thr x = 1 ∨ s.thr x = 2) then [] else [Instr.tskBlock ⟨m, false⟩ n x p false]) ++ (if s.poolMode = false ∧ s.thr x = 2 then [] else [Instr.tskYield ⟨m, false⟩ n x]) ++ (if s.poolMode = false ∨ s.thr x = 1 ∨ s.thr x = 2 then [] else [Instr.tskSetpri ⟨m, false⟩ n x p]) ++ (if s.poolMode = true ∧ s.thr x = 2 then [] else [Instr.tskDone ⟨m, false⟩ n x]) ++ (if s.thr x ≠ 0 ∧ (s.poolMode = false ∨ s.thr x = 1 ∨ s.thr x = 2 ∨ (chservSet s).wakeable = true) then [] else [Instr.tskCancel m n x false])) ∧ s.Inv ∧ s.reaches m 17 ∧ s.tsk.batch = [] ∧ x < 512

/-- What the hypotheses of SchedulerCommandsChangeTheirEntry ask, met together. -/
theorem witness_SchedulerCommandsChangeTheirEntry :
    Meets.SchedulerCommandsChangeTheirEntry0 0 511 (thrAt 511 0) ∧
    Meets.SchedulerCommandsChangeTheirEntry0 0 0 (thrAt 0 3) ∧
    Meets.SchedulerCommandsChangeTheirEntry1 0 0 (thrAt 0 1) 4095 ∧
    Meets.SchedulerCommandsChangeTheirEntry1 0 511 ((thrAt 511 2).setReg (A.TSK_FLAG 0) 1) 0 ∧
    Meets.SchedulerCommandsChangeTheirEntry1 0 511 (((thrAt 511 2).setReg (A.TSK_FLAG 0) 1).setFlds [(F.TSK_THR_STATE 4, 3), (F.TSK_THR_FLAG 4, 0), (F.TSK_AFF_AFF 4, 1)]) 0 ∧
    Meets.SchedulerCommandsChangeTheirEntry2 0 511 (thrAt 511 2) ∧
    Meets.SchedulerCommandsChangeTheirEntry3 0 0 (thrAt 0 3) ∧
    Meets.SchedulerCommandsChangeTheirEntry3 0 511 (pooled (thrAt 511 2)) ∧
    Meets.SchedulerCommandsChangeTheirEntry4 0 0 (thrAt 0 3) 31 ∧
    Meets.SchedulerCommandsChangeTheirEntry4 0 511 (pooled (thrAt 511 1)) 0 ∧
    Meets.SchedulerCommandsChangeTheirEntry5 0 511 (pooled (thrAt 511 2)) ∧
    Meets.SchedulerCommandsChangeTheirEntry6 0 0 0 0 State.reset (Instr.tskYield ⟨0, false⟩ 0 0) ∧
    Meets.SchedulerCommandsChangeTheirEntry6 0 0 511 0 (thrAt 511 2) (Instr.tskDone ⟨0, false⟩ 0 511) ∧
    Meets.SchedulerCommandsChangeTheirEntry6 0 0 511 0 (pooled (thrAt 511 2)) (Instr.tskReady ⟨0, false⟩ 0 511) ∧
    Meets.SchedulerCommandsChangeTheirEntry6 0 0 511 0 (pooled (thrAt 511 2)) (Instr.tskBlock ⟨0, false⟩ 0 511 0 false) ∧
    Meets.SchedulerCommandsChangeTheirEntry6 0 0 511 0 (thrAt 511 0) (Instr.tskCancel 0 0 511 false) ∧
    Meets.SchedulerCommandsChangeTheirEntry6 0 0 511 0 (pooled (thrAt 511 3)) (Instr.tskCancel 0 0 511 false) ∧
    Meets.SchedulerCommandsChangeTheirEntry6 0 0 511 0 (pooled (thrAt 511 0)) (Instr.tskSetpri ⟨0, false⟩ 0 511 0) :=
  ⟨by refine ⟨inv_of ?_, reaches_of ?_, ?_, ?_, ?_, ?_, ?_⟩ <;> decide +kernel,
    by refine ⟨inv_of ?_, reaches_of ?_, ?_, ?_, ?_, ?_, ?_⟩ <;> decide +kernel,
    by refine ⟨inv_of ?_, reaches_of ?_, ?_, ?_, ?_, ?_, ?_⟩ <;> decide +kernel,
    by refine ⟨inv_of ?_, reaches_of ?_, ?_, ?_, ?_, ?_, ?_⟩ <;> decide +kernel,
    by refine ⟨inv_of ?_, reaches_of ?_, ?_, ?_, ?_, ?_, ?_⟩ <;> decide +kernel,
    by refine ⟨inv_of ?_, reaches_of ?_, ?_, ?_, ?_, ?_⟩ <;> decide +kernel,
    by refine ⟨inv_of ?_, reaches_of ?_, ?_, ?_, ?_⟩ <;> decide +kernel,
    by refine ⟨inv_of ?_, reaches_of ?_, ?_, ?_, ?_⟩ <;> decide +kernel,
    by refine ⟨inv_of ?_, reaches_of ?_, ?_, ?_, ?_, ?_⟩ <;> decide +kernel,
    by refine ⟨inv_of ?_, reaches_of ?_, ?_, ?_, ?_, ?_⟩ <;> decide +kernel,
    by refine ⟨inv_of ?_, reaches_of ?_, ?_, ?_, ?_, ?_⟩ <;> decide +kernel,
    by refine ⟨?_, inv_of ?_, reaches_of ?_, ?_, ?_⟩ <;> decide +kernel,
    by refine ⟨?_, inv_of ?_, reaches_of ?_, ?_, ?_⟩ <;> decide +kernel,
    by refine ⟨?_, inv_of ?_, reaches_of ?_, ?_, ?_⟩ <;> decide +kernel,
    by refine ⟨?_, inv_of ?_, reaches_of ?_, ?_, ?_⟩ <;> decide +kernel,
    by refine ⟨?_, inv_of ?_, reaches_of ?_, ?_, ?_⟩ <;> decide +kernel,
    by refine ⟨?_, inv_of ?_, reaches_of ?_, ?_, ?_⟩ <;> decide +kernel,
    by refine ⟨?_, inv_of ?_, reaches_of ?_, ?_, ?_⟩ <;> decide +kernel⟩

abbrev Meets.DispatchModePoolAndFlagCommandsComplete0 := fun (m n : Nat) (s : State) =>
  s.Inv ∧ s.reaches m 17 ∧ s.tsk.batch = [] ∧ n < 16 ∧ (∀ x ∈ s.tsk.ready, x < 512)
abbrev Meets.DispatchModePoolAndFlagCommandsComplete1 := fun (m : Nat) (s : State) =>
  s.Inv ∧ s.reaches m 17 ∧ s.tsk.batch = []
abbrev Meets.DispatchModePoolAndFlagCommandsComplete2 := fun (m n : Nat) (d : Word) (s : State) =>
  s.Inv ∧ s.reaches m 17 ∧ s.tsk.batch = [] ∧ n < 16 ∧ bit d.toNat 31 = true
abbrev Meets.DispatchModePoolAndFlagCommandsComplete3 := fun (m n : Nat) (s : State) =>
  s.Inv ∧ s.reaches m 17 ∧ s.tsk.batch = [] ∧ n < 128
abbrev Meets.DispatchModePoolAndFlagCommandsComplete4 := fun (m n : Nat) (s : State) (x f p : Nat) (cons : Bool) (c : Instr × Word) =>
  c ∈ [(Instr.tskReady ⟨m, true⟩ n x, cmdWord 1 false x 0), (Instr.tskBlock ⟨m, true⟩ n x f cons, cmdWord 2 cons x f), (Instr.tskYield ⟨m, true⟩ n x, cmdWord 3 false x 0), (Instr.tskCancel m n x true, cmdWord 4 false x 0), (Instr.tskSetpri ⟨m, true⟩ n x p, cmdWord 5 false x p), (Instr.tskDone ⟨m, true⟩ n x, cmdWord 6 false x 0)] ∧ s.Inv ∧ s.reaches m 17 ∧ s.tsk.batch = [] ∧ n < 16 ∧ x < 512 ∧ f < 4096 ∧ p < 32
abbrev Meets.DispatchModePoolAndFlagCommandsComplete5 := fun (m n : Nat) (s : State) (x f p : Nat) =>
  s.Inv ∧ s.reaches m 17 ∧ s.tsk.batch = [] ∧ n < 16 ∧ x < 512 ∧ f < 4096 ∧ p < 32
abbrev Meets.DispatchModePoolAndFlagCommandsComplete6 := fun (m n : Nat) (d : Word) (s : State) (x f p : Nat) =>
  s.Inv ∧ s.reaches m 17 ∧ s.tsk.batch = [] ∧ n < 16 ∧ x < 512 ∧ f < 4096 ∧ p < 32 ∧ bit d.toNat 31 = true

/-- What the hypotheses of DispatchModePoolAndFlagCommandsComplete ask, met together. -/
theorem witness_DispatchModePoolAndFlagCommandsComplete :
    Meets.DispatchModePoolAndFlagCommandsComplete0 0 15 (thrAt 511 1) ∧
    Meets.DispatchModePoolAndFlagCommandsComplete0 0 3 (thrAt 511 2) ∧
    Meets.DispatchModePoolAndFlagCommandsComplete0 0 3 State.reset ∧
    Meets.DispatchModePoolAndFlagCommandsComplete1 0 State.reset ∧
    Meets.DispatchModePoolAndFlagCommandsComplete1 0 (thrAt 511 3) ∧
    Meets.DispatchModePoolAndFlagCommandsComplete2 0 15 0x80000000 State.reset ∧
    Meets.DispatchModePoolAndFlagCommandsComplete2 0 15 0x80000000 (pooled (State.reset.setReg (A.TSK_PAFF 15) 0x0500FFFF)) ∧
    Meets.DispatchModePoolAndFlagCommandsComplete3 0 127 State.reset ∧
    Meets.DispatchModePoolAndFlagCommandsComplete3 0 0 (thrAt 3 3) ∧
    Meets.DispatchModePoolAndFlagCommandsComplete4 0 15 (thrAt 511 0) 511 4095 31 true (Instr.tskBlock ⟨0, true⟩ 15 511 4095 true, cmdWord 2 true 511 4095) ∧
    Meets.DispatchModePoolAndFlagCommandsComplete4 0 0 (thrAt 0 2) 0 0 0 false (Instr.tskSetpri ⟨0, true⟩ 0 0 0, cmdWord 5 false 0 0) ∧
    Meets.DispatchModePoolAndFlagCommandsComplete4 0 0 (thrAt 0 2) 0 0 0 false (Instr.tskReady ⟨0, true⟩ 0 0, cmdWord 1 false 0 0) ∧
    Meets.DispatchModePoolAndFlagCommandsComplete4 0 0 (thrAt 0 2) 0 0 0 false (Instr.tskYield ⟨0, true⟩ 0 0, cmdWord 3 false 0 0) ∧
    Meets.DispatchModePoolAndFlagCommandsComplete4 0 0 (thrAt 0 2) 0 0 0 false (Instr.tskCancel 0 0 0 true, cmdWord 4 false 0 0) ∧
    Meets.DispatchModePoolAndFlagCommandsComplete4 0 0 (thrAt 0 2) 0 0 0 false (Instr.tskDone ⟨0, true⟩ 0 0, cmdWord 6 false 0 0) ∧
    Meets.DispatchModePoolAndFlagCommandsComplete5 0 15 (thrAt 511 1) 0 0 0 ∧
    Meets.DispatchModePoolAndFlagCommandsComplete6 0 15 0x80000000 (pooled State.reset) 0 0 0 :=
  ⟨by refine ⟨inv_of ?_, reaches_of ?_, ?_, ?_, ?_⟩ <;> decide +kernel,
    by refine ⟨inv_of ?_, reaches_of ?_, ?_, ?_, ?_⟩ <;> decide +kernel,
    by refine ⟨inv_of ?_, reaches_of ?_, ?_, ?_, ?_⟩ <;> decide +kernel,
    by refine ⟨inv_of ?_, reaches_of ?_, ?_⟩ <;> decide +kernel,
    by refine ⟨inv_of ?_, reaches_of ?_, ?_⟩ <;> decide +kernel,
    by refine ⟨inv_of ?_, reaches_of ?_, ?_, ?_, ?_⟩ <;> decide +kernel,
    by refine ⟨inv_of ?_, reaches_of ?_, ?_, ?_, ?_⟩ <;> decide +kernel,
    by refine ⟨inv_of ?_, reaches_of ?_, ?_, ?_⟩ <;> decide +kernel,
    by refine ⟨inv_of ?_, reaches_of ?_, ?_, ?_⟩ <;> decide +kernel,
    by refine ⟨?_, inv_of ?_, reaches_of ?_, ?_, ?_, ?_, ?_, ?_⟩ <;> decide +kernel,
    by refine ⟨?_, inv_of ?_, reaches_of ?_, ?_, ?_, ?_, ?_, ?_⟩ <;> decide +kernel,
    by refine ⟨?_, inv_of ?_, reaches_of ?_, ?_, ?_, ?_, ?_, ?_⟩ <;> decide +kernel,
    by refine ⟨?_, inv_of ?_, reaches_of ?_, ?_, ?_, ?_, ?_, ?_⟩ <;> decide +kernel,
    by refine ⟨?_, inv_of ?_, reaches_of ?_, ?_, ?_, ?_, ?_, ?_⟩ <;> decide +kernel,
    by refine ⟨?_, inv_of ?_, reaches_of ?_, ?_, ?_, ?_, ?_, ?_⟩ <;> decide +kernel,
    by refine ⟨inv_of ?_, reaches_of ?_, ?_, ?_, ?_, ?_, ?_⟩ <;> decide +kernel,
    by refine ⟨inv_of ?_, reaches_of ?_, ?_, ?_, ?_, ?_, ?_, ?_⟩ <;> decide +kernel⟩

abbrev Meets.DispatchPoolAndFlags0 := fun (m n : Nat) (s : State) x =>
  s.Inv ∧ s.reaches m 17 ∧ s.tsk.batch = [] ∧ n < 16 ∧ x < 512 ∧ s.running n = none ∧ s.candidate n = some x
abbrev Meets.DispatchPoolAndFlags1 := fun (m n : Nat) (s : State) x =>
  s.Inv ∧ s.reaches m 17 ∧ s.tsk.batch = [] ∧ n < 16 ∧ s.running n = some x
abbrev Meets.DispatchPoolAndFlags2 := fun (m n : Nat) (s : State) =>
  s.Inv ∧ s.reaches m 17 ∧ s.tsk.batch = [] ∧ n < 16 ∧ s.running n = none ∧ s.candidate n = none
abbrev Meets.DispatchPoolAndFlags3 := fun (m : Nat) (s : State) =>
  s.Inv ∧ s.reaches m 17 ∧ s.tsk.batch = [] ∧ (∀ x < 512, s.thr x = 0)
abbrev Meets.DispatchPoolAndFlags4 := fun (m : Nat) (s : State) =>
  s.Inv ∧ s.reaches m 17 ∧ s.tsk.batch = [] ∧ (∃ x < 512, s.thr x ≠ 0)
abbrev Meets.DispatchPoolAndFlags5 := fun (m n : Nat) (d : Word) (s : State) x =>
  s.Inv ∧ s.reaches m 17 ∧ s.tsk.batch = [] ∧ x < 512 ∧ n < 16 ∧ bit d.toNat 31 = true ∧ s.poolMode = true ∧ s.fld (F.TSK_PAFF_AFF n) ≠ 0 ∧ s.thr x = 0 ∧ (∀ u < x, s.thr u ≠ 0)
abbrev Meets.DispatchPoolAndFlags6 := fun (m n : Nat) (d : Word) (s : State) =>
  s.Inv ∧ s.reaches m 17 ∧ s.tsk.batch = [] ∧ n < 16 ∧ bit d.toNat 31 = true ∧ s.fld (F.TSK_PAFF_AFF n) ≠ 0 ∧ (s.poolMode = false ∨ ∀ u < 512, s.thr u ≠ 0)
abbrev Meets.DispatchPoolAndFlags7 := fun (m n : Nat) (s : State) =>
  s.Inv ∧ s.reaches m 17 ∧ s.tsk.batch = [] ∧ n < 128 ∧ (∀ x < 512, s.thr x ≠ 3)

/-- What the hypotheses of DispatchPoolAndFlags ask, met together. -/
theorem witness_DispatchPoolAndFlags :
    Meets.DispatchPoolAndFlags0 0 15 (thrAt 511 1) 511 ∧
    Meets.DispatchPoolAndFlags1 0 3 (thrAt 511 2) 511 ∧
    Meets.DispatchPoolAndFlags2 0 3 State.reset ∧
    Meets.DispatchPoolAndFlags3 0 State.reset ∧
    Meets.DispatchPoolAndFlags3 0 (State.reset.setFlds [(F.TSK_MODE_POOL, 0), (F.TSK_AFF_AFF 5, 3)]) ∧
    Meets.DispatchPoolAndFlags4 0 (thrAt 511 3) ∧
    Meets.DispatchPoolAndFlags5 0 15 0x80000000 (pooled (State.reset.setReg (A.TSK_PAFF 15) 0x0500FFFF)) 0 ∧
    Meets.DispatchPoolAndFlags5 0 0 0x80000000 (pooled ((thrAt 0 1).setReg (A.TSK_PAFF 0) 0x0500FFFF)) 1 ∧
    Meets.DispatchPoolAndFlags6 0 0 0x80000000 poolFull ∧
    Meets.DispatchPoolAndFlags7 0 127 State.reset ∧
    Meets.DispatchPoolAndFlags7 0 0 (thrAt 3 1) :=
  ⟨by refine ⟨inv_of ?_, reaches_of ?_, ?_, ?_, ?_, ?_, ?_⟩ <;> decide +kernel,
    by refine ⟨inv_of ?_, reaches_of ?_, ?_, ?_, ?_⟩ <;> decide +kernel,
    by refine ⟨inv_of ?_, reaches_of ?_, ?_, ?_, ?_, ?_⟩ <;> decide +kernel,
    by refine ⟨inv_of ?_, reaches_of ?_, ?_, ?_⟩ <;> decide +kernel,
    by refine ⟨inv_of ?_, reaches_of ?_, ?_, ?_⟩ <;> decide +kernel,
    by refine ⟨inv_of ?_, reaches_of ?_, ?_, ?_⟩ <;> decide +kernel,
    by refine ⟨inv_of ?_, reaches_of ?_, ?_, ?_, ?_, ?_, ?_, ?_, ?_, ?_⟩ <;> decide +kernel,
    by refine ⟨inv_of ?_, reaches_of ?_, ?_, ?_, ?_, ?_, ?_, ?_, ?_, ?_⟩ <;> decide +kernel,
    by refine ⟨inv_of ?_, reaches_of ?_, ?_, ?_, ?_, ?_, ?_⟩ <;> decide +kernel,
    by refine ⟨inv_of ?_, reaches_of ?_, ?_, ?_, ?_⟩ <;> decide +kernel,
    by refine ⟨inv_of ?_, reaches_of ?_, ?_, ?_, ?_⟩ <;> decide +kernel⟩

abbrev Meets.ChannelRingsMoveInOrder0 := fun (m n : Nat) (d : Word) (s : State) (cons : Bool) =>
  s.Inv ∧ n < 1024 ∧ s.blockedThreads = [] ∧ SMap.wf [] s.chn.spill = true ∧ s.reaches m 17 ∧ s.flag (F.CHN_CFG_VALID n) = true ∧ s.flag (F.CHN_CFG_DIR n) = !cons ∧ bits d.toNat 0 18 < s.depth n ∧ (bits d.toNat 31 1 * s.depth n + bits d.toNat 0 18 + 2 * s.depth n - (if cons then s.fld (F.CHN_CONS_WRAP n) * s.depth n + s.fld (F.CHN_CONS_IDX n) else s.fld (F.CHN_PROD_WRAP n) * s.depth n + s.fld (F.CHN_PROD_IDX n))) % (2 * s.depth n) ≤ (if cons then s.occ n else s.depth n - s.occ n)
abbrev Meets.ChannelRingsMoveInOrder1 := fun (m n : Nat) (d : Word) (s : State) (cons : Bool) =>
  s.Inv ∧ n < 1024 ∧ s.blockedThreads = [] ∧ SMap.wf [] s.chn.spill = true ∧ s.reaches m 17 ∧ s.flag (F.CHN_CFG_VALID n) = true ∧ (s.flag (F.CHN_CFG_DIR n) = cons ∨ s.depth n ≤ bits d.toNat 0 18)
abbrev Meets.ChannelRingsMoveInOrder2 := fun (n : Nat) (s : State) r l =>
  s.Inv ∧ n < 1024 ∧ s.blockedThreads = [] ∧ SMap.wf [] s.chn.spill = true ∧ s.chn.reserved = r :: l ∧ r.chan = n
abbrev Meets.ChannelRingsMoveInOrder3 := fun (n : Nat) (s : State) e r =>
  s.Inv ∧ n < 1024 ∧ s.blockedThreads = [] ∧ SMap.wf [] s.chn.spill = true ∧ SMap.get [] s.chn.spill n = e :: r ∧ s.occAll n < s.depth n ∧ s.held n = 0

/-- What the hypotheses of ChannelRingsMoveInOrder ask, met together. -/
theorem witness_ChannelRingsMoveInOrder :
    Meets.ChannelRingsMoveInOrder0 0 1023 3 (chanAt 1023 1 4) false ∧
    Meets.ChannelRingsMoveInOrder0 0 0 0x80000000 ((chanAt 0 0 4).setFlds [(F.CHN_PROD_WRAP 0, 1)]) true ∧
    Meets.ChannelRingsMoveInOrder1 0 0 4 (chanAt 0 1 4) false ∧
    Meets.ChannelRingsMoveInOrder1 0 1023 0 (chanAt 1023 1 4) true ∧
    Meets.ChannelRingsMoveInOrder2 0 { (chanAt 0 0 4).setFld (F.CHN_PROD_IDX 0) 3 with chn := { State.reset.chn with reserved := [⟨0, [1, 2, 3, 4, 5, 6, 7, 8], 9⟩] } } (⟨0, [1, 2, 3, 4, 5, 6, 7, 8], 9⟩ : Reserved) [] ∧
    Meets.ChannelRingsMoveInOrder3 0 { (chanAt 0 0 4).setFld (F.CHN_PROD_IDX 0) 3 with chn := { State.reset.chn with spill := [(0, [([1, 2, 3, 4, 5, 6, 7, 8], 3)])] } } (([1, 2, 3, 4, 5, 6, 7, 8], 3) : List Byte × Nat) ([] : List (List Byte × Nat)) :=
  ⟨by refine ⟨inv_of ?_, ?_, ?_, ?_, reaches_of ?_, ?_, ?_, ?_, ?_⟩ <;> decide +kernel,
    by refine ⟨inv_of ?_, ?_, ?_, ?_, reaches_of ?_, ?_, ?_, ?_, ?_⟩ <;> decide +kernel,
    by refine ⟨inv_of ?_, ?_, ?_, ?_, reaches_of ?_, ?_, ?_⟩ <;> decide +kernel,
    by refine ⟨inv_of ?_, ?_, ?_, ?_, reaches_of ?_, ?_, ?_⟩ <;> decide +kernel,
    by refine ⟨inv_of ?_, ?_, ?_, ?_, ?_, ?_⟩ <;> decide +kernel,
    by refine ⟨inv_of ?_, ?_, ?_, ?_, ?_, ?_, ?_⟩ <;> decide +kernel⟩

abbrev Meets.UcComputationsWriteTheirResult0 := fun (p : ((Nat → BitVec 5 → BitVec 5 → BitVec 5 → Instr) × Nat × (Word → Word → Word))) (n : Nat) (rd ra rb : BitVec 5) (s u : State) =>
  (p ∈ ([(Instr.ucAdd, 0, fun a b => a + b), (Instr.ucSub, 1, fun a b => a - b), (Instr.ucAnd, 2, fun a b => a &&& b), (Instr.ucOr, 3, fun a b => a ||| b), (Instr.ucXor, 4, fun a b => a ^^^ b), (Instr.ucSll, 5, fun a b => a <<< (b.toNat % 32)), (Instr.ucSrl, 6, fun a b => a >>> (b.toNat % 32)), (Instr.ucSra, 7, fun a b => a.sshiftRight (b.toNat % 32)), (Instr.ucSlt, 8, fun a b => if a.toInt < b.toInt then 1 else 0), (Instr.ucSltu, 9, fun a b => if a.toNat < b.toNat then 1 else 0), (Instr.ucMul, 0x10, fun a b => a * b), (Instr.ucMulh, 0x11, fun a b => BitVec.ofInt 32 (a.toInt * b.toInt / 2 ^ 32)), (Instr.ucMulhu, 0x12, fun a b => BitVec.ofNat 32 (a.toNat * b.toNat / 2 ^ 32)), (Instr.ucDiv, 0x14, fun a b => if b = 0 then 0xFFFFFFFF else a.sdiv b), (Instr.ucDivu, 0x15, fun a b => if b = 0 then 0xFFFFFFFF else a / b), (Instr.ucRem, 0x16, fun a b => if b = 0 then a else a.srem b), (Instr.ucRemu, 0x17, fun a b => if b = 0 then a else a % b)] : List ((Nat → BitVec 5 → BitVec 5 → BitVec 5 → Instr) × Nat × (Word → Word → Word)))) ∧ s.Inv ∧ s.fetches n (wordR 0 rd ra rb p.2.1) u
abbrev Meets.UcComputationsWriteTheirResult1 := fun (p : ((Nat → BitVec 5 → BitVec 5 → BitVec 16 → Instr) × Nat × (Word → BitVec 16 → Word))) (n : Nat) (rd ra : BitVec 5) (imm : BitVec 16) (s u : State) =>
  (p ∈ ([(Instr.ucAddi, 1, fun a i => a + i.signExtend 32), (Instr.ucAndi, 2, fun a i => a &&& i.zeroExtend 32), (Instr.ucOri, 3, fun a i => a ||| i.zeroExtend 32), (Instr.ucXori, 4, fun a i => a ^^^ i.zeroExtend 32), (Instr.ucSlti, 5, fun a i => if a.toInt < i.toInt then 1 else 0), (Instr.ucSltiu, 6, fun a i => if a.toNat < (i.signExtend 32).toNat then 1 else 0)] : List ((Nat → BitVec 5 → BitVec 5 → BitVec 16 → Instr) × Nat × (Word → BitVec 16 → Word)))) ∧ s.Inv ∧ s.fetches n (wordI p.2.1 rd ra imm) u
abbrev Meets.UcComputationsWriteTheirResult2 := fun (p : ((Nat → BitVec 5 → BitVec 5 → BitVec 16 → Instr) × Nat × (Word → Nat → Word))) (n : Nat) (rd ra : BitVec 5) (imm : BitVec 16) (s u : State) =>
  (p ∈ ([(Instr.ucSlli, 7, fun a k => a <<< k), (Instr.ucSrli, 8, fun a k => a >>> k), (Instr.ucSrai, 9, fun a k => a.sshiftRight k)] : List ((Nat → BitVec 5 → BitVec 5 → BitVec 16 → Instr) × Nat × (Word → Nat → Word)))) ∧ s.Inv ∧ s.fetches n (wordI p.2.1 rd ra imm) u ∧ imm.toNat < 32
abbrev Meets.UcComputationsWriteTheirResult3 := fun (p : ((Nat → BitVec 5 → BitVec 5 → BitVec 16 → Instr) × Nat × (Word → Nat → Word))) (n : Nat) (rd ra : BitVec 5) (imm : BitVec 16) (s u : State) =>
  (p ∈ ([(Instr.ucSlli, 7, fun a k => a <<< k), (Instr.ucSrli, 8, fun a k => a >>> k), (Instr.ucSrai, 9, fun a k => a.sshiftRight k)] : List ((Nat → BitVec 5 → BitVec 5 → BitVec 16 → Instr) × Nat × (Word → Nat → Word)))) ∧ s.Inv ∧ s.fetches n (wordI p.2.1 rd ra imm) u ∧ 32 ≤ imm.toNat
abbrev Meets.UcComputationsWriteTheirResult4 := fun (n : Nat) (rd z : BitVec 5) (imm : BitVec 16) (s u : State) =>
  s.Inv ∧ z = 0 ∧ s.fetches n (wordI 0x0A rd z imm) u
abbrev Meets.UcComputationsWriteTheirResult5 := fun (n : Nat) (rd z : BitVec 5) (imm : BitVec 16) (s u : State) =>
  s.Inv ∧ z = 0 ∧ s.fetches n (wordI 0x0B rd z imm) u
abbrev Meets.UcComputationsWriteTheirResult6 := fun (n : Nat) (rd z : BitVec 5) (imm : BitVec 16) (s u : State) =>
  s.Inv ∧ z ≠ 0 ∧ s.fetches n (wordI 0x0A rd z imm) u
abbrev Meets.UcComputationsWriteTheirResult7 := fun (n : Nat) (rd z : BitVec 5) (imm : BitVec 16) (s u : State) =>
  s.Inv ∧ z ≠ 0 ∧ s.fetches n (wordI 0x0B rd z imm) u

/-- What the hypotheses of UcComputationsWriteTheirResult ask, met together. -/
theorem witness_UcComputationsWriteTheirResult :
    Meets.UcComputationsWriteTheirResult0 pAdd 0 3 1 2 (put 0 (wordR 0 3 1 2 pAdd.2.1) (runAt 0 (withX [(1, 0x80000000), (2, 0xFFFFFFFF)]))) (after 0 (put 0 (wordR 0 3 1 2 pAdd.2.1) (runAt 0 (withX [(1, 0x80000000), (2, 0xFFFFFFFF)])))) ∧
    Meets.UcComputationsWriteTheirResult0 pAdd 15 0 1 0 (put 15 (wordR 0 0 1 0 pAdd.2.1) (runAt 15 (withX [(1, 0x80000000), (2, 0xFFFFFFFF)]))) (after 15 (put 15 (wordR 0 0 1 0 pAdd.2.1) (runAt 15 (withX [(1, 0x80000000), (2, 0xFFFFFFFF)])))) ∧
    Meets.UcComputationsWriteTheirResult0 pAdd 16 31 31 2 (put 16 (wordR 0 31 31 2 pAdd.2.1) (runAt 16 (withX [(2, 0xFFFFFFFB), (31, 37)]))) (after 16 (put 16 (wordR 0 31 31 2 pAdd.2.1) (runAt 16 (withX [(2, 0xFFFFFFFB), (31, 37)])))) ∧
    Meets.UcComputationsWriteTheirResult1 pAddi 0 3 1 0x8000 (put 0 (wordI pAddi.2.1 3 1 0x8000) (runAt 0 (withX [(1, 0xFFFF8000)]))) (after 0 (put 0 (wordI pAddi.2.1 3 1 0x8000) (runAt 0 (withX [(1, 0xFFFF8000)])))) ∧
    Meets.UcComputationsWriteTheirResult1 pAddi 16 0 0 0xFFFF (put 16 (wordI pAddi.2.1 0 0 0xFFFF) (runAt 16)) (after 16 (put 16 (wordI pAddi.2.1 0 0 0xFFFF) (runAt 16))) ∧
    Meets.UcComputationsWriteTheirResult2 pSlli 0 3 1 31 (put 0 (wordI pSlli.2.1 3 1 31) (runAt 0 (withX [(1, 0xFFFF8000)]))) (after 0 (put 0 (wordI pSlli.2.1 3 1 31) (runAt 0 (withX [(1, 0xFFFF8000)])))) ∧
    Meets.UcComputationsWriteTheirResult2 pSlli 0 1 1 0 (put 0 (wordI pSlli.2.1 1 1 0) (runAt 0 (withX [(1, 0xFFFF8000)]))) (after 0 (put 0 (wordI pSlli.2.1 1 1 0) (runAt 0 (withX [(1, 0xFFFF8000)])))) ∧
    Meets.UcComputationsWriteTheirResult3 pSlli 0 3 1 32 (put 0 (wordI pSlli.2.1 3 1 32) (runAt 0)) (after 0 (put 0 (wordI pSlli.2.1 3 1 32) (runAt 0))) ∧
    Meets.UcComputationsWriteTheirResult4 0 3 0 0xFFFF (put 0 (wordI 0x0A 3 0 0xFFFF) (runAt 0)) (after 0 (put 0 (wordI 0x0A 3 0 0xFFFF) (runAt 0))) ∧
    Meets.UcComputationsWriteTheirResult5 0 3 0 0xFFFF (put 0 (wordI 0x0B 3 0 0xFFFF) (runAt 0)) (after 0 (put 0 (wordI 0x0B 3 0 0xFFFF) (runAt 0))) ∧
    Meets.UcComputationsWriteTheirResult6 0 3 1 0 (put 0 (wordI 0x0A 3 1 0) (runAt 0)) (after 0 (put 0 (wordI 0x0A 3 1 0) (runAt 0))) ∧
    Meets.UcComputationsWriteTheirResult7 0 3 1 0 (put 0 (wordI 0x0B 3 1 0) (runAt 0)) (after 0 (put 0 (wordI 0x0B 3 1 0) (runAt 0))) :=
  ⟨by refine ⟨(by simp [pAdd]), inv_of ?_, fetches_of ?_⟩ <;> decide +kernel,
    by refine ⟨(by simp [pAdd]), inv_of ?_, fetches_of ?_⟩ <;> decide +kernel,
    by refine ⟨(by simp [pAdd]), inv_of ?_, fetches_of ?_⟩ <;> decide +kernel,
    by refine ⟨(by simp [pAddi]), inv_of ?_, fetches_of ?_⟩ <;> decide +kernel,
    by refine ⟨(by simp [pAddi]), inv_of ?_, fetches_of ?_⟩ <;> decide +kernel,
    by refine ⟨(by simp [pSlli]), inv_of ?_, fetches_of ?_, ?_⟩ <;> decide +kernel,
    by refine ⟨(by simp [pSlli]), inv_of ?_, fetches_of ?_, ?_⟩ <;> decide +kernel,
    by refine ⟨(by simp [pSlli]), inv_of ?_, fetches_of ?_, ?_⟩ <;> decide +kernel,
    by refine ⟨inv_of ?_, ?_, fetches_of ?_⟩ <;> decide +kernel,
    by refine ⟨inv_of ?_, ?_, fetches_of ?_⟩ <;> decide +kernel,
    by refine ⟨inv_of ?_, ?_, fetches_of ?_⟩ <;> decide +kernel,
    by refine ⟨inv_of ?_, ?_, fetches_of ?_⟩ <;> decide +kernel⟩

abbrev Meets.UcMemoryInstructions0 := fun (p : ((Nat → BitVec 5 → BitVec 5 → BitVec 16 → Instr) × Nat × Nat × (Nat → Word))) (n : Nat) (rd ra : BitVec 5) (imm : BitVec 16) (s u : State) =>
  (p ∈ ([(Instr.ucLb, 0x10, 1, fun v => (BitVec.ofNat 8 v).signExtend 32), (Instr.ucLbu, 0x11, 1, fun v => BitVec.ofNat 32 v), (Instr.ucLh, 0x12, 2, fun v => (BitVec.ofNat 16 v).signExtend 32), (Instr.ucLhu, 0x13, 2, fun v => BitVec.ofNat 32 v), (Instr.ucLw, 0x14, 4, fun v => BitVec.ofNat 32 v)] : List ((Nat → BitVec 5 → BitVec 5 → BitVec 16 → Instr) × Nat × Nat × (Nat → Word)))) ∧ s.Inv ∧ s.fetches n (wordI p.2.1 rd ra imm) u ∧ s.dataWatch n (s.ea n ra imm).toNat .load = none ∧ plainRam s u n (s.ea n ra imm).toNat p.2.2.1 .load
abbrev Meets.UcMemoryInstructions1 := fun (p : ((Nat → BitVec 5 → BitVec 5 → BitVec 16 → Instr) × Nat × Nat × (Nat → Word))) (n : Nat) (rd ra : BitVec 5) (imm : BitVec 16) (s u : State) =>
  (p ∈ ([(Instr.ucLb, 0x10, 1, fun v => (BitVec.ofNat 8 v).signExtend 32), (Instr.ucLbu, 0x11, 1, fun v => BitVec.ofNat 32 v), (Instr.ucLh, 0x12, 2, fun v => (BitVec.ofNat 16 v).signExtend 32), (Instr.ucLhu, 0x13, 2, fun v => BitVec.ofNat 32 v), (Instr.ucLw, 0x14, 4, fun v => BitVec.ofNat 32 v)] : List ((Nat → BitVec 5 → BitVec 5 → BitVec 16 → Instr) × Nat × Nat × (Nat → Word)))) ∧ s.Inv ∧ s.fetches n (wordI p.2.1 rd ra imm) u ∧ s.dataWatch n (s.ea n ra imm).toNat .load = none ∧ n = 16 ∧ (s.ea n ra imm).toNat % p.2.2.1 = 0 ∧ 0x10000000 ≤ (s.ea n ra imm).toNat ∧ (s.ea n ra imm).toNat < 0x10080000 ∧ (∀ y ∈ s.badMem, y < mcMem (s.ea n ra imm).toNat ∨ mcMem (s.ea n ra imm).toNat + p.2.2.1 ≤ y)
abbrev Meets.UcMemoryInstructions2 := fun (p : ((Nat → BitVec 5 → BitVec 5 → BitVec 16 → Instr) × Nat × Nat × (Nat → Word))) (n : Nat) (rd ra : BitVec 5) (imm : BitVec 16) (s u : State) =>
  (p ∈ ([(Instr.ucLb, 0x10, 1, fun v => (BitVec.ofNat 8 v).signExtend 32), (Instr.ucLbu, 0x11, 1, fun v => BitVec.ofNat 32 v), (Instr.ucLh, 0x12, 2, fun v => (BitVec.ofNat 16 v).signExtend 32), (Instr.ucLhu, 0x13, 2, fun v => BitVec.ofNat 32 v), (Instr.ucLw, 0x14, 4, fun v => BitVec.ofNat 32 v)] : List ((Nat → BitVec 5 → BitVec 5 → BitVec 16 → Instr) × Nat × Nat × (Nat → Word)))) ∧ s.Inv ∧ s.fetches n (wordI p.2.1 rd ra imm) u ∧ s.dataWatch n (s.ea n ra imm).toNat .load = none ∧ (s.ea n ra imm).toNat % p.2.2.1 ≠ 0
abbrev Meets.UcMemoryInstructions3 := fun (p : ((Nat → BitVec 5 → BitVec 5 → BitVec 16 → Instr) × Nat × Nat)) (n : Nat) (rd ra : BitVec 5) (imm : BitVec 16) (s u : State) =>
  (p ∈ ([(Instr.ucSb, 0x18, 1), (Instr.ucSh, 0x19, 2), (Instr.ucSw, 0x1A, 4)] : List ((Nat → BitVec 5 → BitVec 5 → BitVec 16 → Instr) × Nat × Nat))) ∧ s.Inv ∧ s.fetches n (wordI p.2.1 rd ra imm) u ∧ s.dataWatch n (s.ea n ra imm).toNat .store = none ∧ plainRam s u n (s.ea n ra imm).toNat p.2.2 .store
abbrev Meets.UcMemoryInstructions4 := fun (p : ((Nat → BitVec 5 → BitVec 5 → BitVec 16 → Instr) × Nat × Nat)) (n : Nat) (rd ra : BitVec 5) (imm : BitVec 16) (s u : State) =>
  (p ∈ ([(Instr.ucSb, 0x18, 1), (Instr.ucSh, 0x19, 2), (Instr.ucSw, 0x1A, 4)] : List ((Nat → BitVec 5 → BitVec 5 → BitVec 16 → Instr) × Nat × Nat))) ∧ s.Inv ∧ s.fetches n (wordI p.2.1 rd ra imm) u ∧ s.dataWatch n (s.ea n ra imm).toNat .store = none ∧ n = 16 ∧ (s.ea n ra imm).toNat % p.2.2 = 0 ∧ 0x10000000 ≤ (s.ea n ra imm).toNat ∧ (s.ea n ra imm).toNat < 0x10080000
abbrev Meets.UcMemoryInstructions5 := fun (p : ((Nat → BitVec 5 → BitVec 5 → BitVec 16 → Instr) × Nat × Nat)) (n : Nat) (rd ra : BitVec 5) (imm : BitVec 16) (s u : State) =>
  (p ∈ ([(Instr.ucSb, 0x18, 1), (Instr.ucSh, 0x19, 2), (Instr.ucSw, 0x1A, 4)] : List ((Nat → BitVec 5 → BitVec 5 → BitVec 16 → Instr) × Nat × Nat))) ∧ s.Inv ∧ s.fetches n (wordI p.2.1 rd ra imm) u ∧ s.dataWatch n (s.ea n ra imm).toNat .store = none ∧ (s.ea n ra imm).toNat % p.2.2 ≠ 0
abbrev Meets.UcMemoryInstructions6 := fun (n : Nat) (rd ra : BitVec 5) (s u : State) =>
  s.Inv ∧ n < 16 ∧ s.fetches n (wordI 0x1C rd ra 0) u ∧ s.dataWatch n (s.x n ra).toNat .load = none ∧ plainRam s u n (s.x n ra).toNat 4 .load ∧ findLine (s.core n).dcache (s.nocAddr n (s.x n ra).toNat) = none
abbrev Meets.UcMemoryInstructions7 := fun (n : Nat) (rd ra : BitVec 5) (s u : State) =>
  s.Inv ∧ n < 16 ∧ s.fetches n (wordI 0x1C rd ra 0) u ∧ s.dataWatch n (s.x n ra).toNat .load = none ∧ (s.x n ra).toNat % 4 ≠ 0
abbrev Meets.UcMemoryInstructions8 := fun (n : Nat) (rd ra : BitVec 5) (s u : State) =>
  s.Inv ∧ n < 16 ∧ s.fetches n (wordI 0x1C rd ra 0) u ∧ s.dataWatch n (s.x n ra).toNat .load = none ∧ (s.x n ra).toNat % 4 = 0 ∧ s.atomicAddr n (s.x n ra).toNat = none
abbrev Meets.UcMemoryInstructions9 := fun (n : Nat) (rd ra rb : BitVec 5) (s u : State) =>
  s.Inv ∧ n < 16 ∧ s.fetches n (wordR 0x1D rd ra rb 0) u ∧ s.dataWatch n (s.x n ra).toNat .store = none ∧ plainRam s u n (s.x n ra).toNat 4 .store ∧ findLine (s.core n).dcache (s.nocAddr n (s.x n ra).toNat) = none
abbrev Meets.UcMemoryInstructions10 := fun (n : Nat) (rd ra rb : BitVec 5) (s u : State) =>
  s.Inv ∧ n < 16 ∧ s.fetches n (wordR 0x1D rd ra rb 0) u ∧ s.dataWatch n (s.x n ra).toNat .store = none ∧ (s.x n ra).toNat % 4 = 0 ∧ s.apertureFault n (s.x n ra).toNat .store = none ∧ findLine (s.core n).dcache (s.nocAddr n (s.x n ra).toNat) = none ∧ s.status n 4 = false ∧ 0x1000000 ≤ s.nocAddr n (s.x n ra).toNat ∧ s.nocAddr n (s.x n ra).toNat < 0x2000000 ∧ u.reaches n (s.nocAddr n (s.x n ra).toNat % 0x1000000 / 0x100000) ∧ u.borrowed (s.nocAddr n (s.x n ra).toNat) = false ∧ u.noc.flights = [] ∧ u.permitted n (s.nocAddr n (s.x n ra).toNat % 0x1000000) true = false
abbrev Meets.UcMemoryInstructions11 := fun (n : Nat) (rd ra rb : BitVec 5) (s u : State) =>
  s.Inv ∧ n < 16 ∧ s.fetches n (wordR 0x1D rd ra rb 0) u ∧ s.dataWatch n (s.x n ra).toNat .store = none ∧ (s.x n ra).toNat % 4 ≠ 0
abbrev Meets.UcMemoryInstructions12 := fun (n : Nat) (rd ra rb : BitVec 5) (s u : State) =>
  s.Inv ∧ n < 16 ∧ s.fetches n (wordR 0x1D rd ra rb 0) u ∧ s.dataWatch n (s.x n ra).toNat .store = none ∧ (s.x n ra).toNat % 4 = 0 ∧ s.atomicAddr n (s.x n ra).toNat = none

/-- What the hypotheses of UcMemoryInstructions ask, met together. -/
theorem witness_UcMemoryInstructions :
    Meets.UcMemoryInstructions0 pLw 0 3 1 0xFFFC (put 0 (wordI pLw.2.1 3 1 0xFFFC) { (runAt 0 (withX [(1, 0x4000004)])) with mem := [(0x4000000, 0x80), (0x4000001, 0x81), (0x4000003, 0x92)] }) (after 0 (put 0 (wordI pLw.2.1 3 1 0xFFFC) { (runAt 0 (withX [(1, 0x4000004)])) with mem := [(0x4000000, 0x80), (0x4000001, 0x81), (0x4000003, 0x92)] })) ∧
    Meets.UcMemoryInstructions0 pLw 2 0 1 0 (put 2 (wordI pLw.2.1 0 1 0) { (runAt 2 (withX [(1, 0x11200000)] [(0x21, 9)])) with mem := [(0x1200000, 0x80), (0x1200001, 0x81)] }) (after 2 (put 2 (wordI pLw.2.1 0 1 0) { (runAt 2 (withX [(1, 0x11200000)] [(0x21, 9)])) with mem := [(0x1200000, 0x80), (0x1200001, 0x81)] })) ∧
    Meets.UcMemoryInstructions1 pLw 16 3 1 0 (put 16 (wordI pLw.2.1 3 1 0) { (runAt 16 (withX [(1, 0x10000010)])) with mem := [(mcMem 0x10000010, 0x80)] }) (after 16 (put 16 (wordI pLw.2.1 3 1 0) { (runAt 16 (withX [(1, 0x10000010)])) with mem := [(mcMem 0x10000010, 0x80)] })) ∧
    Meets.UcMemoryInstructions1 pLw 16 3 1 0 (put 16 (wordI pLw.2.1 3 1 0) (runAt 16 (withX [(1, 0x1007FFFC)]))) (after 16 (put 16 (wordI pLw.2.1 3 1 0) (runAt 16 (withX [(1, 0x1007FFFC)])))) ∧
    Meets.UcMemoryInstructions2 pLw 0 3 1 3 (put 0 (wordI pLw.2.1 3 1 3) (runAt 0 (withX [(1, 0x4000000)]))) (after 0 (put 0 (wordI pLw.2.1 3 1 3) (runAt 0 (withX [(1, 0x4000000)])))) ∧
    Meets.UcMemoryInstructions3 pSw 0 3 1 0xFFFC (put 0 (wordI pSw.2.1 3 1 0xFFFC) ((runAt 0 (withX [(1, 0x4000004), (3, 0x12345678)])).withCore 2 fun c => { c with resv := some 0x100000 })) (after 0 (put 0 (wordI pSw.2.1 3 1 0xFFFC) ((runAt 0 (withX [(1, 0x4000004), (3, 0x12345678)])).withCore 2 fun c => { c with resv := some 0x100000 }))) ∧
    Meets.UcMemoryInstructions3 pSw 2 3 1 0 (put 2 (wordI pSw.2.1 3 1 0) (runAt 2 (withX [(1, 0x11200000), (3, 0x12345678)] [(0x21, 9)]))) (after 2 (put 2 (wordI pSw.2.1 3 1 0) (runAt 2 (withX [(1, 0x11200000), (3, 0x12345678)] [(0x21, 9)])))) ∧
    Meets.UcMemoryInstructions4 pSw 16 3 1 0 (put 16 (wordI pSw.2.1 3 1 0) (runAt 16 (withX [(1, 0x10000010), (3, 0x12345678)]))) (after 16 (put 16 (wordI pSw.2.1 3 1 0) (runAt 16 (withX [(1, 0x10000010), (3, 0x12345678)])))) ∧
    Meets.UcMemoryInstructions5 pSw 0 3 1 3 (put 0 (wordI pSw.2.1 3 1 3) (runAt 0 (withX [(1, 0x4000000)]))) (after 0 (put 0 (wordI pSw.2.1 3 1 3) (runAt 0 (withX [(1, 0x4000000)])))) ∧
    Meets.UcMemoryInstructions6 15 3 1 (put 15 (wordI 0x1C 3 1 0) { (runAt 15 (withX [(1, 0x4000004)])) with mem := [(0x4000004, 0x80)] }) (after 15 (put 15 (wordI 0x1C 3 1 0) { (runAt 15 (withX [(1, 0x4000004)])) with mem := [(0x4000004, 0x80)] })) ∧
    Meets.UcMemoryInstructions6 0 0 1 (put 0 (wordI 0x1C 0 1 0) (runAt 0 (withX [(1, 0x11000000)] [(0x21, 9)]))) (after 0 (put 0 (wordI 0x1C 0 1 0) (runAt 0 (withX [(1, 0x11000000)] [(0x21, 9)])))) ∧
    Meets.UcMemoryInstructions7 0 3 1 (put 0 (wordI 0x1C 3 1 0) (runAt 0 (withX [(1, 0x4000003)]))) (after 0 (put 0 (wordI 0x1C 3 1 0) (runAt 0 (withX [(1, 0x4000003)])))) ∧
    Meets.UcMemoryInstructions8 0 3 1 (put 0 (wordI 0x1C 3 1 0) (runAt 0)) (after 0 (put 0 (wordI 0x1C 3 1 0) (runAt 0))) ∧
    Meets.UcMemoryInstructions9 15 3 1 2 (put 15 (wordR 0x1D 3 1 2 0) { (runAt 15 (fun c => { c with x := [(1, 0x4000004), (2, 0x77)], resv := some (0x4000004 / 64) })) with mem := [(0x4000004, 0x80)] }) (after 15 (put 15 (wordR 0x1D 3 1 2 0) { (runAt 15 (fun c => { c with x := [(1, 0x4000004), (2, 0x77)], resv := some (0x4000004 / 64) })) with mem := [(0x4000004, 0x80)] })) ∧
    Meets.UcMemoryInstructions9 0 2 1 2 (put 0 (wordR 0x1D 2 1 2 0) (runAt 0 (withX [(1, 0x4000004), (2, 9)]))) (after 0 (put 0 (wordR 0x1D 2 1 2 0) (runAt 0 (withX [(1, 0x4000004), (2, 9)])))) ∧
    Meets.UcMemoryInstructions10 0 3 1 2 (put 0 (wordR 0x1D 3 1 2 0) (runAt 0 (withX [(1, 0x11200000)] [(0x21, 9)]))) (after 0 (put 0 (wordR 0x1D 3 1 2 0) (runAt 0 (withX [(1, 0x11200000)] [(0x21, 9)])))) ∧
    Meets.UcMemoryInstructions11 0 3 1 2 (put 0 (wordR 0x1D 3 1 2 0) (runAt 0 (withX [(1, 0x4000003)]))) (after 0 (put 0 (wordR 0x1D 3 1 2 0) (runAt 0 (withX [(1, 0x4000003)])))) ∧
    Meets.UcMemoryInstructions12 0 3 1 2 (put 0 (wordR 0x1D 3 1 2 0) (runAt 0 (withX [(1, 0x4200000)]))) (after 0 (put 0 (wordR 0x1D 3 1 2 0) (runAt 0 (withX [(1, 0x4200000)])))) :=
  ⟨by refine ⟨(by simp [pLw]), inv_of ?_, fetches_of ?_, ?_, ram_of ?_⟩ <;> decide +kernel,
    by refine ⟨(by simp [pLw]), inv_of ?_, fetches_of ?_, ?_, ram_of ?_⟩ <;> decide +kernel,
    by refine ⟨(by simp [pLw]), inv_of ?_, fetches_of ?_, ?_, ?_, ?_, ?_, ?_, ?_⟩ <;> decide +kernel,
    by refine ⟨(by simp [pLw]), inv_of ?_, fetches_of ?_, ?_, ?_, ?_, ?_, ?_, ?_⟩ <;> decide +kernel,
    by refine ⟨(by simp [pLw]), inv_of ?_, fetches_of ?_, ?_, ?_⟩ <;> decide +kernel,
    by refine ⟨(by simp [pSw]), inv_of ?_, fetches_of ?_, ?_, ram_of ?_⟩ <;> decide +kernel,
    by refine ⟨(by simp [pSw]), inv_of ?_, fetches_of ?_, ?_, ram_of ?_⟩ <;> decide +kernel,
    by refine ⟨(by simp [pSw]), inv_of ?_, fetches_of ?_, ?_, ?_, ?_, ?_, ?_⟩ <;> decide +kernel,
    by refine ⟨(by simp [pSw]), inv_of ?_, fetches_of ?_, ?_, ?_⟩ <;> decide +kernel,
    by refine ⟨inv_of ?_, ?_, fetches_of ?_, ?_, ram_of ?_, ?_⟩ <;> decide +kernel,
    by refine ⟨inv_of ?_, ?_, fetches_of ?_, ?_, ram_of ?_, ?_⟩ <;> decide +kernel,
    by refine ⟨inv_of ?_, ?_, fetches_of ?_, ?_, ?_⟩ <;> decide +kernel,
    by refine ⟨inv_of ?_, ?_, fetches_of ?_, ?_, ?_, ?_⟩ <;> decide +kernel,
    by refine ⟨inv_of ?_, ?_, fetches_of ?_, ?_, ram_of ?_, ?_⟩ <;> decide +kernel,
    by refine ⟨inv_of ?_, ?_, fetches_of ?_, ?_, ram_of ?_, ?_⟩ <;> decide +kernel,
    by refine ⟨inv_of ?_, ?_, fetches_of ?_, ?_, ?_, ?_, ?_, ?_, ?_, ?_, reaches_of ?_, ?_, ?_, ?_⟩ <;> decide +kernel,
    by refine ⟨inv_of ?_, ?_, fetches_of ?_, ?_, ?_⟩ <;> decide +kernel,
    by refine ⟨inv_of ?_, ?_, fetches_of ?_, ?_, ?_, ?_⟩ <;> decide +kernel⟩

abbrev Meets.UcBranchesAndJumpsSetThePc0 := fun (p : ((Nat → BitVec 5 → BitVec 5 → BitVec 16 → Instr) × Nat × (Word → Word → Prop))) (n : Nat) (ra rb : BitVec 5) (off : BitVec 16) (s u : State) =>
  (p ∈ ([(Instr.ucBeq, 0x20, fun a b => a = b), (Instr.ucBne, 0x21, fun a b => a ≠ b), (Instr.ucBlt, 0x22, fun a b => a.toInt < b.toInt), (Instr.ucBge, 0x23, fun a b => b.toInt ≤ a.toInt), (Instr.ucBltu, 0x24, fun a b => a.toNat < b.toNat), (Instr.ucBgeu, 0x25, fun a b => b.toNat ≤ a.toNat)] : List ((Nat → BitVec 5 → BitVec 5 → BitVec 16 → Instr) × Nat × (Word → Word → Prop)))) ∧ s.Inv ∧ s.fetches n (wordB p.2.1 ra rb off) u
abbrev Meets.UcBranchesAndJumpsSetThePc1 := fun (n : Nat) (off : BitVec 26) (s u : State) =>
  s.Inv ∧ s.fetches n (wordJ 0x28 off) u
abbrev Meets.UcBranchesAndJumpsSetThePc2 := fun (n : Nat) (rd ra : BitVec 5) (imm : BitVec 16) (s u : State) =>
  s.Inv ∧ s.fetches n (wordI 0x29 rd ra imm) u

/-- What the hypotheses of UcBranchesAndJumpsSetThePc ask, met together. -/
theorem witness_UcBranchesAndJumpsSetThePc :
    Meets.UcBranchesAndJumpsSetThePc0 pBeq 0 1 2 0xFFFF (put 0 (wordB pBeq.2.1 1 2 0xFFFF) (runAt 0 (withX [(1, 0x80000000)]))) (after 0 (put 0 (wordB pBeq.2.1 1 2 0xFFFF) (runAt 0 (withX [(1, 0x80000000)])))) ∧
    Meets.UcBranchesAndJumpsSetThePc0 pBeq 16 1 1 3 (put 16 (wordB pBeq.2.1 1 1 3) (runAt 16 (withX [(1, 0x80000000)]))) (after 16 (put 16 (wordB pBeq.2.1 1 1 3) (runAt 16 (withX [(1, 0x80000000)])))) ∧
    Meets.UcBranchesAndJumpsSetThePc1 0 0x3FFFFFF (put 0 (wordJ 0x28 0x3FFFFFF) (runAt 0)) (after 0 (put 0 (wordJ 0x28 0x3FFFFFF) (runAt 0))) ∧
    Meets.UcBranchesAndJumpsSetThePc2 0 1 1 0xFFFF (put 0 (wordI 0x29 1 1 0xFFFF) (runAt 0 (withX [(1, 0x80000004)]))) (after 0 (put 0 (wordI 0x29 1 1 0xFFFF) (runAt 0 (withX [(1, 0x80000004)])))) :=
  ⟨by refine ⟨(by simp [pBeq]), inv_of ?_, fetches_of ?_⟩ <;> decide +kernel,
    by refine ⟨(by simp [pBeq]), inv_of ?_, fetches_of ?_⟩ <;> decide +kernel,
    by refine ⟨inv_of ?_, fetches_of ?_⟩ <;> decide +kernel,
    by refine ⟨inv_of ?_, fetches_of ?_⟩ <;> decide +kernel⟩

abbrev Meets.UcTrapsAndReturns0 := fun (n : Nat) (s u : State) =>
  s.Inv ∧ s.fetches n (wordSys 0 0) u ∧ s.status n 4 = false
abbrev Meets.UcTrapsAndReturns1 := fun (n : Nat) (s u : State) =>
  s.Inv ∧ s.fetches n (wordSys 0 1) u ∧ s.status n 4 = false ∧ (n = 16 ∨ u.flag (F.TCC_CTL_BRKMON n) = false)
abbrev Meets.UcTrapsAndReturns2 := fun (n : Nat) (s u : State) =>
  s.Inv ∧ s.fetches n (wordSys 0 1) u ∧ n < 16 ∧ u.flag (F.TCC_CTL_BRKMON n) = true ∧ s.status n 8 = false
abbrev Meets.UcTrapsAndReturns3 := fun (n : Nat) (s u : State) (z : BitVec 15) p =>
  p ∈ [(Instr.ucSyscall n z, 0), (.ucBreak n z, 1), (.ucEret n z, 2), (.ucMret n z, 3), (.ucWfe n z, 4), (.ucFence n z, 5)] ∧ s.Inv ∧ z ≠ 0 ∧ s.fetches n (wordSys z p.2) u
abbrev Meets.UcTrapsAndReturns4 := fun (n : Nat) (s u : State) (v : Nat) =>
  s.Inv ∧ s.fetches n v u ∧ ucPermitted v = false
abbrev Meets.UcTrapsAndReturns5 := fun (n : Nat) (s u : State) =>
  s.Inv ∧ s.status n 2 = true ∧ s.fetches n (wordSys 0 2) u
abbrev Meets.UcTrapsAndReturns6 := fun (n : Nat) (s u : State) =>
  s.Inv ∧ s.status n 2 = true ∧ s.fetches n (wordSys 0 3) u ∧ n < 16 ∧ s.status n 8 = true
abbrev Meets.UcTrapsAndReturns7 := fun (n : Nat) (s u : State) =>
  s.Inv ∧ s.status n 2 = true ∧ s.fetches n (wordSys 0 3) u ∧ n = 16

/-- What the hypotheses of UcTrapsAndReturns ask, met together. -/
theorem witness_UcTrapsAndReturns :
    Meets.UcTrapsAndReturns0 0 (put 0 (wordSys 0 0) (runAt 0 (withX [] [(4, 0x1000800)]))) (after 0 (put 0 (wordSys 0 0) (runAt 0 (withX [] [(4, 0x1000800)])))) ∧
    Meets.UcTrapsAndReturns0 3 (put 3 (wordSys 0 0) (runAt 3 inMon)) (after 3 (put 3 (wordSys 0 0) (runAt 3 inMon))) ∧
    Meets.UcTrapsAndReturns1 16 (put 16 (wordSys 0 1) (runAt 16)) (after 16 (put 16 (wordSys 0 1) (runAt 16))) ∧
    Meets.UcTrapsAndReturns1 0 (put 0 (wordSys 0 1) (runAt 0)) (after 0 (put 0 (wordSys 0 1) (runAt 0))) ∧
    Meets.UcTrapsAndReturns2 15 (put 15 (wordSys 0 1) ((runAt 15 (withX [] [(0x12, 0x2000)])).setFld (F.TCC_CTL_BRKMON 15) 1)) (after 15 (put 15 (wordSys 0 1) ((runAt 15 (withX [] [(0x12, 0x2000)])).setFld (F.TCC_CTL_BRKMON 15) 1))) ∧
    Meets.UcTrapsAndReturns3 0 (put 0 (wordSys 1 (Instr.ucSyscall 0 1, 0).2) (runAt 0)) (after 0 (put 0 (wordSys 1 (Instr.ucSyscall 0 1, 0).2) (runAt 0))) 1 (Instr.ucSyscall 0 1, 0) ∧
    Meets.UcTrapsAndReturns3 16 (put 16 (wordSys 0x7FFF (Instr.ucFence 16 0x7FFF, 5).2) (runAt 16)) (after 16 (put 16 (wordSys 0x7FFF (Instr.ucFence 16 0x7FFF, 5).2) (runAt 16))) 0x7FFF (Instr.ucFence 16 0x7FFF, 5) ∧
    Meets.UcTrapsAndReturns4 0 (put 0 0xFC000000 (runAt 0)) (after 0 (put 0 0xFC000000 (runAt 0))) 0xFC000000 ∧
    Meets.UcTrapsAndReturns4 16 (put 16 0x00000100 (runAt 16)) (after 16 (put 16 0x00000100 (runAt 16))) 0x00000100 ∧
    Meets.UcTrapsAndReturns5 0 (put 0 (wordSys 0 2) (runAt 0 (withX [] [(0, 0x216), (1, 0x1000403)]))) (after 0 (put 0 (wordSys 0 2) (runAt 0 (withX [] [(0, 0x216), (1, 0x1000403)])))) ∧
    Meets.UcTrapsAndReturns6 15 (put 15 (wordSys 0 3) (runAt 15 inMon)) (after 15 (put 15 (wordSys 0 3) (runAt 15 inMon))) ∧
    Meets.UcTrapsAndReturns7 16 (put 16 (wordSys 0 3) (runAt 16)) (after 16 (put 16 (wordSys 0 3) (runAt 16))) :=
  ⟨by refine ⟨inv_of ?_, fetches_of ?_, ?_⟩ <;> decide +kernel,
    by refine ⟨inv_of ?_, fetches_of ?_, ?_⟩ <;> decide +kernel,
    by refine ⟨inv_of ?_, fetches_of ?_, ?_, ?_⟩ <;> decide +kernel,
    by refine ⟨inv_of ?_, fetches_of ?_, ?_, ?_⟩ <;> decide +kernel,
    by refine ⟨inv_of ?_, fetches_of ?_, ?_, ?_, ?_⟩ <;> decide +kernel,
    by refine ⟨?_, inv_of ?_, ?_, fetches_of ?_⟩ <;> decide +kernel,
    by refine ⟨?_, inv_of ?_, ?_, fetches_of ?_⟩ <;> decide +kernel,
    by refine ⟨inv_of ?_, fetches_of ?_, ?_⟩ <;> decide +kernel,
    by refine ⟨inv_of ?_, fetches_of ?_, ?_⟩ <;> decide +kernel,
    by refine ⟨inv_of ?_, ?_, fetches_of ?_⟩ <;> decide +kernel,
    by refine ⟨inv_of ?_, ?_, fetches_of ?_, ?_, ?_⟩ <;> decide +kernel,
    by refine ⟨inv_of ?_, ?_, fetches_of ?_, ?_⟩ <;> decide +kernel⟩

abbrev Meets.UcSystemAndCacheInstructions0 := fun (n : Nat) (s u : State) =>
  s.Inv ∧ s.status n 2 = true ∧ s.fetches n (wordSys 0 5) u
abbrev Meets.UcSystemAndCacheInstructions1 := fun (n : Nat) (s u : State) =>
  s.Inv ∧ s.status n 2 = true ∧ s.fetches n (wordSys 0 4) u
abbrev Meets.UcSystemAndCacheInstructions2 := fun (n : Nat) (r : BitVec 5) (imm : BitVec 16) (s u : State) =>
  s.Inv ∧ s.status n 2 = true ∧ s.fetches n (wordI 0x31 r 0 imm) u ∧ imm.toNat < 0x1000 ∧ sysListed n imm.toNat = true ∧ imm.toNat ≠ 9 ∧ imm.toNat ≠ 0xA
abbrev Meets.UcSystemAndCacheInstructions3 := fun (n : Nat) (r : BitVec 5) (s u : State) =>
  s.Inv ∧ s.status n 2 = true ∧ s.fetches n (wordI 0x31 r 0 9) u
abbrev Meets.UcSystemAndCacheInstructions4 := fun (n : Nat) (r : BitVec 5) (s u : State) =>
  s.Inv ∧ s.status n 2 = true ∧ s.fetches n (wordI 0x31 r 0 0xA) u
abbrev Meets.UcSystemAndCacheInstructions5 := fun (n : Nat) (r : BitVec 5) (imm : BitVec 16) (s u : State) =>
  s.Inv ∧ s.status n 2 = true ∧ s.fetches n (wordI 0x32 0 r imm) u ∧ imm.toNat < 0x1000 ∧ sysListed n imm.toNat = true ∧ sysReadOnly imm.toNat = false
abbrev Meets.UcSystemAndCacheInstructions6 := fun (n : Nat) (r : BitVec 5) (imm : BitVec 16) (s u : State) =>
  s.Inv ∧ s.status n 2 = true ∧ s.fetches n (wordI 0x31 r 0 imm) u ∧ sysListed n imm.toNat = false
abbrev Meets.UcSystemAndCacheInstructions7 := fun (n : Nat) (r : BitVec 5) (imm : BitVec 16) (s u : State) =>
  s.Inv ∧ s.status n 2 = true ∧ s.fetches n (wordI 0x32 0 r imm) u ∧ sysListed n imm.toNat = false
abbrev Meets.UcSystemAndCacheInstructions8 := fun (n : Nat) (r : BitVec 5) (imm : BitVec 16) (s u : State) =>
  s.Inv ∧ s.status n 2 = true ∧ s.fetches n (wordI 0x32 0 r imm) u ∧ sysReadOnly imm.toNat = true
abbrev Meets.UcSystemAndCacheInstructions9 := fun (n : Nat) (ra : BitVec 5) (imm : BitVec 16) (s u : State) =>
  s.Inv ∧ n < 16 ∧ s.status n 2 = true ∧ s.apertureFault n (s.ea n ra imm).toNat .load = none ∧ s.cacheable n (s.ea n ra imm).toNat = true ∧ s.fetches n (wordI 0x33 0 ra imm) u
abbrev Meets.UcSystemAndCacheInstructions10 := fun (n : Nat) (ra : BitVec 5) (imm : BitVec 16) (s u : State) =>
  s.Inv ∧ n < 16 ∧ s.status n 2 = true ∧ s.apertureFault n (s.ea n ra imm).toNat .load = none ∧ s.cacheable n (s.ea n ra imm).toNat = true ∧ s.fetches n (wordI 0x33 2 ra imm) u
abbrev Meets.UcSystemAndCacheInstructions11 := fun (n : Nat) (ra : BitVec 5) (imm : BitVec 16) (s u : State) =>
  s.Inv ∧ n < 16 ∧ s.status n 2 = true ∧ s.apertureFault n (s.ea n ra imm).toNat .load = none ∧ s.cacheable n (s.ea n ra imm).toNat = true ∧ (∀ c ∈ (s.core n).dcache, c.dirty = false) ∧ s.fetches n (wordI 0x33 1 ra imm) u
abbrev Meets.UcSystemAndCacheInstructions12 := fun (n : Nat) (ra : BitVec 5) (imm : BitVec 16) (s u : State) =>
  s.Inv ∧ n < 16 ∧ s.status n 2 = true ∧ s.apertureFault n (s.ea n ra imm).toNat .load = none ∧ s.cacheable n (s.ea n ra imm).toNat = true ∧ (∀ c ∈ (s.core n).dcache, c.dirty = false) ∧ s.fetches n (wordI 0x33 3 ra imm) u
abbrev Meets.UcSystemAndCacheInstructions13 := fun (n : Nat) (ra : BitVec 5) (imm : BitVec 16) (s u : State) =>
  s.Inv ∧ n < 16 ∧ s.status n 2 = true ∧ s.fetches n (wordI 0x33 8 ra imm) u
abbrev Meets.UcSystemAndCacheInstructions14 := fun (n : Nat) (ra : BitVec 5) (imm : BitVec 16) (s u : State) =>
  s.Inv ∧ n < 16 ∧ s.status n 2 = true ∧ s.fetches n (wordI 0x33 10 ra imm) u
abbrev Meets.UcSystemAndCacheInstructions15 := fun (n : Nat) (ra : BitVec 5) (imm : BitVec 16) (s u : State) =>
  s.Inv ∧ n < 16 ∧ s.status n 2 = true ∧ (∀ c ∈ (s.core n).dcache, c.dirty = false) ∧ s.fetches n (wordI 0x33 9 ra imm) u
abbrev Meets.UcSystemAndCacheInstructions16 := fun (n : Nat) (ra : BitVec 5) (imm : BitVec 16) (s u : State) =>
  s.Inv ∧ n < 16 ∧ s.status n 2 = true ∧ (∀ c ∈ (s.core n).dcache, c.dirty = false) ∧ s.fetches n (wordI 0x33 11 ra imm) u

/-- What the hypotheses of UcSystemAndCacheInstructions ask, met together. -/
theorem witness_UcSystemAndCacheInstructions :
    Meets.UcSystemAndCacheInstructions0 0 (put 0 (wordSys 0 5) (runAt 0 fun c => { c with cyc := 0x500000007, cycLatch := 3 })) (after 0 (put 0 (wordSys 0 5) (runAt 0 fun c => { c with cyc := 0x500000007, cycLatch := 3 }))) ∧
    Meets.UcSystemAndCacheInstructions0 16 (put 16 (wordSys 0 5) (runAt 16)) (after 16 (put 16 (wordSys 0 5) (runAt 16))) ∧
    Meets.UcSystemAndCacheInstructions1 0 (put 0 (wordSys 0 4) (runAt 0 fun c => { c with cyc := 0x500000007, cycLatch := 3 })) (after 0 (put 0 (wordSys 0 4) (runAt 0 fun c => { c with cyc := 0x500000007, cycLatch := 3 }))) ∧
    Meets.UcSystemAndCacheInstructions1 16 (put 16 (wordSys 0 4) (runAt 16)) (after 16 (put 16 (wordSys 0 4) (runAt 16))) ∧
    Meets.UcSystemAndCacheInstructions2 0 1 8 (put 0 (wordI 0x31 1 0 8) (runAt 0)) (after 0 (put 0 (wordI 0x31 1 0 8) (runAt 0))) ∧
    Meets.UcSystemAndCacheInstructions2 15 1 0x2F (put 15 (wordI 0x31 1 0 0x2F) (runAt 15)) (after 15 (put 15 (wordI 0x31 1 0 0x2F) (runAt 15))) ∧
    Meets.UcSystemAndCacheInstructions3 0 1 (put 0 (wordI 0x31 1 0 9) (runAt 0 fun c => { c with cyc := 0x500000007, cycLatch := 3 })) (after 0 (put 0 (wordI 0x31 1 0 9) (runAt 0 fun c => { c with cyc := 0x500000007, cycLatch := 3 }))) ∧
    Meets.UcSystemAndCacheInstructions3 16 0 (put 16 (wordI 0x31 0 0 9) (runAt 16)) (after 16 (put 16 (wordI 0x31 0 0 9) (runAt 16))) ∧
    Meets.UcSystemAndCacheInstructions4 0 1 (put 0 (wordI 0x31 1 0 0xA) (runAt 0 fun c => { c with cyc := 0x500000007, cycLatch := 3 })) (after 0 (put 0 (wordI 0x31 1 0 0xA) (runAt 0 fun c => { c with cyc := 0x500000007, cycLatch := 3 }))) ∧
    Meets.UcSystemAndCacheInstructions5 0 1 0 (put 0 (wordI 0x32 0 1 0) (runAt 0 (withX [(1, 0xFFFFFFFF)]))) (after 0 (put 0 (wordI 0x32 0 1 0) (runAt 0 (withX [(1, 0xFFFFFFFF)])))) ∧
    Meets.UcSystemAndCacheInstructions5 15 1 0x2F (put 15 (wordI 0x32 0 1 0x2F) (runAt 15 (withX [(1, 0xFFFFFFFF)]))) (after 15 (put 15 (wordI 0x32 0 1 0x2F) (runAt 15 (withX [(1, 0xFFFFFFFF)])))) ∧
    Meets.UcSystemAndCacheInstructions6 0 1 0xB (put 0 (wordI 0x31 1 0 0xB) (runAt 0)) (after 0 (put 0 (wordI 0x31 1 0 0xB) (runAt 0))) ∧
    Meets.UcSystemAndCacheInstructions6 16 1 0x10 (put 16 (wordI 0x31 1 0 0x10) (runAt 16)) (after 16 (put 16 (wordI 0x31 1 0 0x10) (runAt 16))) ∧
    Meets.UcSystemAndCacheInstructions7 0 1 0xB (put 0 (wordI 0x32 0 1 0xB) (runAt 0)) (after 0 (put 0 (wordI 0x32 0 1 0xB) (runAt 0))) ∧
    Meets.UcSystemAndCacheInstructions7 16 1 0x10 (put 16 (wordI 0x32 0 1 0x10) (runAt 16)) (after 16 (put 16 (wordI 0x32 0 1 0x10) (runAt 16))) ∧
    Meets.UcSystemAndCacheInstructions8 0 1 2 (put 0 (wordI 0x32 0 1 2) (runAt 0)) (after 0 (put 0 (wordI 0x32 0 1 2) (runAt 0))) ∧
    Meets.UcSystemAndCacheInstructions9 0 1 0x40 (put 0 (wordI 0x33 0 1 0x40) (runAt 0 fun c => { c with x := [(1, 0x1000000)], icache := [cline 0x1000040], dcache := [cline 0x1000040, cline 0x1000080] })) (after 0 (put 0 (wordI 0x33 0 1 0x40) (runAt 0 fun c => { c with x := [(1, 0x1000000)], icache := [cline 0x1000040], dcache := [cline 0x1000040, cline 0x1000080] }))) ∧
    Meets.UcSystemAndCacheInstructions10 0 1 0x40 (put 0 (wordI 0x33 2 1 0x40) (runAt 0 fun c => { c with x := [(1, 0x1000000)], icache := [cline 0x1000040], dcache := [cline 0x1000040, cline 0x1000080] })) (after 0 (put 0 (wordI 0x33 2 1 0x40) (runAt 0 fun c => { c with x := [(1, 0x1000000)], icache := [cline 0x1000040], dcache := [cline 0x1000040, cline 0x1000080] }))) ∧
    Meets.UcSystemAndCacheInstructions11 0 1 0x40 (put 0 (wordI 0x33 1 1 0x40) (runAt 0 fun c => { c with x := [(1, 0x1000000)], icache := [cline 0x1000040], dcache := [cline 0x1000040, cline 0x1000080] })) (after 0 (put 0 (wordI 0x33 1 1 0x40) (runAt 0 fun c => { c with x := [(1, 0x1000000)], icache := [cline 0x1000040], dcache := [cline 0x1000040, cline 0x1000080] }))) ∧
    Meets.UcSystemAndCacheInstructions12 0 1 0x40 (put 0 (wordI 0x33 3 1 0x40) (runAt 0 fun c => { c with x := [(1, 0x1000000)], icache := [cline 0x1000040], dcache := [cline 0x1000040, cline 0x1000080] })) (after 0 (put 0 (wordI 0x33 3 1 0x40) (runAt 0 fun c => { c with x := [(1, 0x1000000)], icache := [cline 0x1000040], dcache := [cline 0x1000040, cline 0x1000080] }))) ∧
    Meets.UcSystemAndCacheInstructions13 0 1 0x40 (put 0 (wordI 0x33 8 1 0x40) (runAt 0 fun c => { c with icache := [cline 0x1000040], dcache := [{ cline 0x1000040 with dirty := true }] })) (after 0 (put 0 (wordI 0x33 8 1 0x40) (runAt 0 fun c => { c with icache := [cline 0x1000040], dcache := [{ cline 0x1000040 with dirty := true }] }))) ∧
    Meets.UcSystemAndCacheInstructions14 0 1 0x40 (put 0 (wordI 0x33 10 1 0x40) (runAt 0 fun c => { c with icache := [cline 0x1000040], dcache := [{ cline 0x1000040 with dirty := true }] })) (after 0 (put 0 (wordI 0x33 10 1 0x40) (runAt 0 fun c => { c with icache := [cline 0x1000040], dcache := [{ cline 0x1000040 with dirty := true }] }))) ∧
    Meets.UcSystemAndCacheInstructions15 0 1 0x40 (put 0 (wordI 0x33 9 1 0x40) (runAt 0 fun c => { c with icache := [cline 0x1000040], dcache := [cline 0x1000040, cline 0x1000080] })) (after 0 (put 0 (wordI 0x33 9 1 0x40) (runAt 0 fun c => { c with icache := [cline 0x1000040], dcache := [cline 0x1000040, cline 0x1000080] }))) ∧
    Meets.UcSystemAndCacheInstructions16 0 1 0x40 (put 0 (wordI 0x33 11 1 0x40) (runAt 0 fun c => { c with icache := [cline 0x1000040], dcache := [cline 0x1000040, cline 0x1000080] })) (after 0 (put 0 (wordI 0x33 11 1 0x40) (runAt 0 fun c => { c with icache := [cline 0x1000040], dcache := [cline 0x1000040, cline 0x1000080] }))) :=
  ⟨by refine ⟨inv_of ?_, ?_, fetches_of ?_⟩ <;> decide +kernel,
    by refine ⟨inv_of ?_, ?_, fetches_of ?_⟩ <;> decide +kernel,
    by refine ⟨inv_of ?_, ?_, fetches_of ?_⟩ <;> decide +kernel,
    by refine ⟨inv_of ?_, ?_, fetches_of ?_⟩ <;> decide +kernel,
    by refine ⟨inv_of ?_, ?_, fetches_of ?_, ?_, ?_, ?_, ?_⟩ <;> decide +kernel,
    by refine ⟨inv_of ?_, ?_, fetches_of ?_, ?_, ?_, ?_, ?_⟩ <;> decide +kernel,
    by refine ⟨inv_of ?_, ?_, fetches_of ?_⟩ <;> decide +kernel,
    by refine ⟨inv_of ?_, ?_, fetches_of ?_⟩ <;> decide +kernel,
    by refine ⟨inv_of ?_, ?_, fetches_of ?_⟩ <;> decide +kernel,
    by refine ⟨inv_of ?_, ?_, fetches_of ?_, ?_, ?_, ?_⟩ <;> decide +kernel,
    by refine ⟨inv_of ?_, ?_, fetches_of ?_, ?_, ?_, ?_⟩ <;> decide +kernel,
    by refine ⟨inv_of ?_, ?_, fetches_of ?_, ?_⟩ <;> decide +kernel,
    by refine ⟨inv_of ?_, ?_, fetches_of ?_, ?_⟩ <;> decide +kernel,
    by refine ⟨inv_of ?_, ?_, fetches_of ?_, ?_⟩ <;> decide +kernel,
    by refine ⟨inv_of ?_, ?_, fetches_of ?_, ?_⟩ <;> decide +kernel,
    by refine ⟨inv_of ?_, ?_, fetches_of ?_, ?_⟩ <;> decide +kernel,
    by refine ⟨inv_of ?_, ?_, ?_, ?_, ?_, fetches_of ?_⟩ <;> decide +kernel,
    by refine ⟨inv_of ?_, ?_, ?_, ?_, ?_, fetches_of ?_⟩ <;> decide +kernel,
    by refine ⟨inv_of ?_, ?_, ?_, ?_, ?_, ?_, fetches_of ?_⟩ <;> decide +kernel,
    by refine ⟨inv_of ?_, ?_, ?_, ?_, ?_, ?_, fetches_of ?_⟩ <;> decide +kernel,
    by refine ⟨inv_of ?_, ?_, ?_, fetches_of ?_⟩ <;> decide +kernel,
    by refine ⟨inv_of ?_, ?_, ?_, fetches_of ?_⟩ <;> decide +kernel,
    by refine ⟨inv_of ?_, ?_, ?_, ?_, fetches_of ?_⟩ <;> decide +kernel,
    by refine ⟨inv_of ?_, ?_, ?_, ?_, fetches_of ?_⟩ <;> decide +kernel⟩

abbrev Meets.UcUserModeIsKeptOut0 := fun (n : Nat) (r q : BitVec 5) (imm : BitVec 16) (s u : State) (p : (Instr × Nat)) =>
  p ∈ ([(.ucEret n 0, wordSys 0 2), (.ucWfe n 0, wordSys 0 4), (.ucIinvAll n r imm, wordI 0x33 8 r imm), (.ucDcleanAll n r imm, wordI 0x33 9 r imm), (.ucDinvAll n r imm, wordI 0x33 10 r imm), (.ucDflushAll n r imm, wordI 0x33 11 r imm), (.ucDinv n r imm, wordI 0x33 2 r imm)] ++ (if n < 16 then [(.ucMret n 0, wordSys 0 3)] else []) ++ (if imm.toNat < 0x1000 then [(.ucMfs n q 0 imm, wordI 0x31 q 0 imm), (.ucMts n 0 r imm, wordI 0x32 0 r imm)] else []) : List (Instr × Nat)) ∧ s.Inv ∧ s.status n 2 = false ∧ s.fetches n p.2 u

/-- What the hypotheses of UcUserModeIsKeptOut ask, met together. -/
theorem witness_UcUserModeIsKeptOut :
    Meets.UcUserModeIsKeptOut0 0 1 2 0 (put 0 (Instr.ucMret 0 0, wordSys 0 3).2 (runAt 0 user)) (after 0 (put 0 (Instr.ucMret 0 0, wordSys 0 3).2 (runAt 0 user))) (Instr.ucMret 0 0, wordSys 0 3) ∧
    Meets.UcUserModeIsKeptOut0 15 1 2 0xFFF (put 15 (Instr.ucMfs 15 2 0 0xFFF, wordI 0x31 2 0 0xFFF).2 (runAt 15 user)) (after 15 (put 15 (Instr.ucMfs 15 2 0 0xFFF, wordI 0x31 2 0 0xFFF).2 (runAt 15 user))) (Instr.ucMfs 15 2 0 0xFFF, wordI 0x31 2 0 0xFFF) ∧
    Meets.UcUserModeIsKeptOut0 16 1 2 0x20 (put 16 (Instr.ucMts 16 0 1 0x20, wordI 0x32 0 1 0x20).2 (runAt 16 (withX [] [(0, 0)]))) (after 16 (put 16 (Instr.ucMts 16 0 1 0x20, wordI 0x32 0 1 0x20).2 (runAt 16 (withX [] [(0, 0)])))) (Instr.ucMts 16 0 1 0x20, wordI 0x32 0 1 0x20) :=
  ⟨by refine ⟨?_, inv_of ?_, ?_, fetches_of ?_⟩ <;> decide +kernel,
    by refine ⟨?_, inv_of ?_, ?_, fetches_of ?_⟩ <;> decide +kernel,
    by refine ⟨?_, inv_of ?_, ?_, fetches_of ?_⟩ <;> decide +kernel⟩

abbrev Meets.FetchExceptionsAndMonitorEntry0 := fun (n w : Nat) (s u : State) =>
  s.Inv ∧ s.fetches n w u
abbrev Meets.FetchExceptionsAndMonitorEntry1 := fun (n w : Nat) (s u : State) =>
  s.Inv ∧ s.fetches n w u
abbrev Meets.FetchExceptionsAndMonitorEntry2 := fun (n w : Nat) (s u : State) =>
  s.Inv ∧ s.fetches n w u
abbrev Meets.FetchExceptionsAndMonitorEntry3 := fun (n w : Nat) (s u : State) =>
  s.Inv ∧ s.fetches n w u
abbrev Meets.FetchExceptionsAndMonitorEntry4 := fun (n w : Nat) (s u : State) m =>
  s.Inv ∧ s.fetches n w u ∧ m ≠ n
abbrev Meets.FetchExceptionsAndMonitorEntry5 := fun (n : Nat) (s : State) cause =>
  s.Inv ∧ n ≤ 16 ∧ cause < 16 ∧ s.status n 4 = false
abbrev Meets.FetchExceptionsAndMonitorEntry6 := fun (n : Nat) (s : State) =>
  s.Inv ∧ n ≤ 16 ∧ s.status n 4 = true ∧ n < 16
abbrev Meets.FetchExceptionsAndMonitorEntry7 := fun (n : Nat) (s : State) =>
  s.Inv ∧ n ≤ 16 ∧ s.status n 4 = true ∧ n < 16
abbrev Meets.FetchExceptionsAndMonitorEntry8 := fun (n : Nat) (s : State) k =>
  s.Inv ∧ n ≤ 16 ∧ s.executes n = true ∧ s.debugCause n = none ∧ (s.core n).wdog = false ∧ s.irqNow n = some k
abbrev Meets.FetchExceptionsAndMonitorEntry9 := fun (n : Nat) (s : State) c =>
  s.Inv ∧ n ≤ 16 ∧ n < 16 ∧ s.executes n = true ∧ s.debugCause n = some c

/-- What the hypotheses of FetchExceptionsAndMonitorEntry ask, met together. -/
theorem witness_FetchExceptionsAndMonitorEntry :
    Meets.FetchExceptionsAndMonitorEntry0 0 0 (put 0 0 (runAt 0)) (after 0 (put 0 0 (runAt 0))) ∧
    Meets.FetchExceptionsAndMonitorEntry1 0 0 (put 0 0 (runAt 0 (withX [(3, 7)]))) (after 0 (put 0 0 (runAt 0 (withX [(3, 7)])))) ∧
    Meets.FetchExceptionsAndMonitorEntry2 0 0 (put 0 0 (runAt 0 (withX [] [(3, 7)]))) (after 0 (put 0 0 (runAt 0 (withX [] [(3, 7)])))) ∧
    Meets.FetchExceptionsAndMonitorEntry3 0 0 (put 0 0 (runAt 0 (fun c => { c with resv := some 3 }))) (after 0 (put 0 0 (runAt 0 (fun c => { c with resv := some 3 })))) ∧
    Meets.FetchExceptionsAndMonitorEntry4 0 0 (put 0 0 (runAt 0)) (after 0 (put 0 0 (runAt 0))) 1 ∧
    Meets.FetchExceptionsAndMonitorEntry5 0 (runAt 0 inMon) 15 ∧
    Meets.FetchExceptionsAndMonitorEntry5 16 (runAt 16) 1 ∧
    Meets.FetchExceptionsAndMonitorEntry6 15 (runAt 15 (withX [] [(0, 0x14)])) ∧
    Meets.FetchExceptionsAndMonitorEntry7 15 (runAt 15 (withX [(4, 8)] [(0, 0x14)])) ∧
    Meets.FetchExceptionsAndMonitorEntry8 0 irqAt 5 ∧
    Meets.FetchExceptionsAndMonitorEntry8 16 { (runAt 16 (withX [] [(0, 5)])) with mgt := { Mgt.reset with mcIrq := [2] } } 2 ∧
    Meets.FetchExceptionsAndMonitorEntry9 15 ((runAt 15 (withX [] [(0x12, 0x2000)])).setReg A.DBG_HALTREQ 0x8000) 1 ∧
    Meets.FetchExceptionsAndMonitorEntry9 0 (runAt 0 fun c => { c with stepped := true }) 7 :=
  ⟨by refine ⟨inv_of ?_, fetches_of ?_⟩ <;> decide +kernel,
    by refine ⟨inv_of ?_, fetches_of ?_⟩ <;> decide +kernel,
    by refine ⟨inv_of ?_, fetches_of ?_⟩ <;> decide +kernel,
    by refine ⟨inv_of ?_, fetches_of ?_⟩ <;> decide +kernel,
    by refine ⟨inv_of ?_, fetches_of ?_, ?_⟩ <;> decide +kernel,
    by refine ⟨inv_of ?_, ?_, ?_, ?_⟩ <;> decide +kernel,
    by refine ⟨inv_of ?_, ?_, ?_, ?_⟩ <;> decide +kernel,
    by refine ⟨inv_of ?_, ?_, ?_, ?_⟩ <;> decide +kernel,
    by refine ⟨inv_of ?_, ?_, ?_, ?_⟩ <;> decide +kernel,
    by refine ⟨inv_of ?_, ?_, ?_, ?_, ?_, ?_⟩ <;> decide +kernel,
    by refine ⟨inv_of ?_, ?_, ?_, ?_, ?_, ?_⟩ <;> decide +kernel,
    by refine ⟨inv_of ?_, ?_, ?_, ?_, ?_⟩ <;> decide +kernel,
    by refine ⟨inv_of ?_, ?_, ?_, ?_, ?_⟩ <;> decide +kernel⟩

abbrev Meets.CoresAreReleasedWatchedAndPutToSleep0 := fun (m n : Nat) (d : Word) (s : State) =>
  s.Inv ∧ s.reaches m 17 ∧ n < 16 ∧ bit d.toNat 31 = true ∧ (s.core n).running = false
abbrev Meets.CoresAreReleasedWatchedAndPutToSleep1 := fun (m n : Nat) (d : Word) (s : State) =>
  s.Inv ∧ s.reaches m 17 ∧ n < 16 ∧ bit d.toNat 31 = false ∧ (s.core n).running = true
abbrev Meets.CoresAreReleasedWatchedAndPutToSleep2 := fun (m n : Nat) (d : Word) (s : State) =>
  s.Inv ∧ s.reaches m 17 ∧ n < 16 ∧ bit d.toNat 31 = (s.core n).running
abbrev Meets.CoresAreReleasedWatchedAndPutToSleep3 := fun (m n : Nat) (d : Word) (s : State) =>
  s.Inv ∧ n < 16 ∧ s.reaches m 17 ∧ d = 0xC0DE
abbrev Meets.CoresAreReleasedWatchedAndPutToSleep4 := fun (m n : Nat) (d : Word) (s : State) =>
  s.Inv ∧ n < 16 ∧ s.reaches m 17 ∧ d ≠ 0xC0DE
abbrev Meets.CoresAreReleasedWatchedAndPutToSleep5 := fun (m n : Nat) (d : Word) (s : State) =>
  s.Inv ∧ n < 16 ∧ s.reaches m 17 ∧ bit d.toNat 31 = true
abbrev Meets.CoresAreReleasedWatchedAndPutToSleep6 := fun (m n : Nat) (d : Word) (s : State) =>
  s.Inv ∧ n < 16 ∧ s.reaches m 17 ∧ bit d.toNat 31 = false
abbrev Meets.CoresAreReleasedWatchedAndPutToSleep7 := fun (n : Nat) (s : State) =>
  s.Inv ∧ n < 16 ∧ s.flag (F.TCC_WDCTL_EN n) = true ∧ s.frozen n = false ∧ (s.core n).running = true
abbrev Meets.CoresAreReleasedWatchedAndPutToSleep8 := fun (n : Nat) (s : State) =>
  s.Inv ∧ n < 16 ∧ s.trc.srcs.length = 16 ∧ (s.core n).running = true ∧ (s.core n).wfe = true ∧ (s.core n).asleep = false ∧ (s.core n).lockup = false
abbrev Meets.CoresAreReleasedWatchedAndPutToSleep9 := fun (n : Nat) (s : State) =>
  s.Inv ∧ n < 16 ∧ s.trc.srcs.length = 16 ∧ (s.core n).asleep = true ∧ (s.core n).wfe = true ∧ s.wfeDone n = true

/-- What the hypotheses of CoresAreReleasedWatchedAndPutToSleep ask, met together. -/
theorem witness_CoresAreReleasedWatchedAndPutToSleep :
    Meets.CoresAreReleasedWatchedAndPutToSleep0 0 15 0x80000100 State.reset ∧
    Meets.CoresAreReleasedWatchedAndPutToSleep1 0 15 0 (runAt 15) ∧
    Meets.CoresAreReleasedWatchedAndPutToSleep1 0 3 0 ((thrAt 511 2).withCore 3 fun c => { c with running := true }) ∧
    Meets.CoresAreReleasedWatchedAndPutToSleep2 0 15 0x80000200 (runAt 15) ∧
    Meets.CoresAreReleasedWatchedAndPutToSleep2 0 0 0 State.reset ∧
    Meets.CoresAreReleasedWatchedAndPutToSleep3 0 15 0xC0DE (wdAt fun c => { c with wdogOnce := true }) ∧
    Meets.CoresAreReleasedWatchedAndPutToSleep4 0 15 0x1C0DE (wdAt id) ∧
    Meets.CoresAreReleasedWatchedAndPutToSleep5 0 15 0xC0000000 (wdAt fun c => { c with wdogOnce := true }) ∧
    Meets.CoresAreReleasedWatchedAndPutToSleep6 0 0 0x40000000 State.reset ∧
    Meets.CoresAreReleasedWatchedAndPutToSleep7 15 (wdAt id) ∧
    Meets.CoresAreReleasedWatchedAndPutToSleep7 15 (wdAt fun c => { c with wdogOnce := true }) ∧
    Meets.CoresAreReleasedWatchedAndPutToSleep8 15 (sleepy false) ∧
    Meets.CoresAreReleasedWatchedAndPutToSleep9 15 (sleepy true) :=
  ⟨by refine ⟨inv_of ?_, reaches_of ?_, ?_, ?_, ?_⟩ <;> decide +kernel,
    by refine ⟨inv_of ?_, reaches_of ?_, ?_, ?_, ?_⟩ <;> decide +kernel,
    by refine ⟨inv_of ?_, reaches_of ?_, ?_, ?_, ?_⟩ <;> decide +kernel,
    by refine ⟨inv_of ?_, reaches_of ?_, ?_, ?_⟩ <;> decide +kernel,
    by refine ⟨inv_of ?_, reaches_of ?_, ?_, ?_⟩ <;> decide +kernel,
    by refine ⟨inv_of ?_, ?_, reaches_of ?_, ?_⟩ <;> decide +kernel,
    by refine ⟨inv_of ?_, ?_, reaches_of ?_, ?_⟩ <;> decide +kernel,
    by refine ⟨inv_of ?_, ?_, reaches_of ?_, ?_⟩ <;> decide +kernel,
    by refine ⟨inv_of ?_, ?_, reaches_of ?_, ?_⟩ <;> decide +kernel,
    by refine ⟨inv_of ?_, ?_, ?_, ?_, ?_⟩ <;> decide +kernel,
    by refine ⟨inv_of ?_, ?_, ?_, ?_, ?_⟩ <;> decide +kernel,
    by refine ⟨inv_of ?_, ?_, ?_, ?_, ?_, ?_, ?_⟩ <;> decide +kernel,
    by refine ⟨inv_of ?_, ?_, ?_, ?_, ?_, ?_⟩ <;> decide +kernel⟩

abbrev Meets.ClaimTakesTheHighestEvent0 := fun (m n : Nat) (s : State) k =>
  s.Inv ∧ s.reaches m 17 ∧ n < 16 ∧ pendsAt s n k ∧ 0 < s.fld (F.EVT_CFG_PRI k) ∧ (∀ j, pendsAt s n j → s.fld (F.EVT_CFG_PRI j) < s.fld (F.EVT_CFG_PRI k) ∨ s.fld (F.EVT_CFG_PRI j) = s.fld (F.EVT_CFG_PRI k) ∧ k ≤ j)
abbrev Meets.ClaimTakesTheHighestEvent1 := fun (m n : Nat) (s : State) =>
  s.Inv ∧ s.reaches m 17 ∧ n < 16 ∧ (∀ k, pendsAt s n k → s.fld (F.EVT_CFG_PRI k) = 0)

/-- What the hypotheses of ClaimTakesTheHighestEvent ask, met together. -/
theorem witness_ClaimTakesTheHighestEvent :
    Meets.ClaimTakesTheHighestEvent0 0 2 events3 70 ∧
    Meets.ClaimTakesTheHighestEvent1 0 2 events0 ∧
    Meets.ClaimTakesTheHighestEvent1 0 15 State.reset :=
  ⟨by refine ⟨inv_of ?_, reaches_of ?_, ?_, pends_of ?_, ?_, pends_all ?_⟩ <;> decide +kernel,
    by refine ⟨inv_of ?_, reaches_of ?_, ?_, pends_all ?_⟩ <;> decide +kernel,
    by refine ⟨inv_of ?_, reaches_of ?_, ?_, pends_all ?_⟩ <;> decide +kernel⟩

abbrev Meets.EventsArePendedReportedAndMerged0 := fun (m : Nat) (d : Word) (s : State) =>
  s.Inv ∧ s.reaches m 17 ∧ SMap.wf 0 s.evt.windows = true ∧ bits d.toNat 0 9 < 320 ∧ s.flag (F.EVT_CFG_EN (bits d.toNat 0 9)) = true
abbrev Meets.EventsArePendedReportedAndMerged1 := fun (m : Nat) (d : Word) (s : State) =>
  s.Inv ∧ s.reaches m 17 ∧ SMap.wf 0 s.evt.windows = true ∧ (320 ≤ bits d.toNat 0 9 ∨ s.flag (F.EVT_CFG_EN (bits d.toNat 0 9)) = false)
abbrev Meets.EventsArePendedReportedAndMerged2 := fun (s : State) =>
  SMap.wf 0 s.evt.windows = true

/-- What the hypotheses of EventsArePendedReportedAndMerged ask, met together. -/
theorem witness_EventsArePendedReportedAndMerged :
    Meets.EventsArePendedReportedAndMerged0 0 319 reporting ∧
    Meets.EventsArePendedReportedAndMerged0 0 319 { reporting.setReg (A.EVT_PEND 9) 0x80000000 with evt := ⟨[(319, 2)]⟩ } ∧
    Meets.EventsArePendedReportedAndMerged1 0 320 reporting ∧
    Meets.EventsArePendedReportedAndMerged1 0 0 State.reset ∧
    Meets.EventsArePendedReportedAndMerged2 { reporting with evt := ⟨[(319, 2)]⟩ } ∧
    Meets.EventsArePendedReportedAndMerged2 { reporting with evt := ⟨[(319, 1)]⟩ } :=
  ⟨by refine ⟨inv_of ?_, reaches_of ?_, ?_, ?_, ?_⟩ <;> decide +kernel,
    by refine ⟨inv_of ?_, reaches_of ?_, ?_, ?_, ?_⟩ <;> decide +kernel,
    by refine ⟨inv_of ?_, reaches_of ?_, ?_, ?_⟩ <;> decide +kernel,
    by refine ⟨inv_of ?_, reaches_of ?_, ?_, ?_⟩ <;> decide +kernel,
    by refine ?_ <;> decide +kernel,
    by refine ?_ <;> decide +kernel⟩

abbrev Meets.TraceSourcesEmitPackets0 := fun (m : Nat) (s : State) =>
  s.Inv ∧ s.trc.srcs.length = 16 ∧ s.reaches m 17 ∧ m < 16 ∧ s.flag (F.TRC_SRC_EN m) = true ∧ (s.status m 8 = false ∨ s.flag F.TRC_AUTH_PRIV = true) ∧ (s.trcSrc m).due = false ∧ s.trc.fifo.length + 15 ≤ 65536
abbrev Meets.TraceSourcesEmitPackets1 := fun (m : Nat) (s : State) =>
  s.Inv ∧ s.trc.srcs.length = 16 ∧ s.reaches m 17 ∧ (16 ≤ m ∨ s.flag (F.TRC_SRC_EN m) = false ∨ s.status m 8 = true ∧ s.flag F.TRC_AUTH_PRIV = false)
abbrev Meets.TraceSourcesEmitPackets2 := fun (m n : Nat) (d : Word) (s : State) =>
  s.Inv ∧ s.trc.srcs.length = 16 ∧ s.reaches m 17 ∧ n < 16 ∧ s.flag (F.TRC_SRC_EN n) = false ∧ bit d.toNat 31 = true ∧ s.trc.fifo.length + 9 ≤ 65536
abbrev Meets.TraceSourcesEmitPackets3 := fun (m n : Nat) (d : Word) (s : State) =>
  s.Inv ∧ s.trc.srcs.length = 16 ∧ s.reaches m 17 ∧ n < 16 ∧ s.flag (F.TRC_SRC_EN n) = true ∧ bit d.toNat 31 = false
abbrev Meets.TraceSourcesEmitPackets4 := fun (m : Nat) (d : Word) (s : State) =>
  s.Inv ∧ s.trc.srcs.length = 16 ∧ s.reaches m 17 ∧ bits d.toNat 0 2 = 2 ∧ s.fld F.LNK_SHARE_OWNER = 1
abbrev Meets.TraceSourcesEmitPackets5 := fun (m : Nat) (d : Word) (s : State) =>
  s.Inv ∧ s.trc.srcs.length = 16 ∧ s.reaches m 17 ∧ (bits d.toNat 0 2 ≠ 2 ∨ s.fld F.LNK_SHARE_OWNER ≠ 1)
abbrev Meets.TraceSourcesEmitPackets6 := fun (n : Nat) (s : State) =>
  s.Inv ∧ s.trc.srcs.length = 16 ∧ n < 16 ∧ s.flag (F.TRC_SRC_EN n) = true ∧ (s.trcSrc n).due = true ∧ s.trc.fifo.length + 9 ≤ 65536
abbrev Meets.TraceSourcesEmitPackets7 := fun (n : Nat) (s : State) =>
  s.Inv ∧ s.trc.srcs.length = 16 ∧ n < 16 ∧ 0 < (s.trcSrc n).lost ∧ (∀ k < 16, k ≠ n → (s.trcSrc k).lost = 0) ∧ s.trc.fifo.length + 1024 ≤ 65536
abbrev Meets.TraceSourcesEmitPackets8 := fun (s : State) k =>
  s.Inv ∧ s.trc.srcs.length = 16 ∧ k ≤ s.trc.fifo.length ∧ s.fld F.TRC_CTL_OUT ≠ 2
abbrev Meets.TraceSourcesEmitPackets9 := fun (s : State) =>
  s.Inv ∧ s.trc.srcs.length = 16 ∧ s.fld F.TRC_CTL_OUT = 2

/-- What the hypotheses of TraceSourcesEmitPackets ask, met together. -/
theorem witness_TraceSourcesEmitPackets :
    Meets.TraceSourcesEmitPackets0 15 (tracing 15 ⟨300, 4, 0, false⟩) ∧
    Meets.TraceSourcesEmitPackets1 16 State.reset ∧
    Meets.TraceSourcesEmitPackets1 0 State.reset ∧
    Meets.TraceSourcesEmitPackets2 0 15 0xC000FFFF State.reset ∧
    Meets.TraceSourcesEmitPackets3 0 15 0 (tracing 15 ⟨300, 4, 2, false⟩) ∧
    Meets.TraceSourcesEmitPackets4 0 2 (State.reset.setFld F.LNK_SHARE_OWNER 1) ∧
    Meets.TraceSourcesEmitPackets5 0 2 State.reset ∧
    Meets.TraceSourcesEmitPackets5 0 1 (State.reset.setFlds [(F.LNK_SHARE_OWNER, 2), (F.TRC_CTL_OUT, 2)]) ∧
    Meets.TraceSourcesEmitPackets6 15 (tracing 15 ⟨300, 256, 0, true⟩) ∧
    Meets.TraceSourcesEmitPackets7 15 (tracing 15 ⟨300, 6, 700, false⟩) ∧
    Meets.TraceSourcesEmitPackets8 (tracing 15 ⟨300, 6, 0, false⟩) 1 ∧
    Meets.TraceSourcesEmitPackets8 ((tracing 15 ⟨300, 6, 0, false⟩).setFld F.TRC_CTL_OUT 1) 1 ∧
    Meets.TraceSourcesEmitPackets8 ((tracing 15 ⟨300, 6, 0, false⟩).setFld F.TRC_CTL_OUT 1) 0 ∧
    Meets.TraceSourcesEmitPackets9 ((tracing 15 ⟨300, 6, 0, false⟩).setFld F.TRC_CTL_OUT 2) ∧
    Meets.TraceSourcesEmitPackets9 ((State.reset.traced (List.replicate 20 7)).setFld F.TRC_CTL_OUT 2) :=
  ⟨by refine ⟨inv_of ?_, ?_, reaches_of ?_, ?_, ?_, ?_, ?_, ?_⟩ <;> decide +kernel,
    by refine ⟨inv_of ?_, ?_, reaches_of ?_, ?_⟩ <;> decide +kernel,
    by refine ⟨inv_of ?_, ?_, reaches_of ?_, ?_⟩ <;> decide +kernel,
    by refine ⟨inv_of ?_, ?_, reaches_of ?_, ?_, ?_, ?_, ?_⟩ <;> decide +kernel,
    by refine ⟨inv_of ?_, ?_, reaches_of ?_, ?_, ?_, ?_⟩ <;> decide +kernel,
    by refine ⟨inv_of ?_, ?_, reaches_of ?_, ?_, ?_⟩ <;> decide +kernel,
    by refine ⟨inv_of ?_, ?_, reaches_of ?_, ?_⟩ <;> decide +kernel,
    by refine ⟨inv_of ?_, ?_, reaches_of ?_, ?_⟩ <;> decide +kernel,
    by refine ⟨inv_of ?_, ?_, ?_, ?_, ?_, ?_⟩ <;> decide +kernel,
    by refine ⟨inv_of ?_, ?_, ?_, ?_, ?_, ?_⟩ <;> decide +kernel,
    by refine ⟨inv_of ?_, ?_, ?_, ?_⟩ <;> decide +kernel,
    by refine ⟨inv_of ?_, ?_, ?_, ?_⟩ <;> decide +kernel,
    by refine ⟨inv_of ?_, ?_, ?_, ?_⟩ <;> decide +kernel,
    by refine ⟨inv_of ?_, ?_, ?_⟩ <;> decide +kernel,
    by refine ⟨inv_of ?_, ?_, ?_⟩ <;> decide +kernel⟩

abbrev Meets.CountersSamplesAndDumps0 := fun (n k : Nat) (s : State) =>
  s.Inv ∧ n < 16 ∧ k < 8 ∧ s.pmcOn n k (s.fld (F.PMC_SEL_EVENT n k)) = true ∧ (s.fld (F.PMC_SEL_EVENT n k) ∈ [1, 2, 3, 4, 5, 6, 7, 8, 9, 10, 11, 12, 13, 16, 17, 18]) ∧ (s.fld (F.PMC_SEL_EVENT n k) < 0x10 ∨ s.flag (F.PMC_SEL_THR n k) = false ∨ s.fld (F.PMC_SEL_N n k) < occMax (s.fld (F.PMC_SEL_EVENT n k))) ∧ s.fld (F.PMC_CNT_COUNT n k) = 0xFFFFFFFF
abbrev Meets.CountersSamplesAndDumps1 := fun (m n k : Nat) (d : Word) (s : State) =>
  s.Inv ∧ n < 16 ∧ k < 8 ∧ s.reaches m 17 ∧ bit d.toNat 1 = true
abbrev Meets.CountersSamplesAndDumps2 := fun (m n : Nat) (d : Word) (s : State) =>
  s.Inv ∧ s.reaches m 17 ∧ n < 16 ∧ bit d.toNat 0 = true ∧ (s.flag F.PMC_SBOWN_VALID = false ∨ s.fld F.PMC_SBOWN_CORE = n)
abbrev Meets.CountersSamplesAndDumps3 := fun (m n : Nat) (d : Word) (s : State) =>
  s.Inv ∧ s.reaches m 17 ∧ n < 16 ∧ bit d.toNat 0 = true ∧ s.flag F.PMC_SBOWN_VALID = true ∧ s.fld F.PMC_SBOWN_CORE ≠ n
abbrev Meets.CountersSamplesAndDumps4 := fun (m n : Nat) (d : Word) (s : State) =>
  s.Inv ∧ s.reaches m 17 ∧ n < 16 ∧ bit d.toNat 0 = false ∧ s.flag F.PMC_SBOWN_VALID = true ∧ s.fld F.PMC_SBOWN_CORE = n
abbrev Meets.CountersSamplesAndDumps5 := fun (m : Nat) (s : State) =>
  s.Inv ∧ s.reaches m 17
abbrev Meets.CountersSamplesAndDumps6 := fun (x : Sampled) (s : State) =>
  s.Inv ∧ s.flag F.PMC_SBOWN_VALID = true ∧ eligible (s.fld F.PMC_SBCTL_KIND) x = true ∧ s.pmc.eligible < s.fld F.PMC_SBCTL_PERIOD
abbrev Meets.CountersSamplesAndDumps7 := fun (x : Sampled) (s : State) =>
  s.Inv ∧ s.flag F.PMC_SBOWN_VALID = true ∧ eligible (s.fld F.PMC_SBCTL_KIND) x = true ∧ s.fld F.PMC_SBCTL_PERIOD ≤ s.pmc.eligible
abbrev Meets.CountersSamplesAndDumps8 := fun (s : State) =>
  s.Inv ∧ s.pmc.dump = none ∧ s.ctl.corePower = true ∧ s.fld F.PMC_DCTL_MODE = 1
abbrev Meets.CountersSamplesAndDumps9 := fun (s : State) =>
  s.Inv ∧ s.pmc.dump = none
abbrev Meets.CountersSamplesAndDumps10 := fun (s : State) n k =>
  s.Inv ∧ s.pmc.dump = none ∧ n < 16 ∧ k < 8
abbrev Meets.CountersSamplesAndDumps11 := fun (m : Nat) (d : Word) (s : State) =>
  s.Inv ∧ s.reaches m 17 ∧ bit d.toNat 28 = true ∧ s.pmc.dump = none
abbrev Meets.CountersSamplesAndDumps12 := fun (s : State) =>
  s.Inv ∧ s.pmc.dump ≠ none ∧ s.ctl.corePower = true ∧ s.fld F.PMC_DCTL_MODE = 1
abbrev Meets.CountersSamplesAndDumps13 := fun (s : State) q b a =>
  s.Inv ∧ s.pmc.dump = some (q, b) ∧ 64 ≤ b.length ∧ b.length % 64 = 0 ∧ s.reaches 24 16 ∧ a = s.fld F.PMC_DBASELO_ADDR * 64 + 2 ^ 32 * s.fld F.PMC_DBASEHI_ADDR + q % Nat.max 1 (s.fld F.PMC_DNUM_N) * b.length ∧ 0x4000000 ≤ a ∧ a + b.length ≤ 0x4200000

/-- What the hypotheses of CountersSamplesAndDumps ask, met together. -/
theorem witness_CountersSamplesAndDumps :
    Meets.CountersSamplesAndDumps0 15 7 (State.reset.setFlds [(F.PMC_SEL_EN 15 7, 1), (F.PMC_SEL_EVENT 15 7, 0x12), (F.PMC_SEL_U 15 7, 1), (F.PMC_SEL_P 15 7, 1), (F.PMC_SEL_M 15 7, 1), (F.PMC_CNT_COUNT 15 7, 0xFFFFFFFF), (F.PMC_SEL_OVFEV 15 7, 1)]) ∧
    Meets.CountersSamplesAndDumps1 0 0 0 3 (State.reset.setFlds [(F.PMC_CNT_COUNT 15 7, 0xFFFFFFFF)]) ∧
    Meets.CountersSamplesAndDumps2 0 15 1 State.reset ∧
    Meets.CountersSamplesAndDumps2 0 3 1 (sampling 0) ∧
    Meets.CountersSamplesAndDumps3 0 15 1 (sampling 0) ∧
    Meets.CountersSamplesAndDumps4 0 3 0 (sampling 0) ∧
    Meets.CountersSamplesAndDumps5 0 ((sampling 0).setFlds [(F.PMC_SBSTAT_HEAD, 500), (F.PMC_SBSTAT_COUNT, 100)]) ∧
    Meets.CountersSamplesAndDumps6 sampled0 (sampling 1) ∧
    Meets.CountersSamplesAndDumps7 sampled0 (sampling 2) ∧
    Meets.CountersSamplesAndDumps7 sampled0 ((sampling 2).setFld F.PMC_SBCTL_MINLAT 6) ∧
    Meets.CountersSamplesAndDumps8 (State.reset.setFld F.PMC_DCTL_MODE 1) ∧
    Meets.CountersSamplesAndDumps9 State.reset ∧
    Meets.CountersSamplesAndDumps9 (State.reset.setFld F.PMC_DCTL_CHAN 1) ∧
    Meets.CountersSamplesAndDumps10 (State.reset.setFlds [(F.PMC_CNT_COUNT 15 7, 0xFFFFFFFF)]) 15 7 ∧
    Meets.CountersSamplesAndDumps11 0 0x70000000 State.reset ∧
    Meets.CountersSamplesAndDumps12 dumping ∧
    Meets.CountersSamplesAndDumps13 dumping 1 (List.replicate 128 5) 0x4000080 :=
  ⟨by refine ⟨inv_of ?_, ?_, ?_, ?_, ?_, ?_, ?_⟩ <;> decide +kernel,
    by refine ⟨inv_of ?_, ?_, ?_, reaches_of ?_, ?_⟩ <;> decide +kernel,
    by refine ⟨inv_of ?_, reaches_of ?_, ?_, ?_, ?_⟩ <;> decide +kernel,
    by refine ⟨inv_of ?_, reaches_of ?_, ?_, ?_, ?_⟩ <;> decide +kernel,
    by refine ⟨inv_of ?_, reaches_of ?_, ?_, ?_, ?_, ?_⟩ <;> decide +kernel,
    by refine ⟨inv_of ?_, reaches_of ?_, ?_, ?_, ?_, ?_⟩ <;> decide +kernel,
    by refine ⟨inv_of ?_, reaches_of ?_⟩ <;> decide +kernel,
    by refine ⟨inv_of ?_, ?_, ?_, ?_⟩ <;> decide +kernel,
    by refine ⟨inv_of ?_, ?_, ?_, ?_⟩ <;> decide +kernel,
    by refine ⟨inv_of ?_, ?_, ?_, ?_⟩ <;> decide +kernel,
    by refine ⟨inv_of ?_, ?_, ?_, ?_⟩ <;> decide +kernel,
    by refine ⟨inv_of ?_, ?_⟩ <;> decide +kernel,
    by refine ⟨inv_of ?_, ?_⟩ <;> decide +kernel,
    by refine ⟨inv_of ?_, ?_, ?_, ?_⟩ <;> decide +kernel,
    by refine ⟨inv_of ?_, reaches_of ?_, ?_, ?_⟩ <;> decide +kernel,
    by refine ⟨inv_of ?_, ?_, ?_, ?_⟩ <;> decide +kernel,
    by refine ⟨inv_of ?_, ?_, ?_, ?_, reaches_of ?_, ?_, ?_, ?_⟩ <;> decide +kernel⟩

abbrev Meets.SessionsOpenAndClose0 := fun (s : State) (m : Msg) =>
  s.Inv ∧ s.portUp m.port = true ∧ msgSound m 1 = true ∧ m.opcode = 0x0D00 ∧ m.version = 1 ∧ m.session = 0 ∧ m.length = 0 ∧ (∀ o ∈ s.hmp.opened, o.1 = m.src → o.2.1 = m.seq.toNat → 5000000000 ≤ s.hmp.now - o.2.2.2) ∧ s.hmp.sessions.length < 32
abbrev Meets.SessionsOpenAndClose1 := fun (s : State) (m : Msg) =>
  s.Inv ∧ s.portUp m.port = true ∧ msgSound m 1 = true ∧ m.opcode = 0x0D00 ∧ m.version = 1 ∧ m.session = 0 ∧ m.length = 0 ∧ (∀ o ∈ s.hmp.opened, o.1 = m.src → o.2.1 = m.seq.toNat → 5000000000 ≤ s.hmp.now - o.2.2.2) ∧ 32 ≤ s.hmp.sessions.length
abbrev Meets.SessionsOpenAndClose2 := fun (s : State) (m : Msg) o =>
  s.Inv ∧ s.portUp m.port = true ∧ msgSound m 1 = true ∧ m.opcode = 0x0D00 ∧ m.version = 1 ∧ m.session = 0 ∧ m.length = 0 ∧ o ∈ s.hmp.opened ∧ o.1 = m.src ∧ o.2.1 = m.seq.toNat ∧ s.hmp.now - o.2.2.2 < 5000000000 ∧ (∀ p ∈ s.hmp.opened, p.1 = m.src → p.2.1 = m.seq.toNat → p.2.2.1 = o.2.2.1)
abbrev Meets.SessionsOpenAndClose3 := fun (s : State) (m : Msg) (x : Session) =>
  s.Inv ∧ s.takes m 0x0D01 x ∧ msgBody m x = []
abbrev Meets.SessionsOpenAndClose4 := fun (s : State) (n : Nat) (x : Session) =>
  s.Inv ∧ s.session n = some x
abbrev Meets.SessionsOpenAndClose5 := fun (s : State) (m : Msg) (x : Session) =>
  s.Inv ∧ s.takes m 0x0F00 x ∧ msgBody m x = []
abbrev Meets.SessionsOpenAndClose6 := fun (s : State) (m : Msg) (x : Session) (op : Nat) =>
  s.Inv ∧ s.takes m op x ∧ knownOpcode op = false
abbrev Meets.SessionsOpenAndClose7 := fun (s : State) (m : Msg) (x : Session) =>
  s.Inv ∧ s.takes m 0x0F01 x ∧ msgBody m x = [] ∧ s.hmp.claim = some x.num
abbrev Meets.SessionsOpenAndClose8 := fun (s : State) n =>
  s.Inv ∧ s.hmp.claim = some n
abbrev Meets.SessionsOpenAndClose9 := fun (s : State) =>
  s.Inv

/-- What the hypotheses of SessionsOpenAndClose ask, met together. -/
theorem witness_SessionsOpenAndClose :
    Meets.SessionsOpenAndClose0 inIdle (msgOn .opt0 0x0D00 2 0 []) ∧
    Meets.SessionsOpenAndClose0 State.reset (msgOn .mgmt 0x0D00 2 0 []) ∧
    Meets.SessionsOpenAndClose1 full32 (msgOn .opt0 0x0D00 2 0 []) ∧
    Meets.SessionsOpenAndClose2 { inIdle with hmp := { inIdle.hmp with opened := [(7, 2, 5, 0)] } } (msgOn .opt0 0x0D00 2 0 []) ((7, 2, 5, 0) : Nat × Nat × Nat × Nat) ∧
    Meets.SessionsOpenAndClose3 inIdle (msg 0x0D01) sess5 ∧
    Meets.SessionsOpenAndClose4 { inIdle with dbg := { State.reset.dbg with runs := [busyRun] } } 5 sess5 ∧
    Meets.SessionsOpenAndClose5 { inIdle with hmp := { inIdle.hmp with claim := none } } (msg 0x0F00) sess5 ∧
    Meets.SessionsOpenAndClose5 { inIdle with hmp := { inIdle.hmp with claim := some 9 } } (msg 0x0F00) sess5 ∧
    Meets.SessionsOpenAndClose6 inIdle (msg 0x1234) sess5 0x1234 ∧
    Meets.SessionsOpenAndClose7 inIdle (msg 0x0F01) sess5 ∧
    Meets.SessionsOpenAndClose8 inIdle 5 ∧
    Meets.SessionsOpenAndClose9 inIdle ∧
    Meets.SessionsOpenAndClose9 inIdle :=
  ⟨by refine ⟨inv_of ?_, ?_, ?_, ?_, ?_, ?_, ?_, ?_, ?_⟩ <;> decide +kernel,
    by refine ⟨inv_of ?_, ?_, ?_, ?_, ?_, ?_, ?_, ?_, ?_⟩ <;> decide +kernel,
    by refine ⟨inv_of ?_, ?_, ?_, ?_, ?_, ?_, ?_, ?_, ?_⟩ <;> decide +kernel,
    by refine ⟨inv_of ?_, ?_, ?_, ?_, ?_, ?_, ?_, ?_, ?_, ?_, ?_, ?_⟩ <;> decide +kernel,
    by refine ⟨inv_of ?_, takes_msg ?_ ?_, ?_⟩ <;> decide +kernel,
    by refine ⟨inv_of ?_, ?_⟩ <;> decide +kernel,
    by refine ⟨inv_of ?_, takes_msg ?_ ?_, ?_⟩ <;> decide +kernel,
    by refine ⟨inv_of ?_, takes_msg ?_ ?_, ?_⟩ <;> decide +kernel,
    by refine ⟨inv_of ?_, takes_msg ?_ ?_, ?_⟩ <;> decide +kernel,
    by refine ⟨inv_of ?_, takes_msg ?_ ?_, ?_, ?_⟩ <;> decide +kernel,
    by refine ⟨inv_of ?_, ?_⟩ <;> decide +kernel,
    by refine inv_of ?_ <;> decide +kernel,
    by refine inv_of ?_ <;> decide +kernel⟩

abbrev Meets.AuthorisationGivesRights0 := fun (msg : Msg) (x : Session) (s : State) =>
  s.Inv ∧ msg.port ≠ .mgmt ∧ s.takes msg 0x0D02 x ∧ msgBody msg x = []
abbrev Meets.AuthorisationGivesRights1 := fun (msg : Msg) (x : Session) (s : State) =>
  s.Inv ∧ msg.port ≠ .mgmt ∧ s.takes msg 0x0D03 x ∧ (msgBody msg x).length = 3472
abbrev Meets.AuthorisationGivesRights2 := fun (msg : Msg) (s : State) n y =>
  s.Inv ∧ msg.port ≠ .mgmt ∧ s.session n = some y

/-- What the hypotheses of AuthorisationGivesRights ask, met together. -/
theorem witness_AuthorisationGivesRights :
    Meets.AuthorisationGivesRights0 (msg 0x0D02) sess5 inIdle ∧
    Meets.AuthorisationGivesRights1 (msg 0x0D03 (List.replicate 3472 0)) { sess5 with chal := some ⟨[], []⟩ } (inIdle.withSession fun x => { x with chal := some ⟨[], []⟩ }) ∧
    Meets.AuthorisationGivesRights2 (msg 0x0D02) (inIdle.withSession fun x => { x with chal := some ⟨[], []⟩ }) 5 { sess5 with chal := some ⟨[], []⟩ } :=
  ⟨by refine ⟨inv_of ?_, ?_, takes_msg ?_ ?_, ?_⟩ <;> decide +kernel,
    by refine ⟨inv_of ?_, ?_, takes_msg (by rw [List.length_replicate] <;> decide) ?_, List.length_replicate⟩ <;> decide +kernel,
    by refine ⟨inv_of ?_, ?_, ?_⟩ <;> decide +kernel⟩

abbrev Meets.HaltsHoldsAndMailboxes0 := fun (s : State) (msg : Msg) (x : Session) =>
  s.Inv ∧ msg.port ≠ .mgmt ∧ s.takes msg 0x0D04 x ∧ x.debug = true ∧ (msgBody msg x).length = 2
abbrev Meets.HaltsHoldsAndMailboxes1 := fun (s : State) (msg : Msg) (x : Session) =>
  s.Inv ∧ msg.port ≠ .mgmt ∧ s.takes msg 0x0D08 x ∧ x.priv = true ∧ (msgBody msg x).length = 1 ∧ leAt (msgBody msg x) 0 1 ≤ 1
abbrev Meets.HaltsHoldsAndMailboxes2 := fun (s : State) (msg : Msg) (x : Session) =>
  s.Inv ∧ msg.port ≠ .mgmt ∧ s.takes msg 0x0D09 x ∧ x.debug = true ∧ s.hmp.claim = some x.num ∧ (msgBody msg x).length = 1 ∧ leAt (msgBody msg x) 0 1 ≤ 1
abbrev Meets.HaltsHoldsAndMailboxes3 := fun (s : State) (msg : Msg) (x : Session) n =>
  s.Inv ∧ msg.port ≠ .mgmt ∧ s.takes msg 0x0D05 x ∧ x.debug = true ∧ 5 ≤ (msgBody msg x).length ∧ (msgBody msg x).length ≤ 260 ∧ leAt (msgBody msg x) 1 1 + 5 = (msgBody msg x).length ∧ leAt (msgBody msg x) 2 2 = 0 ∧ leAt (msgBody msg x) 0 1 = n ∧ n < 16 ∧ s.flag (F.DBG_MBSTAT_INFULL n) = false
abbrev Meets.HaltsHoldsAndMailboxes4 := fun (s : State) (msg : Msg) (x : Session) n =>
  s.Inv ∧ msg.port ≠ .mgmt ∧ s.takes msg 0x0D05 x ∧ x.debug = true ∧ 5 ≤ (msgBody msg x).length ∧ (msgBody msg x).length ≤ 260 ∧ leAt (msgBody msg x) 1 1 + 5 = (msgBody msg x).length ∧ leAt (msgBody msg x) 2 2 = 0 ∧ leAt (msgBody msg x) 0 1 = n ∧ n < 16 ∧ s.flag (F.DBG_MBSTAT_INFULL n) = true
abbrev Meets.HaltsHoldsAndMailboxes5 := fun (s : State) (m : Nat) =>
  s.Inv ∧ s.reaches m 17
abbrev Meets.HaltsHoldsAndMailboxes6 := fun (s : State) (m : Nat) (d : Word) n =>
  s.Inv ∧ s.reaches m 17 ∧ n < 16 ∧ bit d.toNat 31 = true ∧ bits d.toNat 0 9 ≠ 0 ∧ bits d.toNat 0 9 ≤ 256 ∧ s.flag (F.DBG_MBSTAT_OUTBUSY n) = false
abbrev Meets.HaltsHoldsAndMailboxes7 := fun (s : State) n =>
  s.Inv ∧ n < 16 ∧ s.flag (F.DBG_MBSTAT_OUTBUSY n) = true ∧ (∀ x ∈ s.hmp.sessions, x.key = none ∧ s.session x.num = some x ∧ s.portUp x.port = true) ∧ s.mcReached = true

/-- What the hypotheses of HaltsHoldsAndMailboxes ask, met together. -/
theorem witness_HaltsHoldsAndMailboxes :
    Meets.HaltsHoldsAndMailboxes0 inIdle (msg 0x0D04 [0, 0x80]) sess5 ∧
    Meets.HaltsHoldsAndMailboxes1 inIdle (msg 0x0D08 [1]) sess5 ∧
    Meets.HaltsHoldsAndMailboxes1 (inIdle.withSession fun x => { x with granted := 4 }) (msg 0x0D08 [0]) { sess5 with granted := 4 } ∧
    Meets.HaltsHoldsAndMailboxes2 inRun (msg 0x0D09 [1]) sess5 ∧
    Meets.HaltsHoldsAndMailboxes2 inIdle (msg 0x0D09 [0]) sess5 ∧
    Meets.HaltsHoldsAndMailboxes3 inIdle (msg 0x0D05 [15, 0, 0, 0, 7]) sess5 15 ∧
    Meets.HaltsHoldsAndMailboxes3 inIdle (msg 0x0D05 ([0, 255, 0, 0] ++ List.replicate 256 7)) sess5 0 ∧
    Meets.HaltsHoldsAndMailboxes4 (inIdle.setFld (F.DBG_MBSTAT_INFULL 15) 1) (msg 0x0D05 [15, 0, 0, 0, 7]) sess5 15 ∧
    Meets.HaltsHoldsAndMailboxes5 inIdle 0 ∧
    Meets.HaltsHoldsAndMailboxes6 inIdle 0 0x80000100 15 ∧
    Meets.HaltsHoldsAndMailboxes7 { inIdle.setFld (F.DBG_MBSTAT_OUTBUSY 15) 1 with dbg := { State.reset.dbg with sends := [(15, 256)] } } 15 ∧
    Meets.HaltsHoldsAndMailboxes7 { inIdle.setFld (F.DBG_MBSTAT_OUTBUSY 0) 1 with dbg := { State.reset.dbg with sends := [(0, 3)], lastMon := [(0, 5)] } } 0 :=
  ⟨by refine ⟨inv_of ?_, ?_, takes_msg ?_ ?_, ?_, ?_⟩ <;> decide +kernel,
    by refine ⟨inv_of ?_, ?_, takes_msg ?_ ?_, ?_, ?_, ?_⟩ <;> decide +kernel,
    by refine ⟨inv_of ?_, ?_, takes_msg ?_ ?_, ?_, ?_, ?_⟩ <;> decide +kernel,
    by refine ⟨inv_of ?_, ?_, takes_msg ?_ ?_, ?_, ?_, ?_, ?_⟩ <;> decide +kernel,
    by refine ⟨inv_of ?_, ?_, takes_msg ?_ ?_, ?_, ?_, ?_, ?_⟩ <;> decide +kernel,
    by refine ⟨inv_of ?_, ?_, takes_msg ?_ ?_, ?_, ?_, ?_, ?_, ?_, ?_, ?_, ?_⟩ <;> decide +kernel,
    by refine ⟨inv_of ?_, ?_, takes_msg (by rw [List.length_append, List.length_replicate] <;> decide) ?_, ?_, ?_, ?_, ?_, ?_, ?_, ?_, ?_⟩ <;> decide +kernel,
    by refine ⟨inv_of ?_, ?_, takes_msg ?_ ?_, ?_, ?_, ?_, ?_, ?_, ?_, ?_, ?_⟩ <;> decide +kernel,
    by refine ⟨inv_of ?_, reaches_of ?_⟩ <;> decide +kernel,
    by refine ⟨inv_of ?_, reaches_of ?_, ?_, ?_, ?_, ?_, ?_⟩ <;> decide +kernel,
    by refine ⟨inv_of ?_, ?_, ?_, ?_, ?_⟩ <;> decide +kernel,
    by refine ⟨inv_of ?_, ?_, ?_, ?_, ?_⟩ <;> decide +kernel⟩

abbrev Meets.DebugRunsAndStreams0 := fun (s : State) (msg : Msg) (x : Session) (a len : Nat) =>
  s.Inv ∧ msg.port ≠ .mgmt ∧ x.debug = true ∧ leAt (msgBody msg x) 0 8 = a ∧ leAt (msgBody msg x) 8 4 = len ∧ a % 4 = 0 ∧ len % 4 = 0 ∧ 4 ≤ len ∧ len ≤ 16777216 ∧ s.takes msg 0x0D06 x ∧ (msgBody msg x).length = 16 ∧ leAt (msgBody msg x) 12 1 ≤ 1 ∧ leAt (msgBody msg x) 13 3 = 0 ∧ (∀ r ∈ s.dbg.runs, r.session ≠ x.num) ∧ (∀ o ∈ s.hmp.outs, o.session = x.num → o.opcode ≠ 0x0D06) ∧ s.reaches 16 16 ∧ (∀ f ∈ s.noc.flights, f.asks = true → f.master ≠ 16) ∧ s.badMem = [] ∧ 0x4000000 ≤ a ∧ a + len ≤ 0x4200000
abbrev Meets.DebugRunsAndStreams1 := fun (s : State) (msg : Msg) (x : Session) (a len : Nat) =>
  s.Inv ∧ msg.port ≠ .mgmt ∧ x.debug = true ∧ leAt (msgBody msg x) 0 8 = a ∧ leAt (msgBody msg x) 8 4 = len ∧ a % 4 = 0 ∧ len % 4 = 0 ∧ 4 ≤ len ∧ len ≤ 16777216 ∧ s.takes msg 0x0D06 x ∧ (msgBody msg x).length = 16 ∧ leAt (msgBody msg x) 12 1 ≤ 1 ∧ leAt (msgBody msg x) 13 3 = 0 ∧ (∃ r ∈ s.dbg.runs, r.session = x.num)
abbrev Meets.DebugRunsAndStreams2 := fun (s : State) (msg : Msg) (x : Session) (a len : Nat) =>
  s.Inv ∧ msg.port ≠ .mgmt ∧ x.debug = true ∧ leAt (msgBody msg x) 0 8 = a ∧ leAt (msgBody msg x) 8 4 = len ∧ a % 4 = 0 ∧ len % 4 = 0 ∧ 4 ≤ len ∧ len ≤ 16777216 ∧ s.takes msg 0x0D07 x ∧ (msgBody msg x).length = 12 ∧ (∀ r ∈ s.dbg.runs, r.session ≠ x.num)
abbrev Meets.DebugRunsAndStreams3 := fun (s : State) r x p =>
  s.Inv ∧ s.dbg.runs = [r] ∧ r.opcode = 0x0D06 ∧ r.err = 0 ∧ r.offset + 4 = r.len ∧ s.noc.flights = [p] ∧ p.asks = true ∧ p.master = 16 ∧ p.target = 16 ∧ p.addr = r.addr + r.offset ∧ p.addr % 4 = 0 ∧ 0x4000000 ≤ p.addr ∧ p.addr + 4 ≤ 0x4200000 ∧ p.timedOut = false ∧ p.lost = false ∧ p.stalled = false ∧ s.local ≤ p.due ∧ bit p.route.toNat 31 = true ∧ s.blocked false [] 16 p.route = false ∧ s.noc.flit = false ∧ s.noc.answer = false ∧ s.fenced 16 = false ∧ s.badByte p.addr 4 = none ∧ s.session r.session = some x ∧ x.key = none ∧ x.port ≠ .mgmt ∧ s.portUp x.port = true ∧ (∀ o ∈ s.hmp.outs, o.session = r.session → o.opcode ≠ 0x0D06)
abbrev Meets.DebugRunsAndStreams4 := fun (s : State) r x =>
  s.Inv ∧ (∀ y ∈ s.dbg.runs, y.over = true) ∧ s.dbg.runs.head? = some r ∧ s.session r.session = some x ∧ x.key = none ∧ (x.port ≠ .mgmt ∨ s.mcReached = true) ∧ s.portUp x.port = true
abbrev Meets.DebugRunsAndStreams5 := fun (s : State) (m : Msg) (i : InStream) (y : Session) =>
  s.Inv ∧ s.portUp m.port = true ∧ m.port ≠ .mgmt ∧ m.version = 1 ∧ i ∈ s.hmp.ins ∧ i.session = m.session.toNat ∧ i.opcode = m.opcode.toNat ∧ msgSound m 4 = true ∧ (∀ j ∈ s.hmp.ins, j.session = i.session → j.opcode = i.opcode ∨ j.kind = i.kind → j = i) ∧ s.session m.session.toNat = some y ∧ y.key = none ∧ i.kind = .update ∧ (s.mcReached && s.mgt.mcUp) = false
abbrev Meets.DebugRunsAndStreams6 := fun (s : State) (m : Msg) (i : InStream) (y : Session) =>
  s.Inv ∧ s.portUp m.port = true ∧ m.port ≠ .mgmt ∧ m.version = 1 ∧ i ∈ s.hmp.ins ∧ i.session = m.session.toNat ∧ i.opcode = m.opcode.toNat ∧ msgSound m 4 = true ∧ (∀ j ∈ s.hmp.ins, j.session = i.session → j.opcode = i.opcode ∨ j.kind = i.kind → j = i) ∧ s.session m.session.toNat = some y ∧ y.key = none ∧ m.seq.toNat = i.next ∧ i.early = [] ∧ i.kind = .capset
abbrev Meets.DebugRunsAndStreams7 := fun (s : State) (m : Msg) (i : InStream) (y : Session) =>
  s.Inv ∧ s.portUp m.port = true ∧ m.port ≠ .mgmt ∧ m.version = 1 ∧ i ∈ s.hmp.ins ∧ i.session = m.session.toNat ∧ i.opcode = m.opcode.toNat ∧ msgSound m 4 = true ∧ (∀ j ∈ s.hmp.ins, j.session = i.session → j.opcode = i.opcode ∨ j.kind = i.kind → j = i) ∧ s.session m.session.toNat = some y ∧ y.key = none ∧ i.next < m.seq.toNat ∧ (i.kind = .update → (s.mcReached && s.mgt.mcUp) = true) ∧ m.seq.toNat < i.next + 4096 ∧ (∀ e ∈ i.early, e.1 ≠ m.seq.toNat ∧ e.1 ≠ i.next) ∧ i.next ≠ 0
abbrev Meets.DebugRunsAndStreams8 := fun (s : State) (m : Msg) (o : OutStream) (y : Session) =>
  s.Inv ∧ s.portUp m.port = true ∧ m.port ≠ .mgmt ∧ m.version = 1 ∧ o ∈ s.hmp.outs ∧ o.session = m.session.toNat ∧ o.opcode = m.opcode.toNat ∧ msgSound m 5 = true ∧ (∀ p ∈ s.hmp.outs, p.session = o.session → p.opcode = o.opcode → p = o) ∧ s.session m.session.toNat = some y ∧ y.key = none ∧ s.snp.stream = none ∧ o.sent = o.data.length
abbrev Meets.DebugRunsAndStreams9 := fun (s : State) (o : OutStream) (y : Session) =>
  s.Inv ∧ s.hmp.outs = [o] ∧ s.session o.session = some y ∧ y.key = none ∧ (s.portUp .opt0 = true ∨ s.portUp .opt1 = true)
abbrev Meets.DebugRunsAndStreams10 := fun (s : State) (o : OutStream) (y : Session) =>
  s.Inv ∧ s.hmp.outs = [o] ∧ s.session o.session = some y ∧ y.key = none ∧ s.portUp .opt0 = false ∧ s.portUp .opt1 = false

/-- What the hypotheses of DebugRunsAndStreams ask, met together. -/
theorem witness_DebugRunsAndStreams :
    Meets.DebugRunsAndStreams0 { inIdle with mem := [(0x4000003, 7)] } (msg 0x0D06 (leBytes 8 0x4000000 ++ leBytes 4 16 ++ leBytes 4 0)) sess5 0x4000000 16 ∧
    Meets.DebugRunsAndStreams0 { inIdle with mem := [(0x4000007, 7)] } (msg 0x0D06 (leBytes 8 0x4000004 ++ leBytes 4 8192 ++ leBytes 4 1)) sess5 0x4000004 8192 ∧
    Meets.DebugRunsAndStreams1 { inIdle with dbg := { State.reset.dbg with runs := [busyRun] } } (msg 0x0D06 (leBytes 8 0x4000000 ++ leBytes 4 16 ++ leBytes 4 0)) sess5 0x4000000 16 ∧
    Meets.DebugRunsAndStreams2 inIdle (msg 0x0D07 (leBytes 8 0x4000000 ++ leBytes 4 0x1000000)) sess5 0x4000000 0x1000000 ∧
    Meets.DebugRunsAndStreams3 { inIdle with dbg := { State.reset.dbg with runs := [waitRun] }, mem := [(0x400000D, 7)], noc := { State.reset.noc with flights := [waitFl] } } waitRun sess5 waitFl ∧
    Meets.DebugRunsAndStreams4 { inIdle with dbg := { State.reset.dbg with runs := [busyRun] } } busyRun sess5 ∧
    Meets.DebugRunsAndStreams5 { (listening ⟨5, .update, 0x0F12, 3, [], 0, 64⟩) with mgt := { Mgt.reset with xingUp := false } } (streamMsg 0x0F12 3) (⟨5, .update, 0x0F12, 3, [], 0, 64⟩ : InStream) sess5 ∧
    Meets.DebugRunsAndStreams6 (listening capIn) (streamMsg 0x0702 3) capIn sess5 ∧
    Meets.DebugRunsAndStreams7 (listening capIn) (streamMsg 0x0702 4098) capIn sess5 ∧
    Meets.DebugRunsAndStreams8 (sending ⟨5, 0x0703, [[1], [2], [3]], 6, 3⟩) (streamMsg 0x0703 7 5) (⟨5, 0x0703, [[1], [2], [3]], 6, 3⟩ : OutStream) sess5 ∧
    Meets.DebugRunsAndStreams8 (sending ⟨5, 0x0703, [[1], [2], [3]], 6, 3⟩) (streamMsg 0x0703 8 5) (⟨5, 0x0703, [[1], [2], [3]], 6, 3⟩ : OutStream) sess5 ∧
    Meets.DebugRunsAndStreams9 (sending ⟨5, 0x0703, [[1], [2], [3]], 6, 3⟩) (⟨5, 0x0703, [[1], [2], [3]], 6, 3⟩ : OutStream) sess5 ∧
    Meets.DebugRunsAndStreams10 ((sending ⟨5, 0x0703, [[1], [2], [3]], 6, 3⟩).unlinked) (⟨5, 0x0703, [[1], [2], [3]], 6, 3⟩ : OutStream) sess5 :=
  ⟨by refine ⟨inv_of ?_, ?_, ?_, ?_, ?_, ?_, ?_, ?_, ?_, takes_msg ?_ ?_, ?_, ?_, ?_, ?_, ?_, reaches_of ?_, ?_, ?_, ?_, ?_⟩ <;> decide +kernel,
    by refine ⟨inv_of ?_, ?_, ?_, ?_, ?_, ?_, ?_, ?_, ?_, takes_msg ?_ ?_, ?_, ?_, ?_, ?_, ?_, reaches_of ?_, ?_, ?_, ?_, ?_⟩ <;> decide +kernel,
    by refine ⟨inv_of ?_, ?_, ?_, ?_, ?_, ?_, ?_, ?_, ?_, takes_msg ?_ ?_, ?_, ?_, ?_, ?_⟩ <;> decide +kernel,
    by refine ⟨inv_of ?_, ?_, ?_, ?_, ?_, ?_, ?_, ?_, ?_, takes_msg ?_ ?_, ?_, ?_⟩ <;> decide +kernel,
    by refine ⟨inv_of ?_, ?_, ?_, ?_, ?_, ?_, ?_, ?_, ?_, ?_, ?_, ?_, ?_, ?_, ?_, ?_, ?_, ?_, ?_, ?_, ?_, ?_, ?_, ?_, ?_, ?_, ?_, ?_⟩ <;> decide +kernel,
    by refine ⟨inv_of ?_, ?_, ?_, ?_, ?_, ?_, ?_⟩ <;> decide +kernel,
    by refine ⟨inv_of ?_, ?_, ?_, ?_, ?_, ?_, ?_, ?_, ?_, ?_, ?_, ?_, ?_⟩ <;> decide +kernel,
    by refine ⟨inv_of ?_, ?_, ?_, ?_, ?_, ?_, ?_, ?_, ?_, ?_, ?_, ?_, ?_, ?_⟩ <;> decide +kernel,
    by refine ⟨inv_of ?_, ?_, ?_, ?_, ?_, ?_, ?_, ?_, ?_, ?_, ?_, ?_, ?_, ?_, ?_, ?_⟩ <;> decide +kernel,
    by refine ⟨inv_of ?_, ?_, ?_, ?_, ?_, ?_, ?_, ?_, ?_, ?_, ?_, ?_, ?_⟩ <;> decide +kernel,
    by refine ⟨inv_of ?_, ?_, ?_, ?_, ?_, ?_, ?_, ?_, ?_, ?_, ?_, ?_, ?_⟩ <;> decide +kernel,
    by refine ⟨inv_of ?_, ?_, ?_, ?_, ?_⟩ <;> decide +kernel,
    by refine ⟨inv_of ?_, ?_, ?_, ?_, ?_, ?_⟩ <;> decide +kernel⟩

abbrev Meets.BanksAndCellsAreConfigured0 := fun (m n : Nat) (d : Word) (s : State) =>
  s.Inv ∧ s.reaches m 17 ∧ n < 16 ∧ bits d.toNat 0 3 < 6 ∧ (s.flag (F.FIO_BANK_PG n) = false ∨ s.flag F.FIO_STAT_DRIVE = false ∨ bits d.toNat 0 3 = s.fld (F.FIO_BANK_VSEL n))
abbrev Meets.BanksAndCellsAreConfigured1 := fun (m n : Nat) (d : Word) (s : State) =>
  s.Inv ∧ s.reaches m 17 ∧ n < 16 ∧ (6 ≤ bits d.toNat 0 3 ∨ s.flag (F.FIO_BANK_PG n) = true ∧ s.flag F.FIO_STAT_DRIVE = true ∧ bits d.toNat 0 3 ≠ s.fld (F.FIO_BANK_VSEL n))
abbrev Meets.BanksAndCellsAreConfigured2 := fun (m n : Nat) (s : State) =>
  s.Inv ∧ s.reaches m 17 ∧ n < 512
abbrev Meets.BanksAndCellsAreConfigured3 := fun (n : Nat) (s : State) =>
  s.Inv ∧ n < 16 ∧ s.ctl.fieldPower = true ∧ s.beforeOut 240 = true
abbrev Meets.BanksAndCellsAreConfigured4 := fun (n : Nat) (s : State) =>
  s.Inv ∧ n < 16 ∧ s.ctl.fieldPower = true ∧ s.beforeOut 240 = false
abbrev Meets.BanksAndCellsAreConfigured5 := fun (s : State) =>
  s.Inv ∧ s.ctl.fieldPower = true
abbrev Meets.BanksAndCellsAreConfigured6 := fun (n : Nat) (s : State) =>
  s.Inv ∧ n < 16 ∧ NSet.has s.fb.pg n = true
abbrev Meets.BanksAndCellsAreConfigured7 := fun (n : Nat) (s : State) =>
  s.Inv ∧ NSet.has s.fb.settling n = true

/-- What the hypotheses of BanksAndCellsAreConfigured ask, met together. -/
theorem witness_BanksAndCellsAreConfigured :
    Meets.BanksAndCellsAreConfigured0 0 15 5 State.reset ∧
    Meets.BanksAndCellsAreConfigured0 0 0 0 (State.reset.setFlds [(F.FIO_BANK_PG 0, 1), (F.FIO_STAT_DRIVE, 1)]) ∧
    Meets.BanksAndCellsAreConfigured1 0 0 6 State.reset ∧
    Meets.BanksAndCellsAreConfigured1 0 15 5 (State.reset.setFlds [(F.FIO_BANK_PG 15, 1), (F.FIO_STAT_DRIVE, 1)]) ∧
    Meets.BanksAndCellsAreConfigured2 0 511 State.reset ∧
    Meets.BanksAndCellsAreConfigured3 15 { (State.reset.setFld (F.FIO_BANK_VSEL 15) 5) with fio := { Fio.reset with cfgDue := [15], start := [15] } } ∧
    Meets.BanksAndCellsAreConfigured3 0 { inArmed with fio := { Fio.reset with later := [hw .idle] } } ∧
    Meets.BanksAndCellsAreConfigured4 15 (clocked inRun) ∧
    Meets.BanksAndCellsAreConfigured5 State.reset ∧
    Meets.BanksAndCellsAreConfigured5 (clocked inRun) ∧
    Meets.BanksAndCellsAreConfigured6 15 { State.reset with fb := { Fb.reset with pg := [15] } } ∧
    Meets.BanksAndCellsAreConfigured7 15 { State.reset with fb := { Fb.reset with settling := [15] } } :=
  ⟨by refine ⟨inv_of ?_, reaches_of ?_, ?_, ?_, ?_⟩ <;> decide +kernel,
    by refine ⟨inv_of ?_, reaches_of ?_, ?_, ?_, ?_⟩ <;> decide +kernel,
    by refine ⟨inv_of ?_, reaches_of ?_, ?_, ?_⟩ <;> decide +kernel,
    by refine ⟨inv_of ?_, reaches_of ?_, ?_, ?_⟩ <;> decide +kernel,
    by refine ⟨inv_of ?_, reaches_of ?_, ?_⟩ <;> decide +kernel,
    by refine ⟨inv_of ?_, ?_, ?_, ?_⟩ <;> decide +kernel,
    by refine ⟨inv_of ?_, ?_, ?_, ?_⟩ <;> decide +kernel,
    by refine ⟨inv_of ?_, ?_, ?_, ?_⟩ <;> decide +kernel,
    by refine ⟨inv_of ?_, ?_⟩ <;> decide +kernel,
    by refine ⟨inv_of ?_, ?_⟩ <;> decide +kernel,
    by refine ⟨inv_of ?_, ?_, ?_⟩ <;> decide +kernel,
    by refine ⟨inv_of ?_, ?_⟩ <;> decide +kernel⟩

abbrev Meets.FieldFramesAreServedAtBothEnds0 := fun (f : HubFrame) (b : List Byte) =>
  b = f.bytes ∧ (match f with | .out _ q _ c h ns out oe => q < 256 ∧ c < 2 ^ 32 ∧ h < 2 ^ 16 ∧ ns < 2 ^ 32 ∧ out.Pairwise (· < ·) ∧ oe.Pairwise (· < ·) ∧ ∀ k ∈ out ++ oe, k < 512 | .config n v cells => n < 256 ∧ v < 256 ∧ cells.length = 32 | .resend q => q < 256 | _ => True)
abbrev Meets.FieldFramesAreServedAtBothEnds1 := fun (f : FbFrame) (b : List Byte) =>
  b = f.bytes ∧ (match f with | .inp q c g i x => q < 256 ∧ c < 2 ^ 32 ∧ g < 2 ^ 16 ∧ i.Pairwise (· < ·) ∧ x.Pairwise (· < ·) ∧ ∀ k ∈ i ++ x, k < 512 | .idle g => g < 2 ^ 16 | .nak q g => q < 256 ∧ g < 2 ^ 16 | .bad q k => q < 256 ∧ k < 256)
abbrev Meets.FieldFramesAreServedAtBothEnds2 := fun (s : State) (w : Wire) (rest : List Wire) p q drive c h ns out oe =>
  s.Inv ∧ s.fio.toFb = w :: rest ∧ (s.fb.naked = true → w.again = true) ∧ crcOk w.bytes = true ∧ readHub w.bytes = some (.out p q drive c h ns out oe) ∧ (s.fb.prev = none ∨ ∃ k, s.fb.prev = some ((q + 255) % 256, k) ∧ (p = true ∨ c % 2 ^ 32 = (k + 1) % 2 ^ 32)) ∧ (p = true → drive = false)
abbrev Meets.FieldFramesAreServedAtBothEnds3 := fun (s : State) (w : Wire) (rest : List Wire) p q drive c h ns out oe j k =>
  s.Inv ∧ s.fio.toFb = w :: rest ∧ (s.fb.naked = true → w.again = true) ∧ crcOk w.bytes = true ∧ readHub w.bytes = some (.out p q drive c h ns out oe) ∧ s.fb.prev = some (j, k) ∧ (q ≠ (j + 1) % 256 ∨ p = false ∧ c % 2 ^ 32 ≠ (k + 1) % 2 ^ 32)
abbrev Meets.FieldFramesAreServedAtBothEnds4 := fun (s : State) (w : Wire) (rest : List Wire) =>
  s.Inv ∧ s.fio.toFb = w :: rest ∧ (s.fb.naked = true → w.again = true) ∧ crcOk w.bytes = true ∧ readHub w.bytes = none ∧ (frameType w.bytes = 1 ∨ hubLength (frameType w.bytes) = 0)
abbrev Meets.FieldFramesAreServedAtBothEnds5 := fun (s : State) (w : Wire) (rest : List Wire) (p e : Bool) =>
  s.Inv ∧ s.fio.toFb = w :: rest ∧ (s.fb.naked = true → w.again = true) ∧ frameType w.bytes = (if p then 2 else 1) ∧ (e = true ∨ crcOk w.bytes = false)
abbrev Meets.FieldFramesAreServedAtBothEnds6 := fun (s : State) =>
  s.Inv ∧ s.fb.naked = true ∧ (∀ f ∈ s.fio.toFb, f.held = true)
abbrev Meets.FieldFramesAreServedAtBothEnds7 := fun (s : State) (w : Wire) (rest : List Wire) n v cells =>
  s.Inv ∧ s.fio.toFb = w :: rest ∧ crcOk w.bytes = true ∧ readHub w.bytes = some (.config n v cells) ∧ SMap.wf 0 s.fb.vsel = true ∧ SMap.wf 0 s.fb.cells = true
abbrev Meets.FieldFramesAreServedAtBothEnds8 := fun (s : State) (w : Wire) (rest : List Wire) =>
  s.Inv ∧ s.fio.toFb = w :: rest ∧ crcOk w.bytes = true ∧ readHub w.bytes = some .inert
abbrev Meets.FieldFramesAreServedAtBothEnds9 := fun (s : State) (w : Wire) (rest : List Wire) =>
  s.Inv ∧ s.fio.toFb = w :: rest ∧ crcOk w.bytes = true ∧ readHub w.bytes = some .idle
abbrev Meets.FieldFramesAreServedAtBothEnds10 := fun (s : State) (w : Wire) (rest : List Wire) q a =>
  s.Inv ∧ s.fio.toFb = w :: rest ∧ crcOk w.bytes = true ∧ readHub w.bytes = some (.resend q) ∧ s.fb.kept.find? (FbFrame.answers q) = some a
abbrev Meets.FieldFramesAreServedAtBothEnds11 := fun (s : State) (w : Wire) (rest : List Wire) e =>
  s.Inv ∧ s.fio.toFb = w :: rest ∧ frameType w.bytes = 3 ∧ (e = true ∨ crcOk w.bytes = false)
abbrev Meets.FieldFramesAreServedAtBothEnds12 := fun (s : State) =>
  s.Inv
abbrev Meets.FieldFramesAreServedAtBothEnds13 := fun (s : State) (w : Wire) (rest : List Wire) q c g i x u r =>
  s.Inv ∧ s.fio.toHub = w :: rest ∧ crcOk w.bytes = true ∧ readFb w.bytes = some (.inp q c g i x) ∧ s.oldest q c = u :: r ∧ u.seq = q ∧ u.cyc % 2 ^ 32 = c ∧ u.stale = false
abbrev Meets.FieldFramesAreServedAtBothEnds14 := fun (s : State) (w : Wire) (rest : List Wire) q c g i x =>
  s.Inv ∧ s.fio.toHub = w :: rest ∧ crcOk w.bytes = true ∧ readFb w.bytes = some (.inp q c g i x) ∧ (∀ u r, s.oldest q c = u :: r → u.seq ≠ q ∨ u.cyc % 2 ^ 32 ≠ c)
abbrev Meets.FieldFramesAreServedAtBothEnds15 := fun (s : State) (w : Wire) (rest : List Wire) =>
  s.Inv ∧ s.fio.toHub = w :: rest ∧ crcOk w.bytes = true ∧ readFb w.bytes = none ∧ frameType w.bytes = 0x11
abbrev Meets.FieldFramesAreServedAtBothEnds16 := fun (s : State) (w : Wire) (rest : List Wire) =>
  s.Inv ∧ s.fio.toHub = w :: rest ∧ crcOk w.bytes = true ∧ readFb w.bytes = none ∧ fbLength (frameType w.bytes) = 0
abbrev Meets.FieldFramesAreServedAtBothEnds17 := fun (s : State) (w : Wire) (rest : List Wire) q g =>
  s.Inv ∧ s.fio.toHub = w :: rest ∧ crcOk w.bytes = true ∧ readFb w.bytes = some (.nak q g)
abbrev Meets.FieldFramesAreServedAtBothEnds18 := fun (s : State) (w : Wire) (rest : List Wire) g =>
  s.Inv ∧ s.fio.toHub = w :: rest ∧ crcOk w.bytes = true ∧ readFb w.bytes = some (.idle g)
abbrev Meets.FieldFramesAreServedAtBothEnds19 := fun (s : State) (w : Wire) (rest : List Wire) q k =>
  s.Inv ∧ s.fio.toHub = w :: rest ∧ crcOk w.bytes = true ∧ readFb w.bytes = some (.bad q k)
abbrev Meets.FieldFramesAreServedAtBothEnds20 := fun (s : State) (w : Wire) (rest : List Wire) e =>
  s.Inv ∧ s.fio.toHub = w :: rest ∧ frameType w.bytes = 0x11 ∧ (e = true ∨ crcOk w.bytes = false)
abbrev Meets.FieldFramesAreServedAtBothEnds21 := fun (s : State) n =>
  s.Inv ∧ s.fio.late = some n ∧ s.flag F.FIO_STAT_LATE = true
abbrev Meets.FieldFramesAreServedAtBothEnds22 := fun (s : State) =>
  s.Inv ∧ s.flag F.FIO_STAT_UP = true

/-- What the hypotheses of FieldFramesAreServedAtBothEnds ask, met together. -/
theorem witness_FieldFramesAreServedAtBothEnds :
    Meets.FieldFramesAreServedAtBothEnds0 (.out true 255 true 0xFFFFFFFF 0xFFFF 0xFFFFFFFF [0, 511] [7] : HubFrame) ((HubFrame.out true 255 true 0xFFFFFFFF 0xFFFF 0xFFFFFFFF [0, 511] [7]).bytes) ∧
    Meets.FieldFramesAreServedAtBothEnds0 (.config 15 5 (List.replicate 32 0xE3F2) : HubFrame) ((HubFrame.config 15 5 (List.replicate 32 0xE3F2)).bytes) ∧
    Meets.FieldFramesAreServedAtBothEnds0 (.resend 255 : HubFrame) ((HubFrame.resend 255).bytes) ∧
    Meets.FieldFramesAreServedAtBothEnds1 (.inp 255 0xFFFFFFFF 0xFFFF [0, 511] [] : FbFrame) ((FbFrame.inp 255 0xFFFFFFFF 0xFFFF [0, 511] []).bytes) ∧
    Meets.FieldFramesAreServedAtBothEnds1 (.bad 255 255 : FbFrame) ((FbFrame.bad 255 255).bytes) ∧
    Meets.FieldFramesAreServedAtBothEnds2 (fbAt [hw (.out true 255 false 4 0 0 [1] [2]), hw .idle]) (hw (.out true 255 false 4 0 0 [1] [2])) [hw .idle] true 255 false 4 0 0 [1] [2] ∧
    Meets.FieldFramesAreServedAtBothEnds2 (fbAt [hw (.out false 0 true 0 0 0 [1] [1, 2])] fun f => { f with prev := some (255, 0xFFFFFFFF), pg := [0, 1] }) (hw (.out false 0 true 0 0 0 [1] [1, 2])) [] false 0 true 0 0 0 [1] [1, 2] ∧
    Meets.FieldFramesAreServedAtBothEnds2 (fbAt [hw (.out false 0 true 0 0 0 [1] [2]) true, hw .idle] fun f => { f with prev := some (255, 0xFFFFFFFF), naked := true }) (hw (.out false 0 true 0 0 0 [1] [2]) true) [hw .idle] false 0 true 0 0 0 [1] [2] ∧
    Meets.FieldFramesAreServedAtBothEnds3 (fbAt [hw (.out false 5 true 0 0 0 [1] [2])] fun f => { f with prev := some (3, 0xFFFFFFFF), active := true }) (hw (.out false 5 true 0 0 0 [1] [2])) [] false 5 true 0 0 0 [1] [2] 3 0xFFFFFFFF ∧
    Meets.FieldFramesAreServedAtBothEnds4 (fbAt [badOut] fun f => { f with active := true }) badOut [] ∧
    Meets.FieldFramesAreServedAtBothEnds4 (fbAt [noType] fun f => { f with active := true }) noType [] ∧
    Meets.FieldFramesAreServedAtBothEnds5 (fbAt [hw (.out false 0 true 0 0 0 [1] [2])] fun f => { f with active := true }) (hw (.out false 0 true 0 0 0 [1] [2])) [] false true ∧
    Meets.FieldFramesAreServedAtBothEnds5 (fbAt [hw (.out true 0 false 0 0 0 [1] [2]) true] fun f => { f with active := true }) (hw (.out true 0 false 0 0 0 [1] [2]) true) [] true true ∧
    Meets.FieldFramesAreServedAtBothEnds6 (fbAt [hw (.out false 0 true 0 0 0 [1] [2]), hw (.out false 1 true 1 0 0 [1] [2])] fun f => { f with naked := true }) ∧
    Meets.FieldFramesAreServedAtBothEnds7 (((fbAt [hw (.config 15 5 (List.replicate 32 7))] fun f => { f with pg := [15] }).setFld (F.FIO_BANK_VSEL 15) 5).starting 15) (hw (.config 15 5 (List.replicate 32 7))) [] 15 5 (List.replicate 32 (7 : Word)) ∧
    Meets.FieldFramesAreServedAtBothEnds7 (fbAt [hw (.config 0 0 (List.replicate 32 7))] fun f => { f with pg := [15] }) (hw (.config 0 0 (List.replicate 32 7))) [] 0 0 (List.replicate 32 (7 : Word)) ∧
    Meets.FieldFramesAreServedAtBothEnds8 (fbAt [hw .inert] fun f => { f with active := true }) (hw .inert) [] ∧
    Meets.FieldFramesAreServedAtBothEnds9 (fbAt [hw .idle]) (hw .idle) [] ∧
    Meets.FieldFramesAreServedAtBothEnds10 (fbAt [hw (.resend 3)] fun f => { f with kept := [.inp 3 4 0 [1] []] }) (hw (.resend 3)) [] 3 (.inp 3 4 0 [1] [] : FbFrame) ∧
    Meets.FieldFramesAreServedAtBothEnds11 (fbAt [hw (.config 0 0 (List.replicate 32 7))] fun f => { f with pg := [15] }) (hw (.config 0 0 (List.replicate 32 7))) [] true ∧
    Meets.FieldFramesAreServedAtBothEnds12 (fbAt [] fun f => { f with active := true }) ∧
    Meets.FieldFramesAreServedAtBothEnds13 (hubAt [fw (.inp 3 4 0x8001 [1] [511])] fun f => { f with waiting := [{ unans 2 3 with frame := none }, unans 3 4], late := some 6 }) (fw (.inp 3 4 0x8001 [1] [511])) [] 3 4 0x8001 [1] [511] (unans 3 4) ([] : List Unanswered) ∧
    Meets.FieldFramesAreServedAtBothEnds14 (hubAt [fw (.inp 3 4 0 [] [])] fun f => { f with waiting := [unans 3 5] }) (fw (.inp 3 4 0 [] [])) [] 3 4 0 [] [] ∧
    Meets.FieldFramesAreServedAtBothEnds15 (hubAt [badIn]) badIn [] ∧
    Meets.FieldFramesAreServedAtBothEnds16 (hubAt [noType]) noType [] ∧
    Meets.FieldFramesAreServedAtBothEnds17 (hubAt [fw (.nak 3 0)] fun f => { f with waiting := [unans 3 5] }) (fw (.nak 3 0)) [] 3 0 ∧
    Meets.FieldFramesAreServedAtBothEnds18 (hubAt [fw (.idle 0x8001)]) (fw (.idle 0x8001)) [] 0x8001 ∧
    Meets.FieldFramesAreServedAtBothEnds19 (hubAt [fw (.bad 3 2)]) (fw (.bad 3 2)) [] 3 2 ∧
    Meets.FieldFramesAreServedAtBothEnds20 (hubAt [fw (.inp 3 4 0 [] [])]) (fw (.inp 3 4 0 [] [])) [] true ∧
    Meets.FieldFramesAreServedAtBothEnds20 { (hubAt [fw (.inp 3 4 0 [] [])]) with regs := (clocked inRun).regs } (fw (.inp 3 4 0 [] [])) [] true ∧
    Meets.FieldFramesAreServedAtBothEnds20 (hubAt [fw (.inp 3 4 0 [] []) true]) (fw (.inp 3 4 0 [] []) true) [] true ∧
    Meets.FieldFramesAreServedAtBothEnds21 ((hubAt [] fun f => { f with late := some 6 }).setFld F.FIO_STAT_LATE 1) 6 ∧
    Meets.FieldFramesAreServedAtBothEnds22 (hubAt []) ∧
    Meets.FieldFramesAreServedAtBothEnds22 { (hubAt []) with ldr := { inRun.ldr with img := some { header with flags := 0xFF } } } :=
  ⟨by refine ⟨?_, ?_⟩ <;> decide +kernel,
    by refine ⟨?_, ?_⟩ <;> decide +kernel,
    by refine ⟨?_, ?_⟩ <;> decide +kernel,
    by refine ⟨?_, ?_⟩ <;> decide +kernel,
    by refine ⟨?_, ?_⟩ <;> decide +kernel,
    by refine ⟨inv_of ?_, ?_, ?_, ?_, ?_, .inl rfl, ?_⟩ <;> decide +kernel,
    by refine ⟨inv_of ?_, ?_, ?_, ?_, ?_, .inr ⟨_, rfl, by decide⟩, ?_⟩ <;> decide +kernel,
    by refine ⟨inv_of ?_, ?_, ?_, ?_, ?_, .inr ⟨_, rfl, by decide⟩, ?_⟩ <;> decide +kernel,
    by refine ⟨inv_of ?_, ?_, ?_, ?_, ?_, ?_, ?_⟩ <;> decide +kernel,
    by refine ⟨inv_of ?_, ?_, ?_, ?_, ?_, ?_⟩ <;> decide +kernel,
    by refine ⟨inv_of ?_, ?_, ?_, ?_, ?_, ?_⟩ <;> decide +kernel,
    by refine ⟨inv_of ?_, ?_, ?_, ?_, ?_⟩ <;> decide +kernel,
    by refine ⟨inv_of ?_, ?_, ?_, ?_, ?_⟩ <;> decide +kernel,
    by refine ⟨inv_of ?_, ?_, ?_⟩ <;> decide +kernel,
    by refine ⟨inv_of ?_, ?_, ?_, ?_, ?_, ?_⟩ <;> decide +kernel,
    by refine ⟨inv_of ?_, ?_, ?_, ?_, ?_, ?_⟩ <;> decide +kernel,
    by refine ⟨inv_of ?_, ?_, ?_, ?_⟩ <;> decide +kernel,
    by refine ⟨inv_of ?_, ?_, ?_, ?_⟩ <;> decide +kernel,
    by refine ⟨inv_of ?_, ?_, ?_, ?_, ?_⟩ <;> decide +kernel,
    by refine ⟨inv_of ?_, ?_, ?_, ?_⟩ <;> decide +kernel,
    by refine inv_of ?_ <;> decide +kernel,
    by refine ⟨inv_of ?_, ?_, ?_, ?_, ?_, ?_, ?_, ?_⟩ <;> decide +kernel,
    by refine ⟨inv_of ?_, ?_, ?_, ?_, fun u r h => by have h : [unans 3 5] = u :: r := h; cases h; decide⟩ <;> decide +kernel,
    by refine ⟨inv_of ?_, ?_, ?_, ?_, ?_⟩ <;> decide +kernel,
    by refine ⟨inv_of ?_, ?_, ?_, ?_, ?_⟩ <;> decide +kernel,
    by refine ⟨inv_of ?_, ?_, ?_, ?_⟩ <;> decide +kernel,
    by refine ⟨inv_of ?_, ?_, ?_, ?_⟩ <;> decide +kernel,
    by refine ⟨inv_of ?_, ?_, ?_, ?_⟩ <;> decide +kernel,
    by refine ⟨inv_of ?_, ?_, ?_, ?_⟩ <;> decide +kernel,
    by refine ⟨inv_of ?_, ?_, ?_, ?_⟩ <;> decide +kernel,
    by refine ⟨inv_of ?_, ?_, ?_, ?_⟩ <;> decide +kernel,
    by refine ⟨inv_of ?_, ?_, ?_⟩ <;> decide +kernel,
    by refine ⟨inv_of ?_, ?_⟩ <;> decide +kernel,
    by refine ⟨inv_of ?_, ?_⟩ <;> decide +kernel⟩

abbrev Meets.PowerComesAndGoes0 := fun (s : State) =>
  s.Inv ∧ s.ctl.mode = .off
abbrev Meets.PowerComesAndGoes1 := fun (s : State) =>
  s.Inv ∧ s.mgt.lost = true ∧ s.ctl.corePower = false ∧ s.ctl.mode ≠ .off
abbrev Meets.PowerComesAndGoes2 := fun (s : State) =>
  s.Inv ∧ s.ctl.mode ≠ .off ∧ s.ctl.inputGood = true
abbrev Meets.PowerComesAndGoes3 := fun (s : State) =>
  s.Inv ∧ s.ctl.switchingOff = true ∧ s.ctl.corePower = true ∧ s.ctl.clock = false
abbrev Meets.PowerComesAndGoes4 := fun (s : State) =>
  s.Inv ∧ s.ctl.inputGood = false ∧ s.ctl.mode ≠ .off
abbrev Meets.PowerComesAndGoes5 := fun (s : State) r =>
  s.Inv ∧ (r ≤ 11 ∨ r = 14) ∧ s.ctl.corePower = true ∧ safeModes s = true

/-- What the hypotheses of PowerComesAndGoes ask, met together. -/
theorem witness_PowerComesAndGoes :
    Meets.PowerComesAndGoes0 inOff ∧
    Meets.PowerComesAndGoes1 { (dark .safe) with mgt := { Mgt.reset with lost := true } } ∧
    Meets.PowerComesAndGoes1 { (dark .standby) with mgt := setAuto { Mgt.reset with lost := true } } ∧
    Meets.PowerComesAndGoes2 inRun ∧
    Meets.PowerComesAndGoes2 { (dark .standby) with mgt := { Mgt.reset with logBuf := [⟨0, 0, 0, 0, false, []⟩] } } ∧
    Meets.PowerComesAndGoes3 { inSafe with ctl := { inSafe.ctl with switchingOff := true } } ∧
    Meets.PowerComesAndGoes3 { inSafe with ctl := { inSafe.ctl with switchingOff := true, inputGood := false }, mgt := { Mgt.reset with lost := true } } ∧
    Meets.PowerComesAndGoes4 { inSafe with ctl := { inSafe.ctl with inputGood := false } } ∧
    Meets.PowerComesAndGoes5 inRun 11 ∧
    Meets.PowerComesAndGoes5 inIdle 14 :=
  ⟨by refine ⟨inv_of ?_, ?_⟩ <;> decide +kernel,
    by refine ⟨inv_of ?_, ?_, ?_, ?_⟩ <;> decide +kernel,
    by refine ⟨inv_of ?_, ?_, ?_, ?_⟩ <;> decide +kernel,
    by refine ⟨inv_of ?_, ?_, ?_⟩ <;> decide +kernel,
    by refine ⟨inv_of ?_, ?_, ?_⟩ <;> decide +kernel,
    by refine ⟨inv_of ?_, ?_, ?_, ?_⟩ <;> decide +kernel,
    by refine ⟨inv_of ?_, ?_, ?_, ?_⟩ <;> decide +kernel,
    by refine ⟨inv_of ?_, ?_, ?_⟩ <;> decide +kernel,
    by refine ⟨inv_of ?_, ?_, ?_, ?_⟩ <;> decide +kernel,
    by refine ⟨inv_of ?_, ?_, ?_, ?_⟩ <;> decide +kernel⟩

abbrev Meets.ClocksAndTheCrossingAreWatched0 := fun (s : State) d =>
  s.Inv ∧ s.ctl.corePower = true ∧ s.clockKnown d = true ∧ (d < 6 → s.lge.wasLocked = true)
abbrev Meets.ClocksAndTheCrossingAreWatched1 := fun (s : State) =>
  s.Inv ∧ s.ctl.corePower = true ∧ s.lge.wasLocked = true
abbrev Meets.ClocksAndTheCrossingAreWatched2 := fun (s : State) =>
  s.Inv ∧ s.ctl.corePower = true ∧ s.fld F.SFB_CLK_MHZ ≠ 0
abbrev Meets.ClocksAndTheCrossingAreWatched3 := fun (s : State) =>
  s.Inv ∧ s.ctl.corePower = true ∧ s.mgt.mcUp = true
abbrev Meets.ClocksAndTheCrossingAreWatched4 := fun (s : State) =>
  s.Inv ∧ s.ctl.corePower = true ∧ s.mgt.mcUp = true ∧ s.mgt.xingUp = true
abbrev Meets.ClocksAndTheCrossingAreWatched5 := fun (s : State) =>
  s.Inv ∧ s.ctl.corePower = true ∧ s.mgt.mcUp = true ∧ s.mgt.xingUp = false

/-- What the hypotheses of ClocksAndTheCrossingAreWatched ask, met together. -/
theorem witness_ClocksAndTheCrossingAreWatched :
    Meets.ClocksAndTheCrossingAreWatched0 { inRun with lge := { inRun.lge with wasLocked := true } } 0 ∧
    Meets.ClocksAndTheCrossingAreWatched0 inIdle 6 ∧
    Meets.ClocksAndTheCrossingAreWatched1 { (clocked inRun) with lge := { inRun.lge with wasLocked := true } } ∧
    Meets.ClocksAndTheCrossingAreWatched1 { (clocked inIdle) with lge := { inRun.lge with wasLocked := true } } ∧
    Meets.ClocksAndTheCrossingAreWatched2 (State.reset.setFld F.SFB_CLK_MHZ 1000) ∧
    Meets.ClocksAndTheCrossingAreWatched3 State.reset ∧
    Meets.ClocksAndTheCrossingAreWatched4 State.reset ∧
    Meets.ClocksAndTheCrossingAreWatched5 { State.reset with mgt := { Mgt.reset with xingUp := false } } :=
  ⟨by refine ⟨inv_of ?_, ?_, ?_, ?_⟩ <;> decide +kernel,
    by refine ⟨inv_of ?_, ?_, ?_, ?_⟩ <;> decide +kernel,
    by refine ⟨inv_of ?_, ?_, ?_⟩ <;> decide +kernel,
    by refine ⟨inv_of ?_, ?_, ?_⟩ <;> decide +kernel,
    by refine ⟨inv_of ?_, ?_, ?_⟩ <;> decide +kernel,
    by refine ⟨inv_of ?_, ?_, ?_⟩ <;> decide +kernel,
    by refine ⟨inv_of ?_, ?_, ?_, ?_⟩ <;> decide +kernel,
    by refine ⟨inv_of ?_, ?_, ?_, ?_⟩ <;> decide +kernel⟩

abbrev Meets.BootAndModeRequestsChangeTheMode0 := fun (s : State) (b : Nat) =>
  s.Inv ∧ s.ctl.mode = .boot ∧ s.mgt.stage = 6 ∧ b < 16 ∧ s.march b = none
abbrev Meets.BootAndModeRequestsChangeTheMode1 := fun (s : State) =>
  s.Inv ∧ s.ctl.mode = .boot ∧ s.mgt.stage < 9
abbrev Meets.BootAndModeRequestsChangeTheMode2 := fun (s : State) =>
  s.Inv ∧ s.ctl.mode = .boot ∧ s.mgt.stage ≤ 4
abbrev Meets.BootAndModeRequestsChangeTheMode3 := fun (s : State) =>
  s.Inv ∧ s.ctl.mode = .boot ∧ 4 < s.mgt.stage ∧ s.mgt.stage < 16
abbrev Meets.BootAndModeRequestsChangeTheMode4 := fun (s : State) (m : Nat) (d : Word) =>
  s.Inv ∧ s.ctl.mode = .boot ∧ s.reaches m 17 ∧ bit d.toNat 31 = true ∧ s.mgt.stage = 9
abbrev Meets.BootAndModeRequestsChangeTheMode5 := fun (msg : Msg) (x : Session) (s : State) =>
  s.Inv ∧ s.hmp.claim = some x.num ∧ s.takes msg 0x0F07 x ∧ msgBody msg x = [] ∧ s.ctl.mode = .safe ∧ s.ctl.inputGood = true ∧ (s.fld F.PWR_IN_VIN = 0 ∨ 3600 ≤ s.fld F.PWR_IN_VIN) ∧ s.ctl.switchingOff = false ∧ s.ctl.corePower = true ∧ sgn 16 (s.fld F.PWR_THM_TJMAX) < (s.fld F.PWR_LIM_THROT : Int) * 16 - 80
abbrev Meets.BootAndModeRequestsChangeTheMode6 := fun (msg : Msg) (x : Session) (s : State) =>
  s.Inv ∧ s.hmp.claim = some x.num ∧ s.takes msg 0x0F07 x ∧ msgBody msg x = [] ∧ s.ctl.mode = .safe ∧ s.ctl.inputGood = true ∧ (s.fld F.PWR_IN_VIN = 0 ∨ 3600 ≤ s.fld F.PWR_IN_VIN) ∧ s.ctl.switchingOff = false ∧ s.ctl.corePower = false
abbrev Meets.BootAndModeRequestsChangeTheMode7 := fun (msg : Msg) (x : Session) (s : State) =>
  s.Inv ∧ s.hmp.claim = some x.num ∧ s.takes msg 0x0F07 x ∧ msgBody msg x = [] ∧ s.ctl.mode = .safe ∧ (s.ctl.inputGood = false ∨ (0 < s.fld F.PWR_IN_VIN ∧ s.fld F.PWR_IN_VIN < 3600) ∨ s.ctl.switchingOff = true ∨ s.ctl.corePower = true ∧ (s.fld F.PWR_LIM_THROT : Int) * 16 - 80 ≤ sgn 16 (s.fld F.PWR_THM_TJMAX))
abbrev Meets.BootAndModeRequestsChangeTheMode8 := fun (msg : Msg) (x : Session) (s : State) =>
  s.Inv ∧ s.hmp.claim = some x.num ∧ s.takes msg 0x0F09 x ∧ msgBody msg x = [] ∧ s.ctl.mode = .idle
abbrev Meets.BootAndModeRequestsChangeTheMode9 := fun (msg : Msg) (x : Session) (s : State) =>
  s.Inv ∧ s.hmp.claim = some x.num ∧ s.takes msg 0x0F0A x ∧ msgBody msg x = [] ∧ s.ctl.mode = .test
abbrev Meets.BootAndModeRequestsChangeTheMode10 := fun (msg : Msg) (x : Session) (s : State) =>
  s.Inv ∧ s.hmp.claim = some x.num ∧ s.takes msg 0x0F0B x ∧ (msgBody msg x).length = 4 ∧ leAt (msgBody msg x) 1 3 = 0 ∧ leAt (msgBody msg x) 0 1 = 1 ∧ s.ctl.mode = .standby ∧ s.ctl.inputGood = true ∧ s.mgt.recovery = false ∧ sgn 16 (s.fld F.PWR_THM_INLET) ≤ 720
abbrev Meets.BootAndModeRequestsChangeTheMode11 := fun (msg : Msg) (x : Session) (s : State) =>
  s.Inv ∧ s.hmp.claim = some x.num ∧ s.takes msg 0x0F0B x ∧ (msgBody msg x).length = 4 ∧ leAt (msgBody msg x) 1 3 = 0 ∧ leAt (msgBody msg x) 0 1 = 1 ∧ s.ctl.mode = .standby ∧ s.ctl.inputGood = true ∧ s.mgt.recovery = false ∧ 720 < sgn 16 (s.fld F.PWR_THM_INLET)
abbrev Meets.BootAndModeRequestsChangeTheMode12 := fun (msg : Msg) (x : Session) (s : State) =>
  s.Inv ∧ s.hmp.claim = some x.num ∧ s.takes msg 0x0F0B x ∧ (msgBody msg x).length = 4 ∧ leAt (msgBody msg x) 1 3 = 0 ∧ leAt (msgBody msg x) 0 1 = 0 ∧ s.ctl.mode ≠ .off ∧ s.ctl.mode ≠ .standby ∧ s.ctl.clock = false
abbrev Meets.BootAndModeRequestsChangeTheMode13 := fun (msg : Msg) (x : Session) (s : State) =>
  s.Inv ∧ s.hmp.claim = some x.num ∧ s.takes msg 0x0F0B x ∧ (msgBody msg x).length = 4 ∧ leAt (msgBody msg x) 1 3 = 0 ∧ leAt (msgBody msg x) 0 1 = 0 ∧ s.ctl.mode ≠ .off ∧ s.ctl.mode ≠ .standby ∧ s.ctl.clock = true

/-- What the hypotheses of BootAndModeRequestsChangeTheMode ask, met together. -/
theorem witness_BootAndModeRequestsChangeTheMode :
    Meets.BootAndModeRequestsChangeTheMode0 (bootAt 6) 15 ∧
    Meets.BootAndModeRequestsChangeTheMode1 State.reset ∧
    Meets.BootAndModeRequestsChangeTheMode1 (bootAt 8) ∧
    Meets.BootAndModeRequestsChangeTheMode1 (bootAt 6) ∧
    Meets.BootAndModeRequestsChangeTheMode1 (bootAt 7) ∧
    Meets.BootAndModeRequestsChangeTheMode2 State.reset ∧
    Meets.BootAndModeRequestsChangeTheMode3 (bootAt 5) ∧
    Meets.BootAndModeRequestsChangeTheMode3 (bootAt 15) ∧
    Meets.BootAndModeRequestsChangeTheMode4 (bootAt 9) 0 0x80000000 ∧
    Meets.BootAndModeRequestsChangeTheMode5 (msg 0x0F07) sess5 safeHost ∧
    Meets.BootAndModeRequestsChangeTheMode6 (mmsg 0x0F07) sess5 (dark .safe) ∧
    Meets.BootAndModeRequestsChangeTheMode7 (msg 0x0F07) sess5 (safeHost.setFld F.PWR_THM_TJMAX 1520) ∧
    Meets.BootAndModeRequestsChangeTheMode7 (mmsg 0x0F07) sess5 { (dark .safe) with ctl := { (dark .safe).ctl with inputGood := false } } ∧
    Meets.BootAndModeRequestsChangeTheMode8 (msg 0x0F09) sess5 inIdle ∧
    Meets.BootAndModeRequestsChangeTheMode9 (msg 0x0F0A) sess5 (inIdle.inMode .test) ∧
    Meets.BootAndModeRequestsChangeTheMode10 (mmsg 0x0F0B [1, 0, 0, 0]) sess5 ((dark .standby).setFld F.PWR_THM_INLET 720) ∧
    Meets.BootAndModeRequestsChangeTheMode11 (mmsg 0x0F0B [1, 0, 0, 0]) sess5 ((dark .standby).setFld F.PWR_THM_INLET 721) ∧
    Meets.BootAndModeRequestsChangeTheMode12 (mmsg 0x0F0B [0, 0, 0, 0]) sess5 inIdle ∧
    Meets.BootAndModeRequestsChangeTheMode12 (msg 0x0F0B [0, 0, 0, 0]) sess5 safeHost ∧
    Meets.BootAndModeRequestsChangeTheMode13 (mmsg 0x0F0B [0, 0, 0, 0]) sess5 inRun :=
  ⟨by refine ⟨inv_of ?_, ?_, ?_, ?_, ?_⟩ <;> decide +kernel,
    by refine ⟨inv_of ?_, ?_, ?_⟩ <;> decide +kernel,
    by refine ⟨inv_of ?_, ?_, ?_⟩ <;> decide +kernel,
    by refine ⟨inv_of ?_, ?_, ?_⟩ <;> decide +kernel,
    by refine ⟨inv_of ?_, ?_, ?_⟩ <;> decide +kernel,
    by refine ⟨inv_of ?_, ?_, ?_⟩ <;> decide +kernel,
    by refine ⟨inv_of ?_, ?_, ?_, ?_⟩ <;> decide +kernel,
    by refine ⟨inv_of ?_, ?_, ?_, ?_⟩ <;> decide +kernel,
    by refine ⟨inv_of ?_, ?_, reaches_of ?_, ?_, ?_⟩ <;> decide +kernel,
    by refine ⟨inv_of ?_, ?_, takes_msg ?_ ?_, ?_, ?_, ?_, ?_, ?_, ?_, ?_⟩ <;> decide +kernel,
    by refine ⟨inv_of ?_, ?_, takes_mmsg ?_ ?_, ?_, ?_, ?_, ?_, ?_, ?_⟩ <;> decide +kernel,
    by refine ⟨inv_of ?_, ?_, takes_msg ?_ ?_, ?_, ?_, ?_⟩ <;> decide +kernel,
    by refine ⟨inv_of ?_, ?_, takes_mmsg ?_ ?_, ?_, ?_, ?_⟩ <;> decide +kernel,
    by refine ⟨inv_of ?_, ?_, takes_msg ?_ ?_, ?_, ?_⟩ <;> decide +kernel,
    by refine ⟨inv_of ?_, ?_, takes_msg ?_ ?_, ?_, ?_⟩ <;> decide +kernel,
    by refine ⟨inv_of ?_, ?_, takes_mmsg ?_ ?_, ?_, ?_, ?_, ?_, ?_, ?_, ?_⟩ <;> decide +kernel,
    by refine ⟨inv_of ?_, ?_, takes_mmsg ?_ ?_, ?_, ?_, ?_, ?_, ?_, ?_, ?_⟩ <;> decide +kernel,
    by refine ⟨inv_of ?_, ?_, takes_mmsg ?_ ?_, ?_, ?_, ?_, ?_, ?_, ?_⟩ <;> decide +kernel,
    by refine ⟨inv_of ?_, ?_, takes_msg ?_ ?_, ?_, ?_, ?_, ?_, ?_, ?_⟩ <;> decide +kernel,
    by refine ⟨inv_of ?_, ?_, takes_mmsg ?_ ?_, ?_, ?_, ?_, ?_, ?_, ?_⟩ <;> decide +kernel⟩

abbrev Meets.ThermalLimitsAct0 := fun (s : State) =>
  s.Inv
abbrev Meets.ThermalLimitsAct1 := fun (s : State) =>
  s.Inv ∧ 100 ≤ s.thm.cool
abbrev Meets.ThermalLimitsAct2 := fun (s : State) =>
  s.Inv ∧ s.thm.cool < 100
abbrev Meets.ThermalLimitsAct3 := fun (s : State) =>
  s.Inv ∧ s.ctl.corePower = true ∧ safeModes s = true ∧ 1840 ≤ sgn 16 (s.fld F.PWR_THM_TJMAX)
abbrev Meets.ThermalLimitsAct4 := fun (s : State) =>
  s.Inv ∧ s.ctl.corePower = true ∧ s.ctl.mode = .safe ∧ s.ctl.reason = 8 ∧ 1680 ≤ sgn 16 (s.fld F.PWR_THM_TJMAX)

/-- What the hypotheses of ThermalLimitsAct ask, met together. -/
theorem witness_ThermalLimitsAct :
    Meets.ThermalLimitsAct0 { inRun with thm := ⟨false, 99, false, false, 1⟩ } ∧
    Meets.ThermalLimitsAct0 { inIdle with thm := ⟨true, 0, true, true, 0⟩ } ∧
    Meets.ThermalLimitsAct0 { inIdle with thm := ⟨false, 100, false, false, 1⟩ } ∧
    Meets.ThermalLimitsAct0 { (inRun.setFld F.SFB_THR_HWREQ 3) with thm := ⟨false, 100, false, false, 0⟩ } ∧
    Meets.ThermalLimitsAct0 (dark .safe) ∧
    Meets.ThermalLimitsAct0 { inOff with thm := ⟨false, 99, false, false, 1⟩ } ∧
    Meets.ThermalLimitsAct0 { inRun with mgt := { Mgt.reset with xingUp := false } } ∧
    Meets.ThermalLimitsAct1 { (inRun.setFld F.SFB_THR_HWREQ 3) with thm := ⟨false, 100, false, false, 0⟩ } ∧
    Meets.ThermalLimitsAct1 { ((member ring1 1).setFld F.SFB_THR_HWREQ 0) with thm := ⟨false, 101, false, false, 0⟩ } ∧
    Meets.ThermalLimitsAct2 { inRun with thm := ⟨false, 99, false, false, 0⟩ } ∧
    Meets.ThermalLimitsAct3 (inRun.setFld F.PWR_THM_TJMAX 1840) ∧
    Meets.ThermalLimitsAct4 { (inSafe.setFld F.PWR_THM_TJMAX 1680) with ctl := { inSafe.ctl with reason := 8 } } :=
  ⟨by refine inv_of ?_ <;> decide +kernel,
    by refine inv_of ?_ <;> decide +kernel,
    by refine inv_of ?_ <;> decide +kernel,
    by refine inv_of ?_ <;> decide +kernel,
    by refine inv_of ?_ <;> decide +kernel,
    by refine inv_of ?_ <;> decide +kernel,
    by refine inv_of ?_ <;> decide +kernel,
    by refine ⟨inv_of ?_, ?_⟩ <;> decide +kernel,
    by refine ⟨inv_of ?_, ?_⟩ <;> decide +kernel,
    by refine ⟨inv_of ?_, ?_⟩ <;> decide +kernel,
    by refine ⟨inv_of ?_, ?_, ?_, ?_⟩ <;> decide +kernel,
    by refine ⟨inv_of ?_, ?_, ?_, ?_, ?_⟩ <;> decide +kernel⟩

abbrev Meets.HoldCausesAndTheStepClockFollowTheirWrites0 := fun (s : State) (m : Nat) =>
  s.Inv ∧ s.reaches m 17
abbrev Meets.HoldCausesAndTheStepClockFollowTheirWrites1 := fun (s : State) =>
  s.Inv ∧ s.lge.held = true ∧ s.fld F.SFB_HOLD_LIMIT_US ≠ 0 ∧ s.lge.longDone = false
abbrev Meets.HoldCausesAndTheStepClockFollowTheirWrites2 := fun (s : State) k =>
  s.Inv ∧ k < 16 ∧ s.lge.thrDue = some k
abbrev Meets.HoldCausesAndTheStepClockFollowTheirWrites3 := fun (m : Nat) (s : State) =>
  s.Inv ∧ s.reaches m 17

/-- What the hypotheses of HoldCausesAndTheStepClockFollowTheirWrites ask, met together. -/
theorem witness_HoldCausesAndTheStepClockFollowTheirWrites :
    Meets.HoldCausesAndTheStepClockFollowTheirWrites0 (inRun.setReg A.SFB_HOLD_STAT 0xFFFF) 0 ∧
    Meets.HoldCausesAndTheStepClockFollowTheirWrites1 { (inRun.setFld F.SFB_HOLD_LIMIT_US 1) with lge := { inRun.lge with held := true } } ∧
    Meets.HoldCausesAndTheStepClockFollowTheirWrites2 { inRun with lge := { inRun.lge with thrDue := some 15 } } 15 ∧
    Meets.HoldCausesAndTheStepClockFollowTheirWrites2 { inRun with lge := { inRun.lge with thrDue := some 0 } } 0 ∧
    Meets.HoldCausesAndTheStepClockFollowTheirWrites3 0 State.reset ∧
    Meets.HoldCausesAndTheStepClockFollowTheirWrites3 0 State.reset ∧
    Meets.HoldCausesAndTheStepClockFollowTheirWrites3 0 State.reset ∧
    Meets.HoldCausesAndTheStepClockFollowTheirWrites3 0 inRun ∧
    Meets.HoldCausesAndTheStepClockFollowTheirWrites3 0 (member ring0 2 inArmed) ∧
    Meets.HoldCausesAndTheStepClockFollowTheirWrites3 0 (member ring0 0 inIdle) ∧
    Meets.HoldCausesAndTheStepClockFollowTheirWrites3 0 { (member ring0 0 inIdle) with lge := { (member ring0 0 inIdle).lge with tbsyncDue := true } } :=
  ⟨by refine ⟨inv_of ?_, reaches_of ?_⟩ <;> decide +kernel,
    by refine ⟨inv_of ?_, ?_, ?_, ?_⟩ <;> decide +kernel,
    by refine ⟨inv_of ?_, ?_, ?_⟩ <;> decide +kernel,
    by refine ⟨inv_of ?_, ?_, ?_⟩ <;> decide +kernel,
    by refine ⟨inv_of ?_, reaches_of ?_⟩ <;> decide +kernel,
    by refine ⟨inv_of ?_, reaches_of ?_⟩ <;> decide +kernel,
    by refine ⟨inv_of ?_, reaches_of ?_⟩ <;> decide +kernel,
    by refine ⟨inv_of ?_, reaches_of ?_⟩ <;> decide +kernel,
    by refine ⟨inv_of ?_, reaches_of ?_⟩ <;> decide +kernel,
    by refine ⟨inv_of ?_, reaches_of ?_⟩ <;> decide +kernel,
    by refine ⟨inv_of ?_, reaches_of ?_⟩ <;> decide +kernel⟩

abbrev Meets.RunControlRequests0 := fun (s : State) (msg : Msg) (x : Session) =>
  s.Inv ∧ s.hmp.claim = some x.num ∧ runModes s = true ∧ (s.leagueSize ≤ 1 ∨ (∀ k, Config.freeBit k = false) ∧ s.snp.restored = none) ∧ s.H + 2 ≤ s.L + s.S ∧ (s.fieldImage = false ∨ s.fld F.SFB_CLK_MHZ * 1000000 ≤ 2000000 * (s.L + s.S)) ∧ s.fld F.SFB_CLK_MHZ ≠ 0 ∧ s.flag F.SFB_CLK_LOCK = true ∧ s.lge.tbsyncDue = false ∧ s.lge.needSync = false ∧ s.takes msg 0x0F03 x ∧ msgBody msg x = []
abbrev Meets.RunControlRequests1 := fun (s : State) (msg : Msg) (x : Session) n =>
  s.Inv ∧ s.hmp.claim = some x.num ∧ runModes s = true ∧ (s.leagueSize ≤ 1 ∨ (∀ k, Config.freeBit k = false) ∧ s.snp.restored = none) ∧ s.H + 2 ≤ s.L + s.S ∧ (s.fieldImage = false ∨ s.fld F.SFB_CLK_MHZ * 1000000 ≤ 2000000 * (s.L + s.S)) ∧ s.fld F.SFB_CLK_MHZ ≠ 0 ∧ s.flag F.SFB_CLK_LOCK = true ∧ s.lge.tbsyncDue = false ∧ s.lge.needSync = false ∧ s.takes msg 0x0F04 x ∧ (msgBody msg x).length = 4 ∧ leAt (msgBody msg x) 0 4 = n ∧ n ≠ 0 ∧ s.lge.cycle + n < 2 ^ 64
abbrev Meets.RunControlRequests2 := fun (s : State) (msg : Msg) (x : Session) =>
  s.Inv ∧ s.hmp.claim = some x.num ∧ runModes s = true ∧ (s.leagueSize ≤ 1 ∨ (∀ k, Config.freeBit k = false) ∧ s.snp.restored = none) ∧ s.H + 2 ≤ s.L + s.S ∧ s.takes msg 0x0F03 x ∧ msgBody msg x = [] ∧ s.fieldImage = true ∧ 2000000 * (s.L + s.S) < s.fld F.SFB_CLK_MHZ * 1000000
abbrev Meets.RunControlRequests3 := fun (s : State) (msg : Msg) (x : Session) =>
  s.Inv ∧ s.hmp.claim = some x.num ∧ runModes s = true ∧ (s.leagueSize ≤ 1 ∨ (∀ k, Config.freeBit k = false) ∧ s.snp.restored = none) ∧ s.H + 2 ≤ s.L + s.S ∧ s.takes msg 0x0F03 x ∧ msgBody msg x = [] ∧ s.fieldImage = false ∧ (s.fld F.SFB_CLK_MHZ = 0 ∨ s.flag F.SFB_CLK_LOCK = false ∨ s.lge.tbsyncDue = true ∨ s.lge.needSync = true)
abbrev Meets.RunControlRequests4 := fun (s : State) (msg : Msg) (x : Session) =>
  s.Inv ∧ s.hmp.claim = some x.num ∧ s.takes msg 0x0F03 x ∧ runModes s = true ∧ msgBody msg x = [] ∧ 2 ≤ s.leagueSize
abbrev Meets.RunControlRequests5 := fun (s : State) (msg : Msg) (x : Session) =>
  s.Inv ∧ s.hmp.claim = some x.num ∧ s.takes msg 0x0F04 x ∧ runModes s = true ∧ msgBody msg x = [0, 0, 0, 0]
abbrev Meets.RunControlRequests6 := fun (s : State) (msg : Msg) (x : Session) =>
  s.Inv ∧ s.hmp.claim = some x.num ∧ s.takes msg 0x0F05 x ∧ msgBody msg x = [] ∧ (s.ctl.mode = .run ∨ s.ctl.mode = .hold) ∧ s.isMaster = true
abbrev Meets.RunControlRequests7 := fun (s : State) (msg : Msg) (x : Session) =>
  s.Inv ∧ s.hmp.claim = some x.num ∧ s.takes msg 0x0F08 x ∧ msgBody msg x = [] ∧ s.stepStopped = true
abbrev Meets.RunControlRequests8 := fun (s : State) =>
  s.Inv ∧ s.lge.burstDue = true ∧ s.ctl.safeDue = none
abbrev Meets.RunControlRequests9 := fun (s : State) (msg : Msg) (x : Session) =>
  s.Inv ∧ safeModes s = true ∧ s.takes msg 0x0F06 x ∧ (msg.port = .mgmt ∨ s.hmp.claim = some x.num) ∧ msgBody msg x = []
abbrev Meets.RunControlRequests10 := fun (s : State) (m : Nat) (d : Word) =>
  s.Inv ∧ safeModes s = true ∧ s.reaches m 17 ∧ bit d.toNat 0 = true

/-- What the hypotheses of RunControlRequests ask, met together. -/
theorem witness_RunControlRequests :
    Meets.RunControlRequests0 ready (msg 0x0F03) sess5 ∧
    Meets.RunControlRequests0 ((clocked (imaged inArmed)).setFld F.SFB_CLK_MHZ 48) (msg 0x0F03) sess5 ∧
    Meets.RunControlRequests1 ready (msg 0x0F04 [5, 0, 0, 0]) sess5 5 ∧
    Meets.RunControlRequests1 { (clocked (inArmed.inMode .step)) with lge := { Lge.reset with cycle := 7 } } (msg 0x0F04 [255, 255, 255, 255]) sess5 0xFFFFFFFF ∧
    Meets.RunControlRequests2 ((clocked (imaged inArmed)).setFlds [(F.SFB_SCHED_L, 8), (F.SFB_SCHED_S, 2), (F.SFB_CLK_MHZ, 2000), (F.SFB_HORIZON_H, 8)]) (msg 0x0F03) sess5 ∧
    Meets.RunControlRequests2 ((clocked (imaged inArmed)).setFlds [(F.SFB_SCHED_L, 8), (F.SFB_SCHED_S, 2), (F.SFB_CLK_MHZ, 21), (F.SFB_HORIZON_H, 8)]) (msg 0x0F03) sess5 ∧
    Meets.RunControlRequests3 (ready.setFld F.SFB_CLK_LOCK 0) (msg 0x0F03) sess5 ∧
    Meets.RunControlRequests3 (ready.setFld F.SFB_CLK_MHZ 0) (msg 0x0F03) sess5 ∧
    Meets.RunControlRequests4 (member ring0 1 ready) (msg 0x0F03) sess5 ∧
    Meets.RunControlRequests5 ready (msg 0x0F04 [0, 0, 0, 0]) sess5 ∧
    Meets.RunControlRequests6 inRun (msg 0x0F05) sess5 ∧
    Meets.RunControlRequests6 inHold (msg 0x0F05) sess5 ∧
    Meets.RunControlRequests7 (inRun.inMode .step) (msg 0x0F08) sess5 ∧
    Meets.RunControlRequests7 (((snapped snap0).inMode .step).setFld F.FIO_STAT_DRIVE 1) (msg 0x0F08) sess5 ∧
    Meets.RunControlRequests8 { inRun with lge := { inRun.lge with burstDue := true } } ∧
    Meets.RunControlRequests8 { (inRun.inMode .step) with lge := { inRun.lge with burstDue := true, cycle := 9 }, ctl := { (inRun.inMode .step).ctl with burst := true, left := 1 } } ∧
    Meets.RunControlRequests9 inRun (msg 0x0F06) sess5 ∧
    Meets.RunControlRequests9 { (inIdle.withSession fun x => { x with port := .mgmt }) with hmp := { (inIdle.withSession fun x => { x with port := .mgmt }).hmp with claim := some 9 } } (mmsg 0x0F06) { sess5 with port := .mgmt } ∧
    Meets.RunControlRequests9 inHold (msg 0x0F06) sess5 ∧
    Meets.RunControlRequests10 inRun 0 1 ∧
    Meets.RunControlRequests10 inIdle 0 0xFFFFFFFF ∧
    Meets.RunControlRequests10 State.reset 15 1 :=
  ⟨by refine ⟨inv_of ?_, ?_, ?_, .inl ?_, ?_, ?_, ?_, ?_, ?_, ?_, takes_msg ?_ ?_, ?_⟩ <;> decide +kernel,
    by refine ⟨inv_of ?_, ?_, ?_, .inl ?_, ?_, ?_, ?_, ?_, ?_, ?_, takes_msg ?_ ?_, ?_⟩ <;> decide +kernel,
    by refine ⟨inv_of ?_, ?_, ?_, .inl ?_, ?_, ?_, ?_, ?_, ?_, ?_, takes_msg ?_ ?_, ?_, ?_, ?_, ?_⟩ <;> decide +kernel,
    by refine ⟨inv_of ?_, ?_, ?_, .inl ?_, ?_, ?_, ?_, ?_, ?_, ?_, takes_msg ?_ ?_, ?_, ?_, ?_, ?_⟩ <;> decide +kernel,
    by refine ⟨inv_of ?_, ?_, ?_, .inl ?_, ?_, takes_msg ?_ ?_, ?_, ?_, ?_⟩ <;> decide +kernel,
    by refine ⟨inv_of ?_, ?_, ?_, .inl ?_, ?_, takes_msg ?_ ?_, ?_, ?_, ?_⟩ <;> decide +kernel,
    by refine ⟨inv_of ?_, ?_, ?_, .inl ?_, ?_, takes_msg ?_ ?_, ?_, ?_, ?_⟩ <;> decide +kernel,
    by refine ⟨inv_of ?_, ?_, ?_, .inl ?_, ?_, takes_msg ?_ ?_, ?_, ?_, ?_⟩ <;> decide +kernel,
    by refine ⟨inv_of ?_, ?_, takes_msg ?_ ?_, ?_, ?_, ?_⟩ <;> decide +kernel,
    by refine ⟨inv_of ?_, ?_, takes_msg ?_ ?_, ?_, ?_⟩ <;> decide +kernel,
    by refine ⟨inv_of ?_, ?_, takes_msg ?_ ?_, ?_, ?_, ?_⟩ <;> decide +kernel,
    by refine ⟨inv_of ?_, ?_, takes_msg ?_ ?_, ?_, ?_, ?_⟩ <;> decide +kernel,
    by refine ⟨inv_of ?_, ?_, takes_msg ?_ ?_, ?_, ?_⟩ <;> decide +kernel,
    by refine ⟨inv_of ?_, ?_, takes_msg ?_ ?_, ?_, ?_⟩ <;> decide +kernel,
    by refine ⟨inv_of ?_, ?_, ?_⟩ <;> decide +kernel,
    by refine ⟨inv_of ?_, ?_, ?_⟩ <;> decide +kernel,
    by refine ⟨inv_of ?_, ?_, takes_msg ?_ ?_, ?_, ?_⟩ <;> decide +kernel,
    by refine ⟨inv_of ?_, ?_, takes_mmsg ?_ ?_, ?_, ?_⟩ <;> decide +kernel,
    by refine ⟨inv_of ?_, ?_, takes_msg ?_ ?_, ?_, ?_⟩ <;> decide +kernel,
    by refine ⟨inv_of ?_, ?_, reaches_of ?_, ?_⟩ <;> decide +kernel,
    by refine ⟨inv_of ?_, ?_, reaches_of ?_, ?_⟩ <;> decide +kernel,
    by refine ⟨inv_of ?_, ?_, reaches_of ?_, ?_⟩ <;> decide +kernel⟩

abbrev Meets.HbmServiceTemperatureAndScrub0 := fun (s : State) (m k : Nat) (r : HbmRead) (e : Ecc) =>
  s.Inv ∧ e ≠ .uncorrectable ∧ s.inService m k false = some r
abbrev Meets.HbmServiceTemperatureAndScrub1 := fun (s : State) (m k : Nat) (r : HbmRead) (e : Ecc) =>
  s.Inv ∧ e ≠ .uncorrectable ∧ s.inService m k true = some r
abbrev Meets.HbmServiceTemperatureAndScrub2 := fun (s : State) (m k : Nat) (r : HbmRead) =>
  s.Inv ∧ s.inService m k false = some r
abbrev Meets.HbmServiceTemperatureAndScrub3 := fun (s : State) (m k : Nat) (r : HbmRead) =>
  s.Inv ∧ s.inService m k true = some r ∧ safeModes s = true
abbrev Meets.HbmServiceTemperatureAndScrub4 := fun (s : State) c =>
  s.Inv ∧ c < 4 ∧ s.dm.guard.length = 4 ∧ s.dm.wq.length = 4
abbrev Meets.HbmServiceTemperatureAndScrub5 := fun (s : State) =>
  s.Inv
abbrev Meets.HbmServiceTemperatureAndScrub6 := fun (s : State) =>
  s.Inv ∧ s.ctl.corePower = true
abbrev Meets.HbmServiceTemperatureAndScrub7 := fun (s : State) (stack offset k : Nat) =>
  s.Inv ∧ s.flag F.HBK_SCRUB_EN = true ∧ stack < s.fuses.grade.stacks ∧ offset < 0x600000000 ∧ s.regionOf (0x10000000000 + stack * 0x600000000 + offset) = some k
abbrev Meets.HbmServiceTemperatureAndScrub8 := fun (s : State) (stack offset k : Nat) =>
  s.Inv ∧ s.flag F.HBK_SCRUB_EN = true ∧ stack < s.fuses.grade.stacks ∧ offset < 0x600000000 ∧ s.regionOf (0x10000000000 + stack * 0x600000000 + offset) = some k ∧ k ≠ 1
abbrev Meets.HbmServiceTemperatureAndScrub9 := fun (s : State) (stack offset k : Nat) =>
  s.Inv ∧ s.flag F.HBK_SCRUB_EN = true ∧ stack < s.fuses.grade.stacks ∧ offset < 0x600000000 ∧ s.regionOf (0x10000000000 + stack * 0x600000000 + offset) = some k ∧ k = 1
abbrev Meets.HbmServiceTemperatureAndScrub10 := fun (s : State) stack =>
  s.Inv ∧ s.flag F.HBK_SCRUB_EN = true ∧ stack < s.fuses.grade.stacks

/-- What the hypotheses of HbmServiceTemperatureAndScrub ask, met together. -/
theorem witness_HbmServiceTemperatureAndScrub :
    Meets.HbmServiceTemperatureAndScrub0 (reading false) 5 1 (hread false) (.clean : Ecc) ∧
    Meets.HbmServiceTemperatureAndScrub0 (reading false) 5 1 (hread false) (.corrected : Ecc) ∧
    Meets.HbmServiceTemperatureAndScrub0 { (reading false) with dm := { (reading false).dm with reads := [mread, mread] } } 5 1 mread (.clean : Ecc) ∧
    Meets.HbmServiceTemperatureAndScrub1 (reading true) 5 1 (hread true) (.corrected : Ecc) ∧
    Meets.HbmServiceTemperatureAndScrub1 { (reading false) with dm := { (reading false).dm with reads := [mread, { mread with retry := true }] } } 5 1 { mread with retry := true } (.clean : Ecc) ∧
    Meets.HbmServiceTemperatureAndScrub2 { (reading false) with dm := { (reading false).dm with reads := [mread, mread] } } 5 1 mread ∧
    Meets.HbmServiceTemperatureAndScrub2 (reading false) 5 1 (hread false) ∧
    Meets.HbmServiceTemperatureAndScrub3 (reading true) 5 1 (hread true) ∧
    Meets.HbmServiceTemperatureAndScrub4 ({ inRun with dm := { Dm.reset with wq := [0, 0, 0, 8192], guard := [false, false, false, true] } }.setFlds [(⟨A.DMC_STAT, 3, 1⟩, 1), (F.SFB_HOLD_STAT_HBM, 1)]) 3 ∧
    Meets.HbmServiceTemperatureAndScrub4 inRun 0 ∧
    Meets.HbmServiceTemperatureAndScrub4 ({ inRun with dm := { Dm.reset with wq := [9000, 0, 0, 8192], guard := [true, false, false, true] } }.setFlds [(⟨A.DMC_STAT, 3, 1⟩, 1), (F.SFB_HOLD_STAT_HBM, 1)]) 3 ∧
    Meets.HbmServiceTemperatureAndScrub4 ({ inRun with dm := { Dm.reset with wq := [9000, 0, 0, 8192], guard := [true, false, false, true] } }.setFlds [(⟨A.DMC_STAT, 3, 1⟩, 1), (F.SFB_HOLD_STAT_HBM, 1)]) 3 ∧
    Meets.HbmServiceTemperatureAndScrub4 ({ (reading false) with dm := { (reading false).dm with wq := [9000, 0, 0, 8192], guard := [false, false, false, true], reads := [{ hread false with overrun := some 3 }] } }.setFlds [(⟨A.DMC_STAT, 3, 1⟩, 1), (F.SFB_HOLD_STAT_HBM, 1)]) 3 ∧
    Meets.HbmServiceTemperatureAndScrub5 (reading false) ∧
    Meets.HbmServiceTemperatureAndScrub6 inRun ∧
    Meets.HbmServiceTemperatureAndScrub6 { inRun with hub := { Hub.reset with hot := [true, true, true, true] } } ∧
    Meets.HbmServiceTemperatureAndScrub7 scrubbing 0 0 1 ∧
    Meets.HbmServiceTemperatureAndScrub7 scrubbing 1 0x5FFFFFFFF 1 ∧
    Meets.HbmServiceTemperatureAndScrub8 scrub1 0 0 9 ∧
    Meets.HbmServiceTemperatureAndScrub8 (scrub1.setFld F.HBK_HUE_VALID 1) 0 0xFFFFFF 9 ∧
    Meets.HbmServiceTemperatureAndScrub9 scrubbing 0 0x5FFFFFFFF 1 ∧
    Meets.HbmServiceTemperatureAndScrub9 (scrubbing.setFld F.DMC_UE_STAT_VALID 1) 0 0x5FFFFFFFF 1 ∧
    Meets.HbmServiceTemperatureAndScrub10 scrubbing 0 :=
  ⟨by refine ⟨inv_of ?_, ?_, ?_⟩ <;> decide +kernel,
    by refine ⟨inv_of ?_, ?_, ?_⟩ <;> decide +kernel,
    by refine ⟨inv_of ?_, ?_, ?_⟩ <;> decide +kernel,
    by refine ⟨inv_of ?_, ?_, ?_⟩ <;> decide +kernel,
    by refine ⟨inv_of ?_, ?_, ?_⟩ <;> decide +kernel,
    by refine ⟨inv_of ?_, ?_⟩ <;> decide +kernel,
    by refine ⟨inv_of ?_, ?_⟩ <;> decide +kernel,
    by refine ⟨inv_of ?_, ?_, ?_⟩ <;> decide +kernel,
    by refine ⟨inv_of ?_, ?_, ?_, ?_⟩ <;> decide +kernel,
    by refine ⟨inv_of ?_, ?_, ?_, ?_⟩ <;> decide +kernel,
    by refine ⟨inv_of ?_, ?_, ?_, ?_⟩ <;> decide +kernel,
    by refine ⟨inv_of ?_, ?_, ?_, ?_⟩ <;> decide +kernel,
    by refine ⟨inv_of ?_, ?_, ?_, ?_⟩ <;> decide +kernel,
    by refine inv_of ?_ <;> decide +kernel,
    by refine ⟨inv_of ?_, ?_⟩ <;> decide +kernel,
    by refine ⟨inv_of ?_, ?_⟩ <;> decide +kernel,
    by refine ⟨inv_of ?_, ?_, ?_, ?_, ?_⟩ <;> decide +kernel,
    by refine ⟨inv_of ?_, ?_, ?_, ?_, ?_⟩ <;> decide +kernel,
    by refine ⟨inv_of ?_, ?_, ?_, ?_, ?_, ?_⟩ <;> decide +kernel,
    by refine ⟨inv_of ?_, ?_, ?_, ?_, ?_, ?_⟩ <;> decide +kernel,
    by refine ⟨inv_of ?_, ?_, ?_, ?_, ?_, ?_⟩ <;> decide +kernel,
    by refine ⟨inv_of ?_, ?_, ?_, ?_, ?_, ?_⟩ <;> decide +kernel,
    by refine ⟨inv_of ?_, ?_, ?_⟩ <;> decide +kernel⟩

abbrev Meets.GrainsAreThrottledHeldOrExecuted0 := fun (s : State) =>
  s.Inv ∧ s.ctl.corePower = true ∧ s.flag F.SFB_CLK_LOCK = true ∧ s.fld F.SFB_CLK_MHZ ≠ 0 ∧ s.lge.needSync = false ∧ s.lge.thrDue = none ∧ edgeRemoved (s.fld F.SFB_THR_CUR) s.lge.edge = true
abbrev Meets.GrainsAreThrottledHeldOrExecuted1 := fun (s : State) k =>
  s.Inv ∧ k < 16 ∧ s.ctl.corePower = true ∧ s.flag F.SFB_CLK_LOCK = true ∧ s.fld F.SFB_CLK_MHZ ≠ 0 ∧ s.lge.needSync = false ∧ s.lge.thrDue = some k ∧ edgeRemoved k s.lge.edge = true
abbrev Meets.GrainsAreThrottledHeldOrExecuted2 := fun (s : State) =>
  s.Inv ∧ s.lge.needSync = true
abbrev Meets.GrainsAreThrottledHeldOrExecuted3 := fun (s : State) =>
  s.Inv ∧ s.plainGrain ∧ s.ctl.clock = false
abbrev Meets.GrainsAreThrottledHeldOrExecuted4 := fun (s : State) =>
  s.Inv ∧ s.plainGrain ∧ s.ctl.clock = true ∧ s.vote (s.grainNo - s.H) = true
abbrev Meets.GrainsAreThrottledHeldOrExecuted5 := fun (s : State) =>
  s.Inv ∧ s.plainGrain ∧ s.ctl.clock = true ∧ s.vote (s.grainNo - s.H) = false ∧ (s.arr.pos = s.L + 8 → s.tokMissing = false)

/-- What the hypotheses of GrainsAreThrottledHeldOrExecuted ask, met together. -/
theorem witness_GrainsAreThrottledHeldOrExecuted :
    Meets.GrainsAreThrottledHeldOrExecuted0 ((grainAt 3).setFld F.SFB_THR_CUR 8) ∧
    Meets.GrainsAreThrottledHeldOrExecuted1 { (grainAt 3) with lge := { inRun.lge with thrDue := some 8 } } 8 ∧
    Meets.GrainsAreThrottledHeldOrExecuted2 { (grainAt 3) with lge := { inRun.lge with needSync := true } } ∧
    Meets.GrainsAreThrottledHeldOrExecuted3 { (grainAt 0) with ctl := { inRun.ctl with clock := false } } ∧
    Meets.GrainsAreThrottledHeldOrExecuted3 { (grainAt 0) with ctl := inArmed.ctl } ∧
    Meets.GrainsAreThrottledHeldOrExecuted4 ({ (grainAt 5) with lge := { inRun.lge with causes := [(0, 1)] } }.setFld F.SFB_HOLD_STAT_HOST 1) ∧
    Meets.GrainsAreThrottledHeldOrExecuted4 ({ (grainAt 5) with lge := { inRun.lge with causes := [(90, 1)], held := true } }.setFlds [(F.SFB_HOLD_STAT_HOST, 1), (F.SFB_HOLD_STAT_INEFF, 1)]) ∧
    Meets.GrainsAreThrottledHeldOrExecuted5 (grainAt 0) ∧
    Meets.GrainsAreThrottledHeldOrExecuted5 (grainAt 7) ∧
    Meets.GrainsAreThrottledHeldOrExecuted5 (grainAt 16) ∧
    Meets.GrainsAreThrottledHeldOrExecuted5 (grainAt 23) ∧
    Meets.GrainsAreThrottledHeldOrExecuted5 ({ (grainAt 16) with lge := { inRun.lge with held := true, cycle := 2 ^ 64 - 1 }, ctl := { inHold.ctl with clock := true, holdFrom := .step } }.setFlds [(F.TIM_DLEN_LEN 0, 64), (F.TIM_DLEN_LEN 15, 1), (F.TIM_DPATHI_PAT 0, 0x80000000), (F.TIM_DPATLO_PAT 15, 1)]) :=
  ⟨by refine ⟨inv_of ?_, ?_, ?_, ?_, ?_, ?_, ?_⟩ <;> decide +kernel,
    by refine ⟨inv_of ?_, ?_, ?_, ?_, ?_, ?_, ?_, ?_⟩ <;> decide +kernel,
    by refine ⟨inv_of ?_, ?_⟩ <;> decide +kernel,
    by refine ⟨inv_of ?_, by unfold State.plainGrain; decide +kernel, ?_⟩ <;> decide +kernel,
    by refine ⟨inv_of ?_, by unfold State.plainGrain; decide +kernel, ?_⟩ <;> decide +kernel,
    by refine ⟨inv_of ?_, by unfold State.plainGrain; decide +kernel, ?_, ?_⟩ <;> decide +kernel,
    by refine ⟨inv_of ?_, by unfold State.plainGrain; decide +kernel, ?_, ?_⟩ <;> decide +kernel,
    by refine ⟨inv_of ?_, by unfold State.plainGrain; decide +kernel, ?_, ?_, ?_⟩ <;> decide +kernel,
    by refine ⟨inv_of ?_, by unfold State.plainGrain; decide +kernel, ?_, ?_, ?_⟩ <;> decide +kernel,
    by refine ⟨inv_of ?_, by unfold State.plainGrain; decide +kernel, ?_, ?_, ?_⟩ <;> decide +kernel,
    by refine ⟨inv_of ?_, by unfold State.plainGrain; decide +kernel, ?_, ?_, ?_⟩ <;> decide +kernel,
    by refine ⟨inv_of ?_, by unfold State.plainGrain; decide +kernel, ?_, ?_, ?_⟩ <;> decide +kernel⟩

abbrev Meets.ABooleanProcessorEvaluatesItsTable0 := fun (s : State) (bp w : Nat) (a b c d : Bool) =>
  s.Inv ∧ s.plainGrain ∧ s.ctl.clock = true ∧ s.vote (s.grainNo - s.H) = false ∧ s.lge.held = false ∧ s.ctl.mode = .run ∧ s.arr.pos < s.L ∧ s.words s.arr.pos = [(bp, w)] ∧ bpErrors s bp s.arr.pos w none = [] ∧ insClass w = 1 ∧ s.reads bp (bits w 40 12) a ∧ s.reads bp (bits w 28 12) b ∧ s.reads bp (bits w 16 12) c ∧ s.reads bp (bits w 4 12) d

/-- What the hypotheses of ABooleanProcessorEvaluatesItsTable ask, met together. -/
theorem witness_ABooleanProcessorEvaluatesItsTable :
    Meets.ABooleanProcessorEvaluatesItsTable0 { (grainAt 3) with arr := { (grainAt 3).arr with instr := [(3, 0x107005a01a007ff8)], dict := [(7, 0x0800)], ds := [5, 2047] } } 0 0x107005a01a007ff8 true true false true :=
  by refine ⟨inv_of ?_, by unfold State.plainGrain; decide +kernel, ?_, ?_, ?_, ?_, ?_, ?_, ?_, ?_, reads_of ?_, reads_of ?_, reads_of ?_, reads_of ?_⟩ <;> decide +kernel

abbrev Meets.UpsetsBreakParity0 := fun (s : State) =>
  s.Inv ∧ (s.ctl.corePower = false ∨ s.flag F.SFB_CLK_LOCK = false)
abbrev Meets.UpsetsBreakParity1 := fun (s : State) =>
  s.Inv ∧ (s.ctl.corePower = false ∨ s.flag F.SFB_CLK_LOCK = false) ∧ SMap.wf 0 s.arr.instr = true
abbrev Meets.UpsetsBreakParity2 := fun (s : State) =>
  s.Inv ∧ (s.ctl.corePower = false ∨ s.flag F.SFB_CLK_LOCK = false)
abbrev Meets.UpsetsBreakParity3 := fun (s : State) =>
  s.Inv ∧ (s.ctl.corePower = false ∨ s.flag F.SFB_CLK_LOCK = false)

/-- What the hypotheses of UpsetsBreakParity ask, met together. -/
theorem witness_UpsetsBreakParity :
    Meets.UpsetsBreakParity0 inOff ∧
    Meets.UpsetsBreakParity0 inIdle ∧
    Meets.UpsetsBreakParity0 { (dark .safe) with dm := { Dm.reset with oldEcc := [(0, .clean)] } } ∧
    Meets.UpsetsBreakParity1 (dark .safe) ∧
    Meets.UpsetsBreakParity1 { (grainAt 3) with regs := inRun.regs } ∧
    Meets.UpsetsBreakParity1 { (dark .safe) with arr := { Arr.reset with instr := [(12, 0x1FFFFFFFF)], badInstr := [99] } } ∧
    Meets.UpsetsBreakParity2 (dark .safe) ∧
    Meets.UpsetsBreakParity2 { (dark .safe) with arr := { Arr.reset with ds := [799, 801, 808] } } ∧
    Meets.UpsetsBreakParity3 (dark .safe) ∧
    Meets.UpsetsBreakParity3 { inIdle with mem := [(0x1000003, 2)] } ∧
    Meets.UpsetsBreakParity3 { (dark .safe) with mem := [(0x1000002, 1), (0x1000003, 2)] } :=
  ⟨by refine ⟨inv_of ?_, ?_⟩ <;> decide +kernel,
    by refine ⟨inv_of ?_, ?_⟩ <;> decide +kernel,
    by refine ⟨inv_of ?_, ?_⟩ <;> decide +kernel,
    by refine ⟨inv_of ?_, ?_, ?_⟩ <;> decide +kernel,
    by refine ⟨inv_of ?_, ?_, ?_⟩ <;> decide +kernel,
    by refine ⟨inv_of ?_, ?_, ?_⟩ <;> decide +kernel,
    by refine ⟨inv_of ?_, ?_⟩ <;> decide +kernel,
    by refine ⟨inv_of ?_, ?_⟩ <;> decide +kernel,
    by refine ⟨inv_of ?_, ?_⟩ <;> decide +kernel,
    by refine ⟨inv_of ?_, ?_⟩ <;> decide +kernel,
    by refine ⟨inv_of ?_, ?_⟩ <;> decide +kernel⟩

abbrev Meets.FormationBeginsAndProceeds0 := fun (s : State) (msg : Msg) (x : Session) =>
  s.Inv ∧ (s.ctl.mode = .idle ∨ s.ctl.mode = .armed) ∧ s.takes msg 0x0900 x ∧ s.hmp.claim = some x.num ∧ (msgBody msg x).length = 10 ∧ planOk (leAt (msgBody msg x) 0 4) = true
abbrev Meets.FormationBeginsAndProceeds1 := fun (s : State) (msg : Msg) (x : Session) =>
  s.Inv ∧ (s.ctl.mode = .idle ∨ s.ctl.mode = .armed) ∧ s.takes msg 0x0900 x ∧ s.hmp.claim = some x.num ∧ (msgBody msg x).length = 10 ∧ planOk (leAt (msgBody msg x) 0 4) = false
abbrev Meets.FormationBeginsAndProceeds2 := fun (s : State) (m : Nat) (d : Word) =>
  s.Inv ∧ (s.ctl.mode = .idle ∨ s.ctl.mode = .armed) ∧ s.reaches m 17 ∧ bit d.toNat 0 = true ∧ planOk (s.reg A.LGE_PLAN).toNat = true
abbrev Meets.FormationBeginsAndProceeds3 := fun (s : State) (m : Nat) (d : Word) =>
  s.Inv ∧ (s.ctl.mode = .idle ∨ s.ctl.mode = .armed) ∧ s.reaches m 17 ∧ (bit d.toNat 0 = false ∨ planOk (s.reg A.LGE_PLAN).toNat = false)
abbrev Meets.FormationBeginsAndProceeds4 := fun (s : State) =>
  s.Inv ∧ s.forming = true ∧ s.pos ≠ 0
abbrev Meets.FormationBeginsAndProceeds5 := fun (s : State) port =>
  s.Inv ∧ s.forming = true ∧ s.pos ≠ 0 ∧ s.portCode port = 2
abbrev Meets.FormationBeginsAndProceeds6 := fun (s : State) port (r : BitVec 64) =>
  s.Inv ∧ s.forming = true ∧ s.pos = 0 ∧ s.lge.early = [] ∧ s.portCode port = 2 ∧ s.lge.ready ||| r.toNat = 2 ^ s.leagueSize - 1 ∧ s.lge.tbsyncDue = false ∧ s.flag F.SFB_CLK_LOCK = false ∧ s.fld F.LGE_STAT_DIAM * s.fld F.LNK_NHOP_GRAINS + 8 < 65536
abbrev Meets.FormationBeginsAndProceeds7 := fun (s : State) port h mhz =>
  s.Inv ∧ s.forming = true ∧ s.fromTree port = true ∧ s.lge.tbsyncDue = false ∧ h < 65536 ∧ mhz < 4096
abbrev Meets.FormationBeginsAndProceeds8 := fun (s : State) =>
  s.Inv ∧ s.forming = true ∧ s.fromTree (s.fld F.LGE_STAT_UPPORT) = true
abbrev Meets.FormationBeginsAndProceeds9 := fun (s : State) =>
  s.Inv ∧ s.forming = true ∧ s.pos ≠ 0 ∧ s.lge.reported ≠ some (ownMasks s).masks

/-- What the hypotheses of FormationBeginsAndProceeds ask, met together. -/
theorem witness_FormationBeginsAndProceeds :
    Meets.FormationBeginsAndProceeds0 inIdle (msg 0x0900 [0, 0x20, 0, 0x41, 1, 2, 3, 4, 0x88, 0x13]) sess5 ∧
    Meets.FormationBeginsAndProceeds0 inArmed (msg 0x0900 [0, 0, 0, 0, 1, 2, 3, 4, 0xFF, 0xFF]) sess5 ∧
    Meets.FormationBeginsAndProceeds0 (member ring1 1 inIdle) (msg 0x0900 [0, 0xE0, 0x7F, 0xC3, 0, 0, 0, 0, 0, 0]) sess5 ∧
    Meets.FormationBeginsAndProceeds1 inIdle (msg 0x0900 [0, 0x40, 0, 0x41, 1, 2, 3, 4, 0x88, 0x13]) sess5 ∧
    Meets.FormationBeginsAndProceeds2 (inIdle.setFlds [(⟨A.LGE_PLAN, 0, 32⟩, ring1), (⟨A.LGE_LID, 0, 32⟩, 77), (F.LGE_TMO_MS, 65535)]) 0 1 ∧
    Meets.FormationBeginsAndProceeds2 (inArmed.setFlds [(⟨A.LGE_PLAN, 0, 32⟩, 0)]) 0 1 ∧
    Meets.FormationBeginsAndProceeds3 inIdle 0 0 ∧
    Meets.FormationBeginsAndProceeds3 (inIdle.setFlds [(⟨A.LGE_PLAN, 0, 32⟩, 0x41004000)]) 0 1 ∧
    Meets.FormationBeginsAndProceeds4 (member ring1 0) ∧
    Meets.FormationBeginsAndProceeds4 ((member cube63 0).setFld F.LGE_STAT_REFLOCK 1) ∧
    Meets.FormationBeginsAndProceeds5 (member ring1 0) 1 ∧
    Meets.FormationBeginsAndProceeds5 (((member ring1 0).setFld F.LGE_STAT_REFLOCK 1).setFld F.LGE_PSTAT_CODE 0x22) 0 ∧
    Meets.FormationBeginsAndProceeds6 { (member ring0 0) with lge := { (member ring0 0).lge with ready := 1, cycle := 5 } } 0 (2 : BitVec 64) ∧
    Meets.FormationBeginsAndProceeds6 { (member ring0 0) with lge := { (member ring0 0).lge with ready := 3, cycle := 5 } } 0 (2 : BitVec 64) ∧
    Meets.FormationBeginsAndProceeds7 (member ring1 0) 1 65535 0 ∧
    Meets.FormationBeginsAndProceeds7 (member ring1 0) 1 20 4095 ∧
    Meets.FormationBeginsAndProceeds7 ((clocked (member cube63 0)).setFlds [(F.LGE_STAT_UPPORT, 5)]) 5 20 1000 ∧
    Meets.FormationBeginsAndProceeds8 (member ring1 0) ∧
    Meets.FormationBeginsAndProceeds9 (member ring1 0) ∧
    Meets.FormationBeginsAndProceeds9 { (member ring1 0) with lge := { (member ring1 0).lge with ready := 1, gradebad := 2, wrong := 3 } } :=
  ⟨by refine ⟨inv_of ?_, ?_, takes_msg ?_ ?_, ?_, ?_, ?_⟩ <;> decide +kernel,
    by refine ⟨inv_of ?_, ?_, takes_msg ?_ ?_, ?_, ?_, ?_⟩ <;> decide +kernel,
    by refine ⟨inv_of ?_, ?_, takes_msg ?_ ?_, ?_, ?_, ?_⟩ <;> decide +kernel,
    by refine ⟨inv_of ?_, ?_, takes_msg ?_ ?_, ?_, ?_, ?_⟩ <;> decide +kernel,
    by refine ⟨inv_of ?_, ?_, reaches_of ?_, ?_, ?_⟩ <;> decide +kernel,
    by refine ⟨inv_of ?_, ?_, reaches_of ?_, ?_, ?_⟩ <;> decide +kernel,
    by refine ⟨inv_of ?_, ?_, reaches_of ?_, ?_⟩ <;> decide +kernel,
    by refine ⟨inv_of ?_, ?_, reaches_of ?_, ?_⟩ <;> decide +kernel,
    by refine ⟨inv_of ?_, ?_, ?_⟩ <;> decide +kernel,
    by refine ⟨inv_of ?_, ?_, ?_⟩ <;> decide +kernel,
    by refine ⟨inv_of ?_, ?_, ?_, ?_⟩ <;> decide +kernel,
    by refine ⟨inv_of ?_, ?_, ?_, ?_⟩ <;> decide +kernel,
    by refine ⟨inv_of ?_, ?_, ?_, ?_, ?_, ?_, ?_, ?_, ?_⟩ <;> decide +kernel,
    by refine ⟨inv_of ?_, ?_, ?_, ?_, ?_, ?_, ?_, ?_, ?_⟩ <;> decide +kernel,
    by refine ⟨inv_of ?_, ?_, ?_, ?_, ?_, ?_⟩ <;> decide +kernel,
    by refine ⟨inv_of ?_, ?_, ?_, ?_, ?_, ?_⟩ <;> decide +kernel,
    by refine ⟨inv_of ?_, ?_, ?_, ?_, ?_, ?_⟩ <;> decide +kernel,
    by refine ⟨inv_of ?_, ?_, ?_⟩ <;> decide +kernel,
    by refine ⟨inv_of ?_, ?_, ?_, ?_⟩ <;> decide +kernel,
    by refine ⟨inv_of ?_, ?_, ?_, ?_⟩ <;> decide +kernel⟩

abbrev Meets.FrequencyChangesAreSynchronised0 := fun (s : State) =>
  s.Inv ∧ s.lge.tbsyncDue = true ∧ s.isMaster = true ∧ (s.forming = true → s.lge.early = [])
abbrev Meets.FrequencyChangesAreSynchronised1 := fun (s : State) port =>
  s.Inv ∧ s.fromTree port = true ∧ s.lge.tbsyncDue = true ∧ (s.forming = true → s.lge.early = [])
abbrev Meets.FrequencyChangesAreSynchronised2 := fun (s : State) port mhz =>
  s.Inv ∧ s.fromTree port = true ∧ s.forming = false ∧ s.lge.tbsyncDue = false ∧ mhz < 4096
abbrev Meets.FrequencyChangesAreSynchronised3 := fun (s : State) port =>
  s.Inv ∧ s.fromTree port = true ∧ s.forming = true ∧ s.lge.tbsyncDue = false
abbrev Meets.FrequencyChangesAreSynchronised4 := fun (s : State) port mhz =>
  s.Inv ∧ s.fromTree port = true ∧ s.lge.tbsyncDue = true ∧ mhz ≠ s.fld F.SFB_CLK_MHZ ∧ mhz < 4096

/-- What the hypotheses of FrequencyChangesAreSynchronised ask, met together. -/
theorem witness_FrequencyChangesAreSynchronised :
    Meets.FrequencyChangesAreSynchronised0 { (member ring0 0) with lge := { (member ring0 0).lge with tbsyncDue := true } } ∧
    Meets.FrequencyChangesAreSynchronised0 { (member ring0 1) with lge := { (member ring0 1).lge with tbsyncDue := true } } ∧
    Meets.FrequencyChangesAreSynchronised0 { (member ring0 0) with lge := { (member ring0 0).lge with tbsyncDue := true, rated := true } } ∧
    Meets.FrequencyChangesAreSynchronised1 { (member ring1 0) with lge := { (member ring1 0).lge with tbsyncDue := true } } 1 ∧
    Meets.FrequencyChangesAreSynchronised1 { (clocked (member ring1 1)) with lge := { (member ring1 1).lge with tbsyncDue := true } } 1 ∧
    Meets.FrequencyChangesAreSynchronised1 { (member ring1 1) with lge := { (member ring1 1).lge with tbsyncDue := true, cycle := 4 } } 1 ∧
    Meets.FrequencyChangesAreSynchronised1 { (member ring1 0) with lge := { (member ring1 0).lge with tbsyncDue := true, rated := true } } 1 ∧
    Meets.FrequencyChangesAreSynchronised2 (clocked (member ring1 1)) 1 0 ∧
    Meets.FrequencyChangesAreSynchronised2 (member ring1 1) 1 4095 ∧
    Meets.FrequencyChangesAreSynchronised2 (clocked (member ring1 1)) 1 1000 ∧
    Meets.FrequencyChangesAreSynchronised2 (member ring1 2) 1 1000 ∧
    Meets.FrequencyChangesAreSynchronised3 (member ring1 0) 1 ∧
    Meets.FrequencyChangesAreSynchronised4 { (member ring1 0) with lge := { (member ring1 0).lge with tbsyncDue := true } } 1 1000 :=
  ⟨by refine ⟨inv_of ?_, ?_, ?_, ?_⟩ <;> decide +kernel,
    by refine ⟨inv_of ?_, ?_, ?_, ?_⟩ <;> decide +kernel,
    by refine ⟨inv_of ?_, ?_, ?_, ?_⟩ <;> decide +kernel,
    by refine ⟨inv_of ?_, ?_, ?_, ?_⟩ <;> decide +kernel,
    by refine ⟨inv_of ?_, ?_, ?_, ?_⟩ <;> decide +kernel,
    by refine ⟨inv_of ?_, ?_, ?_, ?_⟩ <;> decide +kernel,
    by refine ⟨inv_of ?_, ?_, ?_, ?_⟩ <;> decide +kernel,
    by refine ⟨inv_of ?_, ?_, ?_, ?_, ?_⟩ <;> decide +kernel,
    by refine ⟨inv_of ?_, ?_, ?_, ?_, ?_⟩ <;> decide +kernel,
    by refine ⟨inv_of ?_, ?_, ?_, ?_, ?_⟩ <;> decide +kernel,
    by refine ⟨inv_of ?_, ?_, ?_, ?_, ?_⟩ <;> decide +kernel,
    by refine ⟨inv_of ?_, ?_, ?_, ?_⟩ <;> decide +kernel,
    by refine ⟨inv_of ?_, ?_, ?_, ?_, ?_⟩ <;> decide +kernel⟩

abbrev Meets.VotesAndTokensSteerTheLeague0 := fun (s : State) (port vseq : Nat) (w : BitVec 32) =>
  s.Inv ∧ 1 < s.leagueSize ∧ s.portCode port = 2 ∧ s.forming = true ∧ (s.lane port).vrx.contains (vseq % 256) = false ∧ bits w.toNat 29 3 < 6
abbrev Meets.VotesAndTokensSteerTheLeague1 := fun (s : State) (port vseq origin : Nat) (w : BitVec 32) (e : VoteEv) =>
  s.Inv ∧ port < 6 ∧ 1 < s.leagueSize ∧ s.formed = true ∧ s.portCode port = 2 ∧ (s.lane port).vrx.contains (vseq % 256) = false ∧ bits w.toNat 23 6 = origin ∧ origin < s.leagueSize ∧ distance s.lge.plan origin s.pos = distance s.lge.plan origin (behind s.lge.plan s.pos port) + 1 ∧ e = ⟨bits w.toNat 29 3, origin, nearest s.grainNo (bits w.toNat 0 23)⟩ ∧ e ∉ s.lge.events ∧ (e.ek = 1 ∨ e.ek = 2 ∨ e.ek = 4)
abbrev Meets.VotesAndTokensSteerTheLeague2 := fun (s : State) port (k : CycleTok) =>
  s.Inv ∧ port < 6 ∧ s.fromTree port = true ∧ s.forming = false ∧ s.lge.tok ≠ some k
abbrev Meets.VotesAndTokensSteerTheLeague3 := fun (s : State) port (k : CycleTok) =>
  s.Inv ∧ s.fromTree port = true ∧ s.forming = true ∧ s.lge.tok ≠ some k
abbrev Meets.VotesAndTokensSteerTheLeague4 := fun (s : State) port gs last =>
  s.Inv ∧ port < 6 ∧ s.fromTree port = true ∧ s.formed = true ∧ s.lge.start ≠ some (gs, last) ∧ s.lge.begun ≠ some (gs, last)
abbrev Meets.VotesAndTokensSteerTheLeague5 := fun (s : State) port gs last =>
  s.Inv ∧ s.fromTree port = true ∧ s.formed = false ∧ s.lge.start ≠ some (gs, last) ∧ s.lge.begun ≠ some (gs, last)
abbrev Meets.VotesAndTokensSteerTheLeague6 := fun (s : State) gs last =>
  s.Inv ∧ s.lge.start = some (gs, last) ∧ s.flag F.SFB_CLK_LOCK = true ∧ s.grainNo = gs ∧ s.ctl.clock = false ∧ (s.ctl.mode = .run ∨ s.ctl.mode = .step ∧ s.ctl.burst = true)

/-- What the hypotheses of VotesAndTokensSteerTheLeague ask, met together. -/
theorem witness_VotesAndTokensSteerTheLeague :
    Meets.VotesAndTokensSteerTheLeague0 (member ring1 0) 1 3 (voteW 4 0 100) ∧
    Meets.VotesAndTokensSteerTheLeague1 { (member ring1 1) with tim := { inRun.tim with league := 90 } } 1 3 0 (voteW 1 0 100) (⟨1, 0, 100⟩ : VoteEv) ∧
    Meets.VotesAndTokensSteerTheLeague1 { (member ring1 1) with tim := { inRun.tim with league := 200 } } 0 255 0 (voteW 2 0 100) (⟨2, 0, 100⟩ : VoteEv) ∧
    Meets.VotesAndTokensSteerTheLeague1 { (member ring1 1) with tim := { inRun.tim with league := 200 } } 1 3 0 (voteW 4 0 100) (⟨4, 0, 100⟩ : VoteEv) ∧
    Meets.VotesAndTokensSteerTheLeague1 { (member ring1 1) with tim := { inRun.tim with league := 100 } } 1 3 0 (voteW 4 0 100) (⟨4, 0, 100⟩ : VoteEv) ∧
    Meets.VotesAndTokensSteerTheLeague1 { (member ring1 1 (inRun.inMode .step)) with tim := { inRun.tim with league := 100 } } 1 3 0 (voteW 4 0 100) (⟨4, 0, 100⟩ : VoteEv) ∧
    Meets.VotesAndTokensSteerTheLeague1 { (member cube63 1) with tim := { inRun.tim with league := 0x800001 } } 0 3 60 (voteW 1 60 0x7FFFFF) (⟨1, 60, 0x7FFFFF⟩ : VoteEv) ∧
    Meets.VotesAndTokensSteerTheLeague2 (member ring1 1) 1 tok0 ∧
    Meets.VotesAndTokensSteerTheLeague2 (member ring1 1) 1 { tok0 with cycle := 9 } ∧
    Meets.VotesAndTokensSteerTheLeague2 (member ring1 2) 1 tok0 ∧
    Meets.VotesAndTokensSteerTheLeague2 ((member ring1 1).setFld F.LNK_LSTAT_VALID 1) 1 { tok0 with cycle := 9 } ∧
    Meets.VotesAndTokensSteerTheLeague2 (member ring1 1) 1 { tok0 with snap := true, snapid := 7 } ∧
    Meets.VotesAndTokensSteerTheLeague2 (member ring1 1 (snapped snap0)) 1 { tok0 with snap := true, snapid := 7 } ∧
    Meets.VotesAndTokensSteerTheLeague3 (member ring1 0) 1 { tok0 with cycle := 9 } ∧
    Meets.VotesAndTokensSteerTheLeague4 (member ring1 1 inArmed) 1 10 7 ∧
    Meets.VotesAndTokensSteerTheLeague4 (member ring1 1 inArmed) 1 0 7 ∧
    Meets.VotesAndTokensSteerTheLeague5 (member ring1 2 inArmed) 1 10 7 ∧
    Meets.VotesAndTokensSteerTheLeague5 (member ring1 0 inArmed) 1 10 7 ∧
    Meets.VotesAndTokensSteerTheLeague6 { (grainAt 0) with ctl := { inRun.ctl with clock := false }, lge := { Lge.reset with start := some (100, 2 ^ 64 - 1) } } 100 (2 ^ 64 - 1) ∧
    Meets.VotesAndTokensSteerTheLeague6 { (grainAt 0) with ctl := { (inArmed.inMode .step).ctl with burst := true }, lge := { Lge.reset with start := some (100, 12), cycle := 10 } } 100 12 :=
  ⟨by refine ⟨inv_of ?_, ?_, ?_, ?_, ?_, ?_⟩ <;> decide +kernel,
    by refine ⟨inv_of ?_, ?_, ?_, ?_, ?_, ?_, ?_, ?_, ?_, ?_, ?_, ?_⟩ <;> decide +kernel,
    by refine ⟨inv_of ?_, ?_, ?_, ?_, ?_, ?_, ?_, ?_, ?_, ?_, ?_, ?_⟩ <;> decide +kernel,
    by refine ⟨inv_of ?_, ?_, ?_, ?_, ?_, ?_, ?_, ?_, ?_, ?_, ?_, ?_⟩ <;> decide +kernel,
    by refine ⟨inv_of ?_, ?_, ?_, ?_, ?_, ?_, ?_, ?_, ?_, ?_, ?_, ?_⟩ <;> decide +kernel,
    by refine ⟨inv_of ?_, ?_, ?_, ?_, ?_, ?_, ?_, ?_, ?_, ?_, ?_, ?_⟩ <;> decide +kernel,
    by refine ⟨inv_of ?_, ?_, ?_, ?_, ?_, ?_, ?_, ?_, ?_, ?_, ?_, ?_⟩ <;> decide +kernel,
    by refine ⟨inv_of ?_, ?_, ?_, ?_, ?_⟩ <;> decide +kernel,
    by refine ⟨inv_of ?_, ?_, ?_, ?_, ?_⟩ <;> decide +kernel,
    by refine ⟨inv_of ?_, ?_, ?_, ?_, ?_⟩ <;> decide +kernel,
    by refine ⟨inv_of ?_, ?_, ?_, ?_, ?_⟩ <;> decide +kernel,
    by refine ⟨inv_of ?_, ?_, ?_, ?_, ?_⟩ <;> decide +kernel,
    by refine ⟨inv_of ?_, ?_, ?_, ?_, ?_⟩ <;> decide +kernel,
    by refine ⟨inv_of ?_, ?_, ?_, ?_⟩ <;> decide +kernel,
    by refine ⟨inv_of ?_, ?_, ?_, ?_, ?_, ?_⟩ <;> decide +kernel,
    by refine ⟨inv_of ?_, ?_, ?_, ?_, ?_, ?_⟩ <;> decide +kernel,
    by refine ⟨inv_of ?_, ?_, ?_, ?_, ?_⟩ <;> decide +kernel,
    by refine ⟨inv_of ?_, ?_, ?_, ?_, ?_⟩ <;> decide +kernel,
    by refine ⟨inv_of ?_, ?_, ?_, ?_, ?_, ?_⟩ <;> decide +kernel,
    by refine ⟨inv_of ?_, ?_, ?_, ?_, ?_, ?_⟩ <;> decide +kernel⟩

abbrev Meets.TimeIsServoedSetAndQueried0 := fun (s : State) =>
  s.Inv ∧ s.formed = true ∧ 1 < s.leagueSize
abbrev Meets.TimeIsServoedSetAndQueried1 := fun (s : State) port (f : FollowWord) (o : Int) =>
  s.Inv ∧ s.fromTree port = true ∧ s.timeMember = true ∧ -2147483648 ≤ o ∧ o ≤ 2147483647 ∧ o = nearDiv (((((f.rxSec * 1000000000 + f.rxNs : Nat) : Int) * 65536 + f.rxFrac - (((f.sec * 1000000000 + f.ns : Nat) : Int) * 65536 + f.frac)) * 1000 - s.delay port * 65536)) 65536000
abbrev Meets.TimeIsServoedSetAndQueried2 := fun (s : State) h =>
  s.Inv ∧ s.hostLink h = true ∧ s.srcPort h = true
abbrev Meets.TimeIsServoedSetAndQueried3 := fun (s : State) h clock =>
  s.Inv ∧ s.hostLink h = true ∧ s.isBest h clock (s.fld F.TIM_CTL_DOMAIN) = true
abbrev Meets.TimeIsServoedSetAndQueried4 := fun (s : State) h =>
  s.Inv ∧ s.hostLink h = false
abbrev Meets.TimeIsServoedSetAndQueried5 := fun (s : State) h clock (t1 t2 : Int) =>
  s.Inv ∧ s.hostLink h = true ∧ s.isBest h clock (s.fld F.TIM_CTL_DOMAIN) = true ∧ s.tim.sync = some (t1, t2)
abbrev Meets.TimeIsServoedSetAndQueried6 := fun (s : State) b =>
  s.Inv ∧ s.tim.best = some b ∧ b.hport < 2 ∧ s.hostLink b.hport = true
abbrev Meets.TimeIsServoedSetAndQueried7 := fun (s : State) =>
  s.Inv ∧ (s.timeMember = true ∨ s.ptpSource = true) ∧ s.flag F.TIM_STAT_HOLDOVER = false
abbrev Meets.TimeIsServoedSetAndQueried8 := fun (s : State) (msg : Msg) (x : Session) =>
  s.Inv ∧ s.ctl.corePower = true ∧ s.takes msg 0x0903 x ∧ s.hmp.claim = some x.num ∧ (msgBody msg x).length = 10 ∧ s.flag F.TIM_STAT_LOCKED = false
abbrev Meets.TimeIsServoedSetAndQueried9 := fun (s : State) (msg : Msg) (x : Session) =>
  s.Inv ∧ s.ctl.corePower = true ∧ s.takes msg 0x0903 x ∧ s.hmp.claim = some x.num ∧ (msgBody msg x).length = 10 ∧ s.flag F.TIM_STAT_LOCKED = true
abbrev Meets.TimeIsServoedSetAndQueried10 := fun (s : State) (msg : Msg) (x : Session) =>
  s.Inv ∧ s.ctl.corePower = true ∧ s.takes msg 0x0901 x ∧ msgBody msg x = []
abbrev Meets.TimeIsServoedSetAndQueried11 := fun (s : State) (msg : Msg) (x : Session) =>
  s.Inv ∧ s.ctl.corePower = true ∧ s.takes msg 0x0902 x ∧ msgBody msg x = []
abbrev Meets.TimeIsServoedSetAndQueried12 := fun (s : State) (m : Nat) (d : Word) =>
  s.Inv ∧ s.ctl.corePower = true ∧ s.reaches m 17 ∧ bit d.toNat 31 = true ∧ s.flag F.TIM_STAT_LOCKED = false

/-- What the hypotheses of TimeIsServoedSetAndQueried ask, met together. -/
theorem witness_TimeIsServoedSetAndQueried :
    Meets.TimeIsServoedSetAndQueried0 (member ring0 1) ∧
    Meets.TimeIsServoedSetAndQueried0 (member cube63 1) ∧
    Meets.TimeIsServoedSetAndQueried0 { (member ring0 1) with lanes := State.reset.lanes.map fun p => { p with tseq := 255 } } ∧
    Meets.TimeIsServoedSetAndQueried1 (member ring1 1) 1 (⟨5, 100, 0, 0, true, true, 100, 5, 0⟩ : FollowWord) 5 ∧
    Meets.TimeIsServoedSetAndQueried1 { (member ring1 1) with tim := { Tim.reset with offs := [1, 2, 3, 4, 5, 6, 7] } } 1 (⟨5, 100, 0, 0, false, true, 100, 5, 0⟩ : FollowWord) 5 ∧
    Meets.TimeIsServoedSetAndQueried1 (member ring1 1) 1 (⟨5, 100, 0, 0, false, false, 100, 5, 0⟩ : FollowWord) 5 ∧
    Meets.TimeIsServoedSetAndQueried1 ((member ring1 1).setFld F.TIM_STAT_LOCKED 1) 1 (⟨5, 100, 0, 0, false, true, 101, 0, 0⟩ : FollowWord) 1000000000 ∧
    Meets.TimeIsServoedSetAndQueried1 (((member ring1 1).setFld F.TIM_STAT_LOCKED 1).setFld F.TIM_STAT_HOLDOVER 1) 1 (⟨5, 100, 0, 0, false, true, 98, 0, 0⟩ : FollowWord) (-2000000000 : Int) ∧
    Meets.TimeIsServoedSetAndQueried1 { (((member ring1 1).setFld F.TIM_STAT_LOCKED 1).setFld F.TIM_STAT_HOLDOVER 1) with tim := { Tim.reset with fi := 32768, rate := 5 } } 1 (⟨5, 100, 0, 0, false, true, 100, 1000, 0⟩ : FollowWord) 1000 ∧
    Meets.TimeIsServoedSetAndQueried1 (member ring1 1) 1 (⟨5, 100, 0, 40000, false, true, 100, 6, 10000⟩ : FollowWord) 6 ∧
    Meets.TimeIsServoedSetAndQueried2 (ptp inRun) 0 ∧
    Meets.TimeIsServoedSetAndQueried2 (withBest inRun) 1 ∧
    Meets.TimeIsServoedSetAndQueried3 (withBest inRun) 1 77 ∧
    Meets.TimeIsServoedSetAndQueried3 { (withBest inRun).setFlds [(F.TIM_STAT_HOLDOVER, 1), (F.TIM_STAT_LOCKED, 1)] with tim := { (withBest inRun).tim with mpd := some 40 } } 1 77 ∧
    Meets.TimeIsServoedSetAndQueried4 ((withBest inRun).unlinked) 0 ∧
    Meets.TimeIsServoedSetAndQueried4 ((withBest inRun).unlinked) 1 ∧
    Meets.TimeIsServoedSetAndQueried5 { (withBest inRun) with tim := { (withBest inRun).tim with sync := some (1000, 900) } } 1 77 1000 900 ∧
    Meets.TimeIsServoedSetAndQueried5 { (withBest inRun) with tim := { (withBest inRun).tim with sync := some (1000, 900), mpd := some 40 } } 1 77 1000 900 ∧
    Meets.TimeIsServoedSetAndQueried6 (withBest inRun) best1 ∧
    Meets.TimeIsServoedSetAndQueried6 { (withBest inRun) with tim := { (withBest inRun).tim with best := some { best1 with hport := 0 } } } { best1 with hport := 0 } ∧
    Meets.TimeIsServoedSetAndQueried7 (ptp inRun) ∧
    Meets.TimeIsServoedSetAndQueried7 { (member ring1 1) with tim := { Tim.reset with fi := -98304, rate := 1 } } ∧
    Meets.TimeIsServoedSetAndQueried8 inIdle (msg 0x0903 [1, 2, 3, 4, 5, 6, 7, 8, 9, 10]) sess5 ∧
    Meets.TimeIsServoedSetAndQueried8 (ptp inRun) (msg 0x0903 [255, 255, 255, 255, 255, 255, 255, 255, 255, 255]) sess5 ∧
    Meets.TimeIsServoedSetAndQueried9 (inRun.setFld F.TIM_STAT_LOCKED 1) (msg 0x0903 [1, 2, 3, 4, 5, 6, 7, 8, 9, 10]) sess5 ∧
    Meets.TimeIsServoedSetAndQueried10 (member cube63 2) (msg 0x0901) sess5 ∧
    Meets.TimeIsServoedSetAndQueried11 inRun (msg 0x0902) sess5 ∧
    Meets.TimeIsServoedSetAndQueried12 inRun 0 0x80000000 ∧
    Meets.TimeIsServoedSetAndQueried12 { State.reset with tim := { Tim.reset with setSecHi := 0xFFFF, setSecLo := 0xFFFFFFFF, setNs := 999999999, rem := 4 } } 15 0xFFFFFFFF :=
  ⟨by refine ⟨inv_of ?_, ?_, ?_⟩ <;> decide +kernel,
    by refine ⟨inv_of ?_, ?_, ?_⟩ <;> decide +kernel,
    by refine ⟨inv_of ?_, ?_, ?_⟩ <;> decide +kernel,
    by refine ⟨inv_of ?_, ?_, ?_, ?_, ?_, ?_⟩ <;> decide +kernel,
    by refine ⟨inv_of ?_, ?_, ?_, ?_, ?_, ?_⟩ <;> decide +kernel,
    by refine ⟨inv_of ?_, ?_, ?_, ?_, ?_, ?_⟩ <;> decide +kernel,
    by refine ⟨inv_of ?_, ?_, ?_, ?_, ?_, ?_⟩ <;> decide +kernel,
    by refine ⟨inv_of ?_, ?_, ?_, ?_, ?_, ?_⟩ <;> decide +kernel,
    by refine ⟨inv_of ?_, ?_, ?_, ?_, ?_, ?_⟩ <;> decide +kernel,
    by refine ⟨inv_of ?_, ?_, ?_, ?_, ?_, ?_⟩ <;> decide +kernel,
    by refine ⟨inv_of ?_, ?_, ?_⟩ <;> decide +kernel,
    by refine ⟨inv_of ?_, ?_, ?_⟩ <;> decide +kernel,
    by refine ⟨inv_of ?_, ?_, ?_⟩ <;> decide +kernel,
    by refine ⟨inv_of ?_, ?_, ?_⟩ <;> decide +kernel,
    by refine ⟨inv_of ?_, ?_⟩ <;> decide +kernel,
    by refine ⟨inv_of ?_, ?_⟩ <;> decide +kernel,
    by refine ⟨inv_of ?_, ?_, ?_, ?_⟩ <;> decide +kernel,
    by refine ⟨inv_of ?_, ?_, ?_, ?_⟩ <;> decide +kernel,
    by refine ⟨inv_of ?_, ?_, ?_, ?_⟩ <;> decide +kernel,
    by refine ⟨inv_of ?_, ?_, ?_, ?_⟩ <;> decide +kernel,
    by refine ⟨inv_of ?_, ?_, ?_⟩ <;> decide +kernel,
    by refine ⟨inv_of ?_, ?_, ?_⟩ <;> decide +kernel,
    by refine ⟨inv_of ?_, ?_, takes_msg ?_ ?_, ?_, ?_, ?_⟩ <;> decide +kernel,
    by refine ⟨inv_of ?_, ?_, takes_msg ?_ ?_, ?_, ?_, ?_⟩ <;> decide +kernel,
    by refine ⟨inv_of ?_, ?_, takes_msg ?_ ?_, ?_, ?_, ?_⟩ <;> decide +kernel,
    by refine ⟨inv_of ?_, ?_, takes_msg ?_ ?_, ?_⟩ <;> decide +kernel,
    by refine ⟨inv_of ?_, ?_, takes_msg ?_ ?_, ?_⟩ <;> decide +kernel,
    by refine ⟨inv_of ?_, ?_, reaches_of ?_, ?_, ?_⟩ <;> decide +kernel,
    by refine ⟨inv_of ?_, ?_, reaches_of ?_, ?_, ?_⟩ <;> decide +kernel⟩

abbrev Meets.SettingsLogAndWallTime0 := fun (s : State) (msg : Msg) (x : Session) =>
  s.Inv ∧ s.takes msg 0x0F02 x ∧ msgBody msg x = []
abbrev Meets.SettingsLogAndWallTime1 := fun (s : State) (msg : Msg) (x : Session) =>
  s.Inv ∧ s.takes msg 0x0F0C x ∧ msgBody msg x = []
abbrev Meets.SettingsLogAndWallTime2 := fun (s : State) (msg : Msg) (x : Session) o n =>
  s.Inv ∧ s.takes msg 0x0F0D x ∧ (msgBody msg x).length = 5 ∧ leAt (msgBody msg x) 0 2 = o ∧ leAt (msgBody msg x) 2 2 = n
abbrev Meets.SettingsLogAndWallTime3 := fun (s : State) (msg : Msg) (x : Session) o n =>
  s.Inv ∧ s.takes msg 0x0F0E x ∧ s.hmp.claim = some x.num ∧ leAt (msgBody msg x) 0 2 = o ∧ leAt (msgBody msg x) 2 2 = n ∧ (msgBody msg x).length = n + 4 ∧ 1 ≤ n ∧ n ≤ 1024 ∧ o + n ≤ 16896 ∧ Memory.wf s.mgt.staging = true
abbrev Meets.SettingsLogAndWallTime4 := fun (s : State) (msg : Msg) (x : Session) =>
  s.Inv ∧ s.takes msg 0x0F10 x ∧ s.hmp.claim = some x.num ∧ msgBody msg x = []
abbrev Meets.SettingsLogAndWallTime5 := fun (s : State) (msg : Msg) (x : Session) =>
  s.Inv ∧ s.takes msg 0x0F0F x ∧ s.hmp.claim = some x.num ∧ msgBody msg x = [] ∧ settingsForm s.mgt.staging = true ∧ (keysChange s.mgt.activeCopy s.mgt.staging = false ∨ x.debug = true) ∧ s.mgt.commit = none ∧ s.mgt.erasing = false ∧ s.mgt.lost = false
abbrev Meets.SettingsLogAndWallTime6 := fun (s : State) (msg : Msg) (x : Session) =>
  s.Inv ∧ s.takes msg 0x0F0F x ∧ s.hmp.claim = some x.num ∧ msgBody msg x = [] ∧ settingsForm s.mgt.staging = false
abbrev Meets.SettingsLogAndWallTime7 := fun (s : State) (msg : Msg) (x : Session) n from_ =>
  s.Inv ∧ s.takes msg 0x0F11 x ∧ (msgBody msg x).length = 6 ∧ leAt (msgBody msg x) 0 4 = from_ ∧ leAt (msgBody msg x) 4 2 = n ∧ n ≤ 40 ∧ from_ < 2 ^ 32 - 1
abbrev Meets.SettingsLogAndWallTime8 := fun (s : State) c =>
  s.Inv ∧ s.mgt.commit = some c ∧ Memory.wf c.bytes = true ∧ s.portUp c.answer.port = true
abbrev Meets.SettingsLogAndWallTime9 := fun (s : State) =>
  s.Inv ∧ s.mgt.erasing = true ∧ s.mgt.lost = false ∧ s.mgt.mcUp = true ∧ s.mgt.active ≠ none
abbrev Meets.SettingsLogAndWallTime10 := fun (s : State) =>
  s.mgt.mcUp = true
abbrev Meets.SettingsLogAndWallTime11 := fun (s : State) =>
  s.mgt.mcUp = true ∧ s.ctl.corePower = true ∧ s.mgt.xingUp = true

/-- What the hypotheses of SettingsLogAndWallTime ask, met together. -/
theorem witness_SettingsLogAndWallTime :
    Meets.SettingsLogAndWallTime0 inRun (msg 0x0F02) sess5 ∧
    Meets.SettingsLogAndWallTime1 inRun (msg 0x0F0C) sess5 ∧
    Meets.SettingsLogAndWallTime2 inRun (msg 0x0F0D [0, 0, 0, 4, 0]) sess5 0 1024 ∧
    Meets.SettingsLogAndWallTime2 inRun (msg 0x0F0D [8, 0x42, 0, 0, 1]) sess5 16904 0 ∧
    Meets.SettingsLogAndWallTime2 inRun (msg 0x0F0D [7, 0x42, 1, 0, 1]) sess5 16903 1 ∧
    Meets.SettingsLogAndWallTime2 inRun (msg 0x0F0D [7, 0x42, 2, 0, 1]) sess5 16903 2 ∧
    Meets.SettingsLogAndWallTime2 inRun (msg 0x0F0D [7, 0x42, 1, 0, 2]) sess5 16903 1 ∧
    Meets.SettingsLogAndWallTime2 inRun (msg 0x0F0D [0, 0, 1, 4, 0]) sess5 0 1025 ∧
    Meets.SettingsLogAndWallTime3 inRun (msg 0x0F0E [0xFF, 0x41, 1, 0, 7]) sess5 0x41FF 1 ∧
    Meets.SettingsLogAndWallTime3 inRun (msg 0x0F0E [20, 0, 3, 0, 0, 9, 0]) sess5 20 3 ∧
    Meets.SettingsLogAndWallTime4 inRun (msg 0x0F10) sess5 ∧
    Meets.SettingsLogAndWallTime4 (inRun.settings fun m => { m with staging := [(0, 1)] }) (msg 0x0F10) sess5 ∧
    Meets.SettingsLogAndWallTime5 inRun (msg 0x0F0F) sess5 ∧
    Meets.SettingsLogAndWallTime6 (inRun.settings fun m => { m with staging := [(0, 1)] }) (msg 0x0F0F) sess5 ∧
    Meets.SettingsLogAndWallTime7 (inRun.settings fun m => { m with log := List.replicate 50 ⟨3, 0, 0, 0, true, [1]⟩ }) (msg 0x0F11 [0, 0, 0, 0, 40, 0]) sess5 40 0 ∧
    Meets.SettingsLogAndWallTime7 inRun (msg 0x0F11 [0xFE, 0xFF, 0xFF, 0xFF, 0, 0]) sess5 0 0xFFFFFFFE ∧
    Meets.SettingsLogAndWallTime8 (inRun.settings fun m => { m with commit := some ⟨1, factorySettings, msg 0x0F0F⟩, active := some 0 }) (⟨1, factorySettings, msg 0x0F0F⟩ : Commit) ∧
    Meets.SettingsLogAndWallTime8 (inRun.settings fun m => { m with commit := some ⟨0, factorySettings, msg 0x0F0F⟩ }) (⟨0, factorySettings, msg 0x0F0F⟩ : Commit) ∧
    Meets.SettingsLogAndWallTime9 (inRun.settings fun m => { m with erasing := true, active := some 0, copy1 := [(0, 1)] }) ∧
    Meets.SettingsLogAndWallTime9 (inRun.settings fun m => { m with erasing := true, active := some 1, copy1 := [(0, 1)] }) ∧
    Meets.SettingsLogAndWallTime10 (inRun.settings fun m => { m with logBuf := List.replicate 50 ⟨3, 0, 0, 0, true, [1]⟩ }) ∧
    Meets.SettingsLogAndWallTime10 (inRun.settings fun m => { m with logBuf := [⟨253 * 2048, 0, 0, 0, true, [1]⟩], log := [⟨0, 0, 0, 0, true, [1]⟩] }) ∧
    Meets.SettingsLogAndWallTime11 inRun :=
  ⟨by refine ⟨inv_of ?_, takes_msg ?_ ?_, ?_⟩ <;> decide +kernel,
    by refine ⟨inv_of ?_, takes_msg ?_ ?_, ?_⟩ <;> decide +kernel,
    by refine ⟨inv_of ?_, takes_msg ?_ ?_, ?_, ?_, ?_⟩ <;> decide +kernel,
    by refine ⟨inv_of ?_, takes_msg ?_ ?_, ?_, ?_, ?_⟩ <;> decide +kernel,
    by refine ⟨inv_of ?_, takes_msg ?_ ?_, ?_, ?_, ?_⟩ <;> decide +kernel,
    by refine ⟨inv_of ?_, takes_msg ?_ ?_, ?_, ?_, ?_⟩ <;> decide +kernel,
    by refine ⟨inv_of ?_, takes_msg ?_ ?_, ?_, ?_, ?_⟩ <;> decide +kernel,
    by refine ⟨inv_of ?_, takes_msg ?_ ?_, ?_, ?_, ?_⟩ <;> decide +kernel,
    by refine ⟨inv_of ?_, takes_msg ?_ ?_, ?_, ?_, ?_, ?_, ?_, ?_, ?_, ?_⟩ <;> decide +kernel,
    by refine ⟨inv_of ?_, takes_msg ?_ ?_, ?_, ?_, ?_, ?_, ?_, ?_, ?_, ?_⟩ <;> decide +kernel,
    by refine ⟨inv_of ?_, takes_msg ?_ ?_, ?_, ?_⟩ <;> decide +kernel,
    by refine ⟨inv_of ?_, takes_msg ?_ ?_, ?_, ?_⟩ <;> decide +kernel,
    by refine ⟨inv_of ?_, takes_msg ?_ ?_, ?_, ?_, ?_, ?_, ?_, ?_, ?_⟩ <;> decide +kernel,
    by refine ⟨inv_of ?_, takes_msg ?_ ?_, ?_, ?_, ?_⟩ <;> decide +kernel,
    by refine ⟨inv_of ?_, takes_msg ?_ ?_, ?_, ?_, ?_, ?_, ?_⟩ <;> decide +kernel,
    by refine ⟨inv_of ?_, takes_msg ?_ ?_, ?_, ?_, ?_, ?_, ?_⟩ <;> decide +kernel,
    by refine ⟨inv_of ?_, ?_, ?_, ?_⟩ <;> decide +kernel,
    by refine ⟨inv_of ?_, ?_, ?_, ?_⟩ <;> decide +kernel,
    by refine ⟨inv_of ?_, ?_, ?_, ?_, ?_⟩ <;> decide +kernel,
    by refine ⟨inv_of ?_, ?_, ?_, ?_, ?_⟩ <;> decide +kernel,
    by refine ?_ <;> decide +kernel,
    by refine ?_ <;> decide +kernel,
    by refine ⟨?_, ?_, ?_⟩ <;> decide +kernel⟩

abbrev Meets.UpdatesAndTheMcsStart0 := fun (s : State) (msg : Msg) (x : Session) (n : Nat) =>
  s.Inv ∧ s.mgt.runSlot ≤ 1 ∧ Memory.wf s.mgt.activeCopy = true ∧ s.takes msg 0x0F12 x ∧ s.hmp.claim = some x.num ∧ (msgBody msg x).length = 4 ∧ leAt (msgBody msg x) 0 4 = n ∧ s.mgt.lost = false ∧ s.mgt.upd = none ∧ s.mgt.onTrial = false ∧ 4096 ≤ n ∧ n ≤ 0x1800000
abbrev Meets.UpdatesAndTheMcsStart1 := fun (s : State) (msg : Msg) (x : Session) (n : Nat) =>
  s.Inv ∧ s.mgt.runSlot ≤ 1 ∧ Memory.wf s.mgt.activeCopy = true ∧ s.takes msg 0x0F12 x ∧ s.hmp.claim = some x.num ∧ (msgBody msg x).length = 4 ∧ leAt (msgBody msg x) 0 4 = n ∧ s.mgt.lost = false ∧ s.mgt.upd = none ∧ s.mgt.onTrial = false ∧ (n < 4096 ∨ 0x1800000 < n)
abbrev Meets.UpdatesAndTheMcsStart2 := fun (s : State) k b m =>
  s.Inv ∧ s.mgt.runSlot ≤ 1 ∧ Memory.wf s.mgt.activeCopy = true ∧ k ≤ 1 ∧ s.mgt.upd = some (k, b, m) ∧ leAt m.payload 0 4 ≤ b.length ∧ (s.mgt.commit ≠ none ∨ s.mgt.erasing = true)
abbrev Meets.UpdatesAndTheMcsStart3 := fun (s : State) k b m =>
  s.Inv ∧ s.mgt.runSlot ≤ 1 ∧ Memory.wf s.mgt.activeCopy = true ∧ k ≤ 1 ∧ s.mgt.upd = some (k, b, m) ∧ leAt m.payload 0 4 ≤ b.length ∧ s.mgt.commit = none ∧ s.mgt.erasing = false ∧ s.portUp m.port = true
abbrev Meets.UpdatesAndTheMcsStart4 := fun (s : State) (msg : Msg) (x : Session) =>
  s.Inv ∧ s.mgt.runSlot ≤ 1 ∧ Memory.wf s.mgt.activeCopy = true ∧ s.takes msg 0x0F13 x ∧ s.hmp.claim = some x.num ∧ msgBody msg x = [] ∧ s.mgt.lost = false ∧ s.mgt.onTrial = true ∧ (s.mgt.commit ≠ none ∨ s.mgt.erasing = true)
abbrev Meets.UpdatesAndTheMcsStart5 := fun (s : State) (msg : Msg) (x : Session) =>
  s.Inv ∧ s.mgt.runSlot ≤ 1 ∧ Memory.wf s.mgt.activeCopy = true ∧ s.takes msg 0x0F13 x ∧ s.hmp.claim = some x.num ∧ msgBody msg x = [] ∧ s.mgt.lost = false ∧ s.mgt.onTrial = true ∧ s.mgt.commit = none ∧ s.mgt.erasing = false
abbrev Meets.UpdatesAndTheMcsStart6 := fun (s : State) (msg : Msg) (x : Session) =>
  s.Inv ∧ s.mgt.runSlot ≤ 1 ∧ Memory.wf s.mgt.activeCopy = true ∧ s.takes msg 0x0F13 x ∧ s.hmp.claim = some x.num ∧ msgBody msg x = [] ∧ s.mgt.lost = false ∧ s.mgt.onTrial = false
abbrev Meets.UpdatesAndTheMcsStart7 := fun (s : State) a c =>
  s.Inv ∧ s.mgt.mcUp = false ∧ s.ctl.mode ≠ .off ∧ c = ({ s.mgt with active := chooseCopy s.mgt.copy0 s.mgt.copy1 } : Mgt).activeCopy ∧ a = setAtByte c 44 1 ∧ setAtByte c 45 1 = 0
abbrev Meets.UpdatesAndTheMcsStart8 := fun (s : State) a c =>
  s.Inv ∧ s.mgt.mcUp = false ∧ s.ctl.mode ≠ .off ∧ c = ({ s.mgt with active := chooseCopy s.mgt.copy0 s.mgt.copy1 } : Mgt).activeCopy ∧ Memory.wf c = true ∧ a = setAtByte c 44 1
abbrev Meets.UpdatesAndTheMcsStart9 := fun (s : State) (msg : Msg) (x : Session) =>
  s.Inv ∧ s.takes msg 0x0F14 x ∧ s.hmp.claim = some x.num ∧ msgBody msg x = []
abbrev Meets.UpdatesAndTheMcsStart10 := fun (s : State) =>
  s.Inv ∧ s.mgt.mcUp = true

/-- What the hypotheses of UpdatesAndTheMcsStart ask, met together. -/
theorem witness_UpdatesAndTheMcsStart :
    Meets.UpdatesAndTheMcsStart0 inRun (msg 0x0F12 [0, 0x10, 0, 0]) sess5 4096 ∧
    Meets.UpdatesAndTheMcsStart0 (inRun.settings fun m => { m with runSlot := 1, slotA := [1], slotB := [2] }) (msg 0x0F12 [0, 0, 0x80, 1]) sess5 0x1800000 ∧
    Meets.UpdatesAndTheMcsStart1 inRun (msg 0x0F12 [255, 0x0F, 0, 0]) sess5 4095 ∧
    Meets.UpdatesAndTheMcsStart1 inRun (msg 0x0F12 [1, 0, 0x80, 1]) sess5 0x1800001 ∧
    Meets.UpdatesAndTheMcsStart2 (inRun.settings fun m => { m with upd := some (1, [1, 2, 3, 4], msg 0x0F12 [4, 0, 0, 0]), erasing := true }) 1 ([1, 2, 3, 4] : List Byte) (msg 0x0F12 [4, 0, 0, 0]) ∧
    Meets.UpdatesAndTheMcsStart3 (inRun.settings fun m => { m with upd := some (1, [1, 2, 3, 4], msg 0x0F12 [4, 0, 0, 0]), slotA := [1], slotB := [2] }) 1 ([1, 2, 3, 4] : List Byte) (msg 0x0F12 [4, 0, 0, 0]) ∧
    Meets.UpdatesAndTheMcsStart4 (inRun.settings fun m => { m with onTrial := true, erasing := true }) (msg 0x0F13) sess5 ∧
    Meets.UpdatesAndTheMcsStart5 (inRun.settings fun m => { m with onTrial := true }) (msg 0x0F13) sess5 ∧
    Meets.UpdatesAndTheMcsStart5 (inRun.settings fun m => { m with onTrial := true, runSlot := 1, slotB := List.replicate 12 1 ++ [9, 0, 0, 0, 1] }) (msg 0x0F13) sess5 ∧
    Meets.UpdatesAndTheMcsStart6 inRun (msg 0x0F13) sess5 ∧
    Meets.UpdatesAndTheMcsStart7 { inRun with mgt := { inRun.mgt with mcUp := false, copy0 := [] } } 0 factorySettings ∧
    Meets.UpdatesAndTheMcsStart7 { (dark .standby) with mgt := { inRun.mgt with mcUp := false, recovery := true, copy0 := [] } } 0 factorySettings ∧
    Meets.UpdatesAndTheMcsStart8 { inRun with mgt := { inRun.mgt with mcUp := false, copy0 := [] } } 0 factorySettings ∧
    Meets.UpdatesAndTheMcsStart9 inRun (msg 0x0F14) sess5 ∧
    Meets.UpdatesAndTheMcsStart9 (inRun.settings fun m => { m with logBuf := [⟨253 * 2048, 0, 0, 0, true, [1]⟩] }) (msg 0x0F14) sess5 ∧
    Meets.UpdatesAndTheMcsStart10 inRun ∧
    Meets.UpdatesAndTheMcsStart10 (inRun.withCore 16 fun c => { c with wdogOnce := true }) :=
  ⟨by refine ⟨inv_of ?_, ?_, ?_, takes_msg ?_ ?_, ?_, ?_, ?_, ?_, ?_, ?_, ?_, ?_⟩ <;> decide +kernel,
    by refine ⟨inv_of ?_, ?_, ?_, takes_msg ?_ ?_, ?_, ?_, ?_, ?_, ?_, ?_, ?_, ?_⟩ <;> decide +kernel,
    by refine ⟨inv_of ?_, ?_, ?_, takes_msg ?_ ?_, ?_, ?_, ?_, ?_, ?_, ?_, ?_⟩ <;> decide +kernel,
    by refine ⟨inv_of ?_, ?_, ?_, takes_msg ?_ ?_, ?_, ?_, ?_, ?_, ?_, ?_, ?_⟩ <;> decide +kernel,
    by refine ⟨inv_of ?_, ?_, ?_, ?_, ?_, ?_, ?_⟩ <;> decide +kernel,
    by refine ⟨inv_of ?_, ?_, ?_, ?_, ?_, ?_, ?_, ?_, ?_⟩ <;> decide +kernel,
    by refine ⟨inv_of ?_, ?_, ?_, takes_msg ?_ ?_, ?_, ?_, ?_, ?_, ?_⟩ <;> decide +kernel,
    by refine ⟨inv_of ?_, ?_, ?_, takes_msg ?_ ?_, ?_, ?_, ?_, ?_, ?_, ?_⟩ <;> decide +kernel,
    by refine ⟨inv_of ?_, ?_, ?_, takes_msg ?_ ?_, ?_, ?_, ?_, ?_, ?_, ?_⟩ <;> decide +kernel,
    by refine ⟨inv_of ?_, ?_, ?_, takes_msg ?_ ?_, ?_, ?_, ?_, ?_⟩ <;> decide +kernel,
    by refine ⟨inv_of ?_, ?_, ?_, ?_, ?_, ?_⟩ <;> decide +kernel,
    by refine ⟨inv_of ?_, ?_, ?_, ?_, ?_, ?_⟩ <;> decide +kernel,
    by refine ⟨inv_of ?_, ?_, ?_, ?_, ?_, ?_⟩ <;> decide +kernel,
    by refine ⟨inv_of ?_, takes_msg ?_ ?_, ?_, ?_⟩ <;> decide +kernel,
    by refine ⟨inv_of ?_, takes_msg ?_ ?_, ?_, ?_⟩ <;> decide +kernel,
    by refine ⟨inv_of ?_, ?_⟩ <;> decide +kernel,
    by refine ⟨inv_of ?_, ?_⟩ <;> decide +kernel⟩

abbrev Meets.TheMailboxReachesTheMc0 := fun (s : State) (m n : Nat) (d : Word) =>
  s.Inv ∧ s.reaches m 34 ∧ bits d.toNat 0 13 = n ∧ s.mgt.mcUp = true ∧ s.mgt.xingUp = true ∧ s.mgt.mbox = none ∧ 4 ≤ n ∧ n ≤ 4096 ∧ 1 ≤ leAt (Mem.read s.mem tomcBase n) 0 4 ∧ leAt (Mem.read s.mem tomcBase n) 0 4 ≤ 3
abbrev Meets.TheMailboxReachesTheMc1 := fun (s : State) (m n : Nat) (d : Word) =>
  s.Inv ∧ s.reaches m 34 ∧ bits d.toNat 0 13 = n ∧ s.mgt.mcUp = true ∧ s.mgt.xingUp = true ∧ (s.mgt.mbox ≠ none ∨ n = 0 ∨ 4096 < n)
abbrev Meets.TheMailboxReachesTheMc2 := fun (s : State) m b =>
  s.Inv ∧ s.mgt.mbox = some (m, b) ∧ leAt b 0 4 = 1 ∧ s.mgt.mcUp = true ∧ s.mgt.logBuf.length < 256
abbrev Meets.TheMailboxReachesTheMc3 := fun (s : State) m b =>
  s.Inv ∧ s.mgt.mbox = some (m, b) ∧ leAt b 0 4 = 2
abbrev Meets.TheMailboxReachesTheMc4 := fun (s : State) m b o n =>
  s.Inv ∧ s.mgt.mbox = some (m, b) ∧ leAt b 0 4 = 3 ∧ leAt b 4 2 = o ∧ leAt b 6 2 = n ∧ n ≤ 1024 ∧ o + n ≤ 16904

/-- What the hypotheses of TheMailboxReachesTheMc ask, met together. -/
theorem witness_TheMailboxReachesTheMc :
    Meets.TheMailboxReachesTheMc0 (boxed [1, 0, 0, 0]) 0 4 4 ∧
    Meets.TheMailboxReachesTheMc0 (boxed [3, 0, 0, 0]) 15 4096 0x1000 ∧
    Meets.TheMailboxReachesTheMc1 State.reset 0 0 0 ∧
    Meets.TheMailboxReachesTheMc1 State.reset 0 4097 4097 ∧
    Meets.TheMailboxReachesTheMc1 { (boxed [1, 0, 0, 0]) with mgt := { Mgt.reset with mbox := some (0, []) } } 0 4 4 ∧
    Meets.TheMailboxReachesTheMc2 { State.reset with mgt := { Mgt.reset with mbox := some (15, [1, 0, 0, 0, 9, 9]) } } 15 ([1, 0, 0, 0, 9, 9] : List Byte) ∧
    Meets.TheMailboxReachesTheMc2 { State.reset with mgt := { Mgt.reset with mbox := some (0, [1, 0, 0, 0] ++ List.replicate 40 1) } } 0 ([1, 0, 0, 0] ++ List.replicate 40 1 : List Byte) ∧
    Meets.TheMailboxReachesTheMc3 { (boxed [9, 9, 9]) with mgt := { Mgt.reset with mbox := some (15, [2, 0, 0, 0]) } } 15 ([2, 0, 0, 0] : List Byte) ∧
    Meets.TheMailboxReachesTheMc4 { State.reset with mgt := { Mgt.reset with mbox := some (15, [3, 0, 0, 0, 0, 0, 40, 0]) } } 15 ([3, 0, 0, 0, 0, 0, 40, 0] : List Byte) 0 40 ∧
    Meets.TheMailboxReachesTheMc4 { State.reset with mgt := { Mgt.reset with mbox := some (15, [3, 0, 0, 0, 8, 0x42, 0, 0]) } } 15 ([3, 0, 0, 0, 8, 0x42, 0, 0] : List Byte) 16904 0 ∧
    Meets.TheMailboxReachesTheMc4 { State.reset with mgt := { Mgt.reset with mbox := some (15, [3, 0, 0, 0, 8, 0x3E, 0, 4]) } } 15 ([3, 0, 0, 0, 8, 0x3E, 0, 4] : List Byte) 15880 1024 :=
  ⟨by refine ⟨inv_of ?_, reaches_of ?_, ?_, ?_, ?_, ?_, ?_, ?_, ?_, ?_⟩ <;> decide +kernel,
    by refine ⟨inv_of ?_, reaches_of ?_, ?_, ?_, ?_, ?_, ?_, ?_, ?_, ?_⟩ <;> decide +kernel,
    by refine ⟨inv_of ?_, reaches_of ?_, ?_, ?_, ?_, ?_⟩ <;> decide +kernel,
    by refine ⟨inv_of ?_, reaches_of ?_, ?_, ?_, ?_, ?_⟩ <;> decide +kernel,
    by refine ⟨inv_of ?_, reaches_of ?_, ?_, ?_, ?_, ?_⟩ <;> decide +kernel,
    by refine ⟨inv_of ?_, ?_, ?_, ?_, ?_⟩ <;> decide +kernel,
    by refine ⟨inv_of ?_, ?_, ?_, ?_, ?_⟩ <;> decide +kernel,
    by refine ⟨inv_of ?_, ?_, ?_⟩ <;> decide +kernel,
    by refine ⟨inv_of ?_, ?_, ?_, ?_, ?_, ?_, ?_⟩ <;> decide +kernel,
    by refine ⟨inv_of ?_, ?_, ?_, ?_, ?_, ?_, ?_⟩ <;> decide +kernel,
    by refine ⟨inv_of ?_, ?_, ?_, ?_, ?_, ?_, ?_⟩ <;> decide +kernel⟩

end Sys2Proof.Tests
end

section
/-! SUPPORT. Requests to the register blocks: how the network takes one, what its answer shows, and what the scheduler leaves of the
network (R11, R13, R450, R495). -/
namespace Sys2Proof.Machine

/-! ### The network's part of a state under the scheduler -/

/-- A fold of steps that leave the network alone leaves it alone. -/
theorem foldl_noc {α : Type} {g : State → α → State} (hg : ∀ s x, (g s x).noc = s.noc) (l : List α) (s : State) :
    (l.foldl g s).noc = s.noc := by
  induction l generalizing s with
  | nil => rfl
  | cons x r ih => rw [List.foldl_cons, ih, hg]

@[simp] theorem State.setFlds_noc (s : State) (l : List (Fld × Nat)) : (s.setFlds l).noc = s.noc := by
  unfold State.setFlds
  exact foldl_noc (fun s x => s.setFld_noc x.1 x.2) l s

@[simp] theorem State.count_noc (s : State) (f : Fld) (n : Nat) : (s.count f n).noc = s.noc := by
  rw [State.count, State.setFld_noc]

@[simp] theorem State.tellSession_noc (s : State) (x : Session) (op : Nat) (p : List Byte) : (s.tellSession x op p).noc = s.noc := by
  unfold State.tellSession; split
  · rfl
  · exact s.sendTo_noc x 3 op 0 0 p

@[simp] theorem State.eventAll_noc (s : State) (op : Nat) (p : List Byte) : (s.eventAll op p).noc = s.noc :=
  foldl_noc (fun s x => State.tellSession_noc s x op p) _ s

@[simp] theorem State.log_noc (s : State) (src : Nat) (d : List Byte) : (s.log src d).noc = s.noc := by
  unfold State.log; split
  · dsimp only; split <;> rfl
  · rfl

@[simp] theorem State.hubLog_noc (s : State) (src : Nat) (d : List Byte) : (s.hubLog src d).noc = s.noc := by
  unfold State.hubLog; split
  · exact State.log_noc s src d
  · rfl

theorem State.withEvt_noc (s : State) (x : Evt) : ({ s with evt := x } : State).noc = s.noc := rfl
theorem State.withTsk_noc (s : State) (x : Tsk) : ({ s with tsk := x } : State).noc = s.noc := rfl

@[simp] theorem raise_noc (k : Nat) (s : State) : (raise k s).noc = s.noc := by
  unfold raise
  split
  · rfl
  · split
    · extract_lets b pended w messages told
      have hpended : pended.noc = s.noc := by
        unfold pended
        split
        · exact State.count_noc s _ 1
        · exact s.setFld_noc b 1
      clear_value pended
      have htold : told.noc = s.noc := by
        unfold told
        split
        · split
          · exact (State.eventAll_noc _ _ _).trans hpended
          · rw [State.withEvt_noc, hpended]
        · exact hpended
      clear_value told
      split
      · rw [State.hubLog_noc, htold]
      · exact htold
    · rfl

@[simp] theorem raiseIf_noc (b : Bool) (k : Nat) (s : State) : (raiseIf b k s).noc = s.noc := by
  cases b with
  | false => rfl
  | true => exact raise_noc k s

@[simp] theorem State.freeCore_noc (s : State) (t : Nat) : (s.freeCore t).noc = s.noc := by
  unfold State.freeCore
  extract_lets n
  split
  · rw [State.setFlds_noc]
  · rfl

@[simp] theorem State.unready_noc (s : State) (t : Nat) : (s.unready t).noc = s.noc := rfl
@[simp] theorem State.toTail_noc (s : State) (t : Nat) : (s.toTail t).noc = s.noc := rfl
@[simp] theorem State.setSync_noc (s : State) (f : Nat) (b : Bool) : (s.setSync f b).noc = s.noc := rfl

@[simp] theorem makeReady_noc (t : Nat) (s : State) : (makeReady t s).noc = s.noc := by
  unfold makeReady
  rw [State.withTsk_noc, State.toTail_noc, State.setFlds_noc, State.freeCore_noc]

@[simp] theorem makeIdle_noc (t : Nat) (s : State) : (makeIdle t s).noc = s.noc := by
  rw [makeIdle, State.unready_noc, State.setFlds_noc, State.freeCore_noc]

@[simp] theorem badCommand_noc (s : State) : (badCommand s).noc = s.noc := by rw [badCommand, raise_noc, State.count_noc]

@[simp] theorem chservSet_noc (s : State) : (chservSet s).noc = s.noc := by
  unfold chservSet
  refine foldl_noc (fun t x => ?_) _ s
  split
  · exact State.setSync_noc t x.1 true
  · rfl

@[simp] theorem wakeFlag_noc (s : State) (f : Nat) : (wakeFlag s f).noc = s.noc := by
  unfold wakeFlag
  split
  · extract_lets w first go woken
    have hw : woken.noc = s.noc := foldl_noc (fun t x => makeReady_noc x t) _ _
    clear_value woken
    split
    · exact (State.setSync_noc woken f false).trans hw
    · exact hw
  · rfl

theorem flagWakes_noc {hub : State → State} (hh : ∀ s, (hub s).noc = s.noc) (s : State) : (flagWakes hub s).noc = s.noc := by
  have hset (t : State) (f : Nat) : (if s.syncFlag f && (hub (s.setSync f false)).syncFlag f then t.setSync f true else t).noc = t.noc := by
    split
    · exact State.setSync_noc t f true
    · rfl
  unfold flagWakes
  rw [foldl_noc hset, foldl_noc wakeFlag_noc, chservSet_noc, hh]

@[simp] theorem cmdRun_noc (d : Word) (s : State) : (cmdRun d s).noc = s.noc := by
  unfold cmdRun
  extract_lets d t
  split
  case h_1 =>
    unfold cmdReady; split
    · exact makeReady_noc t s
    · exact badCommand_noc s
  case h_2 =>
    unfold cmdBlock; split
    · rw [State.setFlds_noc, makeIdle_noc]
    · exact badCommand_noc s
  case h_3 =>
    unfold cmdYield; split
    · exact makeReady_noc t s
    · exact badCommand_noc s
  case h_4 =>
    unfold cmdSetpri; split
    · extract_lets u
      split
      · exact State.toTail_noc u t
      · rfl
    · exact badCommand_noc s
  case h_5 =>
    unfold cmdDone; split
    · exact makeIdle_noc t s
    · exact badCommand_noc s
  case h_6 => exact badCommand_noc s

@[simp] theorem submit_noc (n : Nat) (s : State) : (submit n s).noc = s.noc := by
  unfold submit
  extract_lets u aff
  have hu : u.noc = s.noc := State.setFlds_noc _ _
  clear_value u
  split
  · exact hu
  · split
    · rw [raise_noc, State.setFld_noc, hu]
    · rw [makeReady_noc, State.setFlds_noc, State.setReg_noc, State.setReg_noc, hu]

@[simp] theorem TskCmd.run_noc (c : TskCmd) (s : State) : (c.run s).noc = s.noc := by
  cases c with
  | word n d =>
    rw [TskCmd.run]
    split
    · rfl
    · exact cmdRun_noc d s
  | submit n => exact submit_noc n s
  | dispatch m n => rfl

@[simp] theorem cmdCancel_noc (t : Nat) (met : Bool) (s : State) : (cmdCancel t met s).noc = s.noc := by
  unfold cmdCancel
  generalize (if s.poolMode then s.thr t == 1 || s.thr t == 2 else s.thr t != 0) = active
  split
  · extract_lets u
    have hu : u.noc = s.noc := makeIdle_noc t s
    clear_value u
    split
    · exact (State.count_noc u _ 1).trans hu
    · exact hu
  · exact badCommand_noc s

@[simp] theorem runOn_noc (n t : Nat) (s : State) : (runOn n t s).noc = s.noc := by
  unfold runOn
  rw [State.count_noc, State.setFlds_noc, State.unready_noc]

@[simp] theorem TskRead.take_noc (x : TskRead) (s : State) : (x.take s).noc = s.noc := by
  unfold TskRead.take
  split
  · exact runOn_noc _ _ s
  · rfl

@[simp] theorem resetEntry_noc (t : Nat) (s : State) : (resetEntry t s).noc = s.noc := by
  unfold resetEntry
  extract_lets pool u
  have hu : u.noc = s.noc := makeIdle_noc t s
  clear_value u
  split
  · rw [State.withTsk_noc, State.setFld_noc, hu]
  · exact hu

@[simp] theorem tskEvents_noc (old s : State) : (tskEvents old s).noc = s.noc := by
  unfold tskEvents
  rw [foldl_noc (fun t n => raiseIf_noc _ n t), raiseIf_noc]

@[simp] theorem tskCounts_noc (s : State) : (tskCounts s).noc = s.noc := by
  unfold tskCounts
  rw [State.setFlds_noc]

@[simp] theorem tskOrder_noc (s : State) : (tskOrder s).noc = s.noc := by
  unfold tskOrder
  rw [State.withTsk_noc]

/-- With no response about to fail parity, an answer puts its request last among those that wait for their response. -/
theorem State.answer_noc {s : State} (h : s.noc.answer = false) (f : Flight) (err : Nat) (d : List Byte) :
    (s.answer f err d).noc =
      { s.noc with flights := s.noc.flights ++ [{ f with waits := none, stalled := false, err := err, data := d }] } := by
  unfold State.answer
  by_cases he : err = 1 <;> simp [he, h, State.fly]

/-- A cycle of the scheduler makes no response fail parity. -/
theorem tskOnce_answer {hub : State → State} (hh : ∀ s, (hub s).noc = s.noc) (now : List TskCmd) (reset : Option Nat) (s : State)
    (h : s.noc.answer = false) : (tskOnce now hub reset s).noc.answer = false := by
  unfold tskOnce
  extract_lets old l gone given hit queued tsk s₁ s₂ s₃ s₄ s₅ s₆ s₇
  have h₂ : s₂.noc.answer = false :=
    List.foldlRecOn (motive := fun t : State => t.noc.answer = false) _ _ h fun t ht x _ => by rw [State.answer_noc ht]; exact ht
  have h₃ : s₃.noc = s₂.noc := foldl_noc (fun t x => x.take_noc t) _ _
  have h₄ : s₄.noc = s₃.noc := foldl_noc (fun t c => c.run_noc t) _ _
  have h₅ : s₅.noc = s₄.noc := by
    cases reset with
    | none => rfl
    | some t => exact resetEntry_noc t s₄
  have h₆ : s₆.noc = s₅.noc := flagWakes_noc hh s₅
  have h₇ : s₇.noc = s₆.noc := foldl_noc (fun t x => cmdCancel_noc x _ t) _ _
  rw [tskEvents_noc, tskCounts_noc, chservSet_noc, tskOrder_noc, h₇, h₆, h₅, h₄, h₃, h₂]

theorem tskMore_answer (k : Nat) (s : State) (h : s.noc.answer = false) : (tskMore k s).noc.answer = false := by
  induction k generalizing s with
  | zero => exact h
  | succ k ih =>
    unfold tskMore
    split
    · exact ih _ (tskOnce_answer (fun _ => rfl) [] none s h)
    · exact h

theorem tskCycle_answer {hub : State → State} (hh : ∀ s, (hub s).noc = s.noc) (now : List TskCmd) (reset : Option Nat) (s : State)
    (h : s.noc.answer = false) : (tskCycle now hub reset s).noc.answer = false := by
  have hu := tskOnce_answer hh now reset s h
  unfold tskCycle
  generalize tskOnce now hub reset s = u at hu ⊢
  exact tskMore_answer _ u hu

theorem dispRead_answer (n : Nat) (s : State) (h : s.noc.answer = false) : (dispRead n s).2.noc.answer = false := by
  have hcycle := tskCycle_answer (hub := fun t => t) (fun _ => rfl) [.dispatch 64 n] none s h
  unfold dispRead
  generalize tskCycle [.dispatch 64 n] (fun t => t) none s = u at hcycle ⊢
  exact hcycle

@[simp] theorem claimRead_noc (n : Nat) (s : State) : (claimRead n s).2.noc = s.noc := by
  unfold claimRead; split <;> rfl

/-- A read of a register makes no response fail parity. -/
theorem readReg_answer (a : Nat) (s : State) (h : s.noc.answer = false) : (readReg a s).2.noc.answer = false := by
  unfold readReg
  split
  · exact h
  · split
    · rwa [claimRead_noc]
    · exact dispRead_answer _ s h
    · dsimp only; split <;> exact h

/-! ### How the network takes a request to the register blocks -/

/-- The register blocks are target 17 (R491). -/
theorem targetOf_registers {a : Nat} (ha : a < 0x160000) : targetOf a = some 17 := by
  unfold targetOf; rw [if_pos ha]

/-- Nothing stops a request to the register blocks that `State.reaches` lets through. -/
theorem netStop_of_reaches {s : State} {m : Nat} (h : s.reaches m 17) (a : Nat) (wr : Bool) (n : Nat) (d : List Byte) :
    netStop m 17 a wr n d s = none := by
  obtain ⟨hpower, hvalid, hflit, -, hfree, hfence⟩ := h
  simp [netStop, State.packet, hpower, hvalid, hflit, hfree, hfence]

/-- No march borrows a register. -/
theorem borrowed_registers {a : Nat} (s : State) (ha : a < 0x160000) : s.borrowed a = false := by
  have : ¬ 0x1000000 ≤ a := by omega
  simp [State.borrowed, this]

/-- A request that reaches the register blocks is served by them and answered. -/
theorem busAccess_registers {s : State} {m a : Nat} (hr : s.reaches m 17) (ha : a < 0x160000) (n : Nat) (wr : Bool) (d : List Byte)
    (e : List (Ecc × Ecc)) :
    busAccess m a n wr d e s = (regAccess m a n wr d s).2.2.answer (s.packet m 17 a n wr) (regAccess m a n wr d s).1
      (regAccess m a n wr d s).2.1 := by
  simp only [busAccess, targetOf_registers ha, netStop_of_reaches hr, borrowed_registers s ha, serve, ha, if_true, Bool.false_eq_true,
    if_false]

/-- REGISTER_RC_READ of an address of the register blocks. -/
theorem exec_registerRcRead {s : State} {m a : Nat} (hr : s.reaches m 17) (ha : a < 0x160000) (n : Nat) :
    exec (.registerRcRead m a n) s =
      .next ((regFetch a n s).2.2.answer (s.packet m 17 a n false) (regFetch a n s).1 (regFetch a n s).2.1) :=
  congrArg Host.Outcome.next (busAccess_registers hr ha n false [] [])

/-- REGISTER_WRITE of an address of the register blocks. -/
theorem exec_registerWrite {s : State} {m a : Nat} (hr : s.reaches m 17) (ha : a < 0x160000) (n : Nat) (d : Word) :
    exec (.registerWrite m a n d) s =
      .next ((regAccess m a n true (leBytes n d.toNat) s).2.2.answer (s.packet m 17 a n true)
        (regAccess m a n true (leBytes n d.toNat) s).1 (regAccess m a n true (leBytes n d.toNat) s).2.1) :=
  congrArg Host.Outcome.next (busAccess_registers hr ha n true _ [])

/-! ### What an answer shows -/

/-- The answer to a request as its master issued it. -/
theorem answered_answer {t : State} (h : t.noc.answer = false) (s : State) (m tg a n : Nat) (wr : Bool) (err : Nat) (d : List Byte) :
    (t.answer (s.packet m tg a n wr) err d).answered m tg a wr err d := by
  refine ⟨n, (s.packet m tg a n wr).route, (s.packet m tg a n wr).due, ?_⟩
  rw [State.answer_noc h, List.getLast?_concat]
  rfl

/-- The last response carries one piece of data. -/
theorem State.answered.data_unique {t : State} {m m' tg tg' a a' err err' : Nat} {wr wr' : Bool} {d d' : List Byte}
    (h : t.answered m tg a wr err d) (h' : t.answered m' tg' a' wr' err' d') : d = d' := by
  obtain ⟨_, _, _, h⟩ := h
  obtain ⟨_, _, _, h'⟩ := h'
  exact congrArg Flight.data (Option.some.inj (h.symm.trans h'))

/-- An answer that is not UNMAPPED changes nothing but the responses that wait. -/
theorem told_answer {s : State} (h : s.noc.answer = false) (f : Flight) {err : Nat} (he : err ≠ 1) (d : List Byte) :
    s.told (s.answer f err d) [] ∧ (s.answer f err d).regs = s.regs := by
  have heq : s.answer f err d = s.fly { f with waits := none, stalled := false, err := err, data := d } := by
    simp [State.answer, he, h]
  rw [heq]
  exact ⟨⟨fun _ _ _ => rfl, rfl⟩, rfl⟩

/-! ### What the register blocks answer (R11, R13) -/

/-- An access that is not a naturally aligned 32-bit one is answered ALIGN and does nothing. -/
theorem regAccess_other {a n : Nat} (h : n ≠ 4 ∨ a % 4 ≠ 0) (m : Nat) (wr : Bool) (d : List Byte) (s : State) :
    regAccess m a n wr d s = (3, [], s) := by
  cases wr <;> simp [regAccess, regFetch, h]

theorem regFetch_other {a n : Nat} (h : n ≠ 4 ∨ a % 4 ≠ 0) (s : State) : regFetch a n s = (3, [], s) :=
  regAccess_other h 0 false [] s

/-- A read in the peek half returns the peek value and changes nothing. -/
theorem regFetch_peek {a : Nat} (ha : a % 4 = 0) (hp : 0x8000 ≤ a % 0x10000) (s : State) :
    regFetch a 4 s = (0, leBytes 4 (s.peek (a - 0x8000)), s) := by
  simp [regFetch, ha, hp]

/-- A read in the lower half returns the register's word with the effects of its read. -/
theorem regFetch_low {a : Nat} (ha : a % 4 = 0) (hl : a % 0x10000 < 0x8000) (s : State) :
    regFetch a 4 s = (0, leBytes 4 (readReg a s).1, (readReg a s).2) := by
  simp [regFetch, ha, Nat.not_le.2 hl]

/-- A read of the register blocks makes no response fail parity. -/
theorem regFetch_answer (a n : Nat) (s : State) (h : s.noc.answer = false) : (regFetch a n s).2.2.noc.answer = false := by
  unfold regFetch
  split
  · exact h
  · split
    · exact h
    · exact readReg_answer a s h

/-- A naturally aligned 32-bit read is answered without an error, with the bytes of a number. -/
theorem regFetch_word {a : Nat} (ha : a % 4 = 0) (s : State) :
    (regFetch a 4 s).1 = 0 ∧ ∃ v, (regFetch a 4 s).2.1 = leBytes 4 v := by
  by_cases hp : 0x8000 ≤ a % 0x10000
  · rw [regFetch_peek ha hp]; exact ⟨rfl, _, rfl⟩
  · rw [regFetch_low ha (Nat.not_le.1 hp)]; exact ⟨rfl, _, rfl⟩

/-- Four bytes of a number are those of its low word. -/
theorem leBytes_word (v : Nat) : leBytes 4 (BitVec.ofNat 32 v).toNat = leBytes 4 v := by
  simp only [leBytes, BitVec.toNat_ofNat, List.cons.injEq, and_true]
  refine ⟨?_, ?_, ?_, ?_⟩ <;> apply BitVec.eq_of_toNat_eq <;> simp only [BitVec.toNat_ofNat] <;> omega

/-- A read that reaches the register blocks is answered with what they fetch. -/
theorem registerRcRead_answered {s : State} {m a : Nat} (hr : s.reaches m 17) (ha : a < 0x160000) (n : Nat) :
    ∃ t, exec (.registerRcRead m a n) s = .next t ∧ t.answered m 17 a false (regFetch a n s).1 (regFetch a n s).2.1 :=
  have ⟨_, _, _, hanswer, _, _⟩ := hr
  ⟨_, exec_registerRcRead hr ha n, answered_answer (regFetch_answer a n s hanswer) s m 17 a n false _ _⟩

/-- The data that a read of the register blocks is answered with are those they fetch. -/
theorem registerRcRead_data {s t : State} {m a n err : Nat} {d : List Byte} (hr : s.reaches m 17) (ha : a < 0x160000)
    (ht : exec (.registerRcRead m a n) s = .next t) (hd : t.answered m 17 a false err d) : d = (regFetch a n s).2.1 := by
  obtain ⟨t', ht', hd'⟩ := registerRcRead_answered hr ha n
  cases ht.symm.trans ht'
  exact hd.data_unique hd'

end Sys2Proof.Machine
end

section
/-! SUPPORT. The proofs about the register blocks: what answers an access (O8), and a read of TSK_DISP0 that its peek does not foretell (O9). -/
namespace Sys2Proof.Machine

/-- A naturally aligned 32-bit read that reaches the register blocks is answered with a word. -/
theorem registerRcRead_word {s : State} {m a : Nat} (hr : s.reaches m 17) (ha : a < 0x160000) (h4 : a % 4 = 0) :
    ∃ t, ∃ w : Word, exec (.registerRcRead m a 4) s = .next t ∧ t.answered m 17 a false 0 (leBytes 4 w.toNat) := by
  obtain ⟨t, ht, hans⟩ := registerRcRead_answered hr ha 4
  obtain ⟨herr, v, hv⟩ := regFetch_word h4 s
  rw [herr, hv, ← leBytes_word] at hans
  exact ⟨t, _, ht, hans⟩

/-- Where the register blocks leave the state as it was, the answer is all that comes of a request. -/
theorem answered_only {s : State} {m : Nat} (hr : s.reaches m 17) (a n : Nat) (wr : Bool) {err : Nat} (he : err ≠ 1) (d : List Byte) :
    (s.answer (s.packet m 17 a n wr) err d).answered m 17 a wr err d ∧ s.told (s.answer (s.packet m 17 a n wr) err d) [] ∧
      (s.answer (s.packet m 17 a n wr) err d).regs = s.regs :=
  have ⟨_, _, _, hanswer, _, _⟩ := hr
  ⟨answered_answer hanswer s m 17 a n wr err d, told_answer hanswer _ he d⟩

/-- Settles O8: the branch of `regAccess` for sizes and addresses that are not natural leaves the state as it is, and a read in either
half of a block fetches a number's four bytes. -/
theorem otherRegisterAccessesHaveNoEffect : Obligations.OtherRegisterAccessesHaveNoEffect := by
  intro m a s _ hr ha
  refine ⟨registerRcRead_word hr ha, fun size d hother => ⟨⟨_, ?_, answered_only hr a size true (by decide) []⟩,
    ⟨_, ?_, answered_only hr a size false (by decide) []⟩⟩⟩
  · rw [exec_registerWrite hr ha, regAccess_other hother]
  · rw [exec_registerRcRead hr ha, regFetch_other hother]

/-! ### A CANCEL that waits for its cycle (R449, R450) -/

/-- What four commands of core 0 leave after reset: thread mode, AFF of entry 0 naming core 0, a READY of entry 0, and a CANCEL of it that
waits for the other commands of its cycle. -/
def cancelWaits : State :=
  tskTake (.word 0 (cmdWord 4 false 0 0)) true
    (tskTake (.word 0 (cmdWord 1 false 0 0)) false (entryWrite (A.TSK_AFF 0) 1 (modeWrite 0 State.reset)))

/-- After reset every core but the management controller's is `Core.reset`, and that one differs in running alone. -/
theorem reset_coresOk : CoresOk State.reset.cores :=
  coresOk_setAt 16 Core.mc ⟨rfl, rfl⟩ (c := List.replicate 17 Core.reset)
    ⟨rfl, fun n => by rw [List.getD_eq_getElem?_getD, List.getElem?_replicate]; split <;> exact sound_reset n⟩

theorem reset_inv : State.reset.Inv := ⟨by decide +kernel, reset_coresOk, rfl, rfl⟩

theorem cancelWaits_inv : cancelWaits.Inv :=
  (kept_tskTake _ _ _ _ (kept_tskTake _ _ _ _ (kept_entryWrite _ _ _ _ (kept_modeWrite _ _ _ (kept_refl _ reset_inv))))).inv

theorem cancelWaits_reaches : cancelWaits.reaches 0 17 := by
  unfold State.reaches
  decide +kernel

/-- The peek shows the entry that a dispatch would take without the CANCEL. -/
theorem cancelWaits_peek : (regFetch (A.TSK_DISP 0 + 0x8000) 4 cancelWaits).2.1 = [0, 0, 0, 0x80] := by decide +kernel

/-- The read, in the cycle of the CANCEL, finds no entry. -/
theorem cancelWaits_read : (regFetch (A.TSK_DISP 0) 4 cancelWaits).2.1 = [0, 0, 0, 0] := by decide +kernel

/-- Refutes O9: with a CANCEL of the only READY entry waiting in the scheduler's cycle, the peek of TSK_DISP0 names the entry, and the
read, which ends that cycle, does not (R449). -/
theorem not_peekAliasAndEmptyOffsets : ¬ Obligations.PeekAliasAndEmptyOffsets := by
  intro ⟨_, hpeek, _⟩
  obtain ⟨r, hrow⟩ : ∃ r, findRow (A.TSK_DISP 0) = some r := Option.isSome_iff_exists.1 (by decide)
  obtain ⟨t, u, v, ht, htv, _, _, hu, huv⟩ := hpeek 0 _ r cancelWaits cancelWaits_inv cancelWaits_reaches rfl hrow
  have hpeeked : leBytes 4 v = [0, 0, 0, 0x80] := (registerRcRead_data cancelWaits_reaches (by decide) ht htv).trans cancelWaits_peek
  have hread : leBytes 4 v = [0, 0, 0, 0] := (registerRcRead_data cancelWaits_reaches (by decide) hu huv).trans cancelWaits_read
  exact absurd (hpeeked.symm.trans hread) (by decide)

end Sys2Proof.Machine
end

section
/-! SUPPORT. The proof about EVT_CLAIM (O34): which event the controller picks for a core, and what reads of EVT_CLAIMn and of its
address in the peek half show and change (R13, R427, R428). -/
namespace Sys2Proof.Machine

/-! ### The pending events in the order of their numbers -/

/-- A one-bit field is the bit of its register. -/
theorem flag_eq_bit (s : State) (a i : Nat) : s.flag ⟨a, i, 1⟩ = bit (s.reg a).toNat i := by
  simp [State.flag, State.fld, bits, bit, Nat.testBit_eq_decide_div_mod_eq, Bool.beq_eq_decide_eq]

/-- The pending events of EVT_PENDi, whose word is `w`. -/
def pendingIn (w i : Nat) : List Nat :=
  if w = 0 then [] else (List.range 32).filterMap fun j => if bit w j then some (32 * i + j) else none

theorem pendingEvents_eq (s : State) :
    s.pendingEvents = (List.range 10).flatMap fun i => pendingIn (s.reg (A.EVT_PEND i)).toNat i := rfl

theorem mem_pendingIn {w i k : Nat} : k ∈ pendingIn w i ↔ k / 32 = i ∧ bit w (k % 32) = true := by
  have hzero (j : Nat) : bit 0 j = false := Nat.zero_testBit j
  unfold pendingIn
  split
  · next h => simp [h, hzero]
  · simp only [List.mem_filterMap, List.mem_range, Option.ite_none_right_eq_some, Option.some.injEq]
    constructor
    · rintro ⟨j, hj, hbit, rfl⟩
      rw [show (32 * i + j) % 32 = j by omega]
      exact ⟨by omega, hbit⟩
    · exact fun ⟨hi, hbit⟩ => ⟨k % 32, by omega, hbit, by omega⟩

theorem pendingIn_sorted (w i : Nat) : (pendingIn w i).Pairwise (· < ·) := by
  unfold pendingIn
  split
  · exact .nil
  · refine List.pairwise_lt_range.filterMap _ fun j j' hj x hx y hy => ?_
    simp only [Option.ite_none_right_eq_some, Option.some.injEq] at hx hy
    omega

theorem mem_pendingEvents {s : State} {k : Nat} :
    k ∈ s.pendingEvents ↔ k < 320 ∧ s.flag ⟨A.EVT_PEND (k / 32), k % 32, 1⟩ = true := by
  simp only [pendingEvents_eq, List.mem_flatMap, List.mem_range, mem_pendingIn, flag_eq_bit]
  constructor
  · rintro ⟨_, hi, rfl, hbit⟩
    exact ⟨by omega, hbit⟩
  · exact fun ⟨hk, hbit⟩ => ⟨k / 32, by omega, rfl, hbit⟩

theorem pendingEvents_sorted (s : State) : s.pendingEvents.Pairwise (· < ·) := by
  rw [pendingEvents_eq, List.pairwise_flatMap]
  refine ⟨fun i _ => pendingIn_sorted _ i, List.pairwise_lt_range.imp fun {i j} hij x hx y hy => ?_⟩
  obtain ⟨hxi, -⟩ := mem_pendingIn.1 hx
  obtain ⟨hyj, -⟩ := mem_pendingIn.1 hy
  omega

/-! ### The event that a core takes first (R427, R428) -/

/-- Event `k` counts for core `n` over threshold `low`: enabled, routed to the core, and of a greater PRI. -/
def State.counts (s : State) (n low k : Nat) : Prop := s.routed n k = true ∧ low < s.fld (F.EVT_CFG_PRI k)

/-- Event `k` goes before event `j`, or is it: a greater PRI, or an equal one and no greater number. -/
def State.precedes (s : State) (k j : Nat) : Prop :=
  s.fld (F.EVT_CFG_PRI j) < s.fld (F.EVT_CFG_PRI k) ∨ s.fld (F.EVT_CFG_PRI j) = s.fld (F.EVT_CFG_PRI k) ∧ k ≤ j

theorem State.precedes_antisymm {s : State} {k j : Nat} (h : s.precedes k j) (h' : s.precedes j k) : k = j := by
  unfold State.precedes at h h'
  omega

theorem State.precedes_trans {s : State} {k j i : Nat} (h : s.precedes k j) (h' : s.precedes j i) : s.precedes k i := by
  unfold State.precedes at h h' ⊢
  omega

/-- How `State.bestEvent` takes one more pending event into account. -/
def State.better (s : State) (n low : Nat) (b : Option (Nat × Nat)) (k : Nat) : Option (Nat × Nat) :=
  let p := s.fld (F.EVT_CFG_PRI k)
  if s.routed n k && low < p then
    match b with
    | some (_, q) => if q < p then some (k, p) else b
    | none => some (k, p)
  else b

theorem bestEvent_eq (s : State) (n low : Nat) : s.bestEvent n low = (s.pendingEvents.foldl (s.better n low) none).map (·.1) := rfl

/-- Of the events of a list, `b` is the one that goes first for core `n`, with its PRI; none where none counts. -/
def State.leads (s : State) (n low : Nat) (l : List Nat) : Option (Nat × Nat) → Prop
  | none => ∀ j ∈ l, ¬ s.counts n low j
  | some (k, p) => k ∈ l ∧ s.counts n low k ∧ p = s.fld (F.EVT_CFG_PRI k) ∧ ∀ j ∈ l, s.counts n low j → s.precedes k j

theorem better_of_not_counts {s : State} {n low k : Nat} (h : ¬ s.counts n low k) (b : Option (Nat × Nat)) : s.better n low b k = b := by
  unfold State.counts at h
  simp [State.better, h]

theorem better_none {s : State} {n low k : Nat} (h : s.counts n low k) : s.better n low none k = some (k, s.fld (F.EVT_CFG_PRI k)) := by
  obtain ⟨hrouted, hlow⟩ := h
  simp [State.better, hrouted, hlow]

theorem better_some {s : State} {n low k : Nat} (h : s.counts n low k) (j q : Nat) :
    s.better n low (some (j, q)) k = if q < s.fld (F.EVT_CFG_PRI k) then some (k, s.fld (F.EVT_CFG_PRI k)) else some (j, q) := by
  obtain ⟨hrouted, hlow⟩ := h
  simp [State.better, hrouted, hlow]

/-- An event numbered above those seen takes the lead only by a greater PRI. -/
theorem leads_better {s : State} {n low k : Nat} {l : List Nat} {b : Option (Nat × Nat)} (h : s.leads n low l b) (hk : ∀ j ∈ l, j < k) :
    s.leads n low (l ++ [k]) (s.better n low b k) := by
  by_cases hc : s.counts n low k
  · match b with
    | none =>
      rw [better_none hc]
      refine ⟨by simp, hc, rfl, List.forall_mem_append.2 ⟨fun j hj hcj => absurd hcj (h j hj), ?_⟩⟩
      exact List.forall_mem_singleton.2 fun _ => .inr ⟨rfl, Nat.le_refl k⟩
    | some (i, q) =>
      obtain ⟨hi, hci, rfl, hfirst⟩ := h
      rw [better_some hc]
      split
      · next hlt =>
        refine ⟨by simp, hc, rfl, List.forall_mem_append.2 ⟨fun j hj hcj => ?_, ?_⟩⟩
        · exact State.precedes_trans (.inl hlt) (hfirst j hj hcj)
        · exact List.forall_mem_singleton.2 fun _ => .inr ⟨rfl, Nat.le_refl k⟩
      · next hge =>
        refine ⟨List.mem_append_left _ hi, hci, rfl, List.forall_mem_append.2 ⟨hfirst, List.forall_mem_singleton.2 fun _ => ?_⟩⟩
        have := hk i hi
        unfold State.precedes
        omega
  · rw [better_of_not_counts hc]
    match b with
    | none => exact List.forall_mem_append.2 ⟨h, List.forall_mem_singleton.2 hc⟩
    | some (i, q) =>
      obtain ⟨hi, hci, hq, hfirst⟩ := h
      exact ⟨List.mem_append_left _ hi, hci, hq,
        List.forall_mem_append.2 ⟨hfirst, List.forall_mem_singleton.2 fun hck => absurd hck hc⟩⟩

/-- The fold over further events, each numbered above those before it, keeps the one that goes first. -/
theorem leads_foldl {s : State} {n low : Nat} (l : List Nat) {seen : List Nat} {b : Option (Nat × Nat)} (h : s.leads n low seen b)
    (hl : (seen ++ l).Pairwise (· < ·)) : s.leads n low (seen ++ l) (l.foldl (s.better n low) b) := by
  induction l generalizing seen b with
  | nil => rwa [List.append_nil]
  | cons k l ih =>
    obtain ⟨-, -, habove⟩ := List.pairwise_append.1 hl
    rw [List.append_cons] at hl ⊢
    exact ih (leads_better h fun j hj => habove j hj k List.mem_cons_self) hl

theorem leads_pendingEvents (s : State) (n low : Nat) :
    s.leads n low s.pendingEvents (s.pendingEvents.foldl (s.better n low) none) :=
  leads_foldl s.pendingEvents (seen := []) (b := none) (fun _ hj => absurd hj List.not_mem_nil) (pendingEvents_sorted s)

theorem pendsAt_iff {s : State} {n k : Nat} : pendsAt s n k ↔ k ∈ s.pendingEvents ∧ s.routed n k = true := by
  simp [pendsAt, mem_pendingEvents, State.routed, and_assoc]

/-- No event counts for a core where the controller finds none. -/
theorem bestEvent_eq_none_iff {s : State} {n low : Nat} :
    s.bestEvent n low = none ↔ ∀ k, pendsAt s n k → s.fld (F.EVT_CFG_PRI k) ≤ low := by
  have hbest := leads_pendingEvents s n low
  rw [bestEvent_eq]
  generalize s.pendingEvents.foldl (s.better n low) none = b at hbest ⊢
  match b with
  | none =>
    refine iff_of_true rfl fun k hk => Nat.not_lt.1 fun hlow => ?_
    obtain ⟨hpend, hrouted⟩ := pendsAt_iff.1 hk
    exact hbest k hpend ⟨hrouted, hlow⟩
  | some (k, p) =>
    obtain ⟨hpend, ⟨hrouted, hlow⟩, -, -⟩ := hbest
    exact iff_of_false (Option.some_ne_none k) fun hall => Nat.not_lt.2 (hall k (pendsAt_iff.2 ⟨hpend, hrouted⟩)) hlow

/-- The event found is the one that goes before every other that pends at the core. -/
theorem bestEvent_eq_some {s : State} {n low k : Nat} (hk : pendsAt s n k) (hlow : low < s.fld (F.EVT_CFG_PRI k))
    (hfirst : ∀ j, pendsAt s n j → s.precedes k j) : s.bestEvent n low = some k := by
  have hbest := leads_pendingEvents s n low
  obtain ⟨hpend, hrouted⟩ := pendsAt_iff.1 hk
  rw [bestEvent_eq]
  generalize s.pendingEvents.foldl (s.better n low) none = b at hbest ⊢
  match b with
  | none => exact absurd ⟨hrouted, hlow⟩ (hbest k hpend)
  | some (i, p) =>
    obtain ⟨hi, ⟨hri, -⟩, -, hbefore⟩ := hbest
    exact congrArg some (State.precedes_antisymm (hbefore k hpend ⟨hrouted, hlow⟩) (hfirst i (pendsAt_iff.2 ⟨hi, hri⟩)))

/-! ### EVT_CLAIMn and its address in the peek half -/

theorem evtClaim_addr (n : Nat) : A.EVT_CLAIM n = 0x150000 + 4 * n := rfl

theorem regIndex_evtClaim {n : Nat} (hn : n < 16) : regIndex (A.EVT_CLAIM 0) 4 16 (A.EVT_CLAIM n) = some n := by
  have hlt : 4 * n < 64 := by omega
  simp [regIndex, hlt]

/-- The peek value of EVT_CLAIMn is the word that a read of it returns. -/
theorem peek_evtClaim {n : Nat} (hn : n < 16) (s : State) : s.peek (A.EVT_CLAIM n) = (claimRead n s).1 := by
  have hlatch : ∀ n < 16, isLatched (A.EVT_CLAIM n) = false := by decide
  have hblock : A.EVT_CLAIM n / 0x10000 = 21 := by have := evtClaim_addr n; omega
  simp only [State.peek, hlatch n hn, Bool.false_eq_true, if_false, State.live, hblock, regIndex_evtClaim hn]

/-- EVT_CLAIM of a core. -/
theorem exec_evtClaim {s : State} {m n : Nat} (hr : s.reaches m 17) (hn : n < 16) :
    exec (.evtClaim m n) s =
      .next ((claimRead n s).2.answer (s.packet m 17 (A.EVT_CLAIM n) 4 false) 0 (leBytes 4 (claimRead n s).1)) := by
  have hexec : exec (.evtClaim m n) s = .next (if n < 16 then regRead m (A.EVT_CLAIM n) (claimRead n) s else s) := rfl
  rw [hexec, if_pos hn, regRead, netStop_of_reaches hr]

/-- A read of EVT_CLAIMn in the peek half is answered with the word of the claim and does nothing else. -/
theorem registerRcRead_evtClaimPeek {s : State} {m n : Nat} (hr : s.reaches m 17) (hn : n < 16) :
    ∃ u, exec (.registerRcRead m (A.EVT_CLAIM n + 0x8000) 4) s = .next u ∧
      u.answered m 17 (A.EVT_CLAIM n + 0x8000) false 0 (leBytes 4 (claimRead n s).1) ∧ s.told u [] ∧ u.regs = s.regs := by
  have haddr := evtClaim_addr n
  refine ⟨_, ?_, answered_only hr (A.EVT_CLAIM n + 0x8000) 4 false (by decide) _⟩
  rw [exec_registerRcRead hr (by omega), regFetch_peek (by omega) (by omega), Nat.add_sub_cancel, peek_evtClaim hn]

/-! ### What a claim changes -/

/-- A write of a field of block EVT goes before what a reader is told. -/
theorem told_of_setFld {s t : State} {f : Fld} {v : Nat} {l : List Nat} (hs : RegsOk s) (hf : f.addr / 0x10000 = 21)
    (h : (s.setFld f v).told t l) : s.told t l := by
  obtain ⟨hregs, hrest⟩ := h
  refine ⟨fun a ha hl => (hregs a ha hl).trans (reg_setFld_other s f v a hs ?_), hrest⟩
  rintro rfl
  exact ha (hf ▸ List.mem_cons_self)

theorem reg_congr {s t : State} (h : t.regs = s.regs) (a : Nat) : t.reg a = s.reg a := by unfold State.reg; rw [h]

theorem flag_congr {s t : State} (h : t.regs = s.regs) (f : Fld) : t.flag f = s.flag f := by
  unfold State.flag State.fld; rw [reg_congr h]

/-- A claim that finds an event answers with its number, clears its pending bit, and changes no other register and no other pending bit. -/
theorem evtClaim_of_some {s : State} {m n k : Nat} (hs : RegsOk s) (hr : s.reaches m 17) (hn : n < 16) (hk : k < 320)
    (hclaim : claimRead n s = (2 ^ 31 + k, s.setFld ⟨A.EVT_PEND (k / 32), k % 32, 1⟩ 0)) :
    ∃ t, exec (.evtClaim m n) s = .next t ∧ t.answered m 17 (A.EVT_CLAIM n) false 0 (leBytes 4 (2 ^ 31 + k)) ∧
      t.flag ⟨A.EVT_PEND (k / 32), k % 32, 1⟩ = false ∧ s.told t [] ∧ (∀ a, a ≠ A.EVT_PEND (k / 32) → t.reg a = s.reg a) ∧
      ∀ j, j / 32 = k / 32 → j ≠ k → t.flag ⟨A.EVT_PEND (j / 32), j % 32, 1⟩ = s.flag ⟨A.EVT_PEND (j / 32), j % 32, 1⟩ := by
  have hbit : k % 32 + 1 ≤ 32 := Nat.mod_lt k (by decide)
  have ⟨_, _, _, hanswer, _, _⟩ := hr
  obtain ⟨htold, hregs⟩ := told_answer (s := s.setFld ⟨A.EVT_PEND (k / 32), k % 32, 1⟩ 0) hanswer
    (s.packet m 17 (A.EVT_CLAIM n) 4 false) (err := 0) (by decide) (leBytes 4 (2 ^ 31 + k))
  refine ⟨_, by rw [exec_evtClaim hr hn, hclaim], answered_answer (t := s.setFld _ 0) hanswer s _ _ _ _ _ _ _, ?_, told_of_setFld hs ?_ htold, fun a ha => ?_,
    fun j hword hj => ?_⟩
  · rw [flag_congr hregs, State.flag, fld_setFld_same s _ 0 hs hbit]
    rfl
  · show (0x150100 + 4 * (k / 32)) / 0x10000 = 21
    omega
  · rw [reg_congr hregs, reg_setFld_other s _ 0 a hs ha]
  · rw [flag_congr hregs, State.flag, State.flag, fld_setFld_bits s _ _ 0 hs hbit]
    show j % 32 + 1 ≤ k % 32 ∨ k % 32 + 1 ≤ j % 32
    omega

/-- Settles O34: the events pend in the order of their numbers, so that the fold of `State.bestEvent` keeps the first of those with the
greatest PRI, and the peek half shows the word of the claim without its effect. -/
theorem claimTakesTheHighestEvent : Obligations.ClaimTakesTheHighestEvent := by
  intro m n s hinv hr hn
  have hpeek := registerRcRead_evtClaimPeek hr hn
  refine ⟨fun k hk hpri hfirst => ?_, fun hnone => ?_⟩
  · have hclaim : claimRead n s = (2 ^ 31 + k, s.setFld ⟨A.EVT_PEND (k / 32), k % 32, 1⟩ 0) := by
      simp only [claimRead, bestEvent_eq_some hk hpri hfirst]
    rw [hclaim] at hpeek
    exact ⟨evtClaim_of_some hinv.regsOk hr hn hk.1 hclaim, hpeek⟩
  · have hclaim : claimRead n s = (0, s) := by
      simp only [claimRead, bestEvent_eq_none_iff.2 fun k hk => Nat.le_of_eq (hnone k hk)]
    have hexec := exec_evtClaim hr hn
    rw [hclaim] at hpeek hexec
    obtain ⟨u, hu⟩ := hpeek
    obtain ⟨hans, htold, hregs⟩ := answered_only hr (A.EVT_CLAIM n) 4 false (err := 0) (by decide) (leBytes 4 0)
    exact ⟨_, u, 0, by decide, hexec, hans, htold, hregs, hu⟩

end Sys2Proof.Machine
end
